-- ==== Sys2Proof/Word.lean ====
section
/-! DEFINITION. The word types of the machine (R9, R22): x registers, v registers, predicates, bytes. -/

namespace Sys2Proof

/-- A byte of memory. -/
abbrev Byte := BitVec 8

/-- An x register value, 64 bits (R84). -/
abbrev X := BitVec 64

/-- A v register value, 1,024 bits, element 0 in the low bits (R22, R108). -/
abbrev V := BitVec 1024

/-- A predicate register value, 32 bits (R95). -/
abbrev P := BitVec 32

/-- Bits `[lo + n - 1 : lo]` of a number. -/
def bits (w lo n : Nat) : Nat := w / 2 ^ lo % 2 ^ n

/-- Bit `k` of a number as a Boolean. -/
def bit (w k : Nat) : Bool := w / 2 ^ k % 2 == 1

end Sys2Proof
end

