-- ==== Sys2Proof/Config.lean ====
section
/-! DEFINITION. The values an implementation or the outside world fixes and the manual leaves open. None has a body:
nothing can be proved about their values (DESIGN CHOICE, log entry 4). -/

namespace Sys2Proof.Config

/-- Ticks of the global time base that have passed when draw number `n` samples it (R7, R106). -/
opaque ticks : Nat → Nat

/-- Arithmetic-clock cycles that have passed when draw number `n` samples CYCLES (R106). -/
opaque cycles : Nat → Nat

/-- A metered register's value at draw number `n` (R106): QTEMP, and the meters between charges. -/
opaque metered : Nat → BitVec 64

/-- A value of at most 1,024 bits that the manual leaves open, at draw number `n`. -/
opaque freeV : Nat → BitVec 1024

/-- The 32-bit tiebreak that a quad assigns, before it is made unique (R316), at draw number `n`. -/
opaque tiebreak : Nat → BitVec 32

/-- The secret fused into the package (R448). -/
opaque fusedSecret : BitVec 512

/-- The identity key that the boot ROM derives from the fused secret and measurement register 0 (R448). -/
opaque deriveKey : BitVec 512 → BitVec 512 → BitVec 456

/-- The vendor-certified key that is fused into the package and signs certificates (R448). -/
opaque certifyKey : BitVec 456

/-- The digest of what a certificate says of a public key, which the manual does not lay out (R448). -/
opaque certified : BitVec 456 → BitVec 512

/-- The supervisor firmware image in the flash (R446). -/
opaque flash : List Byte

/-- The SHAKE256 digest of the vendor key, as it is fused into the package (R446). -/
opaque vendorDigest : BitVec 512

/-- The least security version that the package accepts, as it is fused (R446). -/
opaque minVersion : Nat

/-- The state in which the Larder stores a 256-byte block that it writes back, at draw number `n` (R359). -/
opaque blockState : Nat → Nat → Nat

/-- An acknowledgement that a flue's receiver sends reaches the sender, at draw number `n` (R362). -/
opaque ackArrives : Nat → Bool

/-- Which line of a full set a cache evicts, at draw number `n` (R140, R254). -/
opaque victim : Nat → Nat

end Sys2Proof.Config
end

