-- ==== Sys2Proof/Syntax.lean ====
section
/-! DEFINITION. The instructions of the Mbaquehorn architecture and the event steps of the device, one
constructor per row of the opcode table, with the operand records their formats give them (R42 to R56). -/

namespace Sys2Proof

/-- A register number of the x or v file (R44). -/
abbrev Reg := Fin 32

/-- A predicate register number (R44). -/
abbrev PReg := Fin 8

/-- Condition codes of CMP, CMPI and BR (R52). -/
inductive Cond where
  | eq | ne | lt | le | ltu | leu
  deriving DecidableEq, Repr

/-- The code of a `Cond` in its field. -/
def Cond.code : Cond → Nat
  | .eq => 0
  | .ne => 1
  | .lt => 2
  | .le => 3
  | .ltu => 4
  | .leu => 5

/-- The `Cond` of a code; a code past the last reads as the last, and the decoder checks the range first. -/
def Cond.ofCode : Nat → Cond
  | 0 => .eq
  | 1 => .ne
  | 2 => .lt
  | 3 => .le
  | 4 => .ltu
  | _ => .leu

/-- Element types of the type3 field (R52). -/
inductive ElemTy where
  | i32 | ui32 | i64 | ui64 | f32 | f64 | f16 | bf16
  deriving DecidableEq, Repr

/-- The code of a `ElemTy` in its field. -/
def ElemTy.code : ElemTy → Nat
  | .i32 => 0
  | .ui32 => 1
  | .i64 => 2
  | .ui64 => 3
  | .f32 => 4
  | .f64 => 5
  | .f16 => 6
  | .bf16 => 7

/-- The `ElemTy` of a code; a code past the last reads as the last, and the decoder checks the range first. -/
def ElemTy.ofCode : Nat → ElemTy
  | 0 => .i32
  | 1 => .ui32
  | 2 => .i64
  | 3 => .ui64
  | 4 => .f32
  | 5 => .f64
  | 6 => .f16
  | _ => .bf16

/-- Rounding modes of the round field (R52, R69). -/
inductive Round where
  | rne | rz | ru | rd | sr | rnesat
  deriving DecidableEq, Repr

/-- The code of a `Round` in its field. -/
def Round.code : Round → Nat
  | .rne => 0
  | .rz => 1
  | .ru => 2
  | .rd => 3
  | .sr => 4
  | .rnesat => 5

/-- The `Round` of a code; a code past the last reads as the last, and the decoder checks the range first. -/
def Round.ofCode : Nat → Round
  | 0 => .rne
  | 1 => .rz
  | 2 => .ru
  | 3 => .rd
  | 4 => .sr
  | _ => .rnesat

/-- Element format codes (R52). -/
inductive Fmt where
  | ui8 | ui16 | ui32 | ui64 | i8 | i16 | i32 | i64 | f16 | bf16 | f32 | f64 | e4m3 | e5m2 | e2m1 | lg6
  deriving DecidableEq, Repr

/-- The code of a `Fmt` in its field. -/
def Fmt.code : Fmt → Nat
  | .ui8 => 0
  | .ui16 => 1
  | .ui32 => 2
  | .ui64 => 3
  | .i8 => 4
  | .i16 => 5
  | .i32 => 6
  | .i64 => 7
  | .f16 => 8
  | .bf16 => 9
  | .f32 => 10
  | .f64 => 11
  | .e4m3 => 12
  | .e5m2 => 13
  | .e2m1 => 14
  | .lg6 => 15

/-- The `Fmt` of a code; a code past the last reads as the last, and the decoder checks the range first. -/
def Fmt.ofCode : Nat → Fmt
  | 0 => .ui8
  | 1 => .ui16
  | 2 => .ui32
  | 3 => .ui64
  | 4 => .i8
  | 5 => .i16
  | 6 => .i32
  | 7 => .i64
  | 8 => .f16
  | 9 => .bf16
  | 10 => .f32
  | 11 => .f64
  | 12 => .e4m3
  | 13 => .e5m2
  | 14 => .e2m1
  | _ => .lg6

/-- Scopes of memory and barrier operations (R2, R52). -/
inductive Scope where
  | none | core | quad | die | pkg | pod
  deriving DecidableEq, Repr

/-- The code of a `Scope` in its field. -/
def Scope.code : Scope → Nat
  | .none => 0
  | .core => 1
  | .quad => 2
  | .die => 3
  | .pkg => 4
  | .pod => 5

/-- The `Scope` of a code; a code past the last reads as the last, and the decoder checks the range first. -/
def Scope.ofCode : Nat → Scope
  | 0 => .none
  | 1 => .core
  | 2 => .quad
  | 3 => .die
  | 4 => .pkg
  | _ => .pod

/-- Orders of extended memory instructions (R52). -/
inductive Order where
  | plain | acq | rel | acqProm | acqrel
  deriving DecidableEq, Repr

/-- The code of a `Order` in its field. -/
def Order.code : Order → Nat
  | .plain => 0
  | .acq => 1
  | .rel => 2
  | .acqProm => 3
  | .acqrel => 4

/-- The `Order` of a code; a code past the last reads as the last, and the decoder checks the range first. -/
def Order.ofCode : Nat → Order
  | 0 => .plain
  | 1 => .acq
  | 2 => .rel
  | 3 => .acqProm
  | _ => .acqrel

/-- Operations of AMO (R52). -/
inductive AmoFn where
  | add | and | or | xor | min | max | minu | maxu | swap | faddF32 | faddBf16x2
  deriving DecidableEq, Repr

/-- The code of a `AmoFn` in its field. -/
def AmoFn.code : AmoFn → Nat
  | .add => 0
  | .and => 1
  | .or => 2
  | .xor => 3
  | .min => 4
  | .max => 5
  | .minu => 6
  | .maxu => 7
  | .swap => 8
  | .faddF32 => 9
  | .faddBf16x2 => 10

/-- The `AmoFn` of a code; a code past the last reads as the last, and the decoder checks the range first. -/
def AmoFn.ofCode : Nat → AmoFn
  | 0 => .add
  | 1 => .and
  | 2 => .or
  | 3 => .xor
  | 4 => .min
  | 5 => .max
  | 6 => .minu
  | 7 => .maxu
  | 8 => .swap
  | 9 => .faddF32
  | _ => .faddBf16x2

/-- Operators of VRED and VSCAN (R127). -/
inductive RedOp where
  | sum | min | max | minn | maxn | and | or | xor
  deriving DecidableEq, Repr

/-- The code of a `RedOp` in its field. -/
def RedOp.code : RedOp → Nat
  | .sum => 0
  | .min => 1
  | .max => 2
  | .minn => 3
  | .maxn => 4
  | .and => 5
  | .or => 6
  | .xor => 7

/-- The `RedOp` of a code; a code past the last reads as the last, and the decoder checks the range first. -/
def RedOp.ofCode : Nat → RedOp
  | 0 => .sum
  | 1 => .min
  | 2 => .max
  | 3 => .minn
  | 4 => .maxn
  | 5 => .and
  | 6 => .or
  | _ => .xor

/-- Reduction operators in the mode field of XRED, RAMO, BRED, BVEC and in COLL (R277). -/
inductive RedFn where
  | add | min | max | and | or | xor
  deriving DecidableEq, Repr

/-- The code of a `RedFn` in its field. -/
def RedFn.code : RedFn → Nat
  | .add => 0
  | .min => 1
  | .max => 2
  | .and => 3
  | .or => 4
  | .xor => 5

/-- The `RedFn` of a code; a code past the last reads as the last, and the decoder checks the range first. -/
def RedFn.ofCode : Nat → RedFn
  | 0 => .add
  | 1 => .min
  | 2 => .max
  | 3 => .and
  | 4 => .or
  | _ => .xor

/-- Operators of BOP: the reductions and the store .set (R354). -/
inductive BankFn where
  | add | min | max | and | or | xor | set
  deriving DecidableEq, Repr

/-- The code of a `BankFn` in its field. -/
def BankFn.code : BankFn → Nat
  | .add => 0
  | .min => 1
  | .max => 2
  | .and => 3
  | .or => 4
  | .xor => 5
  | .set => 6

/-- The `BankFn` of a code; a code past the last reads as the last, and the decoder checks the range first. -/
def BankFn.ofCode : Nat → BankFn
  | 0 => .add
  | 1 => .min
  | 2 => .max
  | 3 => .and
  | 4 => .or
  | 5 => .xor
  | _ => .set

/-- A 7-bit source field: register number, last-use mark L and trap mark F (R44). -/
structure Src where
  reg : Reg
  last : Bool
  trap : Bool
  deriving DecidableEq, Repr

/-- A 7-bit source field that names a predicate register (R44). -/
structure PSrc where
  reg : PReg
  last : Bool
  trap : Bool
  deriving DecidableEq, Repr

/-- The kinds of access that translation checks (R264). -/
inductive Access where
  | load | store | fetch | atomic
  deriving DecidableEq, Repr


/-- What a packet from another package asks of its target (R421, R425). -/
inductive PodDo where
  /-- A sector of a GET is read. -/
  | get
  /-- A sector of a PUT. -/
  | put (data : BitVec 256)
  /-- A sector of a RAMO. -/
  | ramo (op : RedFn) (fmt : Fmt) (data : BitVec 256)
  /-- A member's collective of this TAG differs in kind, operation, format, count or list. -/
  | disagree (tag : Nat)
  /-- The target's check of a sector of this package's operation `opId` failed. -/
  | refused
  /-- The target's data for that sector are poisoned. -/
  | poisoned
  deriving DecidableEq, Repr

/-- A packet from another package (R422): its source with incarnation, the incarnation it names for the target, its
group, operation ID, sector and address. -/
structure PodPacket where
  src : Nat
  inc : Nat
  target : Nat
  group : Nat
  opId : Nat
  sector : Nat
  addr : BitVec 64
  what : PodDo
  deriving DecidableEq, Repr

/-- What the firmware chooses when it takes a launch command (R34, R253, R262, R340, R414): the launch number, its
translation contexts with their root tables, its energy account, its domain slot, ID and regions, its Cellar, and one
virtual-core map and at most one owner map for each die, as (die, map). The fields ending in B, and the two quad maps,
are of the copies of a paired launch (R296). `noRoom` says that HBM cannot hold the regions (DESIGN CHOICE, log entry 30). -/
structure LaunchPlan where
  launch : Nat
  ctx : Nat
  root : BitVec 64
  ctxB : Nat
  rootB : BitVec 64
  account : Nat
  slot : Nat
  domain : Nat
  tspill : BitVec 64
  tssize : BitVec 64
  undo : BitVec 64
  espill : BitVec 64
  cellar : BitVec 64
  vmaps : List (Nat × Nat)
  omaps : List (Nat × Nat)
  slotB : Nat
  domainB : Nat
  qmapA : BitVec 64
  qmapB : BitVec 64
  tspillB : BitVec 64
  undoB : BitVec 64
  espillB : BitVec 64
  noRoom : Bool
  deriving DecidableEq, Repr

/-- C format with two registers (R42). -/
structure C2 where
  a : Reg
  b : Reg
  deriving DecidableEq, Repr

/-- C format with a register and the raw 5-bit b field (R51). -/
structure CI where
  a : Reg
  imm : BitVec 5
  deriving DecidableEq, Repr

/-- C format with one register (R51). -/
structure C1 where
  a : Reg
  deriving DecidableEq, Repr

/-- C format without operands. -/
structure C0 where
  deriving DecidableEq, Repr

/-- C format of BRK: b is code bits 9:5 and a is bits 4:0 (R51). -/
structure CCode where
  code : BitVec 10
  deriving DecidableEq, Repr

/-- R format, two sources, fn3 zero (R43). -/
structure R3 where
  d : Reg
  a : Src
  b : Src
  deriving DecidableEq, Repr

/-- R format, one source, b and fn3 zero. -/
structure R2 where
  d : Reg
  a : Src
  deriving DecidableEq, Repr

/-- SEXT and ZEXT: the width code stands in fn3 (R86). -/
structure RW where
  d : Reg
  a : Src
  w : Fin 3
  deriving DecidableEq, Repr

/-- CMP: the condition stands in fn3 (R90). -/
structure RCmp where
  d : Reg
  a : Src
  b : Src
  cond : Cond
  deriving DecidableEq, Repr

/-- I or M format: a source and a signed 10-bit immediate (R43). -/
structure RI where
  d : Reg
  a : Src
  imm : BitVec 10
  deriving DecidableEq, Repr

/-- I-format shift: the count in imm10[5:0] (R88). -/
structure RSh where
  d : Reg
  a : Src
  n : BitVec 6
  deriving DecidableEq, Repr

/-- I format with a destination and an immediate, a zero (R92). -/
structure DI where
  d : Reg
  imm : BitVec 10
  deriving DecidableEq, Repr

/-- CMPI: the condition stands in op8 (R90). -/
structure RICmp where
  d : Reg
  a : Src
  imm : BitVec 10
  cond : Cond
  deriving DecidableEq, Repr

/-- BR: two 5-bit sources, the condition in op8, a halfword offset (R96). -/
structure Br where
  a : Reg
  b : Reg
  off : BitVec 12
  cond : Cond
  deriving DecidableEq, Repr

/-- BZ and BNZ (R96). -/
structure Bz where
  a : Reg
  off : BitVec 12
  deriving DecidableEq, Repr

/-- BP: the predicate number in bits 12:10 (R53). -/
structure Bp where
  p : PReg
  off : BitVec 12
  deriving DecidableEq, Repr

/-- B-format JMP and CALL (R97). -/
structure BOff where
  off : BitVec 12
  deriving DecidableEq, Repr

/-- R format with the one source a (R97). -/
structure A1 where
  a : Src
  deriving DecidableEq, Repr

/-- LOOP: count register and body length (R99). -/
structure LoopOp where
  a : Src
  len : BitVec 10
  deriving DecidableEq, Repr

/-- A 32-bit instruction without operands. -/
structure Z32 where
  deriving DecidableEq, Repr

/-- TRAP and BRK: a 10-bit code (R103). -/
structure CodeOp where
  code : BitVec 10
  deriving DecidableEq, Repr

/-- M-format LD: the format stands in op8 (R53). -/
structure LdOp where
  d : Reg
  a : Src
  imm : BitVec 10
  f : Fin 7
  deriving DecidableEq, Repr

/-- M-format ST: the width stands in op8 (R53). -/
structure StOp where
  d : Reg
  a : Src
  imm : BitVec 10
  f : Fin 4
  deriving DecidableEq, Repr

/-- LDX: the format stands in fn3 (R147). -/
structure LdxOp where
  d : Reg
  a : Src
  b : Src
  f : Fin 7
  deriving DecidableEq, Repr

/-- STX: the width stands in fn3 (R147). -/
structure StxOp where
  d : Reg
  a : Src
  b : Src
  f : Fin 4
  deriving DecidableEq, Repr

/-- V format, two sources and a type; also the strided and indexed vector accesses, whose type stands in fn3 (R43, R147). -/
structure V2 where
  d : Reg
  a : Src
  b : Src
  ty : ElemTy
  deriving DecidableEq, Repr

/-- V format, one source and a type (R43). -/
structure V1 where
  d : Reg
  a : Src
  ty : ElemTy
  deriving DecidableEq, Repr

/-- PREF: the level stands in d (R147). -/
structure PrefOp where
  a : Src
  imm : BitVec 10
  level : Fin 3
  deriving DecidableEq, Repr

/-- WAITC: the load and the store limit (R53). -/
structure WaitcOp where
  l : BitVec 6
  s : BitVec 6
  deriving DecidableEq, Repr

/-- PSET (R95). -/
structure PsetOp where
  d : PReg
  a : Src
  imm : BitVec 10
  deriving DecidableEq, Repr

/-- Predicate operation with two sources (R95). -/
structure P3 where
  d : PReg
  a : PSrc
  b : PSrc
  deriving DecidableEq, Repr

/-- Predicate operation with one source (R95). -/
structure P2 where
  d : PReg
  a : PSrc
  deriving DecidableEq, Repr

/-- An x destination and a predicate source (R95). -/
structure XP where
  d : Reg
  a : PSrc
  deriving DecidableEq, Repr

/-- A predicate destination and an x source (R95). -/
structure PX where
  d : PReg
  a : Src
  deriving DecidableEq, Repr

/-- R format with two sources and no destination (R162). -/
structure S2 where
  a : Src
  b : Src
  deriving DecidableEq, Repr

/-- SENDV (R162). -/
structure SendvOp where
  a : Src
  b : Src
  n : Fin 5
  deriving DecidableEq, Repr

/-- SENDO (R162). -/
structure SendoOp where
  d : Reg
  a : Src
  b : Src
  n : Fin 5
  deriving DecidableEq, Repr

/-- R format with the one source b (R167). -/
structure S1 where
  b : Src
  deriving DecidableEq, Repr

/-- R format with a destination only (R174). -/
structure D1 where
  d : Reg
  deriving DecidableEq, Repr

/-- RANGE (R177). -/
structure RangeOp where
  a : Src
  b : Src
  k : Fin 4
  deriving DecidableEq, Repr

/-- CHUNK (R178). -/
structure ChunkOp where
  d : Reg
  a : Src
  k : Fin 4
  deriving DecidableEq, Repr

/-- STEAL (R179). -/
structure StealOp where
  d : Reg
  k : Fin 4
  deriving DecidableEq, Repr

/-- X form with three sources (R46, R110). -/
structure VX3 where
  d : Reg
  a : Src
  b : Src
  c : Src
  guard : PReg
  ty : ElemTy
  rnd : Round
  deriving DecidableEq, Repr

/-- X form with two sources (R46, R110). -/
structure VX2 where
  d : Reg
  a : Src
  b : Src
  guard : PReg
  ty : ElemTy
  rnd : Round
  deriving DecidableEq, Repr

/-- X form with one source (R46, R110). -/
structure VX1 where
  d : Reg
  a : Src
  guard : PReg
  ty : ElemTy
  rnd : Round
  deriving DecidableEq, Repr

/-- VCMP (R110). -/
structure VcmpOp where
  d : PReg
  a : Src
  b : Src
  guard : PReg
  ty : ElemTy
  cond : Cond
  deriving DecidableEq, Repr

/-- VSEL (R110). -/
structure VselOp where
  d : Reg
  a : Src
  b : Src
  c : PSrc
  guard : PReg
  ty : ElemTy
  deriving DecidableEq, Repr

/-- VCVT: formats and parts stand in imm17 (R110). -/
structure VcvtOp where
  d : Reg
  a : Src
  guard : PReg
  rnd : Round
  dfmt : Fmt
  sfmt : Fmt
  dpart : Fin 8
  spart : Fin 8
  deriving DecidableEq, Repr

/-- X form with one source, a guard and a type (R110). -/
structure XX1 where
  d : Reg
  a : Src
  guard : PReg
  ty : ElemTy
  deriving DecidableEq, Repr

/-- X form with two sources, a guard and a type (R110). -/
structure XX2 where
  d : Reg
  a : Src
  b : Src
  guard : PReg
  ty : ElemTy
  deriving DecidableEq, Repr

/-- VIOTA (R110). -/
structure ViotaOp where
  d : Reg
  a : PSrc
  guard : PReg
  ty : ElemTy
  deriving DecidableEq, Repr

/-- VSLIDE (R110, R124). -/
structure VslideOp where
  d : Reg
  a : Src
  b : Src
  guard : PReg
  ty : ElemTy
  k : BitVec 6
  deriving DecidableEq, Repr

/-- VCOMP and VEXPD (R110). -/
structure VcompOp where
  d : Reg
  a : Src
  b : PSrc
  ty : ElemTy
  deriving DecidableEq, Repr

/-- VRED (R110, R127). -/
structure VredOp where
  d : Reg
  a : Src
  guard : PReg
  ty : ElemTy
  rnd : Round
  op : RedOp
  deriving DecidableEq, Repr

/-- VSCAN (R110, R128). -/
structure VscanOp where
  d : Reg
  a : Src
  guard : PReg
  ty : ElemTy
  rnd : Round
  op : RedOp
  excl : Bool
  deriving DecidableEq, Repr

/-- TOPK and TOPKM (R110, R133). -/
structure TopkOp where
  d : Reg
  a : Src
  b : Src
  ty : ElemTy
  k : BitVec 5
  max : Bool
  deriving DecidableEq, Repr

/-- SEL and MADD (R94). -/
structure X3 where
  d : Reg
  a : Src
  b : Src
  c : Src
  guard : PReg
  deriving DecidableEq, Repr

/-- BFX and BFXU (R94). -/
structure BfxOp where
  d : Reg
  a : Src
  guard : PReg
  pos : BitVec 6
  len : BitVec 7
  deriving DecidableEq, Repr

/-- BFI (R94). -/
structure BfiOp where
  d : Reg
  a : Src
  b : Src
  guard : PReg
  pos : BitVec 6
  len : BitVec 7
  deriving DecidableEq, Repr

/-- L format with a 32-bit immediate (R50, R93). -/
structure LImm where
  d : Reg
  imm : BitVec 32
  deriving DecidableEq, Repr

/-- L-format JMP (R97). -/
structure LJmp where
  off : BitVec 33
  deriving DecidableEq, Repr

/-- L-format CALL (R97). -/
structure LCall where
  d : Reg
  off : BitVec 33
  deriving DecidableEq, Repr

/-- X-format LD (R147). -/
structure LdXOp where
  d : Reg
  a : Src
  guard : PReg
  scope : Scope
  order : Order
  fmt : Fmt
  off : BitVec 9
  deriving DecidableEq, Repr

/-- X-format ST (R147). -/
structure StXOp where
  a : Src
  b : Src
  guard : PReg
  scope : Scope
  order : Order
  fmt : Fmt
  off : BitVec 9
  deriving DecidableEq, Repr

/-- AMO (R147, R156). -/
structure AmoOp where
  d : Reg
  a : Src
  b : Src
  guard : PReg
  scope : Scope
  order : Order
  fmt : Fmt
  op : AmoFn
  off : BitVec 9
  deriving DecidableEq, Repr

/-- CAS (R147, R156). -/
structure CasOp where
  d : Reg
  a : Src
  b : Src
  c : Src
  guard : PReg
  scope : Scope
  order : Order
  fmt : Fmt
  off : BitVec 9
  deriving DecidableEq, Repr

/-- X-format VLD (R147). -/
structure VldXOp where
  d : Reg
  a : Src
  guard : PReg
  fmt : Fmt
  off : BitVec 9
  deriving DecidableEq, Repr

/-- X-format VST (R147). -/
structure VstXOp where
  a : Src
  b : Src
  guard : PReg
  fmt : Fmt
  off : BitVec 9
  deriving DecidableEq, Repr

/-- X-format VGTH (R147). -/
structure VgthXOp where
  d : Reg
  a : Src
  b : Src
  guard : PReg
  fmt : Fmt
  deriving DecidableEq, Repr

/-- X-format VSCT (R147). -/
structure VsctXOp where
  a : Src
  b : Src
  c : Src
  guard : PReg
  fmt : Fmt
  deriving DecidableEq, Repr

/-- X-format VSCTA (R147). -/
structure VsctaXOp where
  a : Src
  b : Src
  c : Src
  guard : PReg
  scope : Scope
  fmt : Fmt
  deriving DecidableEq, Repr

/-- XCOPY.in and XCOPY.out (R277). -/
structure XcopyOp where
  xs : Reg
  xc : Reg
  xl : Reg
  xb : Reg
  scope : Scope
  nosb : Bool
  buf : Fin 16
  sb : Bool
  deriving DecidableEq, Repr

/-- XCOPY.xx (R277). -/
structure XxOp where
  xs : Reg
  xc : Reg
  xn : Reg
  xb : Reg
  scope : Scope
  nosb : Bool
  deriving DecidableEq, Repr

/-- XGATHER and XSCATTER (R277). -/
structure XgatherOp where
  xs : Reg
  xc : Reg
  xl : Reg
  xn : Reg
  xb : Reg
  scope : Scope
  nosb : Bool
  cnt : BitVec 12
  deriving DecidableEq, Repr

/-- XRED (R277). -/
structure XredOp where
  xs : Reg
  xc : Reg
  xl : Reg
  xb : Reg
  scope : Scope
  nosb : Bool
  op : RedFn
  fmt : Fmt
  buf : Fin 16
  sb : Bool
  deriving DecidableEq, Repr

/-- XFILL (R277). -/
structure XfillOp where
  xs : Reg
  xc : Reg
  xb : Reg
  scope : Scope
  nosb : Bool
  deriving DecidableEq, Repr

/-- XBLK (R277). -/
structure XblkOp where
  xs : Reg
  xl : Reg
  xn : Reg
  xb : Reg
  scope : Scope
  nosb : Bool
  cnt : BitVec 12
  deriving DecidableEq, Repr

/-- TXINIT (R275). -/
structure TxinitOp where
  xb : Reg
  xn : Reg
  ph : BitVec 4
  deriving DecidableEq, Repr

/-- TXARR (R275). -/
structure TxarrOp where
  xb : Reg
  scope : Scope
  n : BitVec 12
  deriving DecidableEq, Repr

/-- TXEXP (R275). -/
structure TxexpOp where
  xb : Reg
  xn : Reg
  n : BitVec 12
  deriving DecidableEq, Repr

/-- TXWAIT (R275). -/
structure TxwaitOp where
  xb : Reg
  scope : Scope
  ph : BitVec 4
  deriving DecidableEq, Repr

/-- TXTEST (R275). -/
structure TxtestOp where
  xb : Reg
  ph : BitVec 4
  p : PReg
  deriving DecidableEq, Repr

/-- TXTEST.err (R275). -/
structure TxtestErrOp where
  xb : Reg
  p : PReg
  deriving DecidableEq, Repr

/-- A 64-bit instruction without operands. -/
structure Z64 where
  deriving DecidableEq, Repr

/-- SHPF (R272). -/
structure ShpfOp where
  xs : Reg
  deriving DecidableEq, Repr

/-- GET (R420). -/
structure GetOp where
  xs : Reg
  xl : Reg
  xn : Reg
  xb : Reg
  scope : Scope
  nosb : Bool
  n : BitVec 12
  deriving DecidableEq, Repr

/-- PUT (R420). -/
structure PutOp where
  xs : Reg
  xl : Reg
  xn : Reg
  xb : Reg
  nosb : Bool
  n : BitVec 12
  deriving DecidableEq, Repr

/-- RAMO (R420). -/
structure RamoOp where
  xs : Reg
  xl : Reg
  xn : Reg
  xb : Reg
  nosb : Bool
  op : RedFn
  fmt : Fmt
  n : BitVec 12
  deriving DecidableEq, Repr

/-- COLL (R420). -/
structure CollOp where
  xs : Reg
  xb : Reg
  fmt : Fmt
  op : RedFn
  deriving DecidableEq, Repr

/-- BOP (R354): mode 6 is .set. -/
structure BopOp where
  xs : Reg
  xn : Reg
  xb : Reg
  fmt : Fmt
  op : BankFn
  n : BitVec 12
  deriving DecidableEq, Repr

/-- BRED (R354). -/
structure BredOp where
  xs : Reg
  xl : Reg
  xb : Reg
  nosb : Bool
  op : RedFn
  fmt : Fmt
  n : BitVec 12
  deriving DecidableEq, Repr

/-- BVEC (R354). -/
structure BvecOp where
  xs : Reg
  xn : Reg
  xb : Reg
  op : RedFn
  fmt : Fmt
  n : BitVec 12
  deriving DecidableEq, Repr

/-- TCFG (R227). -/
structure TcfgOp where
  ta : Fin 4
  xa : Reg
  xb : Reg
  fmt : Fmt
  deriving DecidableEq, Repr

/-- TLD and TST (R227). -/
structure TldOp where
  ta : Fin 4
  xa : Reg
  xb : Reg
  nosb : Bool
  deriving DecidableEq, Repr

/-- TZERO (R227). -/
structure TzeroOp where
  ta : Fin 4
  nosb : Bool
  deriving DecidableEq, Repr

/-- TROW: the destination v register in imm16 (R227). -/
structure TrowOp where
  ta : Fin 4
  xa : Reg
  vd : Reg
  deriving DecidableEq, Repr

/-- TSETROW: the source v field in imm16 (R227). -/
structure TsetrowOp where
  ta : Fin 4
  xa : Reg
  vb : Src
  deriving DecidableEq, Repr

/-- MSK (R227). -/
structure MskOp where
  xa : Reg
  mask : Fin 3
  deriving DecidableEq, Repr

/-- GWLD (R227). -/
structure GwldOp where
  ta : Fin 4
  xb : Reg
  fmt : Fmt
  nosb : Bool
  pat : Fin 5
  deriving DecidableEq, Repr

/-- GMMA and GMMAS (R227). -/
structure GmmaOp where
  ta : Fin 4
  acc : Fin 4
  feeder : Fin 4
  xa : Reg
  xb : Reg
  fmt : Fmt
  nosb : Bool
  z : Bool
  deriving DecidableEq, Repr

/-- GMMAG (R227). -/
structure GmmagOp where
  ta : Fin 4
  acc : Fin 4
  feeder : Fin 4
  xa : Reg
  xb : Reg
  fmt : Fmt
  nosb : Bool
  g : Fin 16
  z : Bool
  deriving DecidableEq, Repr

/-- GACC (R227). -/
structure GaccOp where
  tb : Fin 4
  acc : Fin 4
  xa : Reg
  fmt : Fmt
  rnd : Round
  sat : Bool
  nosb : Bool
  deriving DecidableEq, Repr

/-- GACCZ (R227). -/
structure GacczOp where
  nosb : Bool
  mask : BitVec 4
  deriving DecidableEq, Repr

/-- EVCFG (R204). -/
structure EvcfgOp where
  a : Src
  n : Fin 16
  deriving DecidableEq, Repr

/-- EVINJ (R204). -/
structure EvinjOp where
  a : Src
  b : Src
  c : Src
  deriving DecidableEq, Repr

/-- EVRD (R204). -/
structure EvrdOp where
  d : Reg
  a : Src
  deriving DecidableEq, Repr

/-- EVWR (R204). -/
structure EvwrOp where
  a : Src
  b : Src
  deriving DecidableEq, Repr

/-- EVFAN (R204). -/
structure EvfanOp where
  a : Src
  b : Src
  k : Fin 4
  deriving DecidableEq, Repr

/-- EVSTAT (R204). -/
structure EvstatOp where
  d : Reg
  a : Src
  sel : BitVec 4
  deriving DecidableEq, Repr

/-- BAR, BARA and BARW (R369). -/
structure BarOp where
  d : Reg
  a : Src
  guard : PReg
  id : BitVec 6
  scope : Scope
  deriving DecidableEq, Repr

/-- FTURN (R363). -/
structure FturnOp where
  d : Reg
  a : Src
  guard : PReg
  sel : Fin 3
  deriving DecidableEq, Repr

/-- SYSR (R105). -/
structure SysrOp where
  d : Reg
  guard : PReg
  num : BitVec 12
  deriving DecidableEq, Repr

/-- SYSW (R105). -/
structure SyswOp where
  a : Src
  guard : PReg
  num : BitVec 12
  deriving DecidableEq, Repr

/-- ICFLUSH (R221). -/
structure IcflushOp where
  guard : PReg
  scope : BitVec 3
  deriving DecidableEq, Repr

/-- ENRD (R444). -/
structure EnrdOp where
  d : Reg
  guard : PReg
  sel : Fin 3
  deriving DecidableEq, Repr

/-- LRESUME and LSTEP (R220). -/
structure LresumeOp where
  d : Reg
  a : Src
  guard : PReg
  skip : Bool
  deriving DecidableEq, Repr

/-- LKILL (R220). -/
structure LkillOp where
  d : Reg
  a : Src
  guard : PReg
  deriving DecidableEq, Repr

/-- TLBI (R266). -/
structure TlbiOp where
  a : Src
  b : Src
  guard : PReg
  kind : Fin 3
  deriving DecidableEq, Repr

/-- Hint space: op10 0x3C0 to 0x3FF and 52 ignored bits (R56). -/
structure HintOp where
  op : BitVec 6
  rest : BitVec 52
  deriving DecidableEq, Repr

/-- The instructions (R40 to R57) and the event steps: one constructor per row of the opcode table. -/
inductive Instr where
  /-- `MOV_C` (R51). -/
  | movC (o : C2)
  /-- `ADD_C` (R51). -/
  | addC (o : C2)
  /-- `SUB_C` (R51). -/
  | subC (o : C2)
  /-- `AND_C` (R51). -/
  | andC (o : C2)
  /-- `OR_C` (R51). -/
  | orC (o : C2)
  /-- `XOR_C` (R51). -/
  | xorC (o : C2)
  /-- `SHL_C` (R51). -/
  | shlC (o : C2)
  /-- `SHR_C` (R51). -/
  | shrC (o : C2)
  /-- `SRA_C` (R51). -/
  | sraC (o : C2)
  /-- `ADDI_C` (R51). -/
  | addiC (o : CI)
  /-- `LDI_C` (R51). -/
  | ldiC (o : CI)
  /-- `SHLI_C` (R51). -/
  | shliC (o : CI)
  /-- `SHRI_C` (R51). -/
  | shriC (o : CI)
  /-- `SRAI_C` (R51). -/
  | sraiC (o : CI)
  /-- `ANDI_C` (R51). -/
  | andiC (o : CI)
  /-- `NEG_C` (R51). -/
  | negC (o : C2)
  /-- `LD_I64_C` (R51). -/
  | ldI64C (o : C2)
  /-- `ST_I64_C` (R51). -/
  | stI64C (o : C2)
  /-- `LD_I32_C` (R51). -/
  | ldI32C (o : C2)
  /-- `ST_I32_C` (R51). -/
  | stI32C (o : C2)
  /-- `VADD_C` (R51). -/
  | vaddC (o : C2)
  /-- `VMUL_C` (R51). -/
  | vmulC (o : C2)
  /-- `VSUB_C` (R51). -/
  | vsubC (o : C2)
  /-- `VLD_C` (R51). -/
  | vldC (o : C2)
  /-- `VST_C` (R51). -/
  | vstC (o : C2)
  /-- `BZ_C` (R51). -/
  | bzC (o : CI)
  /-- `BNZ_C` (R51). -/
  | bnzC (o : CI)
  /-- `JMPR_C` (R51). -/
  | jmprC (o : C1)
  /-- `RET_C` (R51). -/
  | retC (o : C1)
  /-- `DONE_C` (R102). -/
  | doneC (o : C0)
  /-- `NOP_C` (R51). -/
  | nopC (o : C0)
  /-- `BRK_C` (R104). -/
  | brkC (o : CCode)
  /-- `ADD` (R86). -/
  | add (o : R3)
  /-- `SUB` (R86). -/
  | sub (o : R3)
  /-- `NEG` (R86). -/
  | neg (o : R2)
  /-- `MUL` (R89). -/
  | mul (o : R3)
  /-- `MULHI` (R89). -/
  | mulhi (o : R3)
  /-- `MULHIU` (R89). -/
  | mulhiu (o : R3)
  /-- `DIV` (R87). -/
  | div (o : R3)
  /-- `DIVU` (R87). -/
  | divu (o : R3)
  /-- `REM` (R87). -/
  | rem (o : R3)
  /-- `REMU` (R87). -/
  | remu (o : R3)
  /-- `AND` (R86). -/
  | and (o : R3)
  /-- `OR` (R86). -/
  | or (o : R3)
  /-- `XOR` (R86). -/
  | xor (o : R3)
  /-- `ANDN` (R86). -/
  | andn (o : R3)
  /-- `SHL` (R88). -/
  | shl (o : R3)
  /-- `SHR` (R88). -/
  | shr (o : R3)
  /-- `SRA` (R88). -/
  | sra (o : R3)
  /-- `ROT` (R88). -/
  | rot (o : R3)
  /-- `MIN` (R86). -/
  | min (o : R3)
  /-- `MAX` (R86). -/
  | max (o : R3)
  /-- `MINU` (R86). -/
  | minu (o : R3)
  /-- `MAXU` (R86). -/
  | maxu (o : R3)
  /-- `ABS` (R86). -/
  | abs (o : R2)
  /-- `CLZ` (R86). -/
  | clz (o : R2)
  /-- `CTZ` (R86). -/
  | ctz (o : R2)
  /-- `POPC` (R86). -/
  | popc (o : R2)
  /-- `BREV` (R86). -/
  | brev (o : R2)
  /-- `BSWAP` (R86). -/
  | bswap (o : R2)
  /-- `SEXT` (R86). -/
  | sext (o : RW)
  /-- `ZEXT` (R86). -/
  | zext (o : RW)
  /-- `CMP` (R90). -/
  | cmp (o : RCmp)
  /-- `MOV` (R86). -/
  | mov (o : R2)
  /-- `ADDI` (R92). -/
  | addi (o : RI)
  /-- `MULI` (R92). -/
  | muli (o : RI)
  /-- `ANDI` (R92). -/
  | andi (o : RI)
  /-- `ORI` (R92). -/
  | ori (o : RI)
  /-- `XORI` (R92). -/
  | xori (o : RI)
  /-- `SHLI` (R88). -/
  | shli (o : RSh)
  /-- `SHRI` (R88). -/
  | shri (o : RSh)
  /-- `SRAI` (R88). -/
  | srai (o : RSh)
  /-- `ROTI` (R88). -/
  | roti (o : RSh)
  /-- `LDI` (R92). -/
  | ldi (o : DI)
  /-- `LEA` (R92). -/
  | lea (o : DI)
  /-- `CMPI` (R90). -/
  | cmpi (o : RICmp)
  /-- `BR` (R96). -/
  | br (o : Br)
  /-- `BZ` (R96). -/
  | bz (o : Bz)
  /-- `BNZ` (R96). -/
  | bnz (o : Bz)
  /-- `BP_ANY` (R96). -/
  | bpAny (o : Bp)
  /-- `BP_ALL` (R96). -/
  | bpAll (o : Bp)
  /-- `BP_NONE` (R96). -/
  | bpNone (o : Bp)
  /-- `JMP` (R97). -/
  | jmp (o : BOff)
  /-- `CALL` (R97). -/
  | call (o : BOff)
  /-- `JMPR` (R97). -/
  | jmpr (o : A1)
  /-- `CALLR` (R97). -/
  | callr (o : R2)
  /-- `RET` (R97). -/
  | ret (o : A1)
  /-- `LOOP` (R99). -/
  | loop (o : LoopOp)
  /-- `DONE` (R102). -/
  | done (o : Z32)
  /-- `NOP` (R102). -/
  | nop (o : Z32)
  /-- `TRAP` (R103). -/
  | trap (o : CodeOp)
  /-- `BRK` (R104). -/
  | brk (o : CodeOp)
  /-- `LD` (R151). -/
  | ld (o : LdOp)
  /-- `ST` (R151). -/
  | st (o : StOp)
  /-- `VLD` (R154). -/
  | vld (o : RI)
  /-- `VST` (R154). -/
  | vst (o : RI)
  /-- `LDX` (R151). -/
  | ldx (o : LdxOp)
  /-- `STX` (R151). -/
  | stx (o : StxOp)
  /-- `VLDS` (R154). -/
  | vlds (o : V2)
  /-- `VSTS` (R154). -/
  | vsts (o : V2)
  /-- `VGTH` (R154). -/
  | vgth (o : V2)
  /-- `VSCT` (R154). -/
  | vsct (o : V2)
  /-- `VSCTA` (R154). -/
  | vscta (o : V2)
  /-- `PREF` (R155). -/
  | pref (o : PrefOp)
  /-- `WAITC` (R157). -/
  | waitc (o : WaitcOp)
  /-- `VADD` (R113). -/
  | vadd (o : V2)
  /-- `VSUB` (R113). -/
  | vsub (o : V2)
  /-- `VMUL` (R113). -/
  | vmul (o : V2)
  /-- `VFMA` (R113). -/
  | vfma (o : V2)
  /-- `VFMS` (R113). -/
  | vfms (o : V2)
  /-- `VFNMA` (R113). -/
  | vfnma (o : V2)
  /-- `VNEG` (R113). -/
  | vneg (o : V1)
  /-- `VABS` (R113). -/
  | vabs (o : V1)
  /-- `VMIN` (R114). -/
  | vmin (o : V2)
  /-- `VMAX` (R114). -/
  | vmax (o : V2)
  /-- `VMINN` (R114). -/
  | vminn (o : V2)
  /-- `VMAXN` (R114). -/
  | vmaxn (o : V2)
  /-- `VRCP` (R115). -/
  | vrcp (o : V1)
  /-- `VRSQ` (R115). -/
  | vrsq (o : V1)
  /-- `VSQRT` (R115). -/
  | vsqrt (o : V1)
  /-- `VDIV` (R115). -/
  | vdiv (o : V2)
  /-- `VEXP2` (R115). -/
  | vexp2 (o : V1)
  /-- `VLOG2` (R115). -/
  | vlog2 (o : V1)
  /-- `VAND` (R116). -/
  | vand (o : V2)
  /-- `VOR` (R116). -/
  | vor (o : V2)
  /-- `VXOR` (R116). -/
  | vxor (o : V2)
  /-- `VSHL` (R116). -/
  | vshl (o : V2)
  /-- `VSHR` (R116). -/
  | vshr (o : V2)
  /-- `VSRA` (R116). -/
  | vsra (o : V2)
  /-- `VPERM` (R124). -/
  | vperm (o : V2)
  /-- `VDOT` (R129). -/
  | vdot (o : V2)
  /-- `VLUT` (R126). -/
  | vlut (o : R3)
  /-- `VDIST_L2SQ` (R130). -/
  | vdistL2sq (o : V2)
  /-- `VDIST_IP` (R130). -/
  | vdistIp (o : V2)
  /-- `VDIST_COS` (R130). -/
  | vdistCos (o : V2)
  /-- `VNORM` (R131). -/
  | vnorm (o : V1)
  /-- `PSET` (R95). -/
  | pset (o : PsetOp)
  /-- `PAND` (R95). -/
  | pand (o : P3)
  /-- `POR` (R95). -/
  | por (o : P3)
  /-- `PXOR` (R95). -/
  | pxor (o : P3)
  /-- `PANDN` (R95). -/
  | pandn (o : P3)
  /-- `PNOT` (R95). -/
  | pnot (o : P2)
  /-- `PCNT` (R95). -/
  | pcnt (o : XP)
  /-- `PFIRST` (R95). -/
  | pfirst (o : XP)
  /-- `PMOVX_TO_P` (R95). -/
  | pmovxToP (o : PX)
  /-- `PMOVX_TO_X` (R95). -/
  | pmovxToX (o : XP)
  /-- `SEND` (R162). -/
  | send (o : S2)
  /-- `SENDV` (R162). -/
  | sendv (o : SendvOp)
  /-- `SENDO` (R163). -/
  | sendo (o : SendoOp)
  /-- `SPAWN` (R167). -/
  | spawn (o : S1)
  /-- `SPAWNC` (R170). -/
  | spawnc (o : S2)
  /-- `JOINAT` (R172). -/
  | joinat (o : S2)
  /-- `TSRD` (R174). -/
  | tsrd (o : D1)
  /-- `ABORTT` (R175). -/
  | abortt (o : D1)
  /-- `ABORTT_DROP` (R175). -/
  | aborttDrop (o : D1)
  /-- `RANGE` (R177). -/
  | range (o : RangeOp)
  /-- `CHUNK` (R178). -/
  | chunk (o : ChunkOp)
  /-- `STEAL` (R179). -/
  | steal (o : StealOp)
  /-- `ACTOR` (R187). -/
  | actor (o : S2)
  /-- `SBCFG` (R183). -/
  | sbcfg (o : S2)
  /-- `PUSH` (R184). -/
  | push (o : S2)
  /-- `POP` (R184). -/
  | pop (o : R2)
  /-- `HVW` (R190). -/
  | hvw (o : S2)
  /-- `VADD_X` (R110). -/
  | vaddX (o : VX2)
  /-- `VSUB_X` (R110). -/
  | vsubX (o : VX2)
  /-- `VMUL_X` (R110). -/
  | vmulX (o : VX2)
  /-- `VFMA_X` (R110). -/
  | vfmaX (o : VX3)
  /-- `VFMS_X` (R110). -/
  | vfmsX (o : VX3)
  /-- `VFNMA_X` (R110). -/
  | vfnmaX (o : VX3)
  /-- `VNEG_X` (R110). -/
  | vnegX (o : VX1)
  /-- `VABS_X` (R110). -/
  | vabsX (o : VX1)
  /-- `VMIN_X` (R110). -/
  | vminX (o : VX2)
  /-- `VMAX_X` (R110). -/
  | vmaxX (o : VX2)
  /-- `VMINN_X` (R110). -/
  | vminnX (o : VX2)
  /-- `VMAXN_X` (R110). -/
  | vmaxnX (o : VX2)
  /-- `VRCP_X` (R110). -/
  | vrcpX (o : VX1)
  /-- `VRSQ_X` (R110). -/
  | vrsqX (o : VX1)
  /-- `VSQRT_X` (R110). -/
  | vsqrtX (o : VX1)
  /-- `VDIV_X` (R110). -/
  | vdivX (o : VX2)
  /-- `VEXP2_X` (R110). -/
  | vexp2X (o : VX1)
  /-- `VLOG2_X` (R110). -/
  | vlog2X (o : VX1)
  /-- `VAND_X` (R110). -/
  | vandX (o : VX2)
  /-- `VOR_X` (R110). -/
  | vorX (o : VX2)
  /-- `VXOR_X` (R110). -/
  | vxorX (o : VX2)
  /-- `VSHL_X` (R110). -/
  | vshlX (o : VX2)
  /-- `VSHR_X` (R110). -/
  | vshrX (o : VX2)
  /-- `VSRA_X` (R110). -/
  | vsraX (o : VX2)
  /-- `VPERM_X` (R110). -/
  | vpermX (o : VX2)
  /-- `VDOT_X` (R110). -/
  | vdotX (o : VX2)
  /-- `VLUT_X` (R110). -/
  | vlutX (o : VX2)
  /-- `VDIST_L2SQ_X` (R110). -/
  | vdistL2sqX (o : VX2)
  /-- `VDIST_IP_X` (R110). -/
  | vdistIpX (o : VX2)
  /-- `VDIST_COS_X` (R110). -/
  | vdistCosX (o : VX2)
  /-- `VNORM_X` (R110). -/
  | vnormX (o : VX1)
  /-- `VCMP` (R117). -/
  | vcmp (o : VcmpOp)
  /-- `VSEL` (R118). -/
  | vsel (o : VselOp)
  /-- `VCVT` (R120). -/
  | vcvt (o : VcvtOp)
  /-- `VROUND` (R121). -/
  | vround (o : VX1)
  /-- `VCLAMP` (R119). -/
  | vclamp (o : VX3)
  /-- `VSPLAT` (R122). -/
  | vsplat (o : XX1)
  /-- `VEXTR` (R122). -/
  | vextr (o : XX2)
  /-- `VINS` (R122). -/
  | vins (o : XX2)
  /-- `VIOTA` (R123). -/
  | viota (o : ViotaOp)
  /-- `VSLIDE` (R124). -/
  | vslide (o : VslideOp)
  /-- `VCOMP` (R125). -/
  | vcomp (o : VcompOp)
  /-- `VEXPD` (R125). -/
  | vexpd (o : VcompOp)
  /-- `VRED` (R127). -/
  | vred (o : VredOp)
  /-- `VSCAN` (R128). -/
  | vscan (o : VscanOp)
  /-- `TOPK` (R133). -/
  | topk (o : TopkOp)
  /-- `TOPKM` (R134). -/
  | topkm (o : TopkOp)
  /-- `SEL` (R91). -/
  | sel (o : X3)
  /-- `MADD` (R94). -/
  | madd (o : X3)
  /-- `BFX` (R94). -/
  | bfx (o : BfxOp)
  /-- `BFXU` (R94). -/
  | bfxu (o : BfxOp)
  /-- `BFI` (R94). -/
  | bfi (o : BfiOp)
  /-- `LDI_L` (R93). -/
  | ldiL (o : LImm)
  /-- `LDIH` (R93). -/
  | ldih (o : LImm)
  /-- `JMP_L` (R97). -/
  | jmpL (o : LJmp)
  /-- `CALL_L` (R97). -/
  | callL (o : LCall)
  /-- `LD_X` (R152). -/
  | ldX (o : LdXOp)
  /-- `ST_X` (R152). -/
  | stX (o : StXOp)
  /-- `AMO` (R156). -/
  | amo (o : AmoOp)
  /-- `CAS` (R156). -/
  | cas (o : CasOp)
  /-- `VLD_X` (R154). -/
  | vldX (o : VldXOp)
  /-- `VST_X` (R154). -/
  | vstX (o : VstXOp)
  /-- `VGTH_X` (R154). -/
  | vgthX (o : VgthXOp)
  /-- `VSCT_X` (R154). -/
  | vsctX (o : VsctXOp)
  /-- `VSCTA_X` (R154). -/
  | vsctaX (o : VsctaXOp)
  /-- `XCOPY_IN` (R286). -/
  | xcopyIn (o : XcopyOp)
  /-- `XCOPY_OUT` (R286). -/
  | xcopyOut (o : XcopyOp)
  /-- `XCOPY_XX` (R286). -/
  | xcopyXx (o : XxOp)
  /-- `XGATHER` (R287). -/
  | xgather (o : XgatherOp)
  /-- `XSCATTER` (R287). -/
  | xscatter (o : XgatherOp)
  /-- `XRED` (R288). -/
  | xred (o : XredOp)
  /-- `XFILL` (R286). -/
  | xfill (o : XfillOp)
  /-- `XBLK_RD` (R417). -/
  | xblkRd (o : XblkOp)
  /-- `XBLK_WR` (R417). -/
  | xblkWr (o : XblkOp)
  /-- `XBLK_FLUSH` (R417). -/
  | xblkFlush (o : XblkOp)
  /-- `TXINIT` (R275). -/
  | txinit (o : TxinitOp)
  /-- `TXARR` (R275). -/
  | txarr (o : TxarrOp)
  /-- `TXEXP` (R275). -/
  | txexp (o : TxexpOp)
  /-- `TXWAIT` (R275). -/
  | txwait (o : TxwaitOp)
  /-- `TXTEST` (R275). -/
  | txtest (o : TxtestOp)
  /-- `TXTEST_ERR` (R275). -/
  | txtestErr (o : TxtestErrOp)
  /-- `SHFENCE` (R272). -/
  | shfence (o : Z64)
  /-- `SHPF` (R272). -/
  | shpf (o : ShpfOp)
  /-- `TCFG` (R228). -/
  | tcfg (o : TcfgOp)
  /-- `TLD` (R229). -/
  | tld (o : TldOp)
  /-- `TST` (R229). -/
  | tst (o : TldOp)
  /-- `TZERO` (R230). -/
  | tzero (o : TzeroOp)
  /-- `TROW` (R231). -/
  | trow (o : TrowOp)
  /-- `TSETROW` (R231). -/
  | tsetrow (o : TsetrowOp)
  /-- `MSK` (R232). -/
  | msk (o : MskOp)
  /-- `GWLD` (R236). -/
  | gwld (o : GwldOp)
  /-- `GMMA` (R238). -/
  | gmma (o : GmmaOp)
  /-- `GMMAS` (R238). -/
  | gmmas (o : GmmaOp)
  /-- `GMMAG` (R240). -/
  | gmmag (o : GmmagOp)
  /-- `GACC` (R242). -/
  | gacc (o : GaccOp)
  /-- `GACCZ` (R243). -/
  | gaccz (o : GacczOp)
  /-- `EVCFG` (R205). -/
  | evcfg (o : EvcfgOp)
  /-- `EVINJ` (R207). -/
  | evinj (o : EvinjOp)
  /-- `EVRD` (R208). -/
  | evrd (o : EvrdOp)
  /-- `EVWR` (R208). -/
  | evwr (o : EvwrOp)
  /-- `EVFAN` (R206). -/
  | evfan (o : EvfanOp)
  /-- `EVSTAT` (R209). -/
  | evstat (o : EvstatOp)
  /-- `BAR` (R370). -/
  | bar (o : BarOp)
  /-- `BARA` (R370). -/
  | bara (o : BarOp)
  /-- `BARW` (R370). -/
  | barw (o : BarOp)
  /-- `FTURN` (R363). -/
  | fturn (o : FturnOp)
  /-- `GET` (R421). -/
  | get (o : GetOp)
  /-- `PUT` (R421). -/
  | put (o : PutOp)
  /-- `RAMO` (R421). -/
  | ramo (o : RamoOp)
  /-- `COLL_ALLRED` (R424). -/
  | collAllred (o : CollOp)
  /-- `COLL_ALLGTH` (R424). -/
  | collAllgth (o : CollOp)
  /-- `COLL_REDSCT` (R424). -/
  | collRedsct (o : CollOp)
  /-- `COLL_BAR` (R426). -/
  | collBar (o : CollOp)
  /-- `BOP` (R356). -/
  | bop (o : BopOp)
  /-- `BRED` (R356). -/
  | bred (o : BredOp)
  /-- `BVEC` (R356). -/
  | bvec (o : BvecOp)
  /-- `SYSR` (R105). -/
  | sysr (o : SysrOp)
  /-- `SYSW` (R105). -/
  | sysw (o : SyswOp)
  /-- `ICFLUSH` (R221). -/
  | icflush (o : IcflushOp)
  /-- `ENRD` (R444). -/
  | enrd (o : EnrdOp)
  /-- `LRESUME` (R220). -/
  | lresume (o : LresumeOp)
  /-- `LSTEP` (R220). -/
  | lstep (o : LresumeOp)
  /-- `LKILL` (R220). -/
  | lkill (o : LkillOp)
  /-- `TLBI` (R266). -/
  | tlbi (o : TlbiOp)
  /-- `HINT_SPACE` (R56). -/
  | hintSpace (o : HintOp)
  /-- Event step `DISPATCH` (R16). -/
  | dispatch (core : Nat)
  /-- Event step `LANE_AGED` (R32). -/
  | laneAged (core : Nat) (lane : Nat)
  /-- Event step `LANE_UNBLOCK` (R37). -/
  | laneUnblock (core : Nat) (lane : Nat)
  /-- Event step `RESULT_ARRIVAL` (R26). -/
  | resultArrival (core : Nat) (lane : Nat) (idx : Nat)
  /-- Event step `STORE_PERFORMED` (R149). -/
  | storePerformed (core : Nat) (lane : Nat)
  /-- Event step `FAULT_FREEZE` (R213). -/
  | faultFreeze (core : Nat) (lane : Nat)
  /-- Event step `FAULT_RING_WRITE` (R216). -/
  | faultRingWrite (die : Nat)
  /-- Event step `MESSAGE_ACCEPT` (R164). -/
  | messageAccept (src : Nat) (dst : Nat)
  /-- Event step `SEND_QUEUE_REOFFER` (R164). -/
  | sendQueueReoffer (src : Nat) (dst : Nat)
  /-- Event step `REMOTE_PUSH_ACCEPT` (R185). -/
  | remotePushAccept (src : Nat) (dst : Nat)
  /-- Event step `TASK_ACCEPT` (R19). -/
  | taskAccept (core : Nat)
  /-- Event step `TASK_SPILL_RETURN` (R320). -/
  | taskSpillReturn (quad : Nat)
  /-- Event step `STEAL_REQUEST` (R180). -/
  | stealRequest (core : Nat) (lane : Nat)
  /-- Event step `STEAL_ANSWER` (R179). -/
  | stealAnswer (core : Nat) (lane : Nat)
  /-- Event step `EVENT_ACCEPT` (R197). -/
  | eventAccept (src : Nat) (dst : Nat)
  /-- Event step `EVENT_SPILL_RETURN` (R197). -/
  | eventSpillReturn (core : Nat)
  /-- Event step `EVENT_DELIVERY` (R200). -/
  | eventDelivery (core : Nat)
  /-- Event step `EVENT_DISCARD` (R198). -/
  | eventDiscard (core : Nat)
  /-- Event step `FANOUT_EMIT` (R201). -/
  | fanoutEmit (core : Nat)
  /-- Event step `FIRE_MESSAGE_POST` (R202). -/
  | fireMessagePost (core : Nat)
  /-- Event step `ASYNC_OP_START` (R143). -/
  | asyncOpStart (core : Nat) (queue : Nat) (slot : Nat)
  /-- Event step `GANG_FORM` (R233). -/
  | gangForm (quad : Nat) (seat : Nat)
  /-- Event step `GANG_TIMEOUT` (R248). -/
  | gangTimeout (quad : Nat) (seat : Nat)
  /-- Event step `GANG_POSITION_EXPIRY` (R247). -/
  | gangPositionExpiry (quad : Nat) (seat : Nat)
  /-- Event step `GANG_COMPLETE` (R246). -/
  | gangComplete (quad : Nat)
  /-- Event step `TILE_OP_COMPLETE` (R246). -/
  | tileOpComplete (core : Nat) (seat : Nat)
  /-- Event step `ENGINE_SECTOR_COMPLETE` (R283). -/
  | engineSectorComplete (core : Nat) (slot : Nat) (sector : Nat) (data : (BitVec 256))
  /-- Event step `ENGCTL_REPLAY` (R285). -/
  | engctlReplay (who : Nat) (core : Nat) (slot : Nat)
  /-- Event step `ENGCTL_FAIL` (R285). -/
  | engctlFail (who : Nat) (core : Nat) (slot : Nat)
  /-- Event step `TX_BARRIER_UPDATE` (R274). -/
  | txBarrierUpdate (core : Nat)
  /-- Event step `REDUCE_SECTOR_APPLY` (R289). -/
  | reduceSectorApply (core : Nat) (slot : Nat) (sector : Nat)
  /-- Event step `BANK_SECTOR_APPLY` (R357). -/
  | bankSectorApply (core : Nat) (slot : Nat) (sector : Nat)
  /-- Event step `PAGE_WALK_COMPLETE` (R264). -/
  | pageWalkComplete (core : Nat) (va : X) (acc : Access)
  /-- Event step `TRANSIENT_REQUEST` (R256). -/
  | transientRequest (core : Nat) (line : Nat) (write : Bool)
  /-- Event step `TRANSIENT_TIMEOUT` (R256). -/
  | transientTimeout (core : Nat) (line : Nat)
  /-- Event step `PERSISTENT_REQUEST` (R256). -/
  | persistentRequest (core : Nat) (line : Nat)
  /-- Event step `PERSISTENT_DEACTIVATE` (R256). -/
  | persistentDeactivate (die : Nat) (line : Nat)
  /-- Event step `DIRECTORY_REQUEST` (R353). -/
  | directoryRequest (die : Nat) (line : Nat) (write : Bool)
  /-- Event step `DIRECTORY_RECALL` (R257). -/
  | directoryRecall (die : Nat) (line : Nat) (all : Bool)
  /-- Event step `BACK_INVALIDATE` (R410). -/
  | backInvalidate (line : Nat)
  /-- Event step `HOST_MEM_WRITE` (R410). -/
  | hostMemWrite (pa : Nat) (n : Nat) (value : (BitVec 512))
  /-- Event step `HOST_MEM_READ` (R396). -/
  | hostMemRead (pa : Nat) (n : Nat)
  /-- Event step `SPAWN_WINDOW_STORE` (R415). -/
  | spawnWindowStore (off : Nat) (n : Nat) (value : (BitVec 512))
  /-- Event step `LAUNCH_COMMAND` (R413). -/
  | launchCommand (off : Nat) (n : Nat) (value : (BitVec 512))
  /-- Event step `LAUNCH_TAKE` (R414). -/
  | launchTake (plan : LaunchPlan)
  /-- Event step `LAUNCH_END` (R34). -/
  | launchEnd (launch : Nat) (verdict : (Fin 3))
  /-- Event step `LSTAT_READ` (R412). -/
  | lstatRead
  /-- Event step `SPWSTAT_READ` (R412). -/
  | spwstatRead
  /-- Event step `ATTDROP_READ` (R449). -/
  | attdropRead
  /-- Event step `ATTREQ` (R449). -/
  | attreq (value : (BitVec 512))
  /-- Event step `ATTESTATION_REPORT` (R449). -/
  | attestationReport
  /-- Event step `CCTL_RCFLUSH` (R218). -/
  | cctlRcflush (who : Nat) (core : Nat)
  /-- Event step `CCTL_FRZALL` (R218). -/
  | cctlFrzall (who : Nat) (core : Nat)
  /-- Event step `CCTL_HOLD` (R218). -/
  | cctlHold (who : Nat) (core : Nat) (hold : Bool)
  /-- Event step `LCTL_FRZREQ` (R218). -/
  | lctlFrzreq (who : Nat) (core : Nat) (lane : Nat) (req : Bool)
  /-- Event step `DEBUG_FRAME_WRITE` (R217). -/
  | debugFrameWrite (who : Nat) (core : Nat) (lane : Nat) (off : Nat) (n : Nat) (value : X)
  /-- Event step `REGISTER_WRITE` (R10). -/
  | registerWrite (who : Nat) (pa : Nat) (n : Nat) (value : (BitVec 512))
  /-- Event step `DOMAIN_CREATE` (R340). -/
  | domainCreate (who : Nat) (slot : Nat) (value : X)
  /-- Event step `DOMAIN_SUSPEND` (R342). -/
  | domainSuspend (who : Nat) (slot : Nat)
  /-- Event step `DOMAIN_RESUME` (R342). -/
  | domainResume (who : Nat) (slot : Nat)
  /-- Event step `DOMAIN_RETIRE` (R342). -/
  | domainRetire (who : Nat) (slot : Nat)
  /-- Event step `HEARTH_ROUND_START` (R334). -/
  | hearthRoundStart
  /-- Event step `HEARTH_ROOT_FORM` (R334). -/
  | hearthRootForm
  /-- Event step `HEARTH_VALUES_ARRIVE` (R336). -/
  | hearthValuesArrive (quad : Nat)
  /-- Event step `TASK_ABORT` (R327). -/
  | taskAbort (task : Nat)
  /-- Event step `HOLD_TIMEOUT` (R333). -/
  | holdTimeout (core : Nat) (lane : Nat)
  /-- Event step `SPATIAL_PREEMPT` (R294). -/
  | spatialPreempt (launch : Nat) (quads : (List Nat))
  /-- Event step `PREEMPT_DEADLINE` (R294). -/
  | preemptDeadline (launch : Nat)
  /-- Event step `DMA_SAVE` (R292). -/
  | dmaSave (who : Nat) (row : Nat)
  /-- Event step `DMA_RESTORE` (R292). -/
  | dmaRestore (who : Nat) (row : Nat)
  /-- Event step `DMA_DONE` (R292). -/
  | dmaDone (die : Nat) (row : Nat) (ok : Bool)
  /-- Event step `DIE_NORMAL_RESET` (R375). -/
  | dieNormalReset (who : Nat) (die : Nat)
  /-- Event step `DIE_ABRUPT_RESET` (R375). -/
  | dieAbruptReset (who : Nat) (die : Nat)
  /-- Event step `DIE_RESET_ENTER` (R373). -/
  | dieResetEnter (die : Nat)
  /-- Event step `DIE_REJOIN` (R377). -/
  | dieRejoin (who : Nat) (die : Nat)
  /-- Event step `FLCMD_WRITE` (R365). -/
  | flcmdWrite (who : Nat) (flue : Nat) (value : X)
  /-- Event step `FLUE_TURN_START` (R364). -/
  | flueTurnStart (flue : Nat)
  /-- Event step `FLUE_GROUP_TURNED` (R364). -/
  | flueGroupTurned (flue : Nat)
  /-- Event step `LINK_PACKET_RECEIVE` (R362). -/
  | linkPacketReceive (flue : Nat) (toB : Bool) (seq : (BitVec 16))
  /-- Event step `LINK_RETRY` (R362). -/
  | linkRetry (flue : Nat) (toB : Bool)
  /-- Event step `FLUE_DROWSY` (R366). -/
  | flueDrowsy (flue : Nat)
  /-- Event step `FLUE_TRAINED` (R366). -/
  | flueTrained (flue : Nat)
  /-- Event step `FLUE_WAKE_TIMEOUT` (R367). -/
  | flueWakeTimeout (flue : Nat)
  /-- Event step `DIE_UNRESPONSIVE` (R367). -/
  | dieUnresponsive (core : Nat) (lane : Nat)
  /-- Event step `BARRIER_FORCE` (R371). -/
  | barrierForce (who : Nat) (scope : Scope) (die : Nat) (id : Nat)
  /-- Event step `POD_BARRIER_FORCE` (R427). -/
  | podBarrierForce (who : Nat) (id : Nat)
  /-- Event step `POD_BARRIER_ARRIVAL` (R427). -/
  | podBarrierArrival (id : Nat)
  /-- Event step `POD_BARRIER_RELEASE` (R427). -/
  | podBarrierRelease (id : Nat)
  /-- Event step `HORN_FLIT_RECEIVE` (R418). -/
  | hornFlitReceive (port : Nat) (seq : (BitVec 16))
  /-- Event step `HORN_RETRY` (R418). -/
  | hornRetry (port : Nat)
  /-- Event step `HORN_RETRAIN` (R418). -/
  | hornRetrain (port : Nat)
  /-- Event step `POD_PACKET_RECEIVE` (R421). -/
  | podPacketReceive (pkt : PodPacket)
  /-- Event step `POD_OP_TIMEOUT` (R421). -/
  | podOpTimeout (core : Nat) (slot : Nat)
  /-- Event step `COLL_TIMEOUT` (R425). -/
  | collTimeout (core : Nat) (slot : Nat)
  /-- Event step `NVME_COMPLETION` (R417). -/
  | nvmeCompletion (core : Nat) (slot : Nat) (status : Nat)
  /-- Event step `XBLK_TIMEOUT` (R417). -/
  | xblkTimeout (core : Nat) (slot : Nat)
  /-- Event step `ENERGY_CHARGE` (R443). -/
  | energyCharge (charges : (List (Nat × Nat × Nat)))
  /-- Event step `ENERGY_ACCOUNT_WRITE` (R443). -/
  | energyAccountWrite (who : Nat) (acct : Nat) (off : Nat) (n : Nat) (value : (BitVec 256))
  /-- Event step `POWER_LIMIT_THROTTLE` (R445). -/
  | powerLimitThrottle (quad : Nat)
  /-- Event step `FREQ_CHANGE_DONE` (R445). -/
  | freqChangeDone (quad : Nat)
  /-- Event step `THERMAL_THROTTLE` (R445). -/
  | thermalThrottle (quad : Nat)
  /-- Event step `THERMAL_DIE_RESET` (R445). -/
  | thermalDieReset (die : Nat)
  /-- Event step `THERMAL_SHUTDOWN` (R445). -/
  | thermalShutdown
  /-- Event step `PACKAGE_RESET` (R446). -/
  | packageReset (verdict : (Fin 4))
  /-- Event step `FUNCTION_READY` (R438). -/
  | functionReady (idx : Nat)
  /-- Event step `FUNCTION_FAILED` (R437). -/
  | functionFailed (idx : Nat)
  /-- Event step `LM_DOUBLE_BIT_ERROR` (R136). -/
  | lmDoubleBitError (core : Nat) (word : Nat)
  /-- Event step `HBM_UNCORRECTABLE_ERROR` (R360). -/
  | hbmUncorrectableError (line : Nat)
  /-- Event step `THERMAL_THROTTLE_END` (R445). -/
  | thermalThrottleEnd (quad : Nat)
  /-- Event step `DIE_REJOIN_COMPLETE` (R374). -/
  | dieRejoinComplete (die : Nat)
  /-- Event step `HORN_PORT_TRAINED` (R418). -/
  | hornPortTrained (port : Nat)
  deriving DecidableEq, Repr

end Sys2Proof
end

