-- ==== Sys2Proof/Machine/State.lean ====
section
/-! DEFINITION. The state of one package: every register, queue and memory the manual names, as plain data, and the
state after reset. Sparse collections are lists of (key, value) pairs in rising key order; an absent key reads as the
value the accessor of Ops gives it. -/

namespace Sys2Proof.Machine

/-- A sparse table: (key, value) pairs in rising key order. -/
abbrev SMap (α : Type) := List (Nat × α)

/-- All bytes of the package in one canonical list: addresses strictly rising, no entry equal to `unlisted`. The
address ranges are those of `hbmBase`, `hostBase`, `larderBase`, `lmBase`, `bankBase` and `tileBase` in Ops. -/
abbrev Memory := List Host.Cell

/-- Why the machine stops. -/
inductive Fault where
  /-- Raised by an access whose page maps it to a physical address that is neither HBM, nor host memory, nor a window:
  the manual gives such an address no meaning (safe: the machine stops). -/
  | unbacked
  deriving DecidableEq, Repr

/-- Why an instruction has no meaning. -/
inductive Refusal where
  /-- An instruction of the table without a meaning in this model; raised by its arm of `exec` (safe). -/
  | notModelled (mnemonic : String)
  deriving DecidableEq, Repr

/-- Fault codes (R211). -/
inductive FaultCode where
  | illegal | instrAlign | instrAddr | fetch | emptyReg | deadReg | loopBody | softTrap | breakpoint | comparator
  | singleStep | address | lmProtection | misaligned | translation | accessType | poisoned | message | spawn | stream
  | eventOperand | handlerEntry | taskRejected | eventOverflow | gangFault | gangTimeout | sparsePattern | badRecord
  | addrOverflow | engineError | linkWake | dieUnresponsive
  deriving DecidableEq, Repr

/-- The number of a fault code (R211). -/
def faultNumber : FaultCode → Nat
  | .illegal => 0x01 | .instrAlign => 0x02 | .instrAddr => 0x03 | .fetch => 0x04 | .emptyReg => 0x05
  | .deadReg => 0x06 | .loopBody => 0x07 | .softTrap => 0x08 | .breakpoint => 0x09 | .comparator => 0x0A
  | .singleStep => 0x0B | .address => 0x0C | .lmProtection => 0x0D | .misaligned => 0x0E | .translation => 0x0F
  | .accessType => 0x10 | .poisoned => 0x11 | .message => 0x12 | .spawn => 0x13 | .stream => 0x14
  | .eventOperand => 0x15 | .handlerEntry => 0x20 | .taskRejected => 0x21 | .eventOverflow => 0x23
  | .gangFault => 0x30 | .gangTimeout => 0x31 | .sparsePattern => 0x32 | .badRecord => 0x38
  | .addrOverflow => 0x39 | .engineError => 0x3A | .linkWake => 0x3B | .dieUnresponsive => 0x3C

/-- The fields of a fault packet (R214). -/
structure Packet where
  code : FaultCode
  lane : Nat
  ended : Bool
  nofrz : Bool
  poison : Bool
  gang : Bool
  seq : BitVec 32
  pc : X
  addr : X
  instr : X
  engop : BitVec 32
  src : Nat
  inc : Nat
  group : BitVec 16
  gtime : X
  aux : BitVec 128
  deriving DecidableEq, Repr

/-! ### Lanes -/

/-- Firing kinds (R15). -/
inductive FiringKind where
  | none | ordered | unordered | handler | actor | launch
  deriving DecidableEq, Repr

/-- Lane states (R24). -/
inductive LaneStatus where
  | free | ready | blocked | frozen | draining
  deriving DecidableEq, Repr

/-- What a Blocked lane waits for (R24). -/
inductive Wait where
  /-- An x register to be full (R27). -/
  | xfull (r : Reg)
  /-- A v register to be full (R27). -/
  | vfull (r : Reg)
  /-- No conflicting scoreboard entry among those older than `before` for these LM granules and tiles (R142). -/
  | scoreboard (granules : List Nat) (tiles : Nat) (write : Bool) (before : Nat)
  /-- A free scoreboard entry (R142). -/
  | sbEntry
  /-- Room in the engine queue (R279). -/
  | engineQueue
  /-- Room in a seat queue (R224). -/
  | seatQueue (seat : Nat)
  /-- Room in the send queue (R164). -/
  | sendQueue
  /-- Room in the spawn queue (R167). -/
  | spawnQueue
  /-- A free JOINAT registration (R172). -/
  | joinTable
  /-- The counters at most these values (R157, R221, R272). -/
  | counters (l s : Nat)
  /-- The firing's task to be the earliest of its domain: an irrevocable instruction, a limit or a deferred fault
  (R328, R329, R331). -/
  | earliest
  /-- The transaction barrier stored at `key` to leave a phase or to hold an error (R275). -/
  | txPhase (key phase : Nat)
  /-- The barrier updates this lane has sent to be performed (R275). -/
  | txSent
  /-- A barrier to leave a phase, with the register that receives the status (R370). -/
  | barrier (scope : Scope) (die id phase : Nat) (d : Reg)
  /-- Nothing more: the barrier was advanced by force while the lane waited (R371). -/
  | barrierForced (scope : Scope) (die id : Nat) (d : Reg)
  /-- A pod barrier's release before the next arrival (R427). -/
  | podRelease (id : Nat)
  /-- A bit of the ready map or of the failed map, for an access at this data address (R438). -/
  | functionReady (index : Nat) (addr : X)
  /-- The answer to a STEAL into register `k` (R179). -/
  | stealAnswer (k : Nat) (d : Reg)
  /-- STEALING of register `k` to clear (R179). -/
  | stealing (k : Nat)
  /-- Room in stream buffer `b` (R184). -/
  | streamRoom (b : Nat)
  /-- An element in stream buffer `b` (R184). -/
  | streamItem (b : Nat)
  /-- Speculative tasks of other domains to release a line (R333). -/
  | held (va line : Nat) (write : Bool)
  /-- The persistent request of another core for a line to deactivate, for an access that writes or not and that the caches serve or
  not (R256, R257). -/
  | tokens (line : Nat) (write cached : Bool)
  /-- The sectors of operations, by core, slot and sequence, that have used a TLB entry (R266). -/
  | sectors (ops : List (Nat × Nat × Nat))
  /-- A flue on the way of an access at this data address to wake (R367). -/
  | link (flue : Nat) (addr : X)
  /-- A delivery in progress to a neuron of a bank to end (R203). -/
  | delivery (bank neuron : Nat)
  /-- The core's earlier bank operations to have applied their sectors to the bank of a shared-space offset (R357). -/
  | bankOrder (off : Nat)
  deriving DecidableEq, Repr

/-- The destination of a long-latency result (R26). -/
inductive Dest where
  | x (r : Reg)
  | v (r : Reg)
  deriving DecidableEq, Repr

/-- The x, v and p registers of a lane (R22). -/
structure Regs where
  x : Vector X 32
  v : Vector V 32
  p : Vector P 8
  deriving DecidableEq, Repr

/-- Full and dead bits (R23, R26). -/
structure Marks where
  xfull : BitVec 32
  vfull : BitVec 32
  xdead : BitVec 32
  vdead : BitVec 32
  deriving DecidableEq, Repr

/-- The firing a lane runs (R15, R23, R25, R35). -/
structure Firing where
  kind : FiringKind
  cls : Nat
  prio : Nat
  spec : Bool
  domain : Nat
  tstamp : X
  /-- The ordered task it runs, by its number in the Hearth's table. -/
  task : Option Nat
  /-- The join counter of an unordered task (R171). -/
  join : Option X
  actor : Nat
  /-- Domain and fire time of a fire-message firing, as domain × 2^32 + time (R337). -/
  fire : Option Nat
  /-- Payload vectors c0 to c3 (R27). -/
  payload : List V
  /-- Payload vectors of its message that stay in the arrival buffer (R27, R451). -/
  carried : Nat
  /-- The launch of a handler or actor firing, fixed at its dispatch (R35). -/
  launch : Option Nat
  deriving DecidableEq, Repr

/-- The active LOOP (R99, R100). `stop` is the end address E, found from the body when an instruction issues. -/
structure LoopState where
  len : Nat
  rem : X
  pc : BitVec 48
  stop : Option (BitVec 48)
  /-- The loop buffer: halfwords by address. -/
  buf : SMap Nat
  /-- An ICFLUSH has taken effect in the body: later repeats are fetched from memory (R221). -/
  flushed : Bool
  deriving DecidableEq, Repr

/-- What a lane was before its producer of a long-latency result issued, and what is needed to freeze at it (R211, R367). -/
structure Site where
  pc : BitVec 48
  loop : LoopState
  instcnt : BitVec 32
  marks : Marks
  deriving DecidableEq, Repr

/-- An outstanding long-latency result (R26, R153): the value it writes when it arrives. -/
structure Result where
  dest : Dest
  value : V
  /-- It counts in lcnt (R149). -/
  counted : Bool
  /-- It carries poisoned data of this address (R153). -/
  poisonAt : Option X
  /-- Bits of the instruction that issued it, and its data address, 0 when it has none. -/
  instr : X
  addr : X
  /-- The lane as that instruction issued. -/
  site : Site
  deriving DecidableEq, Repr

/-- A lane's 64-byte state block and registers as they stand in its Attic frame (R22, R23). -/
structure Frame where
  regs : Regs
  st : BitVec 512
  /-- The supervisor has written PC, LOOPPC, LOOPREM or LOOPLEN (R23). -/
  moved : Bool
  deriving DecidableEq, Repr

/-- A request without a response (R367): its data address, its instruction's bits, and whether the lane stands at that
instruction. -/
structure Failure where
  addr : X
  instr : X
  here : Bool
  deriving DecidableEq, Repr

/-- Freeze control of a lane (R213, R218, R220). -/
structure FreezeCtl where
  frzreq : Bool
  step : Bool
  suppr : Bool
  /-- The stepped instruction has issued. -/
  stepped : Bool
  /-- A fault waits for outstanding results (R213). -/
  pending : Option Packet
  /-- A fault deferred until the task is earliest (R331). -/
  deferred : Option FaultCode
  /-- A poisoned global result makes the lane freeze before its next issue (R153). -/
  poisoned : Option (X × X)
  /-- A request has had no response, and the lane freezes with that code at its next issue (R367). -/
  failing : Option Failure
  deriving DecidableEq, Repr

/-- One lane (R22 to R32). -/
structure Lane where
  regs : Regs
  marks : Marks
  pc : BitVec 48
  firing : Firing
  loop : LoopState
  lcnt : Nat
  scnt : Nat
  /-- Stores of ended firings that are not yet performed: they count in no scnt (R14). -/
  oldStores : Nat
  instcnt : BitVec 32
  sr : BitVec 32
  status : LaneStatus
  wait : Option Wait
  results : List Result
  aged : Bool
  waitCount : Nat
  frz : FreezeCtl
  ras : List (BitVec 48)
  frame : Frame
  /-- The access whose conflict has Blocked the lane, with the age of its first attempt, until it performs (R142); the sectors that a
  TLBI which has invalidated its entries waits for (R266). -/
  firstTry : Option Wait
  /-- The gang fault group the lane is frozen under (R247). -/
  group : Option Nat
  /-- Bits of the instruction at which it became Blocked. -/
  waitInstr : X
  deriving DecidableEq, Repr

/-! ### Cores -/

/-- A breakpoint comparator (R219). -/
structure Comparator where
  hits : X
  icount : X
  lmask : BitVec 16
  lmen : Bool
  icen : Bool
  en : Bool
  addr : BitVec 48
  deriving DecidableEq, Repr

/-- A message or remote push (R159). -/
structure Message where
  dest : Nat
  type : Nat
  flags : Nat
  rel : Bool
  seq : BitVec 32
  src : Nat
  srcLane : Nat
  inc : Nat
  push : Option Nat
  payload : List V
  /-- The launch and virtual core number it was sent to (R161, R294). -/
  virt : Option (Nat × Nat)
  /-- Domain and fire time of a fire message, as domain × 2^32 + time (R202, R337). -/
  fired : Option Nat
  /-- The launch of the firing that sent it (R34). -/
  launch : Option Nat
  deriving DecidableEq, Repr

/-- An event with the domain it was emitted under (R196). -/
structure Event where
  inc : Nat
  src : Nat
  seq : Nat
  core : Nat
  bank : Nat
  neuron : Nat
  weight : BitVec 32
  time : Nat
  domain : Nat
  deriving DecidableEq, Repr

/-- An entry of the send queue: a message, a remote push or an event (R164, R207). -/
inductive SendItem where
  | msg (m : Message)
  | ev (e : Event) (injected : Bool)
  deriving DecidableEq, Repr

/-- A record in the spawn queue with what its quad must know (R167, R168). -/
structure Spawn where
  record : Nat
  core : Nat
  lane : Nat
  /-- The speculative ordered task that spawned it (R169). -/
  parent : Option Nat
  /-- The ordered task of its own domain that spawned it (R316). -/
  origin : Option Nat
  /-- The spawning firing's domain and timestamp (R167). -/
  domain : Nat
  tstamp : X
  /-- Launch whose domains it may name (R168). -/
  launch : Option Nat
  /-- The host's spawn window sent it (R415). -/
  host : Bool
  deriving DecidableEq, Repr

/-- An interval of LM granules, both ends included (R141). -/
abbrev Span := Nat × Nat

/-- A scoreboard entry (R146), with the age that orders it. -/
structure SbEntry where
  age : Nat
  lane : Nat
  qslot : Nat
  rda : Option Span
  rdb : Option Span
  wr : Option Span
  trd : Nat
  twr : Nat
  ard : Nat
  awr : Nat
  /-- Seat of a gang operation (R245). -/
  gang : Option Nat
  deriving DecidableEq, Repr

/-- States of an engine operation (R285). -/
inductive OpState where
  | queued | running | suspended
  deriving DecidableEq, Repr

/-- What an accepted operation does, with its instruction's operands (R277, R354, R420). -/
inductive EngKind where
  | copyIn (o : XcopyOp) | copyOut (o : XcopyOp) | copyXx (o : XxOp) | gather (o : XgatherOp) | scatter (o : XgatherOp)
  | red (o : XredOp) | fill (o : XfillOp) | blkRd (o : XblkOp) | blkWr (o : XblkOp) | blkFlush (o : XblkOp)
  | bop (o : BopOp) | bred (o : BredOp) | bvec (o : BvecOp)
  | get (o : GetOp) | put (o : PutOp) | ramo (o : RamoOp)
  | allred (o : CollOp) | allgth (o : CollOp) | redsct (o : CollOp) | cbar (o : CollOp)
  deriving DecidableEq, Repr

/-- An accepted engine, package or pod operation (R279). -/
structure EngOp where
  seq : Nat
  lane : Nat
  kind : EngKind
  /-- The operands read at issue: xs, xl, xn, xb and the six coordinates. -/
  xs : X
  xl : X
  xn : X
  xb : X
  coords : List Int
  /-- The records it read, as 192-byte numbers (R271). -/
  recA : Nat
  recB : Nat
  ctx : Option Nat
  task : Option Nat
  /-- The domain and key of the task that issued it, by which its accesses are the task's after its commit; of an aborted task, a key
  above all (R322, R332). -/
  owner : Option (Nat × Nat)
  launch : Option Nat
  /-- The packages that its group members are, read at its acceptance (R419). -/
  peers : List Nat
  state : OpState
  /-- Sectors counted at the barrier (R285). -/
  counted : List Nat
  /-- Rows or sectors already counted in FAIL. -/
  failed : List Nat
  /-- The indices read by a gather or scatter, `none` for a poisoned one (R287). -/
  rows : List (Option Int)
  /-- The sector that met a translation fault. -/
  faulted : Option Nat
  /-- The address of that fault. -/
  faultAt : Nat
  /-- Where its barrier is stored, if it reports to one. -/
  bar : Option Nat
  /-- Scoreboard entry by age. -/
  sb : Option Nat
  /-- The entry of a second operation that it is divided into, which writes its scales (R141, R280). -/
  sbScale : Option Nat
  /-- What holds its next sector: the virtual and physical line and whether it writes (R333). -/
  heldAt : Option (Nat × Nat × Bool)
  /-- Stream-buffer head or tail when it started (R282). -/
  sbase : Nat
  /-- How many sectors have left for other packages, one package after another (R418). -/
  sent : Nat
  deriving DecidableEq, Repr

/-- What an update on its way does: to a transaction barrier by a lane (R275), to one by an engine operation (R281, R284), or the
decrement of a join counter (R171). -/
inductive TxDo where
  | init (phase expect : Nat)
  | arrive (n : Nat)
  | expect (n : Nat)
  | engine (sectors fails : Nat) (code : Option Nat)
  | join
  deriving DecidableEq, Repr

/-- Whose a barrier update is: the context that its address is translated under, the ordered task, and that task's domain and key once
it has committed (R332). -/
structure TxSource where
  ctx : Option Nat
  task : Option Nat
  owner : Option (Nat × Nat)
  deriving DecidableEq, Repr

/-- An update on its way to its home (R171, R274, R275): the address and, of a barrier, where it is stored. The lane is 16 for an update
that no lane waits for. -/
structure TxUpdate where
  lane : Nat
  addr : X
  key : Nat
  what : TxDo
  src : TxSource
  deriving DecidableEq, Repr

/-- A tile configuration (R222). -/
structure TileCfg where
  fmt : Fmt
  rows : Nat
  cols : Nat
  deriving DecidableEq, Repr

/-- Masks of a seat (R225). -/
structure Masks where
  row : X
  col : X
  k : X
  deriving DecidableEq, Repr

/-- What a tile or gang operation does, with its instruction's operands (R227). -/
inductive SeatKind where
  | tld (o : TldOp) | tst (o : TldOp) | tzero (o : TzeroOp) | gwld (o : GwldOp) | gmma (o : GmmaOp) | gmmas (o : GmmaOp)
  | gmmag (o : GmmagOp) | gacc (o : GaccOp) | gaccz (o : GacczOp)
  deriving DecidableEq, Repr

/-- A tile or gang operation in a seat queue (R224). -/
structure SeatOp where
  age : Nat
  lane : Nat
  kind : SeatKind
  pc : X
  bits : X
  xa : X
  xb : X
  /-- Masks captured at issue (R225). -/
  masks : Masks
  /-- Group-table entries read at issue (R240). -/
  table : List Nat
  /-- Scoreboard entry by age. -/
  sb : Option Nat
  /-- Draws of the stochastic-rounding generator taken at issue (R242). -/
  draws : List Nat
  /-- The tile configuration captured at issue (R228). -/
  cfg : TileCfg
  /-- It has started: it has arrived at the gang barrier, or runs (R233). -/
  started : Bool
  /-- Its gang has formed and runs on the array (R233). -/
  formed : Bool
  /-- The lane's firing has ended (R247, R251). -/
  ended : Bool
  /-- The launch of the firing that issued it (R34). -/
  launch : Option Nat
  /-- It is held in its queue under a gang fault group (R247). -/
  held : Option Nat
  deriving DecidableEq, Repr

/-- The kind of an accumulator (R226). -/
inductive AccKind where
  | none | fp64 | fp32 | fixi | fixl
  deriving DecidableEq, Repr

/-- A weight set of a slice (R224). -/
structure WeightSet where
  fmt : Option Fmt
  pattern : Nat
  cells : List Nat
  scales : List Nat
  deriving DecidableEq, Repr

/-- One barrier of the core, quad, die, package or pod (R368). -/
structure Barrier where
  phase : Nat
  count : Nat
  expect : Nat
  deriving DecidableEq, Repr

/-- A die, package or pod barrier with its configuration (R371, R427): GROUP, NPKG - 1 and PCOUNT are of pod barriers. -/
structure NetBarrier where
  bar : Barrier
  v : Bool
  launch : Nat
  group : Nat
  npkg : Nat
  pcount : Nat
  deriving DecidableEq, Repr

/-- A delivery that still has work to do: fanout records left and a fire message to post (R201, R202). -/
structure Delivery where
  bank : Nat
  neuron : Nat
  time : Nat
  domain : Nat
  next : Nat
  left : Nat
  post : Option (Nat × BitVec 32)
  deriving DecidableEq, Repr

/-- A TLB entry (R265). -/
structure TlbEntry where
  ctx : Nat
  level : Nat
  page : Nat
  pte : X
  deriving DecidableEq, Repr

/-- A waiting STEAL: the thief's lane, its register and the victims still to ask (R179). -/
structure StealReq where
  lane : Nat
  k : Nat
  domain : Nat
  victims : List Nat
  /-- The answer in flight: the granted range, or a refusal. -/
  answer : Option (Option (X × X × BitVec 32))
  deriving DecidableEq, Repr

/-- Control of a core (R30, R106, R215, R218, R219). -/
structure CoreCtl where
  hold : Bool
  comparators : Vector Comparator 8
  rrScalar : Nat
  rrVector : Nat
  faultSeq : BitVec 32
  cycles : X
  /-- CYCLES at the latest dispatch of a launch over its rate cap (R443). -/
  lastStart : Option X
  freq : Nat
  bars : Vector Barrier 8
  l1i : SMap Nat
  tlb : List TlbEntry
  /-- The record cache (R271): context, address and the 192 bytes, the latest used first. -/
  records : List (Option Nat × Nat × Nat)
  deriving DecidableEq, Repr

/-- Messages, spawns, steals and actors of a core (R160 to R188). -/
structure CoreMsg where
  sendSeq : BitVec 32
  sendQ : List SendItem
  arrival : List Message
  spawnQ : List Spawn
  steals : List StealReq
  /-- Actor firings that wait, by actor, each as its registration stood when it became one (R187, R188). -/
  actorWaiting : SMap Nat
  actorRunning : List Nat
  deriving DecidableEq, Repr

/-- Neuron-bank state of a core outside the bank SRAM (R195 to R209). -/
structure CoreEv where
  bankCtl : Vector X 4
  queue : List Event
  /-- Spilled events in key order, each with its entry in its domain's spill region (R197). -/
  spill : List (Event × Nat)
  overflowed : Bool
  evSeq : Nat
  deliv : BitVec 32
  fired : BitVec 32
  late : BitVec 32
  drop : BitVec 32
  fanerr : BitVec 32
  delivering : Option Delivery
  deriving DecidableEq, Repr

/-- Engine queue, scoreboard and barrier updates of a core (R141, R279). -/
structure CoreEng where
  queue : SMap EngOp
  seq : Nat
  sb : SMap SbEntry
  sbAge : Nat
  tx : List TxUpdate
  /-- Fault sequence counter of the core's engine operations (R215). -/
  faultSeq : BitVec 32
  deriving DecidableEq, Repr

/-- Tiles and Stove slice of a core (R222 to R226). -/
structure CoreStove where
  cfg : Vector TileCfg 8
  /-- The lane that owns tiles 0 to 3 and the one that owns tiles 4 to 7 (R25). -/
  owner : Vector (Option Nat) 2
  masks : Vector Masks 2
  seats : Vector (List SeatOp) 2
  acc : Vector AccKind 4
  weights : Vector WeightSet 2
  deriving DecidableEq, Repr

/-- One core (R1, R4). -/
structure Core where
  lanes : Vector Lane 16
  ctl : CoreCtl
  msg : CoreMsg
  ev : CoreEv
  eng : CoreEng
  stove : CoreStove
  deriving DecidableEq, Repr

/-! ### Quads and dies -/

/-- An open gang position after a fault at issue (R247): its group and the cores whose instance may still join. -/
structure OpenPosition where
  seat : Nat
  group : Nat
  /-- Cores (in quad) whose instance may join, with how many instances must form or be withdrawn before its turn. -/
  waiting : List (Nat × Nat)
  deriving DecidableEq, Repr

/-- One quad (R106, R247, R249, R317, R320, R368). -/
structure Quad where
  gstat : Vector X 2
  opened : List OpenPosition
  /-- Formed gangs not yet complete, oldest first: the seat and the four operation ages (R235). -/
  formed : List (Nat × List Nat)
  /-- Seats whose four operations have arrived while another gang runs, in the order of the last arrivals (R235). -/
  forming : List Nat
  tlb : List TlbEntry
  bars : Vector Barrier 8
  /-- Floors by domain ID: timestamp and tiebreak (R317). -/
  floors : SMap (X × BitVec 32)
  /-- Domains that reported nothing in the round in progress (R317). -/
  silent : List Nat
  /-- Event safe times received, by domain ID (R198, R209). -/
  safes : SMap (BitVec 32)
  /-- QENERGY and QPOWER of the island (R106, R441). -/
  energy : X
  power : X
  /-- The frequency that a change in progress ends with, in MHz (R445). -/
  target : Option Nat
  /-- It is being vacated by spatial pre-emption (R294). -/
  vacating : Bool
  /-- The island runs at 600 MHz until it falls below 100 °C (R445). -/
  hot : Bool
  /-- The commit-queue entry that pressure has freed is for the earliest task (R321). -/
  kept : Bool
  deriving DecidableEq, Repr

/-- An owner map (R163). -/
structure OwnerMap where
  base : X
  limit : X
  en : Bool
  shift : Nat
  entries : SMap (BitVec 16)
  deriving DecidableEq, Repr

/-- A per-row DMA command block (R292). -/
structure DmaBlock where
  vc : Vector Nat 4
  stat : Nat
  op : Nat
  col : Nat
  cellBase : X
  deriving DecidableEq, Repr

/-- A transient request for a line (R256). -/
structure TokenReq where
  core : Nat
  write : Bool
  attempts : Nat
  deriving DecidableEq, Repr

/-- A persistent request at a slice: of a core, or the home slice's own for a recall (R256, R257). -/
structure TokenAsk where
  line : Nat
  core : Option Nat
  write : Bool
  deriving DecidableEq, Repr

/-- The tokens of one line on one die (R255): the home's count, where the owner token lies, the caches' counts. -/
structure TokenLine where
  home : Nat
  /-- The core whose L1D holds the owner token; `none` when the home slice holds it. -/
  owner : Option Nat
  caches : SMap Nat
  /-- The die's data are newer than the package's: an L1D or the home slice holds them dirty. -/
  dirty : Bool
  transient : List TokenReq
  /-- The directory grants the die the line: it holds the 512 tokens and the owner token. -/
  granted : Bool
  deriving DecidableEq, Repr

/-- Storage queue state of an XBLK queue descriptor (R417). -/
structure BlkQueue where
  tail : Nat
  head : Nat
  phase : Bool
  /-- Commands in flight: command identifier, core and slot. -/
  inflight : SMap (Nat × Nat)
  deriving DecidableEq, Repr

/-- One compute die (R216, R253, R262, R371, R374). -/
structure Die where
  owners : SMap OwnerMap
  vmaps : SMap (SMap (BitVec 16))
  ctxs : SMap X
  tokens : SMap TokenLine
  /-- Persistent requests by home slice, in order of arrival: the first 64 are in the slice's table (R256). -/
  asks : SMap (List TokenAsk)
  dma : SMap DmaBlock
  bars : SMap NetBarrier
  rst : Nat
  inc : Nat
  fpqBase : X
  fpqSize : Nat
  fpqHead : Nat
  fpqTail : Nat
  fpqWait : List Packet
  blk : SMap BlkQueue
  /-- Ranges of vacated quads held by the die agent: domain, NEXT, END, GRAIN (R294). -/
  heldRanges : List (Nat × X × X × BitVec 32)
  deriving DecidableEq, Repr

/-! ### The package -/

/-- States of a task (R318); unordered tasks use the first two. -/
inductive TaskState where
  | queued | running | finished
  deriving DecidableEq, Repr

/-- A task in a quad's queue, on a lane or in a commit queue (R316 to R324). -/
structure Task where
  domain : Nat
  ordered : Bool
  ts : X
  tb : BitVec 32
  state : TaskState
  record : Nat
  quad : Nat
  core : Nat
  lane : Nat
  launchTask : Bool
  spilled : Bool
  /-- Where its record stands in the spill region while it is spilled, in records (R320). -/
  slot : Nat
  /-- Accepted while the quad had reported nothing (R317): its key is not yet fixed. -/
  unfixed : Bool
  spec : Bool
  /-- Finished with no effect (R175). -/
  dropped : Bool
  parent : Option Nat
  rsig : Nat
  wsig : Nat
  /-- Undo entries, the latest first: physical line and its 64 bytes (R323). -/
  undo : List (Nat × Nat)
  /-- The exact write set, by physical line (R322). -/
  wset : List Nat
  /-- The lines read, virtual and physical: by which virtual lines a physical one hits the read signatures (R322, R333). -/
  rset : List (Nat × Nat)
  deps : List Nat
  held : List Spawn
  join : Option X
  ctx : Option Nat
  deriving DecidableEq, Repr

/-- A domain slot of the Hearth window (R340, R341). -/
structure Domain where
  id : Nat
  live : Bool
  ordered : Bool
  susp : Bool
  launch : Nat
  qmap : X
  tspill : X
  tssize : X
  undo : X
  espill : X
  essize : X
  derr : Bool
  spillf : Bool
  aborts : BitVec 32
  commits : X
  safe : BitVec 32
  gvttb : BitVec 32
  gvt : X
  /-- The greatest key that the round in progress commits, timestamp × 2^32 + tiebreak (R334). -/
  top : Nat
  /-- Reserved descriptor bits as written, checked when V is set (R340). -/
  rest : X
  deriving DecidableEq, Repr

/-- Phases of a Hearth round (R334). -/
inductive RoundPhase where
  | idle | reported | formed
  deriving DecidableEq, Repr

/-- The Hearth (R334, R339). -/
structure Hearth where
  hround : Nat
  rounds : BitVec 32
  domains : SMap Domain
  tasks : SMap Task
  nextTask : Nat
  phase : RoundPhase
  /-- The domains that take part in the round in progress, or took part in the latest (R334). -/
  doms : List Nat
  /-- The finished tasks that the round's reports hold (R335, R336). -/
  sealed : List Nat
  /-- Reports of the round: quad, domain ID, least unfinished key and greatest finished key (R335). -/
  reports : List (Nat × Nat × Option Nat × Option Nat)
  /-- Least event or fire time that the quads reported, by domain ID (R337). -/
  ahead : SMap Nat
  /-- Quads that the round's values have not yet reached. -/
  pendingQuads : List Nat
  deriving DecidableEq, Repr

/-- A JOINAT registration (R172). -/
structure JoinReg where
  addr : Nat
  spawn : Spawn
  deriving DecidableEq, Repr

/-- A live launch (R34, R413). -/
structure Launch where
  tag : X
  request : X
  quads : List Nat
  ctx : Nat
  ctxB : Option Nat
  /-- The context of each copy of a paired launch, by the die it runs on (R296, R297). -/
  copies : SMap Nat
  /-- The third copy has been started (R297). -/
  third : Bool
  root : Nat
  /-- Virtual-core and owner map of the launch, by die (R163, R253). -/
  vmap : SMap Nat
  omap : SMap Nat
  account : Nat
  flues : Nat
  elastic : Bool
  paired : Bool
  /-- Pod group (R413, R419): GV, GROUP, RANK, member table and MCNT. -/
  gv : Bool
  group : Nat
  rank : Nat
  mtab : Nat
  mcnt : Nat
  /-- Output regions of a paired launch (R296): base, length, mirror offset. -/
  outs : List (Nat × Nat × Nat)
  /-- CELLBASE (R291). -/
  cellar : X
  /-- Virtual core numbers of parked quads that a spatial pre-emption mapped to surviving cores (R294). -/
  moved : List Nat
  /-- The quads not yet vacated under a spatial pre-emption (R294). -/
  vacate : List Nat
  /-- Quads that are in the Cellar, each by the handle of its core 0's image (R293, R294). -/
  parked : List Nat
  deriving DecidableEq, Repr

/-- A flue with its two ends (R361 to R367). -/
structure Flue where
  drops : Nat
  turns : Nat
  /-- PWR: 0 Active, 1 Drowsy, 2 Waking, 3 Down (R366). -/
  pwr : Nat
  /-- Targets queued at end B and at end A, oldest first (R364). -/
  qb : List Nat
  qa : List Nat
  /-- The turn in progress: the GAB it ends with (R364). -/
  turning : Option Nat
  /-- When the latest turn started (R364). -/
  started : Option X
  lastb : Bool
  gab : Nat
  pin : Bool
  idle : Nat
  /-- Link sequences of the directions A→B and B→A: the next to send and the next to deliver (R362). -/
  sendAB : BitVec 16
  recvAB : BitVec 16
  sendBA : BitVec 16
  recvBA : BitVec 16
  /-- The oldest packet of each direction that is not acknowledged (R362). -/
  ackAB : BitVec 16
  ackBA : BitVec 16
  /-- Consecutive retries of the oldest unacknowledged packet in each direction (R362). -/
  failsAB : Nat
  failsBA : Nat
  deriving DecidableEq, Repr

/-- One Horn port (R418). -/
structure HornPort where
  /-- STATE: 0 Active, 1 Training, 3 Down. -/
  state : Nat
  /-- RETRY: flits sent again. -/
  retry : Nat
  /-- DOWNS: entries into Down. -/
  downs : Nat
  /-- The next flit to send, the next to deliver, and the oldest sent that is not acknowledged. -/
  sendSeq : BitVec 16
  recvSeq : BitVec 16
  ackSeq : BitVec 16
  /-- Consecutive retries of the oldest unacknowledged flit. -/
  fails : Nat
  deriving DecidableEq, Repr

/-- An energy account (R442). -/
structure Account where
  launch : BitVec 32
  paused : Bool
  v : Bool
  cap : BitVec 32
  /-- The cap in force: CAP as it stood at the latest charge (R443). -/
  capNow : BitVec 32
  pwr : BitVec 32
  allow : X
  charged : X
  /-- What the division of shared islands' energy has left uncharged of 1 µJ, as a numerator and a divisor (R441). -/
  rest : Nat × Nat
  /-- What the launch was charged in each of the latest 64 µs, in µJ, the latest first (R442). -/
  recent : List Nat
  deriving DecidableEq, Repr

/-- The directory's view of a line: the dies that hold it and whether one may write it (R353). -/
structure DirLine where
  dies : List Nat
  exclusive : Bool
  host : Bool
  /-- The die that holds the owner token (R353). -/
  owner : Option Nat
  deriving DecidableEq, Repr

/-- What a target answers to a sector of another package's operation (R421): the bytes that a GET reads, that it has applied the
sector, that its check failed, or that its data are poisoned. -/
inductive PodReply where
  | data (d : BitVec 256)
  | applied
  | refused
  | poisoned
  deriving DecidableEq, Repr

/-- An answer sent to another package: to which, for which operation and sector (R421, R422). -/
structure PodAnswer where
  dst : Nat
  opId : Nat
  sector : Nat
  reply : PodReply
  deriving DecidableEq, Repr

/-- What a log or energy record says (R297, R443): the copy outvoted in a launch, or what a paused launch was charged. -/
inductive RecordText where
  | outvoted (launch copy : Nat)
  | energy (launch charged : Nat)
  deriving DecidableEq, Repr

/-- A log or energy record (R440): its source, the source's sequence number and the time base when it was formed. -/
structure LogRecord where
  src : Nat
  seq : Nat
  gtime : X
  text : RecordText
  deriving DecidableEq, Repr

/-- The host link: BAR 0 window, spawn windows, attestation (R412, R415, R446, R449). -/
structure HostLink where
  taken : BitVec 32
  ldrop : BitVec 16
  busy : Bool
  /-- The launch command that waits: REQ and the host tag. -/
  command : Option (X × BitVec 32)
  spwstat : X
  spwlast : BitVec 512
  attdrop : X
  bootstat : X
  /-- The attestation in progress: result address and nonce. -/
  attest : Option (X × BitVec 256)
  faultSeq : BitVec 32
  /-- Spawn records stored to the spawn windows, on their way to a quad (R415). -/
  spawnQ : List Spawn
  /-- What the latest read by the host returned (R396, R412). -/
  answer : BitVec 512
  deriving DecidableEq, Repr

/-- What an image in the Cellar stands for beyond the bytes that the spec lays out in it (R291) (DESIGN CHOICE, log entry 43). -/
structure Saved where
  core : Core
  /-- The core that was saved. -/
  home : Nat
  /-- It has not been restored: it is the only copy of what it holds. -/
  live : Bool
  deriving DecidableEq, Repr

/-- The device identity key pair with the certificate of its public key (R448). -/
structure Identity where
  secretKey : BitVec 456
  publicKey : BitVec 456
  certificate : BitVec 912
  deriving DecidableEq, Repr

/-- Package-level state (R352 to R371, R418 to R449). -/
structure Pkg where
  shared : Nat
  directory : SMap DirLine
  /-- State of the blocks that are not stored raw: 1 for 2:1, 2 for 4:1, 3 all-zero (R359). -/
  blocks : SMap Nat
  flues : SMap Flue
  bars : SMap NetBarrier
  podBars : SMap NetBarrier
  accounts : SMap Account
  /-- Energy and power meters of the shared islands 640 to 1,023 (R441). -/
  islands : SMap (X × X)
  /-- The ready map and the failed map, bit 8n + i for bit i of byte n (R437). -/
  ready : Nat
  failed : Nat
  joins : List JoinReg
  launches : SMap Launch
  nextLaunch : Nat
  applied : SMap (List Nat)
  host : HostLink
  measure : Vector (BitVec 512) 4
  /-- The identity that the boot ROM has derived (R448). -/
  identity : Option Identity
  pkgId : Nat
  routes : SMap X
  horn : SMap HornPort
  inc : Nat
  /-- Saved cores, by the handle that their image holds (R291). -/
  cellar : SMap Saved
  /-- The quad barriers of saved quads, by the handle of core 0's image (R291, R368). -/
  cellarBars : SMap (Vector Barrier 8)
  /-- Log and energy records, in order (R297, R440, R443). -/
  records : List LogRecord
  /-- The latest answer sent to another package (R421). -/
  podAnswer : Option PodAnswer
  down : Bool
  deriving DecidableEq, Repr

/-! ### The machine -/

/-- An event step that the machine itself brings about: each stands for the row of its name (DESIGN CHOICE, log entry 1). -/
inductive Due where
  | dispatch (core : Nat)
  | laneUnblock (core lane : Nat)
  | resultArrival (core lane idx : Nat)
  | storePerformed (core lane : Nat)
  | faultFreeze (core lane : Nat)
  | faultRingWrite (die : Nat)
  | messageAccept (src dst : Nat)
  | sendQueueReoffer (src dst : Nat)
  | remotePushAccept (src dst : Nat)
  | taskAccept (core : Nat)
  | taskSpillReturn (quad : Nat)
  | stealRequest (core lane : Nat)
  | stealAnswer (core lane : Nat)
  | eventAccept (src dst : Nat)
  | eventSpillReturn (core : Nat)
  | eventDelivery (core : Nat)
  | eventDiscard (core : Nat)
  | fanoutEmit (core : Nat)
  | fireMessagePost (core : Nat)
  | asyncOpStart (core queue slot : Nat)
  | gangForm (quad seat : Nat)
  | gangComplete (quad : Nat)
  | tileOpComplete (core seat : Nat)
  | sectorComplete (core slot sector : Nat)
  | txBarrierUpdate (core : Nat)
  | reduceSectorApply (core slot sector : Nat)
  | bankSectorApply (core slot sector : Nat)
  | backInvalidate (line : Nat)
  | dieResetEnter (die : Nat)
  | dieRejoinComplete (die : Nat)
  | dmaDone (die row : Nat) (ok : Bool)
  | freqChangeDone (quad : Nat)
  | podBarrierArrival (id : Nat)
  | podBarrierRelease (id : Nat)
  | flueTurnStart (flue : Nat)
  | flueGroupTurned (flue : Nat)
  | flueTrained (flue : Nat)
  | attestationReport
  | hearthRootForm
  | hearthValuesArrive (quad : Nat)
  | taskAbort (task : Nat)
  | persistentDeactivate (die line : Nat)
  | directoryRequest (die line : Nat) (write : Bool)
  | directoryRecall (die line : Nat) (all : Bool)
  | transientRequest (core line : Nat) (write : Bool)
  | hostMemRead (pa n : Nat)
  | hostMemWrite (pa n : Nat) (value : BitVec 512)
  | podPacketReceive (pkt : PodPacket) (line : Nat) (write : Bool)
  deriving DecidableEq, Repr

/-- A step of the agenda: an event of the machine itself, an event step from outside it, or the next issue of one lane
or of one core (DESIGN CHOICE, log entry 1). -/
inductive Turn where
  | due (d : Due)
  | event (i : Instr)
  | lane (core lane : Nat)
  | core (core : Nat)
  /-- The vector slot of a core, in a cycle in which the scalar slot went to `taken`. -/
  | vector (core : Nat) (taken : Option Nat)
  deriving DecidableEq, Repr

/-- The order of the steps: what is due, the core in focus, the lane whose instruction issues and that instruction's
bits, the context of firings of no launch, the firmware's choices for third copies, the time base and the count of free values drawn
(DESIGN CHOICE, log entries 1, 4, 6 and 30). -/
structure Sched where
  agenda : List Turn
  focus : Nat
  /-- The last step was a core's turn: the next one takes what is due first. -/
  flip : Bool
  core : Nat
  lane : Nat
  bits : X
  /-- The lane's dead and full marks as its instruction issued. -/
  marks : Marks
  fwCtx : Option Nat
  /-- What the firmware will choose for the third copies of paired launches to come, in order (R297). -/
  plans : List LaunchPlan
  gtime : X
  freeCtr : Nat
  deriving DecidableEq, Repr

/-- The machine. -/
structure State where
  mem : Memory
  /-- Poisoned LM words and memory lines, by address, rising (R136, R153). -/
  poison : List Nat
  cores : SMap Core
  quads : SMap Quad
  dies : SMap Die
  hearth : Hearth
  pkg : Pkg
  sched : Sched
  deriving DecidableEq, Repr

/-! ### Reset -/

/-- The registers of a lane at reset (DESIGN CHOICE, log entry 3). -/
def Regs.reset : Regs := ⟨Vector.replicate 32 0, Vector.replicate 32 0, Vector.replicate 8 0⟩

/-- No firing (R15, R23). -/
def Firing.reset : Firing := ⟨.none, 0, 0, false, 0, 0, none, none, 0, none, [], 0, none⟩

/-- The lane-state block at reset: XFULL, VFULL all ones and SRSTATE 1 (R23). -/
def Frame.reset : Frame := ⟨Regs.reset, BitVec.ofNat 512 (2 ^ 352 + (2 ^ 64 - 1) * 2 ^ 64), false⟩

/-- No LOOP active (R99). -/
def LoopState.reset : LoopState := ⟨0, 0, 0, none, [], false⟩

/-- No freeze in progress (R218). -/
def FreezeCtl.reset : FreezeCtl := ⟨false, false, false, false, none, none, none, none⟩

/-- A lane at reset (R23) (DESIGN CHOICE, log entry 3). -/
def Lane.reset : Lane :=
  { regs := Regs.reset, marks := ⟨BitVec.allOnes 32, BitVec.allOnes 32, 0, 0⟩, pc := 0, firing := Firing.reset,
    loop := LoopState.reset, lcnt := 0, scnt := 0, oldStores := 0, instcnt := 0, sr := 1, status := .free, wait := none,
    results := [], aged := false, waitCount := 0,
    frz := FreezeCtl.reset, ras := [], frame := Frame.reset, firstTry := none, group := none, waitInstr := 0 }

/-- A barrier at reset (DESIGN CHOICE, log entry 3). -/
def Barrier.reset : Barrier := ⟨0, 0, 0⟩

/-- A die, package or pod barrier at reset (R371, R427) (DESIGN CHOICE, log entry 3). -/
def NetBarrier.reset : NetBarrier := ⟨Barrier.reset, false, 0, 0, 0, 0⟩

/-- A weight set at reset: empty, with format none (R224). -/
def WeightSet.reset : WeightSet := ⟨none, 0, [], []⟩

/-- A core at reset (DESIGN CHOICE, log entry 3). -/
def Core.reset : Core :=
  { lanes := Vector.replicate 16 Lane.reset
    ctl := { hold := false, comparators := Vector.replicate 8 ⟨0, 0, 0, false, false, false, 0⟩, rrScalar := 15,
             rrVector := 15, faultSeq := 0, cycles := 0, lastStart := none, freq := 1700, bars := Vector.replicate 8 Barrier.reset,
             l1i := [], tlb := [], records := [] }
    msg := ⟨0, [], [], [], [], [], []⟩
    ev := ⟨Vector.replicate 4 0, [], [], false, 0, 0, 0, 0, 0, 0, none⟩
    eng := ⟨[], 0, [], 0, [], 0⟩
    stove := { cfg := Vector.replicate 8 ⟨.ui8, 64, 128⟩, owner := Vector.replicate 2 none,
               masks := Vector.replicate 2 ⟨BitVec.allOnes 64, BitVec.allOnes 64, BitVec.allOnes 64⟩,
               seats := Vector.replicate 2 [], acc := Vector.replicate 4 .none,
               weights := Vector.replicate 2 WeightSet.reset } }

/-- A quad at reset (DESIGN CHOICE, log entry 3). -/
def Quad.reset : Quad :=
  ⟨Vector.replicate 2 0, [], [], [], [], Vector.replicate 8 Barrier.reset, [], [], [], 0, 0, none, false, false, false⟩

/-- An owner map at reset (R163). -/
def OwnerMap.reset : OwnerMap := ⟨0, 0, false, 6, []⟩

/-- The tokens of a line that the directory does not grant the die (R255) (DESIGN CHOICE, log entry 3). -/
def TokenLine.reset : TokenLine := ⟨0, none, [], false, [], false⟩

/-- A DMA command block at reset (R292). -/
def DmaBlock.reset : DmaBlock := ⟨Vector.replicate 4 0, 0, 0, 0, 0⟩

/-- A die at reset. -/
def Die.reset : Die := ⟨[], [], [], [], [], [], [], 0, 0, 0, 0, 0, 0, [], [], []⟩

/-- A domain slot at reset: all zero (R340, R341). -/
def Domain.reset : Domain :=
  ⟨0, false, false, false, 0, 0, 0, 0, 0, 0, 0, false, false, 0, 0, 0, 0, 0, 0, 0⟩

/-- A flue at reset (R361): `gab` is 8 for a flue to the Larder and 4 for a ring flue (DESIGN CHOICE, log entry 3). -/
def Flue.reset (gab : Nat) : Flue := ⟨0, 0, 3, [], [], none, none, false, gab, false, 20, 0, 0, 0, 0, 0, 0, 0, 0⟩

/-- A Horn port at reset (R418) (DESIGN CHOICE, log entry 3). -/
def HornPort.reset : HornPort := ⟨3, 0, 0, 0, 0, 0, 0⟩

/-- An energy account at reset (R442). -/
def Account.reset : Account := ⟨0, false, false, 0, 0, 0, 0, 0, (0, 1), []⟩

/-- The package at reset (DESIGN CHOICE, log entry 3 names the values the manual does not give) (DEDUCED, log entry 8). -/
def Pkg.reset : Pkg :=
  { shared := 4, directory := [], blocks := [], flues := [], bars := [], podBars := [], accounts := [], islands := [], ready := 0, failed := 0,
    joins := [], launches := [], nextLaunch := 1, applied := [],
    host := ⟨0, 0, false, none, 0, 0, 0, 0, none, 0, [], 0⟩, measure := Vector.replicate 4 0, identity := none, pkgId := 0, routes := [],
    horn := [], inc := 0, cellar := [], cellarBars := [], records := [], podAnswer := none, down := false }

/-- The machine right after reset (DESIGN CHOICE, log entry 3). -/
def State.reset : State :=
  { mem := [], poison := [], cores := [], quads := [], dies := []
    hearth := ⟨512, 0, [], [], 1, .idle, [], [], [], [], []⟩
    pkg := Pkg.reset
    sched := { agenda := [], focus := 0, flip := false, core := 0, lane := 0, bits := 0, marks := ⟨0, 0, 0, 0⟩, fwCtx := none, plans := [], gtime := 0, freeCtr := 0 } }

end Sys2Proof.Machine
end

