-- ==== Sys2Proof/Machine/Bits.lean ====
section
/-! DEFINITION. Sparse tables, the canonical memory, and the accessors of the state's parts. -/

namespace Sys2Proof.Machine

/-! ### Sparse tables -/

/-- The value of a key. -/
def smGet {α : Type} : SMap α → Nat → Option α
  | [], _ => none
  | (k, v) :: t, n => if k = n then some v else if n < k then none else smGet t n

/-- The value of a key, or a default. -/
def smGetD {α : Type} (m : SMap α) (n : Nat) (d : α) : α := (smGet m n).getD d

/-- Sets the value of a key, keeping the keys in rising order. -/
def smSet {α : Type} : SMap α → Nat → α → SMap α
  | [], n, v => [(n, v)]
  | (k, w) :: t, n, v => if k = n then (n, v) :: t else if n < k then (n, v) :: (k, w) :: t else (k, w) :: smSet t n v

/-- Removes a key. -/
def smDel {α : Type} (m : SMap α) (n : Nat) : SMap α := m.filter (fun e => e.1 ≠ n)

/-- Adds a number to a rising list without repeats. -/
def insertNat : List Nat → Nat → List Nat
  | [], n => [n]
  | k :: t, n => if k = n then k :: t else if n < k then n :: k :: t else k :: insertNat t n

/-! ### Memory -/

/-- Address of LM offset `o` of core `c` in the memory list (R135) (DESIGN CHOICE, log entry 2). -/
def lmKey (c o : Nat) : Nat := 2 ^ 45 + c * 2 ^ 19 + o

/-- Address of byte `o` of the bank SRAM of core `c` (R193) (DESIGN CHOICE, log entry 2). -/
def bankKey (c o : Nat) : Nat := 2 ^ 46 + c * 2 ^ 17 + o

/-- Address of byte `o` of physical tile `t` of core `c` (R222) (DESIGN CHOICE, log entry 2). -/
def tileKey (c t o : Nat) : Nat := 2 ^ 47 + c * 2 ^ 16 + t * 8192 + o

/-- Address of byte `o` of accumulator `a` of core `c`: 64 rows of 16 cells of 8 bytes (R226) (DESIGN CHOICE, log entry 2). -/
def accKey (c a o : Nat) : Nat := 2 ^ 48 + c * 2 ^ 15 + a * 8192 + o

/-- Address of offset `o` of the Larder's shared space (R352) (DESIGN CHOICE, log entry 2). -/
def larderKey (o : Nat) : Nat := 2 ^ 44 + o

/-- The bytes of a core's LM that reset to a value other than zero: the low byte of GRAIN of each range register
(R136, R176) (DESIGN CHOICE, log entry 2). -/
def lmReset (o : Nat) : Byte := if o = 0x7F00C ∨ o = 0x7F02C ∨ o = 0x7F04C ∨ o = 0x7F06C then 1 else 0

/-- What an unlisted address reads as (DESIGN CHOICE, log entry 2). -/
def unlisted (a : Nat) : Byte := if 2 ^ 45 ≤ a ∧ a < 2 ^ 46 then lmReset (a % 2 ^ 19) else 0

/-- The byte at an address (DESIGN CHOICE, log entry 2). -/
def memGet : Memory → Nat → Byte
  | [], a => unlisted a
  | (k, b) :: t, a => if k = a then b else if a < k then unlisted a else memGet t a

/-- The list with the byte of one address set; a byte equal to `unlisted` is not listed (DESIGN CHOICE, log entry 2). -/
def memSet : Memory → Nat → Byte → Memory
  | [], a, b => if b = unlisted a then [] else [(a, b)]
  | (k, v) :: t, a, b =>
    if k = a then (if b = unlisted a then t else (a, b) :: t)
    else if a < k then (if b = unlisted a then (k, v) :: t else (a, b) :: (k, v) :: t)
    else (k, v) :: memSet t a b

/-- Every address of the list is above `lo`, they rise, and no entry equals what an unlisted address reads as. -/
def memWfFrom : Option Nat → Memory → Bool
  | _, [] => true
  | lo, (k, b) :: t => (lo.all (· < k)) && b != unlisted k && memWfFrom (some k) t

/-- The canonical form of a memory (DESIGN CHOICE, log entry 2). -/
def Memory.wf (m : Memory) : Bool := memWfFrom none m

/-- The `n` bytes from `a` as a little-endian number (R9). -/
def memRead (m : Memory) (a : Nat) : Nat → Nat
  | 0 => 0
  | n + 1 => (memGet m a).toNat + 256 * memRead m (a + 1) n

/-- Writes the `n` low bytes of a number from `a` on, little-endian (R9). -/
def memWrite (m : Memory) (a : Nat) : Nat → Nat → Memory
  | 0, _ => m
  | n + 1, v => memWrite (memSet m a (BitVec.ofNat 8 v)) (a + 1) n (v / 256)

/-- Writes cells one by one. -/
def memWriteCells (m : Memory) (cells : List Host.Cell) : Memory := cells.foldl (fun m c => memSet m c.1 c.2) m

/-- The memory with `n` bytes from `src` copied to `dst`, for two areas whose unlisted bytes read alike. -/
def memCopy (m : Memory) (src dst n : Nat) : Memory :=
  let moved := (m.filter (fun c => src ≤ c.1 ∧ c.1 < src + n)).map (fun c => (c.1 - src + dst, c.2))
  memWriteCells (m.filter (fun c => ¬ (dst ≤ c.1 ∧ c.1 < dst + n))) moved

/-- The memory with `n` bytes from `a` on returned to their reset contents. -/
def memClear (m : Memory) (a n : Nat) : Memory := m.filter (fun c => ¬ (a ≤ c.1 ∧ c.1 < a + n))

/-! ### Parts of the state -/

/-- Core `c`. -/
def coreOf (s : State) (c : Nat) : Core := smGetD s.cores c Core.reset

/-- Replaces core `c`. -/
def setCore (s : State) (c : Nat) (k : Core) : State := { s with cores := smSet s.cores c k }

/-- Applies a function to core `c`. -/
def onCore (s : State) (c : Nat) (f : Core → Core) : State := setCore s c (f (coreOf s c))

/-- A lane number as an index. -/
def laneIx (l : Nat) : Fin 16 := ⟨l % 16, Nat.mod_lt _ (by decide)⟩

/-- Lane `l` of core `c`. -/
def laneOf (s : State) (c l : Nat) : Lane := (coreOf s c).lanes[laneIx l]

/-- Replaces lane `l` of a core. -/
def setLaneC (k : Core) (l : Nat) (x : Lane) : Core := { k with lanes := k.lanes.set (laneIx l) x }

/-- Replaces lane `l` of core `c`. -/
def setLane (s : State) (c l : Nat) (x : Lane) : State := onCore s c (fun k => setLaneC k l x)

/-- Applies a function to lane `l` of core `c`. -/
def onLaneAt (s : State) (c l : Nat) (f : Lane → Lane) : State := setLane s c l (f (laneOf s c l))

/-- The lane whose instruction issues. -/
def cur (s : State) : Lane := laneOf s s.sched.core s.sched.lane

/-- Replaces the lane whose instruction issues. -/
def setCur (s : State) (x : Lane) : State := setLane s s.sched.core s.sched.lane x

/-- The core of the issuing lane. -/
def curCore (s : State) : Core := coreOf s s.sched.core

/-- Applies a function to the core of the issuing lane. -/
def onCurCore (s : State) (f : Core → Core) : State := onCore s s.sched.core f

/-- Die of a core ID (R4). -/
def dieNo (c : Nat) : Nat := c / 512 % 8

/-- Row of a core ID (R4). -/
def rowNo (c : Nat) : Nat := c / 32 % 16

/-- Column of a core ID (R4). -/
def colNo (c : Nat) : Nat := c / 4 % 8

/-- Core in quad of a core ID (R4). -/
def inQuad (c : Nat) : Nat := c % 4

/-- A supervisor core (R4). -/
def isSup (c : Nat) : Bool := decide (c < 4096) && rowNo c == 15 && decide (colNo c < 4) && inQuad c == 0

/-- A core ID that names one of the 2,560 cores (R4). -/
def isCompute (c : Nat) : Bool := decide (c < 4096) && decide (rowNo c < 10)

/-- A core ID that names a core (R4). -/
def namesCore (c : Nat) : Bool := isCompute c || isSup c

/-- Quad number of a core: die × 80 + row × 8 + col (R340). A supervisor core has a number of its own above them. -/
def quadNo (c : Nat) : Nat :=
  if isSup c then 640 + dieNo c * 4 + colNo c else dieNo c * 80 + rowNo c * 8 + colNo c

/-- Core `j` of a quad number. -/
def quadCore (q j : Nat) : Nat := q / 80 * 512 + q % 80 / 8 * 32 + q % 8 * 4 + j

/-- Quad `q`. -/
def quadOf (s : State) (q : Nat) : Quad := smGetD s.quads q Quad.reset

/-- Applies a function to quad `q`. -/
def onQuad (s : State) (q : Nat) (f : Quad → Quad) : State := { s with quads := smSet s.quads q (f (quadOf s q)) }

/-- Die `d`. -/
def dieOf (s : State) (d : Nat) : Die := smGetD s.dies d Die.reset

/-- Applies a function to die `d`. -/
def onDie (s : State) (d : Nat) (f : Die → Die) : State := { s with dies := smSet s.dies d (f (dieOf s d)) }

/-- Applies a function to the Hearth. -/
def onHearth (s : State) (f : Hearth → Hearth) : State := { s with hearth := f s.hearth }

/-- Applies a function to the package. -/
def onPkg (s : State) (f : Pkg → Pkg) : State := { s with pkg := f s.pkg }

/-- Applies a function to memory. -/
def onMem (s : State) (f : Memory → Memory) : State := { s with mem := f s.mem }

/-- Adds a step to those that are due, after the others (DESIGN CHOICE, log entry 1). -/
def due (s : State) (t : Turn) : State := { s with sched := { s.sched with agenda := s.sched.agenda ++ [t] } }

/-- Adds an event of the machine to those that are due (DESIGN CHOICE, log entry 1). -/
def dueEvent (s : State) (d : Due) : State := due s (.due d)

/-- Counts one free value drawn (DESIGN CHOICE, log entry 4). -/
def draw (s : State) : State := { s with sched := { s.sched with freeCtr := s.sched.freeCtr + 1 } }

/-! ### Bits -/

/-- The low `n` bits of a number, sign-extended to an integer. -/
def sgn (n v : Nat) : Int := if 2 * (v % 2 ^ n) < 2 ^ n then (v % 2 ^ n : Nat) else ((v % 2 ^ n : Nat) : Int) - 2 ^ n

/-- An integer modulo 2^n. -/
def wrap (n : Nat) (i : Int) : Nat := (i % (2 ^ n : Nat)).toNat

/-- Replaces bits `[lo+n-1:lo]` of a number. -/
def putBits (w lo n v : Nat) : Nat := w - bits w lo n * 2 ^ lo + v % 2 ^ n * 2 ^ lo

/-- Saturating increment of a word. -/
def satInc {n : Nat} (b : BitVec n) : BitVec n := if b = BitVec.allOnes n then b else b + 1

/-- The last of a list of candidates that is best; the first on ties. -/
def bestBy {α : Type} (better : α → α → Bool) : List α → Option α
  | [] => none
  | a :: t => some (t.foldl (fun m b => if better b m then b else m) a)

end Sys2Proof.Machine
end

