-- ==== Sys2Proof/Machine/Operands.lean ====
section
/-! DEFINITION. Reading and writing the lane's registers: full, empty and dead registers, payload registers, the waits
and faults they raise (R26, R27, R44, R45). -/

namespace Sys2Proof.Machine

/-- Why an instruction does not complete: a fault with its data address (R211), a condition to wait for (R24), or an
access that the manual gives no meaning. -/
inductive Stop where
  | fault (code : FaultCode) (addr : X)
  | wait (w : Wait)
  | stuck (f : Fault)
  deriving DecidableEq, Repr

/-- A fault without a data address. -/
def trap {α : Type} (c : FaultCode) : Except Stop α := .error (.fault c 0)

/-- A fault with a data address. -/
def trapAt {α : Type} (c : FaultCode) (a : X) : Except Stop α := .error (.fault c a)

/-- The lane waits. -/
def waitFor {α : Type} (w : Wait) : Except Stop α := .error (.wait w)

/-- Stops with a fault unless a condition holds. -/
def need (ok : Bool) (c : FaultCode) : Except Stop Unit := if ok then .ok () else trap c

/-- Waits unless a condition holds. -/
def await (ok : Bool) (w : Wait) : Except Stop Unit := if ok then .ok () else waitFor w

/-- A register operand that an instruction reads. -/
inductive Opnd where
  | x (s : Src)
  | v (s : Src)
  deriving DecidableEq, Repr

/-- A register that an instruction writes. -/
inductive Dst where
  | x (r : Reg)
  | v (r : Reg)
  deriving DecidableEq, Repr

/-- A source read with L = 0 and F = block (R42, R43, R48). -/
def plain (r : Reg) : Src := ⟨r, false, false⟩

/-- The field names a payload register (R45). -/
def isPayload (s : Src) : Bool := s.last && s.trap

/-- x register `r` is full; x0 always is (R26). -/
def xFull (l : Lane) (r : Reg) : Bool := r == 0 || l.marks.xfull.getLsb r

/-- v register `r` is full. -/
def vFull (l : Lane) (r : Reg) : Bool := l.marks.vfull.getLsb r

/-- x register `r` is dead; x0 never is (R26). -/
def xDead (l : Lane) (r : Reg) : Bool := r != 0 && l.marks.xdead.getLsb r

/-- v register `r` is dead. -/
def vDead (l : Lane) (r : Reg) : Bool := l.marks.vdead.getLsb r

/-- What an operand makes the instruction wait for (R27): an empty register read with F = block (DEDUCED, log entry 10). -/
def opndWait (l : Lane) : Opnd → Option Wait
  | .x s => if xFull l s.reg || s.trap || xDead l s.reg then none else some (.xfull s.reg)
  | .v s => if isPayload s || vFull l s.reg || s.trap || vDead l s.reg then none else some (.vfull s.reg)

/-- What a destination makes the instruction wait for: an empty register (R27). -/
def dstWait (l : Lane) : Dst → Option Wait
  | .x r => if xFull l r then none else some (.xfull r)
  | .v r => if vFull l r then none else some (.vfull r)

/-- The fault of reading an operand (R27): a dead register, or an empty one read with F = trap (DEDUCED, log entry 10). -/
def opndFault (l : Lane) : Opnd → Option FaultCode
  | .x s => if xDead l s.reg then some .deadReg else if xFull l s.reg then none else some .emptyReg
  | .v s =>
    if isPayload s then none else if vDead l s.reg then some .deadReg else if vFull l s.reg then none else some .emptyReg

/-- The operand is a payload register outside a handler firing (R17) (DEDUCED, log entry 10). -/
def opndIllegal (l : Lane) : Opnd → Bool
  | .x _ => false
  | .v s => isPayload s && l.firing.kind != .handler

/-- The operand checks of an instruction, in the order of R212: illegal payload names, waits (R29), then empty and
dead registers in field order (DEDUCED, log entry 10). -/
def gate (l : Lane) (srcs : List Opnd) (dsts : List Dst) : Except Stop Unit :=
  if srcs.any (opndIllegal l) then trap .illegal
  else match srcs.findSome? (opndWait l) with
    | some w => waitFor w
    | none => match dsts.findSome? (dstWait l) with
      | some w => waitFor w
      | none => match srcs.findSome? (opndFault l) with
        | some c => trap c
        | none => .ok ()

/-- Value of x register `r`; x0 reads as zero (R22). -/
def getX (l : Lane) (r : Reg) : X := if r = 0 then 0 else l.regs.x[r]

/-- Value of a v operand: a v register, or a payload vector, zero when the message did not carry it (R27). -/
def getV (l : Lane) (s : Src) : V := if isPayload s then (l.firing.payload[s.reg.val]?).getD 0 else l.regs.v[s.reg]

/-- Value of predicate register `r`; p0 is all-true (R17). -/
def getP (l : Lane) (r : PReg) : P := if r = 0 then BitVec.allOnes 32 else l.regs.p[r]

/-- Sets bit `r` of a register mask. -/
def setBit (m : BitVec 32) (r : Reg) : BitVec 32 := m ||| BitVec.twoPow 32 r

/-- Clears bit `r` of a register mask. -/
def clearBit (m : BitVec 32) (r : Reg) : BitVec 32 := m &&& ~~~ (BitVec.twoPow 32 r)

/-- Marks a last-use operand dead (R27). -/
def killOpnd (l : Lane) : Opnd → Lane
  | .x s => if s.last && s.reg != 0 then { l with marks := { l.marks with xdead := setBit l.marks.xdead s.reg } } else l
  | .v s =>
    if s.last && !s.trap then { l with marks := { l.marks with vdead := setBit l.marks.vdead s.reg } } else l

/-- Marks every last-use operand dead after the instruction has read its sources (R27). -/
def kill (l : Lane) (srcs : List Opnd) : Lane := srcs.foldl killOpnd l

/-- Writes x register `r` and makes it live; a write to x0 is discarded (R27, R44). -/
def putX (l : Lane) (r : Reg) (a : X) : Lane :=
  if r = 0 then l
  else { l with regs := { l.regs with x := l.regs.x.set r a }, marks := { l.marks with xdead := clearBit l.marks.xdead r } }

/-- Writes v register `r` and makes it live (R27). -/
def putV (l : Lane) (r : Reg) (a : V) : Lane :=
  { l with regs := { l.regs with v := l.regs.v.set r a }, marks := { l.marks with vdead := clearBit l.marks.vdead r } }

/-- Writes predicate register `r`; a write to p0 is discarded (R44). -/
def putP (l : Lane) (r : PReg) (a : P) : Lane :=
  if r = 0 then l else { l with regs := { l.regs with p := l.regs.p.set r a } }

/-- A long-latency producer empties its destination, which ends live; x0 stays full (R26, R27, R44). -/
def emptyDest (l : Lane) : Dest → Lane
  | .x r =>
    if r = 0 then l
    else { l with marks := { l.marks with xfull := clearBit l.marks.xfull r, xdead := clearBit l.marks.xdead r } }
  | .v r => { l with marks := { l.marks with vfull := clearBit l.marks.vfull r, vdead := clearBit l.marks.vdead r } }

/-- Writes a long-latency result and sets its register full (R26). -/
def fillDest (l : Lane) (d : Dest) (a : V) : Lane :=
  match d with
  | .x r =>
    if r = 0 then l
    else { l with regs := { l.regs with x := l.regs.x.set r (a.setWidth 64) },
                  marks := { l.marks with xfull := setBit l.marks.xfull r } }
  | .v r => { l with regs := { l.regs with v := l.regs.v.set r a }, marks := { l.marks with vfull := setBit l.marks.vfull r } }

/-- Sign-extends the low `n` bits of a word (R84). -/
def sext (n : Nat) (a : X) : X := BitVec.ofInt 64 (sgn n a.toNat)

end Sys2Proof.Machine
end

