-- ==== Sys2Proof/Machine/Flags.lean ====
section
/-! DEFINITION. Conditions and predicates. No instruction keeps flags (R84): comparisons write a register or a predicate,
or decide a branch (R90, R95, R96). -/

namespace Sys2Proof.Machine

/-- The condition holds between two words (R90). -/
def condHolds (c : Cond) (a b : X) : Bool :=
  match c with
  | .eq => a == b
  | .ne => a != b
  | .lt => a.slt b
  | .le => a.sle b
  | .ltu => a.ult b
  | .leu => a.ule b

/-- 1 when the condition holds, else 0 (R90). -/
def condWord (c : Cond) (a b : X) : X := if condHolds c a b then 1 else 0

/-- The predicate with bits 0 to n - 1 set, n the 64-bit sum, taken as signed and clamped to 0 to 32 (R84, R95) (DEDUCED, log entry 12). -/
def psetMask (a : X) (imm : BitVec 10) : P :=
  let n := (a + imm.signExtend 64).toInt
  if n ≤ 0 then 0 else if 32 ≤ n then BitVec.allOnes 32 else BitVec.ofNat 32 (2 ^ n.toNat - 1)

/-- Number of one bits below bit `n`. -/
def popBelow (a : Nat) : Nat → Nat
  | 0 => 0
  | n + 1 => popBelow a n + (if bit a n then 1 else 0)

/-- Number of one bits of a predicate (R95). -/
def pcount (p : P) : Nat := popBelow p.toNat 32

/-- Index of the lowest one bit among the `n` bits from `k` on, or `k + n`. -/
def firstOne (a k : Nat) : Nat → Nat
  | 0 => k
  | n + 1 => if bit a k then k else firstOne a (k + 1) n

/-- Index of the lowest one bit of a predicate, 32 when there is none (R95). -/
def pfirstIx (p : P) : Nat := firstOne p.toNat 0 32

/-- Bit `i` of a predicate. -/
def pbit (p : P) (i : Nat) : Bool := p.getLsbD i

/-- The guard of an instruction without elements: bit 0 of its predicate (R47). -/
def guardOn (l : Lane) (g : PReg) : Bool := pbit (getP l g) 0

end Sys2Proof.Machine
end

