-- ==== Sys2Proof/Machine/Ops.lean ====
section
/-! DEFINITION. What every instruction shares: completing with the LOOP step (R99), waiting (R24), taking a fault and
freezing with a packet (R211 to R215), deferral in speculative tasks (R331), and the return to a frozen lane. -/

namespace Sys2Proof.Machine

/-! ### The lane-state block -/

/-- Code of a firing kind (R15). -/
def kindCode : FiringKind → Nat
  | .none => 0 | .ordered => 1 | .unordered => 2 | .handler => 3 | .actor => 4 | .launch => 5

/-- Code of a lane state (R24). -/
def statusCode : LaneStatus → Nat
  | .free => 0 | .ready => 1 | .blocked => 2 | .frozen => 3 | .draining => 4

/-- The 64-byte lane-state block of a lane (R23). -/
def laneState (l : Lane) : BitVec 512 :=
  BitVec.ofNat 512 (l.pc.toNat + kindCode l.firing.kind * 2 ^ 48 + l.firing.cls % 4 * 2 ^ 51 + l.firing.prio % 4 * 2 ^ 53
    + l.firing.spec.toNat * 2 ^ 55 + l.aged.toNat * 2 ^ 56 + statusCode l.status * 2 ^ 57
    + (l.marks.xfull ||| 1).toNat * 2 ^ 64 + l.marks.vfull.toNat * 2 ^ 96 + (l.marks.xdead &&& ~~~ 1).toNat * 2 ^ 128
    + l.marks.vdead.toNat * 2 ^ 160 + l.lcnt % 64 * 2 ^ 192 + l.scnt % 64 * 2 ^ 198 + l.loop.len % 64 * 2 ^ 210
    + l.loop.rem.toNat * 2 ^ 224 + l.loop.pc.toNat * 2 ^ 288 + l.sr.toNat * 2 ^ 352 + l.instcnt.toNat * 2 ^ 384
    + l.firing.domain % 65536 * 2 ^ 416 + l.firing.tstamp.toNat * 2 ^ 448)

/-- The lane's frame brought up to date, as at a freeze or a register-cache flush (R139, R217). -/
def writeBack (l : Lane) : Lane := { l with frame := ⟨l.regs, laneState l, false⟩ }

/-- The lane with its registers and supervisor-writable state taken from its frame, as at LRESUME (R23, R217). A
write of PC or of a loop field has invalidated the loop buffer. -/
def loadFrame (l : Lane) : Lane :=
  let w := l.frame.st.toNat
  let pc := BitVec.ofNat 48 (bits w 0 48 / 2 * 2)
  let lp : LoopState :=
    { len := bits w 210 6, rem := BitVec.ofNat 64 (bits w 224 64), pc := BitVec.ofNat 48 (bits w 288 48), stop := none,
      buf := if l.frame.moved then [] else l.loop.buf,
      flushed := (l.frame.moved || l.loop.flushed) && bits w 210 6 != 0 }
  { l with regs := l.frame.regs, pc := pc, loop := lp, sr := BitVec.ofNat 32 (bits w 352 32),
           marks := { l.marks with xdead := BitVec.ofNat 32 (bits w 128 32), vdead := BitVec.ofNat 32 (bits w 160 32) } }

/-! ### Fault packets -/

/-- Samples the global time base: some ticks have passed since the last sample (R7, DESIGN CHOICE, log entry 7). -/
def sampleTime (s : State) : State :=
  { s with sched := { s.sched with gtime := s.sched.gtime + BitVec.ofNat 64 (Config.ticks s.sched.freeCtr),
                                   freeCtr := s.sched.freeCtr + 1 } }

/-- A packet joins those that wait for the ring: in the order of their times, and at equal times of their sources (R215). -/
def queuePacket (l : List Packet) (p : Packet) : List Packet :=
  let before := fun (q : Packet) => decide (q.gtime.toNat < p.gtime.toNat ∨ (q.gtime = p.gtime ∧ q.src ≤ p.src))
  l.takeWhile before ++ [p] ++ l.dropWhile before

/-- Arithmetic-clock cycles of core `c` pass before they are sampled (R106) (DESIGN CHOICE, log entry 7). -/
def sampleCycles (s : State) (c : Nat) : State :=
  let n := BitVec.ofNat 64 (Config.cycles s.sched.freeCtr)
  onCore (draw s) c (fun k => { k with ctl := { k.ctl with cycles := k.ctl.cycles + n } })

/-- Sends a packet from core `c` to its die's supervisor: sequence number, incarnation and time filled in (R214 to
R216). Packets of engine operations use the engines' own counter. The time of a packet that has waited under R213 is that of its
sending (DESIGN CHOICE, log entry 59). -/
def sendPacket (s : State) (c : Nat) (engine : Bool) (p : Packet) : State :=
  let s := sampleTime s
  let d := dieNo c
  let k := coreOf s c
  let q := if engine then k.eng.faultSeq else k.ctl.faultSeq
  let p := { p with seq := q, inc := (dieOf s d).inc, gtime := s.sched.gtime }
  let s := onCore s c (fun k =>
    if engine then { k with eng := { k.eng with faultSeq := q + 1 } } else { k with ctl := { k.ctl with faultSeq := q + 1 } })
  dueEvent (onDie s d (fun x => { x with fpqWait := queuePacket x.fpqWait p })) (.faultRingWrite d)

/-- A packet for lane `l` of core `c` with the common fields (R214). -/
def packetFor (s : State) (c l : Nat) (code : FaultCode) (addr instr : X) : Packet :=
  { code := code, lane := l, ended := false, nofrz := false, poison := false, gang := false, seq := 0,
    pc := (laneOf s c l).pc.setWidth 64, addr := addr, instr := instr, engop := 0, src := c, inc := 0, group := 0,
    gtime := 0, aux := 0 }

/-- A packet that freezes no lane (R211). It concerns no instruction, and its PC, for which R214 names no value, is 0 (DESIGN CHOICE, log
entry 59). -/
def packetNone (c l : Nat) (code : FaultCode) (addr : X) (aux : BitVec 128) : Packet :=
  { code := code, lane := l, ended := false, nofrz := true, poison := false, gang := false, seq := 0, pc := 0,
    addr := addr, instr := 0, engop := 0, src := c, inc := 0, group := 0, gtime := 0, aux := aux }

/-- What a Frozen lane still waits for: a barrier at which its arrival is counted (R368). -/
def keptWait (l : Lane) : Option Wait :=
  match l.wait with
  | some (.barrier s d i p r) => some (.barrier s d i p r)
  | some (.barrierForced s d i r) => some (.barrierForced s d i r)
  | _ => none

/-- The lane enters Frozen with its frame written back (R24, R217). -/
def frozen (l : Lane) : Lane :=
  writeBack { l with status := .frozen, wait := keptWait l, waitCount := 0, firstTry := none,
                     frz := { l.frz with step := false, stepped := false, suppr := false, pending := none,
                                         deferred := none } }

/-- Freezes a lane: at once when no result is outstanding, else when the last one has arrived (R213). A lane that is
already Frozen only sends the packet, and one that waits to freeze keeps the packet of its first fault. -/
def freeze (s : State) (c l : Nat) (p : Packet) : State :=
  let x := laneOf s c l
  if x.status == .frozen then sendPacket s c false p
  else if x.frz.pending.isSome then s
  else if x.results.isEmpty then sendPacket (setLane s c l (frozen x)) c false p
  else setLane s c l { x with status := .blocked, wait := keptWait x, waitCount := 0, frz := { x.frz with pending := some p } }

/-- The fault is deferred in a speculative task (R331): comparator hits, freeze requests and single steps are not. -/
def deferrable (l : Lane) (code : FaultCode) : Bool :=
  l.firing.spec && code != .comparator && code != .singleStep && code != .gangFault && code != .gangTimeout

/-- The lane becomes Blocked on a condition (R24). -/
def blocked (l : Lane) (w : Wait) : Lane :=
  { l with status := .blocked, wait := some w, waitCount := 0,
           firstTry := match w with
             | .scoreboard gs t wr b => some (.scoreboard gs t wr b)
             | .sectors ops => some (.sectors ops)
             | _ => l.firstTry }

/-- TAKING A FAULT at the current instruction (R211, R213, R331): a speculative task's lane stays Blocked until the
task is earliest; any other lane freezes with its packet. -/
def takeFault (s : State) (code : FaultCode) (addr : X) : State :=
  let l := cur s
  if deferrable l code then
    setCur s { blocked l .earliest with frz := { l.frz with deferred := some code } }
  else freeze s s.sched.core s.sched.lane (packetFor s s.sched.core s.sched.lane code addr s.sched.bits)

/-- Flue `f`. -/
def flueOf (s : State) (f : Nat) : Flue := smGetD s.pkg.flues f (Flue.reset (if f < 8 then 8 else 4))

/-- Replaces flue `f`. -/
def setFlue (s : State) (f : Nat) (x : Flue) : State := onPkg s (fun p => { p with flues := smSet p.flues f x })

/-- A Drowsy flue with something to send begins to wake (R366). -/
def wakeFlue (s : State) (f : Nat) : State :=
  if (flueOf s f).pwr = 1 then dueEvent (setFlue s f { flueOf s f with pwr := 2 }) (.flueTrained f) else s

/-- What waiting starts: a wait for a link wakes its flue, and one for a line asks for its tokens, or has the directory recall them
(R256, R257, R366). -/
def startWait (s : State) : Wait → State
  | .link d _ => wakeFlue s d
  | .tokens line w true => dueEvent s (.transientRequest s.sched.core line w)
  | .tokens line w false => (List.range 8).foldl (fun s d => dueEvent s (.directoryRecall d line w)) s
  | _ => s

/-- The outcome of an instruction that stops. -/
def takeStop (s : State) : Stop → Host.Outcome State Fault Refusal
  | .fault c a => .next (takeFault s c a)
  | .wait w => .next (setCur (startWait s w) { blocked (cur s) w with waitInstr := s.sched.bits })
  | .stuck f => .fault f

/-! ### Completing -/

/-- The loop state and PC after an instruction completes with fall-through address `next` (R99) (DEDUCED, log entry 9). -/
def loopStep (l : Lane) (next : BitVec 48) : Lane :=
  if l.loop.len ≠ 0 ∧ l.loop.stop = some next then
    if 1 < l.loop.rem.toNat then { l with pc := l.loop.pc, loop := { l.loop with rem := l.loop.rem - 1 } }
    else { l with pc := next, loop := LoopState.reset }
  else { l with pc := next }

/-- Counts the instruction and clears the marks of its issue (R23, R31, R32, R220). -/
def counted (l : Lane) : Lane :=
  { l with instcnt := satInc l.instcnt, waitCount := 0, aged := false, firstTry := none,
           frz := { l.frz with suppr := false, stepped := l.frz.step } }

/-- An instruction of `n` bytes completes and the PC falls through (R99). -/
def retire (n : Nat) (l : Lane) : Lane := loopStep (counted l) (l.pc + BitVec.ofNat 48 n)

/-- A transfer completes: the PC is the target (R96, R97). -/
def retireTo (target : BitVec 48) (l : Lane) : Lane := { counted l with pc := target }

/-- The outcome of an instruction: the next state, or the state with its fault taken or its lane waiting. -/
def finish (s : State) (r : Except Stop State) : Host.Outcome State Fault Refusal :=
  match r with
  | .ok t => .next t
  | .error e => takeStop s e

/-- An instruction of `n` bytes that acts on its lane alone, falling through. -/
def laneOp (n : Nat) (f : Lane → Except Stop Lane) (s : State) : Host.Outcome State Fault Refusal :=
  finish s ((f (cur s)).map (fun l => setCur s (retire n l)))

/-- As `laneOp`, with no effect when bit 0 of the guard is 0 (R47) (DEDUCED, log entry 10). -/
def guardedLaneOp (n : Nat) (g : PReg) (f : Lane → Except Stop Lane) (s : State) : Host.Outcome State Fault Refusal :=
  laneOp n (fun l => if guardOn l g then f l else .ok l) s

/-- An instruction of `n` bytes that acts on the whole state and then falls through. -/
def stateOp (n : Nat) (f : State → Except Stop State) (s : State) : Host.Outcome State Fault Refusal :=
  finish s ((f s).map (fun t => setCur t (retire n (cur t))))

/-- As `stateOp`, with no effect when bit 0 of the guard is 0 (R47) (DEDUCED, log entry 10). -/
def guardedStateOp (n : Nat) (g : PReg) (f : State → Except Stop State) (s : State) :
    Host.Outcome State Fault Refusal :=
  stateOp n (fun s => if guardOn (cur s) g then f s else .ok s) s

/-- An irrevocable instruction stalls in a speculative task (R329) (DEDUCED, log entry 10). -/
def irrevocable (l : Lane) : Except Stop Unit := await (!l.firing.spec) .earliest

/-! ### Long-latency results (R26) -/

/-- The issuing lane as its instruction issues (R211). -/
def siteOf (s : State) : Site := ⟨(cur s).pc, (cur s).loop, (cur s).instcnt, s.sched.marks⟩

/-- A long-latency result is outstanding for the issuing lane: its destination is empty until it arrives (R26) (DESIGN CHOICE, log entry 16). -/
def produce (s : State) (r : Result) : State :=
  let l := emptyDest (cur s) r.dest
  let s := setCur s { l with results := l.results ++ [r], lcnt := if r.counted then l.lcnt + 1 else l.lcnt }
  dueEvent s (.resultArrival s.sched.core s.sched.lane 0)

/-! ### The return to a frozen lane (R220) -/

/-- The lane becomes Ready with its frame's contents, with or without a single step. `skipped` is the length of an
instruction that completes as a no-op, with the end of the lane's LOOP body (R99). -/
def resume (l : Lane) (step : Bool) (skipped : Option (Nat × Option (BitVec 48))) : Lane :=
  -- a lane that waited at a barrier keeps its wait: its arrival is counted, and it waits again when it issues (R368)
  let again := (loadFrame l).pc == l.pc && skipped.isNone
  let l := { loadFrame l with status := .ready, group := none, wait := if again then l.wait else none }
  match skipped with
  | some (n, stop) =>
    let l := retire n { l with loop := { l.loop with stop := stop } }
    { l with frz := { l.frz with step := step, stepped := step, suppr := false } }
  | none => { l with frz := { l.frz with step := step, stepped := false, suppr := true } }

/-- The lane becomes Free; its register state is discarded (R13, R14, R24). -/
def freed (l : Lane) : Lane :=
  { l with status := .free, wait := none, firing := Firing.reset, results := [], lcnt := 0, scnt := 0,
           oldStores := l.oldStores + l.scnt, loop := LoopState.reset, waitCount := 0, aged := false, firstTry := none,
           group := none, marks := ⟨BitVec.allOnes 32, BitVec.allOnes 32, 0, 0⟩,
           frz := FreezeCtl.reset }

end Sys2Proof.Machine
end

