-- ==== Sys2Proof/Machine/Lines.lean ====
section
/-! DEFINITION. Lines of memory: the way to them over flues and functions (R254, R352, R353, R358, R366, R367, R438), poison (R136,
R360), compressed blocks (R359), the tokens of the die's caches and the package directory (R140, R254 to R258, R353), and
writes performed at a memory. What a line's bytes are does not depend on the caches: memory holds every line's current data. -/

namespace Sys2Proof.Machine

/-- The line of an address. -/
def lineOf (a : Nat) : Nat := a / 64 * 64

/-! ### Links and functions on the way (R366, R367, R438) -/

/-- What stands between a die and the place of a request: nothing, a flue to wait for, a function that has not reported
ready, a Down flue, or a function that failed its self-test. -/
inductive Path where
  | opened
  | waking (flue : Nat)
  | notReady (index : Nat)
  | down
  | failed
  deriving DecidableEq, Repr

/-- One part of a way, then the next. -/
def Path.andThen : Path → Path → Path
  | .opened, q => q
  | p, _ => p

/-- XOR of the `n`-bit fields of a number's low 60 bits. -/
def foldFields (w n : Nat) : Nat := (List.range (60 / n)).foldl (fun h i => h ^^^ bits w (n * i) n) 0

/-- L2 slice that homes a line on a die (R254). -/
def homeSlice (pa : Nat) : Nat := foldFields (bits pa 6 45) 5 ^^^ bits pa 51 1

/-- Larder bank that caches a line (R353). -/
def homeBank (s : State) (pa : Nat) : Nat :=
  128 * s.pkg.shared + foldFields (bits pa 6 46) 10 % (1024 - 128 * s.pkg.shared)

/-- HBM stack of an address (R358). -/
def stackOf (pa : Nat) : Nat := bits pa 12 4 ^^^ bits pa 16 4

/-- The first function of a list that is not ready decides (R437, R438): indices of the ready map (DEDUCED, log entry 8). -/
def functionsOpen (s : State) : List Nat → Path
  | [] => .opened
  | i :: t => if bit s.pkg.ready i then functionsOpen s t else if bit s.pkg.failed i then .failed else .notReady i

/-- The Larder flue of a die carries a request only when it has reported ready and is Active (R366, R367, R437). -/
def flueOpen (s : State) (d : Nat) (next : Path) : Path :=
  let p := (flueOf s d).pwr
  if p = 3 then .down else (functionsOpen s [2320 + d]).andThen (if p = 0 then next else .waking d)

/-- The way of a die's own units to the HBM stack of an address: its Larder flue and the stack (R358, R367, R438). -/
def stackWay (s : State) (d pa : Nat) : Path := flueOpen s d (functionsOpen s [2304 + stackOf pa])

/-- A request whose way is not open wakes a Drowsy flue on it (R366). -/
def wakePath (s : State) : Path → State
  | .waking f => wakeFlue s f
  | _ => s

/-- The directory's entry of a line (R353). -/
def directoryOf (s : State) (line : Nat) : DirLine := smGetD s.pkg.directory line ⟨[], false, false, none⟩

/-- The tokens of a line on a die (R255). -/
def tokensOf (s : State) (d line : Nat) : TokenLine := smGetD (dieOf s d).tokens line TokenLine.reset

/-- The die may give its cores the tokens of an access: it is granted the line, for writing alone (R255, R353). -/
def dieCan (s : State) (d line : Nat) (write : Bool) : Bool :=
  (tokensOf s d line).granted && (!write || (directoryOf s line).exclusive)

/-- The Larder flues over which the directory snoops the dies that must give a line up, or give up writing it (R353, R367). -/
def snoopOpen (s : State) (keep : Option Nat) (line : Nat) (write : Bool) : Path :=
  let e := directoryOf s line
  if !write && !e.exclusive then .opened
  else (e.dies.filter (fun d => keep ≠ some d)).foldl (fun p d => p.andThen (flueOpen s d .opened)) .opened

/-- The way to a physical address: the home slice for memory type 00, the flue, the L3 bank or the HBM stack, and the flues of the
dies that the directory snoops. Windows of the die itself need none of them. -/
def pathPhys (s : State) (d pa mt : Nat) (write : Bool) : Path :=
  if pa < 2 ^ 40 then
    if mt = 0 then
      if dieCan s d (lineOf pa) write then functionsOpen s [1024 + d * 32 + homeSlice pa]
      else flueOpen s d ((functionsOpen s [1024 + d * 32 + homeSlice pa, 1280 + homeBank s pa, 2304 + stackOf pa]).andThen
        (snoopOpen s (some d) (lineOf pa) write))
    else flueOpen s d ((functionsOpen s [2304 + stackOf pa]).andThen (snoopOpen s none (lineOf pa) write))
  else if 0xFF00000000000 ≤ pa ∧ pa < 0xFF20000000000 then .opened
  else flueOpen s d .opened

/-- The way to an offset of Larder shared space: the flue and the bank (R352). -/
def pathShared (s : State) (d off : Nat) : Path :=
  flueOpen s d (functionsOpen s [1280 + off / 256 % (128 * s.pkg.shared)])

/-! ### Poison (R136, R360) -/

/-- The poisoned unit of an address: an LM word or a memory line (R136, R360) (DEDUCED, log entry 17). -/
def poisonUnit (a : Nat) : Nat := if 2 ^ 45 ≤ a then a / 4 * 4 else lineOf a

/-- Some byte of `n` bytes from `a` is poisoned (DEDUCED, log entry 17). -/
def poisoned (s : State) (a n : Nat) : Bool :=
  s.poison.any (fun p => poisonUnit a ≤ p && p < a + n)

/-- Marks a poisoned unit. -/
def poisonAt (s : State) (a : Nat) : State := { s with poison := insertNat s.poison a }

/-- Every byte of a unit of `n` bytes lies in one of the written ranges. -/
def unitCovered (ws : List (Nat × Nat)) (p n : Nat) : Bool :=
  (List.range n).all (fun i => ws.any (fun w => decide (w.1 ≤ p + i ∧ p + i < w.1 + w.2)))

/-- A write of these ranges, each an address and a length, clears the marks of the units that it covers whole (R136, R360)
(DEDUCED, log entry 17). -/
def clearCovered (s : State) (ws : List (Nat × Nat)) : State :=
  { s with poison := s.poison.filter (fun p => !unitCovered ws p (if 2 ^ 45 ≤ p then 4 else 64)) }

/-! ### Compressed blocks (R359) -/

/-- States of a 256-byte block (R359). -/
inductive BlockState where
  | raw | half | quarter | zero
  deriving DecidableEq, Repr

/-- The state in which a block is stored (R359). -/
def blockOf (s : State) (b : Nat) : BlockState :=
  match smGet s.pkg.blocks b with
  | some 1 => .half
  | some 2 => .quarter
  | some 3 => .zero
  | _ => .raw

/-- The blocks of `n` bytes from an address are stored raw: they were not written back whole (R359) (DESIGN CHOICE, log entry 38). -/
def rawBlocks (s : State) (a n : Nat) : State :=
  if s.pkg.blocks.isEmpty then s
  else onPkg s (fun p => { p with blocks := p.blocks.filter (fun e => !decide (a / 256 ≤ e.1 ∧ e.1 ≤ (a + n - 1) / 256)) })

/-- The Larder chooses the state of a compressible block that it writes back (R359): which one is open, but that the all-zero
state needs zero bytes (DESIGN CHOICE, log entry 38). -/
def chooseBlock (s : State) (b : Nat) : State :=
  let k := Config.blockState s.sched.freeCtr b % 4
  let k := if k = 3 ∧ memRead s.mem (256 * b) 256 ≠ 0 then 0 else k
  onPkg (draw s) (fun p => { p with blocks := if k = 0 then smDel p.blocks b else smSet p.blocks b k })

/-! ### The caches of a die (R140, R254, R255) -/

/-- Physical windows of the supervisor (R217, R253, R339, R351, R418). -/
def isWindow (pa : Nat) : Bool := decide (0xFF00000000000 ≤ pa) && decide (pa < 0xFF50000000000)

/-- What a read of a window finds and a write to it reaches: nothing (R217, R253, R339, R351). -/
def voidKey : Nat := 2 ^ 60

/-- A line that the directory may grant to dies: HBM, memory type 00 (R254, R353). -/
def cacheable (pa mt : Nat) : Bool := decide (pa < 2 ^ 40) && mt == 0

/-- Replaces the tokens of a line on a die. -/
def setTokens (s : State) (d line : Nat) (t : TokenLine) : State :=
  onDie s d (fun x => { x with tokens := smSet x.tokens line t })

/-- Replaces the directory's entry of a line; an empty entry is dropped. -/
def setDirectory (s : State) (line : Nat) (e : DirLine) : State :=
  onPkg s (fun p => { p with directory := if e.dies.isEmpty && !e.host then smDel p.directory line
                                          else smSet p.directory line e })

/-- Die `d` gives up a line it was granted (R257), its data written back; requests that wait for it stay. -/
def surrender (s : State) (line d : Nat) : State :=
  onDie s d (fun x =>
    let t := smGetD x.tokens line TokenLine.reset
    { x with tokens := if t.transient.isEmpty then smDel x.tokens line
                       else smSet x.tokens line { TokenLine.reset with transient := t.transient } })

/-- The directory's entry without a die. -/
def dirWithout (e : DirLine) (d : Nat) : DirLine :=
  { e with dies := e.dies.filter (· ≠ d), exclusive := false, owner := e.owner.filter (· ≠ d) }

/-- The directory recalls a line from every die but `keep` (R353) (DESIGN CHOICE, log entry 28). -/
def recallOthers (s : State) (keep : Option Nat) (line : Nat) : State :=
  let e := directoryOf s line
  if e.dies.all (fun d => keep == some d) then s
  else
    let s := (e.dies.filter (fun d => keep ≠ some d)).foldl (fun s d => surrender s line d) s
    setDirectory s line { e with dies := e.dies.filter (fun d => keep == some d), owner := e.owner.filter (fun d => keep == some d) }

/-- The dies that hold a line have written it back to the package (R152, R353). -/
def writtenBack (s : State) (line : Nat) : State :=
  (directoryOf s line).dies.foldl (fun s d => setTokens s d line { tokensOf s d line with dirty := false }) s

/-- Set of a line in an L1D or L1I cache of `sets` sets (R140) (DESIGN CHOICE, log entry 39). -/
def l1Set (sets line : Nat) : Nat := line / 64 % sets

/-- Slice and set of a line in the L2: 32 slices of 2,048 sets of 16 lines (R254) (DESIGN CHOICE, log entry 39). -/
def l2Set (line : Nat) : Nat × Nat := (homeSlice line, line / 2048 % 2048)

/-- Which of the lines of a full set leaves it is open (DESIGN CHOICE, log entry 39). -/
def victimOf (s : State) (lines : List Nat) : Nat := (lines[Config.victim s.sched.freeCtr % lines.length]?).getD 0

/-- A cache returns its tokens of a line, and the owner token with its data, to the home slice (R255). -/
def evicted (c : Nat) (t : TokenLine) : TokenLine :=
  { t with home := t.home + smGetD t.caches c 0, caches := smDel t.caches c, owner := if t.owner = some c then none else t.owner }

/-- Core `c`'s L1D has room for a line: 8 in a set, of which one leaves when it is full (R140, R255). -/
def roomL1 (s : State) (c line : Nat) : State :=
  let d := dieNo c
  let held := (((dieOf s d).tokens).filter (fun e => decide (1 ≤ smGetD e.2.caches c 0) && e.1 != line
    && l1Set 128 e.1 == l1Set 128 line)).map (·.1)
  if held.length < 8 then s
  else
    let v := victimOf s held
    draw (setTokens s d v (evicted c (tokensOf s d v)))

/-- The die's L2 has room for a line: 16 in a set, of which one is given back to the package, its data written back, when it
is full (R254, R255) (DESIGN CHOICE, log entry 39). -/
def roomL2 (s : State) (d line : Nat) : State :=
  let held := (((dieOf s d).tokens).filter (fun e => e.2.granted && e.1 != line && l2Set e.1 == l2Set line)).map (·.1)
  if held.length < 16 then s
  else
    let v := victimOf s held
    draw (setDirectory (surrender s v d) v (dirWithout (directoryOf s v) d))

/-- The tokens of a line newly granted: the home slice holds them all (R255). -/
def granted (t : TokenLine) : TokenLine :=
  if t.granted then t else { t with home := 512, owner := none, caches := [], dirty := false, granted := true }

/-- The directory grants die `d` a line for reading: a die that may write it keeps it for reading, its data written back
(R353). -/
def grantRead (s : State) (d line : Nat) : State :=
  if (tokensOf s d line).granted then s
  else
    let s := roomL2 s d line
    let e := directoryOf s line
    let s := writtenBack s line
    let s := setDirectory s line { e with dies := insertNat e.dies d, exclusive := e.dies.isEmpty && !e.host,
                                          owner := if e.owner.isNone then some d else e.owner }
    setTokens s d line (granted (tokensOf s d line))

/-- The directory grants die `d` a line for writing: every other holder gives it up, the host too (R353, R410). -/
def grantWrite (s : State) (d line : Nat) : State :=
  let s := if (tokensOf s d line).granted then s else roomL2 s d line
  let s := setDirectory (recallOthers s (some d) line) line ⟨[d], true, false, some d⟩
  setTokens s d line (granted (tokensOf s d line))

/-- All 512 tokens and the owner token go to core `c` (R256). -/
def takeAll (c : Nat) (t : TokenLine) : TokenLine := { t with home := 0, owner := some c, caches := [(c, 512)] }

/-- Core `c` takes one token of a line its die is granted: from the home slice's pool, else from the owner-token holder
(R256). -/
def takeToken (c : Nat) (t : TokenLine) : TokenLine :=
  if 1 ≤ smGetD t.caches c 0 then t
  else if 1 ≤ t.home then { t with home := t.home - 1, caches := smSet t.caches c 1 }
  else match t.owner with
    | some o => { t with caches := smSet (smSet t.caches o (smGetD t.caches o 0 - 1)) c 1 }
    | none => t

/-- The access for which core `c` asked for a line has its tokens (R256). -/
def askedNoMore (c : Nat) (t : TokenLine) : TokenLine := { t with transient := t.transient.filter (fun r => r.core ≠ c) }

/-- Core `c` holds all the tokens of a line and has written it (R255). -/
def cacheWrite (s : State) (c line : Nat) : State :=
  let s := roomL1 (grantWrite s (dieNo c) line) c line
  setTokens s (dieNo c) line { askedNoMore c (takeAll c (tokensOf s (dieNo c) line)) with dirty := true }

/-- Core `c` reads a line: its die is granted it, and the core holds a token (R255, R256, R353). -/
def cacheRead (s : State) (c line : Nat) : State :=
  let s := roomL1 (grantRead s (dieNo c) line) c line
  setTokens s (dieNo c) line (askedNoMore c (takeToken c (tokensOf s (dieNo c) line)))

/-- The home slice of die `d` has written a line, as for an engine, an atomic update or a walker: the die is granted it, its caches give
up their tokens, and the slice holds it dirty (R254, R255, R288). -/
def homeWrite (s : State) (d line : Nat) : State :=
  let s := grantWrite s d line
  setTokens s d line { tokensOf s d line with home := 512, owner := none, caches := [], dirty := true }

/-! ### The persistent table (R256, R257) -/

/-- The persistent requests at a slice of a die, in order of arrival: the first 64 are in its table, the others wait. -/
def asksOf (s : State) (d line : Nat) : List TokenAsk := smGetD (dieOf s d).asks (homeSlice line) []

/-- Replaces them. -/
def setAsks (s : State) (d line : Nat) (l : List TokenAsk) : State :=
  onDie s d (fun x => { x with asks := smSet x.asks (homeSlice line) l })

/-- The active persistent request of a line: its oldest in the table (R256). -/
def activeAsk (s : State) (d line : Nat) : Option TokenAsk := ((asksOf s d line).take 64).find? (fun r => r.line == line)

/-- No persistent request of another is active for a line that core `c` accesses (R256). -/
def tokensFree (s : State) (c line : Nat) : Bool :=
  (activeAsk s (dieNo c) line).all (fun r => r.core == some c)

/-- A die's active request whose access performs before anything older is served (R257). -/
def askRuns (s : State) (d line : Nat) : Bool :=
  (activeAsk s d line).any (fun r => r.core.isSome && dieCan s d line r.write)

/-- The dies but `keep` that must give a line up, or give up writing it, while their own active request performs (R257) (DESIGN CHOICE, log entry 28). -/
def recallWaits (s : State) (keep : Option Nat) (line : Nat) (write : Bool) : List Nat :=
  let e := directoryOf s line
  if write || e.exclusive then e.dies.filter (fun d => keep ≠ some d && askRuns s d line) else []

/-- An access by core `c` takes nothing from an active persistent request: on its die, and on the dies that must give the line up
(R256 to R258) (DESIGN CHOICE, log entry 28). -/
def linesFree (s : State) (c line : Nat) (write cached : Bool) : Bool :=
  (!cached || tokensFree s c line) && (recallWaits s (if cached then some (dieNo c) else none) line write).isEmpty

/-- The home slice's request for a recall takes its place before every request that has not become active (R257). -/
def askBack (s : State) (d line : Nat) (all : Bool) : State :=
  let l := asksOf s d line
  if l.any (fun r => r.line == line && r.core.isNone) then s
  else
    let older := l.takeWhile (fun r => r.line != line)
    setAsks s d line (older ++ l[older.length]?.toList ++ [⟨line, none, all⟩] ++ l.drop (older.length + 1))

/-! ### Writes at a memory -/

/-- Bytes written, with their poison marks and the state of their blocks (R153, R359, R360). -/
def putBytes (s : State) (a n v : Nat) : State :=
  let s := onMem s (fun m => memWrite m a n v)
  let unit := if 2 ^ 45 ≤ a then 4 else 64
  let s := if s.poison.isEmpty then s
    else { s with poison := s.poison.filter (fun p => !(decide (a ≤ p) && decide (p + unit ≤ a + n))) }
  if a < 2 ^ 40 then rawBlocks s a n else s

/-- A write performed at a memory: its bytes, and the copies of the line that dies and the host hold (R257, R410). -/
def storeKey (s : State) (a n v : Nat) : State :=
  let s := putBytes s a n v
  if a < 2 ^ 40 then
    let s := recallOthers s none (lineOf a)
    if (directoryOf s (lineOf a)).host then setDirectory s (lineOf a) { directoryOf s (lineOf a) with host := false } else s
  else s

/-- A write performed by the home slice of die `d`: of HBM, in the slice; of anything else, at its memory (R254, R274). -/
def sliceStore (s : State) (d a n v : Nat) : State :=
  if a < 2 ^ 40 then homeWrite (putBytes s a n v) d (lineOf a) else storeKey s a n v

/-! ### The host's accesses (R396, R409, R410) -/

/-- A host access of `n` bytes lies in one line of HBM or host memory (DESIGN CHOICE, log entry 28). -/
def hostReach (pa n : Nat) : Bool := decide (0 < n ∧ pa % 64 + n ≤ 64 ∧ pa < 2 ^ 41)

/-- The way of a host access: its Larder bank, its HBM stack, and the flues of the dies that the directory snoops; its own memory needs
none (R353, R367, R410, R438). -/
def hostWay (s : State) (pa : Nat) (write : Bool) : Path :=
  if pa < 2 ^ 40 then (functionsOpen s [1280 + homeBank s pa, 2304 + stackOf pa]).andThen (snoopOpen s none (lineOf pa) write) else .opened

/-- Marks a line as held by the host, beside which no die may write it, or not (R353, R410) (DESIGN CHOICE, log entry 28). -/
def hostHolds (s : State) (line : Nat) (h : Bool) : State :=
  if line < 2 ^ 40 then
    let e := directoryOf s line
    setDirectory s line { e with host := h, exclusive := e.exclusive && !h }
  else s

/-- The host's read returned this (DEDUCED, log entry 29). -/
def answered (s : State) (v : BitVec 512) : State := onPkg s (fun p => { p with host := { p.host with answer := v } })

/-- The host's read of `n` bytes returned a value that is open (DESIGN CHOICE, log entry 4). -/
def answeredOpen (s : State) (n : Nat) : State :=
  answered (draw s) (BitVec.ofNat 512 ((Config.freeV s.sched.freeCtr).toNat % 2 ^ (8 * n)))

/-- A host write performs (R396, R409). -/
def hostWrite (s : State) (pa n : Nat) (v : BitVec 512) : State :=
  hostHolds (storeKey s pa n v.toNat) (lineOf pa) (directoryOf s (lineOf pa)).host

/-- A host read performs (R396, R410): a copy that a die wrote is written back, and the host holds the line. What a read of a poisoned
line returns is open (DESIGN CHOICE, log entry 4) (DEDUCED, log entry 29). -/
def hostRead (s : State) (pa n : Nat) : State :=
  let line := lineOf pa
  let s := hostHolds (writtenBack s line) line true
  if poisoned s pa n then answeredOpen s n else answered s (BitVec.ofNat 512 (memRead s.mem pa n))

end Sys2Proof.Machine
end

