-- ==== Sys2Proof/Machine/Translate.lean ====
section
/-! DEFINITION. Address classes (R137), the four-level translation with its TLBs (R261 to R265), and physical places. -/

namespace Sys2Proof.Machine

/-- The classes of a data address, decided from the address alone (R137). -/
inductive AddrClass where
  | global
  | ownLm (off : Nat)
  | otherLm (core off : Nat)
  | shared (off : Nat)
  | unmapped
  deriving DecidableEq, Repr

/-- Size of the Larder shared space: SHARED × 64 MiB (R352). -/
def sharedSize (s : State) : Nat := s.pkg.shared * 2 ^ 26

/-- The class of an address formed by a lane or engine of core `c` (R137). -/
def classOf (s : State) (c : Nat) (a : X) : AddrClass :=
  let n := a.toNat
  if n < 2 ^ 56 then .global
  else if 0xFF80 * 2 ^ 48 ≤ n ∧ n < 0xFF80 * 2 ^ 48 + 0x80000 then .ownLm (n % 2 ^ 19)
  else if 0xFF88 * 2 ^ 48 ≤ n ∧ n < 0xFF88 * 2 ^ 48 + 0x80000 * 4096 then
    let id := (n - 0xFF88 * 2 ^ 48) / 0x80000
    if namesCore id && dieNo id == dieNo c then .otherLm id (n % 2 ^ 19) else .unmapped
  else if 0xFF90 * 2 ^ 48 ≤ n ∧ n < 0xFF90 * 2 ^ 48 + sharedSize s then .shared (n - 0xFF90 * 2 ^ 48)
  else .unmapped

/-- Bits of the address below a leaf's page number, by level (R261). -/
def pageShift (level : Nat) : Nat := if level = 2 then 36 else if level = 3 then 26 else 16

/-- Byte index of the entry of a table that an address selects (R261). -/
def tableIndex (level va : Nat) : Nat := if level = 1 then bits va 46 11 else bits va (pageShift level) 10

/-- A reserved field of an entry is nonzero, or MT is 11 (R263, R264). -/
def pteBad (p : Nat) : Bool := bits p 52 12 != 0 || bits p 12 4 != 0 || bit p 9 || bits p 10 2 == 3

/-- The leaf's page number is aligned for its level (R264). -/
def pteAligned (level p : Nat) : Bool :=
  if level = 2 then bits p 16 20 == 0 else if level = 3 then bits p 16 10 == 0 else true

/-- The entry grants the permission that an access needs (R264). -/
def pteAllows (p : Nat) : Access → Bool
  | .load => bit p 2
  | .store => bit p 3
  | .atomic => bit p 2 && bit p 3
  | .fetch => bit p 4

/-- The access writes, and so sets D (R264). -/
def writes : Access → Bool
  | .store => true
  | .atomic => true
  | _ => false

/-- A and D of the leaf after an access (R264). -/
def pteTouched (p : Nat) (acc : Access) : Nat :=
  let q := if bit p 5 then p else p + 32
  if writes acc && !bit q 6 then q + 64 else q

/-- The walk from the table at `base` of `level`: the leaf's level, address and value, or `none` on a failure (R264). -/
def walkFrom (m : Memory) (va : Nat) (acc : Access) : Nat → Nat → Nat → Option (Nat × Nat × Nat)
  | 0, _, _ => none
  | fuel + 1, level, base =>
    let at' := base + 8 * tableIndex level va
    let p := memRead m at' 8
    if !bit p 0 || pteBad p then none
    else if bit p 1 then
      if level = 1 || !pteAligned level p || !pteAllows p acc then none else some (level, at', p)
    else if level = 4 then none
    else walkFrom m va acc fuel (level + 1) (bits p 16 36 * 2 ^ 16)

/-- The addresses of the entries that a walk reads (R261). -/
def walkTrail (m : Memory) (va : Nat) : Nat → Nat → Nat → List Nat
  | 0, _, _ => []
  | fuel + 1, level, base =>
    let at' := base + 8 * tableIndex level va
    let p := memRead m at' 8
    if !bit p 0 || pteBad p || bit p 1 || level = 4 then [at']
    else at' :: walkTrail m va fuel (level + 1) (bits p 16 36 * 2 ^ 16)

/-- The root table of a context on a die, when the context is in use (R262). -/
def ctxRoot (s : State) (die ctx : Nat) : Option Nat :=
  let w := (smGetD (dieOf s die).ctxs ctx 0).toNat
  if bit w 63 then some (bits w 14 38 * 2 ^ 14) else none

/-- A TLB entry covers an address (R265). -/
def tlbHit (ctx va : Nat) (e : TlbEntry) : Bool := e.ctx == ctx && va / 2 ^ pageShift e.level == e.page

/-- Adds an entry to a TLB of `sets` sets of `ways` entries, the latest first, dropping the oldest of a full set (R265) (DESIGN
CHOICE, log entry 18). -/
def tlbAdd (sets ways : Nat) (t : List TlbEntry) (e : TlbEntry) : List TlbEntry :=
  let t := t.filter (fun f => !(f.ctx == e.ctx && f.level == e.level && f.page == e.page))
  let same := t.filter (fun f => f.page % sets == e.page % sets)
  let t := match same[ways - 1]? with
    | some old => t.filter (fun f => !(f.ctx == old.ctx && f.level == old.level && f.page == old.page))
    | none => t
  e :: t

/-- The TLB entry an access of core `c` uses: the core's, else the quad's (R265). An entry whose D must be set is not
used, so that the walk sets it (R264) (DESIGN CHOICE, log entry 18). -/
def tlbFind (s : State) (c ctx va : Nat) (acc : Access) : Option TlbEntry :=
  let ok := fun e => tlbHit ctx va e && (!writes acc || bit e.pte.toNat 6)
  match (coreOf s c).ctl.tlb.find? ok with
  | some e => some e
  | none => if isSup c then none else (quadOf s (quadNo c)).tlb.find? ok

/-- Fills the core's TLB and the quad's with an entry (R265) (DESIGN CHOICE, log entry 18). -/
def tlbFill (s : State) (c : Nat) (e : TlbEntry) : State :=
  let s := onCore s c (fun k => { k with ctl := { k.ctl with tlb := tlbAdd 1 64 k.ctl.tlb e } })
  if isSup c then s else onQuad s (quadNo c) (fun q => { q with tlb := tlbAdd 256 8 q.tlb e })

/-- The way to the entries that a walk reads (R358). -/
def walkWay (s : State) (c ctx va : Nat) : Path :=
  match ctxRoot s (dieNo c) ctx with
  | none => .opened
  | some root => (walkTrail s.mem va 4 1 root).foldl (fun p a => p.andThen (pathPhys s (dieNo c) a 0 false)) .opened

/-- The way to what a translation reads (R265, R358): nothing on a TLB hit, else the entries of the walk. -/
def transWay (s : State) (c : Nat) (ctx : Option Nat) (va : Nat) (acc : Access) : Path :=
  match ctx with
  | none => .opened
  | some x => if (tlbFind s c x va acc).isSome then .opened else walkWay s c x va

/-- The page of an address that has been translated is compressible: C = 1 and memory type 00 (R263, R359). -/
def pageC (s : State) (c : Nat) (ctx : Option Nat) (va : Nat) (acc : Access) : Bool :=
  ctx.any (fun x => (tlbFind s c x va acc).any (fun e => bit e.pte.toNat 7 && bits e.pte.toNat 10 2 == 0))

/-- A walk on behalf of core `c`, its entries read through the L2: sets A and D and fills the TLBs, or fails (R264, R265). -/
def pageWalk (s : State) (c ctx va : Nat) (acc : Access) : Option (State × TlbEntry) :=
  match ctxRoot s (dieNo c) ctx with
  | none => none
  | some root =>
    match walkFrom s.mem va acc 4 1 root with
    | none => none
    | some (level, at', p) =>
      let q := pteTouched p acc
      let s := (walkTrail s.mem va 4 1 root).foldl (fun s a => if cacheable a 0 then grantRead s (dieNo c) (lineOf a) else s) s
      let s := if q = p then s else sliceStore s (dieNo c) at' 8 q
      let e : TlbEntry := ⟨ctx, level, va / 2 ^ pageShift level, BitVec.ofNat 64 q⟩
      some (tlbFill s c e, e)

/-- The translation of a global address: physical address, memory type and DE, or `none` for a translation fault. -/
def translate (s : State) (c : Nat) (ctx : Option Nat) (va : Nat) (acc : Access) :
    Option (State × Nat × Nat × Bool) :=
  match ctx with
  | none => none
  | some ctx =>
    let answer := fun (s : State) (e : TlbEntry) =>
      let p := e.pte.toNat
      if pteAllows p acc then
        some (s, bits p 16 36 * 2 ^ 16 + va % 2 ^ pageShift e.level, bits p 10 2, bit p 8)
      else none
    match tlbFind s c ctx va acc with
    | some e => answer s e
    | none =>
      match pageWalk s c ctx va acc with
      | some (s, e) => answer s e
      | none => none

/-- The launch whose quad set holds core `c` (R35). -/
def launchAt (s : State) (c : Nat) : Option (Nat × Launch) :=
  if isSup c then none else s.pkg.launches.find? (fun e => e.2.quads.contains (quadNo c))

/-- The domain slot of a live domain ID (R340). -/
def domainOf (s : State) (id : Nat) : Option (Nat × Domain) :=
  s.hearth.domains.find? (fun e => e.2.live && e.2.id == id)

/-- The launch of a firing: that of its domain for a task, that of its dispatch otherwise, while it lives (R35, R106). -/
def launchOf (s : State) (_c : Nat) (l : Lane) : Option (Nat × Launch) :=
  let of := fun (n : Nat) => (smGet s.pkg.launches n).map (fun x => (n, x))
  if l.firing.domain = 0 then l.firing.launch.bind of
  else (domainOf s l.firing.domain).bind (fun d => of d.2.launch)

/-- The translation context of a launch on a die: each copy of a paired launch runs on a die of its own (R296, R297). -/
def ctxOnDie (x : Launch) (die : Nat) : Nat := smGetD x.copies die x.ctx

/-- The translation context of a firing: its launch's, or that of firings of no launch (DESIGN CHOICE, log entry 6). -/
def ctxOf (s : State) (c : Nat) (l : Lane) : Option Nat :=
  match launchOf s c l with
  | some (_, x) => some (ctxOnDie x (dieNo c))
  | none => s.sched.fwCtx

end Sys2Proof.Machine
end

