-- ==== Sys2Proof/Machine/Hearth.lean ====
section
/-! DEFINITION. What ordered tasks record and how accesses are checked: signatures, write sets, undo, dependences,
aborts, and the holds of outside accesses (R316 to R333). -/

namespace Sys2Proof.Machine

/-! ### Keys and signatures -/

/-- A task's key as one number: timestamp, then tiebreak (R316). -/
def taskKey (t : Task) : Nat := t.ts.toNat * 2 ^ 32 + t.tb.toNat

/-- Task number `n`. -/
def taskOf (s : State) (n : Nat) : Option Task := smGet s.hearth.tasks n

/-- Replaces task `n`. -/
def setTask (s : State) (n : Nat) (t : Task) : State := onHearth s (fun h => { h with tasks := smSet h.tasks n t })

/-- Applies a function to task `n`, when it exists. -/
def onTask (s : State) (n : Nat) (f : Task → Task) : State :=
  match taskOf s n with
  | some t => setTask s n (f t)
  | none => s

/-- Removes task `n`. -/
def delTask (s : State) (n : Nat) : State := onHearth s (fun h => { h with tasks := smDel h.tasks n })

/-- The four constants of the signature hash (R322). -/
def sigConstants : List Nat := [0x9E3779B97F4A7C15, 0xC2B2AE3D27D4EB4F, 0x165667B19E3779F9, 0x85EBCA77C2B2AE63]

/-- The four bits of a line in a signature (R322). -/
def sigBits (va : Nat) : List Nat := sigConstants.map (fun k => va / 64 * k % 2 ^ 64 / 2 ^ 53)

/-- A signature with a line inserted (R322). -/
def sigInsert (g va : Nat) : Nat := (sigBits va).foldl (fun g b => if bit g b then g else g + 2 ^ b) g

/-- A line hits a signature (R322). -/
def sigHits (g va : Nat) : Bool := (sigBits va).all (bit g)

/-! ### Aborting (R326, R327) -/

/-- The tasks that an abort of `a` brings with it: aborted and discarded (R327). -/
def abortClosure (ts : SMap Task) : Nat → List Nat → List Nat → List Nat × List Nat
  | 0, a, d => (a, d)
  | fuel + 1, a, d =>
    let kids := (ts.filter (fun e => !d.contains e.1 && e.2.parent.any (fun p => a.contains p || d.contains p))).map (·.1)
    let d' := d ++ kids
    let deps := (ts.filter (fun e => !a.contains e.1 && !d'.contains e.1 && e.2.spec
                              && e.2.deps.any (fun p => a.contains p || d'.contains p))).map (·.1)
    if kids.isEmpty && deps.isEmpty then (a, d) else abortClosure ts fuel (a.filter (fun x => !kids.contains x) ++ deps) d'

/-- Restores the lines of a task's undo log (R327) (DEDUCED, log entry 26). -/
def applyUndo (m : Memory) (u : List (Nat × Nat)) : Memory := u.foldl (fun m e => memWrite m e.1 64 e.2) m

/-- The firing's hold on the core ends: its tiles are released and its operations in the seat queues are marked as of
an ended firing (R25, R247, R451). -/
def releaseSlot (k : Core) (l : Nat) : Core :=
  { k with stove := { k.stove with
      owner := k.stove.owner.map (fun o => if o = some l then none else o),
      seats := k.stove.seats.map (fun q => q.map (fun p => if p.lane = l then { p with ended := true } else p)) } }

/-- Lane `l` of core `c` becomes Free by an abort or kill (R14). -/
def freeLane (s : State) (c l : Nat) : State :=
  setLane (onCore s c (fun k => releaseSlot k l)) c l (freed (laneOf s c l))

/-- The members of a list in descending key order. -/
def sortDesc (ts : SMap Task) (l : List Nat) : List Nat :=
  let key := fun n => (smGet ts n).elim 0 taskKey
  l.foldl (fun acc n => (acc.takeWhile (fun x => key x > key n)) ++ [n] ++ (acc.dropWhile (fun x => key x > key n))) []

/-! ### The task queue of a quad and its spill (R320) -/

/-- Tasks queued on a core. -/
def queuedOn (s : State) (c : Nat) : Nat :=
  (s.hearth.tasks.filter (fun e => e.2.state == .queued && e.2.core == c)).length

/-- Tasks queued on a quad; spilled ones apart when `spilled` is false (R320). -/
def queuedAt (s : State) (q : Nat) (spilled : Bool) : Nat :=
  (s.hearth.tasks.filter (fun e => e.2.state == .queued && e.2.quad == q && (spilled || !e.2.spilled))).length

/-- The records of a domain in a quad's queue, or spilled from it. -/
def recordsOf (s : State) (q dom : Nat) (spilled : Bool) : List (Nat × Task) :=
  s.hearth.tasks.filter (fun e => e.2.state == .queued && e.2.quad == q && e.2.domain == dom && e.2.spilled == spilled)

/-- The order in which a domain's records leave the queue: by key, or in queue order for an unordered domain (R16, R320). -/
def recordRank (e : Nat × Task) : Nat := if e.2.ordered then taskKey e.2 else e.1

/-- The lowest place of a domain's spill region that holds no record (R320, R340) (DEDUCED, log entry 26). -/
def spillSlot (s : State) (d : Domain) : Option Nat :=
  let used := (s.hearth.tasks.filter (fun e => e.2.domain == d.id && e.2.spilled)).map (fun e => e.2.slot)
  ((List.range (used.length + 1)).find? (fun i => !used.contains i)).filter (fun i => decide (64 * i + 64 ≤ d.tssize.toNat))

/-- The way of a quad to a place of a domain's task spill region (R320, R358). -/
def spillWay (s : State) (d : Domain) (q slot : Nat) : Path := stackWay s (q / 80) (d.tspill.toNat + 64 * slot)

/-- A queued record goes to the spill region, when that has room and its way is open (R18, R320, R358). -/
def spillTask (s : State) (d : Domain) (n : Nat) (t : Task) : State :=
  match spillSlot s d with
  | some i =>
    match spillWay s d t.quad i with
    | .opened => setTask (storeKey s (d.tspill.toNat + 64 * i) 64 t.record) n { t with spilled := true, slot := i }
    | p => wakePath s p
  | none => s

/-- A spilled record returns to its quad's queue, as the spill region holds it (R18, R320). -/
def unspillTask (s : State) (d : Domain) (n : Nat) (t : Task) : State :=
  setTask s n { t with spilled := false, record := memRead s.mem (d.tspill.toNat + 64 * t.slot) 64 }

/-- The return of spilled records is due while the quad has some and room for them (R320). -/
def spillDue (s : State) (q : Nat) : State :=
  if s.hearth.tasks.any (fun e => e.2.quad == q && e.2.state == .queued && e.2.spilled) && decide (queuedAt s q false < 2048)
  then dueEvent s (.taskSpillReturn q) else s

/-- A record that joins a quad's queue finds no place before a spilled one of its domain, or among 2,048 (R320). -/
def needsSpill (s : State) (q dom rank : Nat) : Bool :=
  decide (2048 ≤ queuedAt s q false) || (recordsOf s q dom true).any (fun e => decide (recordRank e < rank))

/-- The queue holds a domain's least records: the greatest is spilled while the queue is over its size or a lesser one is
spilled (R320). A record that finds the spill region full, or no way to it, stays (DESIGN CHOICE, log entry 26). -/
def settleQueue (s : State) (q dom : Nat) : State :=
  match domainOf s dom, bestBy (fun a b => decide (recordRank b < recordRank a)) (recordsOf s q dom false) with
  | some (_, d), some (n, t) =>
    if 2048 < queuedAt s q false || (recordsOf s q dom true).any (fun e => decide (recordRank e < recordRank (n, t)))
    then spillDue (spillTask s d n t) q else s
  | _, _ => s

/-! ### Keys of a round (R334 to R336) -/

/-- The key of nothing reported: all ones (R335). -/
def noKey : Nat := 2 ^ 96 - 1

/-- The GVT key of a domain as one number. -/
def gvtKey (d : Domain) : Nat := d.gvt.toNat * 2 ^ 32 + d.gvttb.toNat

/-- The least of a list of numbers. -/
def least (l : List Nat) : Option Nat := bestBy (fun a b => decide (a < b)) l

/-- The greatest of a list of numbers. -/
def greatest (l : List Nat) : Option Nat := bestBy (fun a b => decide (b < a)) l

/-- The least unfinished key that the quads reported of a domain (R335). -/
def roundKey (h : Hearth) (dom : Nat) : Nat :=
  (least ((h.reports.filter (fun r => r.2.1 == dom)).filterMap (fun r => r.2.2.1))).getD noKey

/-- The key below which the finished tasks that were reported commit: that of the round whose reports are taken, else the GVT
key. -/
def commitBound (h : Hearth) (d : Domain) : Nat :=
  if h.phase == .reported && h.doms.contains d.id then roundKey h d.id else gvtKey d

/-- Task `n` is the earliest of its domain (R316). -/
def isEarliest (s : State) (t : Task) : Bool :=
  t.ordered && (domainOf s t.domain).any (fun e => taskKey t == gvtKey e.2)

/-- No cause of an abort reaches the task (R38, R326): it is the earliest of its domain, or has finished below the GVT key. A
task that finished after its quad's report is no such one (DEDUCED, log entry 26). -/
def spared (s : State) (n : Nat) (t : Task) : Bool :=
  isEarliest s t || (t.state == .finished && s.hearth.sealed.contains n
    && (domainOf s t.domain).any (fun e => decide (taskKey t < commitBound s.hearth e.2)))

/-- One member of an abort step: undo applied, lane freed, task requeued, finished without effect, or removed (DEDUCED, log entry 26). -/
def abortMember (discard : Bool) (dropped : Option Nat) (s : State) (n : Nat) : State :=
  match taskOf s n with
  | none => s
  | some t =>
    let s := onMem s (fun m => applyUndo m t.undo)
    let s := if t.state == .running then freeLane s t.core t.lane else s
    let s := onHearth s (fun h => { h with domains := h.domains.map (fun e =>
      if e.2.live && e.2.id == t.domain then (e.1, { e.2 with aborts := satInc e.2.aborts }) else e),
                                           sealed := h.sealed.filter (· ≠ n) })
    let t := { t with undo := [], wset := [], rset := [], rsig := 0, wsig := 0, deps := [], held := [], spec := true }
    if discard then delTask s n
    else if dropped = some n then setTask s n { t with state := .finished, dropped := true }
    else settleQueue (setTask s n { t with state := .queued, dropped := false }) t.quad t.domain

/-! ### What an abort releases (R333, R341) -/

/-- A speculative task of another domain than `dom` holds a line, at these virtual addresses, against an outside access (R333). -/
def holdsLine (dom : Nat) (vas : List Nat) (line : Nat) (write : Bool) (t : Task) : Bool :=
  t.ordered && t.spec && t.state != .queued && t.domain != dom
    && (t.wset.contains line || (write && vas.any (sigHits t.rsig)))

/-- The virtual lines at which tasks have read a physical line: those by which the host's access, which has no virtual address, is
checked (R333) (DESIGN CHOICE, log entry 55). -/
def virtualsOf (s : State) (line : Nat) : List Nat :=
  s.hearth.tasks.flatMap (fun e => (e.2.rset.filter (fun r => r.2 == line)).map (·.1))

/-- The first of the speculative tasks that hold a line against an outside access, at its virtual address if it has one (R333). -/
def holder (s : State) (dom : Nat) (va : Option Nat) (line : Nat) (write : Bool) : Option Nat :=
  let vas := va.elim (virtualsOf s line) (fun a => [a])
  (s.hearth.tasks.find? (fun e => holdsLine dom vas line write e.2)).map (·.1)

/-- A speculative task holds the line of a host access, which performs later (R333). -/
def hostHeld (s : State) (pa : Nat) (write : Bool) : Bool := (holder s 0 none (lineOf pa) write).isSome

/-- A host access performs now: nothing holds its line, its way is open, and no die's active request must perform first (R257, R333,
R367, R438). -/
def hostOpen (s : State) (pa : Nat) (write : Bool) : Bool :=
  !hostHeld s pa write && hostWay s pa write == .opened && (recallWaits s none (lineOf pa) write).isEmpty

/-- The host accesses that wait and that nothing holds any more perform, before anything else reaches their lines (R333, R350)
(DEDUCED, log entry 26). -/
def hostReleased (s : State) : State :=
  let free := fun (t : Turn) => match t with
    | .due (.hostMemRead pa _) => hostOpen s pa false
    | .due (.hostMemWrite pa _ _) => hostOpen s pa true
    | _ => false
  (s.sched.agenda.filter free).foldl (fun s t => match t with
    | .due (.hostMemRead pa n) => hostRead s pa n
    | .due (.hostMemWrite pa n v) => hostWrite s pa n v
    | _ => s) { s with sched := { s.sched with agenda := s.sched.agenda.filter (fun t => !free t) } }

/-- A record of the domain waits at its source for room in the domain's spill region (R320). -/
def spillWaits (s : State) (d : Domain) : Bool :=
  (spillSlot s d).isNone && (s.pkg.host.spawnQ.head?.toList ++ s.cores.filterMap (fun e => e.2.msg.spawnQ.head?)).any
    (fun q => bits q.record 448 16 == d.id)

/-- SPILLF reads 0 once no record waits (R341). -/
def refreshSpillf (s : State) : State :=
  onHearth s (fun h => { h with domains := h.domains.map (fun e =>
    (e.1, if e.2.spillf && !spillWaits s e.2 then { e.2 with spillf := false } else e.2)) })

/-- ONE ABORT STEP (R327): `named` and everything it brings with it. With `drop`, the named task becomes Finished with
no effect (R175) (DEDUCED, log entry 26). -/
def abortStep (s : State) (named : Nat) (drop : Bool) : State :=
  let ts := s.hearth.tasks
  let (a, d) := abortClosure ts (2 * ts.length + 1) [named] []
  let s := (sortDesc ts (a ++ d)).foldl (fun s n => abortMember (d.contains n) (if drop then some named else none) s n) s
  -- records of discarded children still on their way are dropped too
  -- and sectors that perform later are recorded for no task (R322)
  let gone := a ++ d
  let dropped := fun (k : Core) => { k with
    msg := { k.msg with spawnQ := k.msg.spawnQ.filter (fun q => !(q.parent.any gone.contains)) },
    eng := { k.eng with
      queue := k.eng.queue.map (fun o => (o.1, if o.2.task.any gone.contains then
        { o.2 with task := none, owner := o.2.owner.map (fun w => (w.1, noKey)) } else o.2))
      tx := k.eng.tx.map (fun u => if u.src.task.any gone.contains then
        { u with src := { u.src with task := none, owner := u.src.owner.map (fun w => (w.1, noKey)) } } else u) } }
  hostReleased (refreshSpillf { s with cores := s.cores.map (fun e => (e.1, dropped e.2)) })

/-! ### Checks of an access (R325, R328, R333) -/

/-- Who makes an access: the task of an ordered domain it belongs to, and the domain and key of that task for what it left running when
it committed (R332). -/
structure Accessor where
  task : Option Nat
  past : Option (Nat × Nat)
  deriving DecidableEq, Repr

/-- The uncommitted ordered tasks of a domain with their numbers. -/
def domainTasks (s : State) (dom : Nat) : List (Nat × Task) :=
  s.hearth.tasks.filter (fun e => e.2.ordered && e.2.domain == dom)

/-- The latest of the earlier tasks of T's domain that hold a line in their write set (R325). -/
def forwarder (s : State) (t : Task) (line : Nat) : Option Nat :=
  (bestBy (fun (a b : Nat × Task) => taskKey b.2 < taskKey a.2)
    ((domainTasks s t.domain).filter (fun e => taskKey e.2 < taskKey t && e.2.wset.contains line))).map (·.1)

/-- Aborts every task of a domain with a greater key that `hit` holds for and that an abort may reach (R325, R326). -/
def abortLater (s : State) (dom key : Nat) (hit : Task → Bool) : State :=
  (domainTasks s dom).foldl (fun s e =>
    match taskOf s e.1 with
    | some u => if key < taskKey u && u.state != .queued && hit u && !spared s e.1 u then abortStep s e.1 false else s
    | none => s) s

/-- The dependence of T on a forwarder, within the limit of eight (R324, R328). -/
def addDep (t : Task) (f : Option Nat) : Except Stop Task :=
  match f with
  | none => .ok t
  | some d =>
    if !t.spec || t.deps.contains d then .ok t
    else if 8 ≤ t.deps.length then waitFor .earliest else .ok { t with deps := d :: t.deps }

/-- A read of a line by task `n` of an ordered domain (R325): a promoted task's too. -/
def taskRead (s : State) (n : Nat) (va pa : Nat) : Except Stop State :=
  match taskOf s n with
  | none => .ok s
  | some t => do
    let t' ← addDep t (forwarder s t (lineOf pa))
    let s := abortLater s t.domain (taskKey t) (fun u => sigHits u.wsig va)
    .ok (setTask s n { t' with
      rsig := sigInsert t'.rsig va, rset := if t'.rset.contains (lineOf va, lineOf pa) then t'.rset else (lineOf va, lineOf pa) :: t'.rset })

/-- A write of a line by task `n` of an ordered domain (R323, R325): the undo entry holds the line as it stands. A promoted
task's write is marked too, without an undo entry (DEDUCED, log entry 26). -/
def taskWrite (s : State) (n : Nat) (va pa : Nat) : Except Stop State :=
  match taskOf s n with
  | none => .ok s
  | some t => do
    let line := lineOf pa
    let t' ← addDep t (forwarder s t line)
    if t'.spec && !t'.wset.contains line && 64 ≤ t'.wset.length then waitFor .earliest
    else
      let s := abortLater s t.domain (taskKey t) (fun u => sigHits u.rsig va || sigHits u.wsig va)
      .ok (setTask s n (if t'.wset.contains line then t'
        else { t' with undo := if t'.spec then (line, memRead s.mem line 64) :: t'.undo else t'.undo,
                       wset := insertNat t'.wset line, wsig := sigInsert t'.wsig va }))

/-- The check of one access to a line of global memory: by a task of an ordered domain (R325, R328), or from outside
(R333). `de` and `mt` are the page's. -/
def lineAccess (s : State) (acc : Accessor) (va pa mt : Nat) (de write : Bool) : Except Stop State :=
  match acc.task.bind (fun n => (taskOf s n).map (fun t => (n, t))) with
  | some (n, t) =>
    if t.spec && (!de || mt ≠ 0) then waitFor .earliest
    else if !de || mt ≠ 0 then .ok s
    else do
      await (holder s t.domain (some va) (lineOf pa) write).isNone (.held va (lineOf pa) write)
      if write then taskWrite s n va pa else taskRead s n va pa
  | none =>
    if de then do
      await (holder s (acc.past.elim 0 (·.1)) (some va) (lineOf pa) write).isNone (.held va (lineOf pa) write)
      .ok (match acc.past with
        | some (dom, key) => abortLater s dom key (fun u => (write && sigHits u.rsig va) || sigHits u.wsig va)
        | none => s)
    else .ok s

/-- The domain and key of an ordered task (R332). -/
def ownerOf (s : State) (n : Option Nat) : Option (Nat × Nat) := (n.bind (taskOf s)).map (fun t => (t.domain, taskKey t))

/-- The accessor of a lane's accesses: its ordered task (R332). -/
def accessorOf (l : Lane) : Accessor := ⟨l.firing.task, none⟩

end Sys2Proof.Machine
end

