-- ==== Sys2Proof/Machine/Access.lean ====
section
/-! DEFINITION. Data accesses of lanes: the checks of R138 in their order, the scoreboard gate of local accesses (R142),
reading and writing a place, poison, and the long-latency results of global accesses (R149, R153). -/

namespace Sys2Proof.Machine

/-- Where an access lands: own LM, Larder shared space, or a physical address with its page's type, DE and C. -/
inductive Place where
  | lm (off : Nat)
  | shared (off : Nat)
  | phys (va pa mt : Nat) (de cz : Bool)
  deriving DecidableEq, Repr

/-- The place is in own LM: a local access (R149). -/
def Place.isLocal : Place → Bool
  | .lm _ => true
  | _ => false

/-- Address of a place of core `c` in the memory list; of a window, that of nothing (R217). -/
def placeKey (c : Nat) : Place → Nat
  | .lm o => lmKey c o
  | .shared o => larderKey o
  | .phys _ pa _ _ _ => if isWindow pa then voidKey else pa

/-- First offset of the Attic (R135). -/
def atticBase : Nat := 0x6C000

/-- The physical address is HBM, host memory or a window (R358, R409) (DESIGN CHOICE, log entry 35). -/
def isBacked (pa : Nat) : Bool := decide (pa < 2 ^ 41) || isWindow pa

/-- A request waits for a flue or a function on its way, or fails (R367, R438) (DESIGN CHOICE, log entry 35). -/
def reach (p : Path) (a : X) : Except Stop Unit :=
  match p with
  | .opened => .ok ()
  | .waking f => waitFor (.link f a)
  | .notReady i => waitFor (.functionReady i a)
  | .down => trapAt .linkWake a
  | .failed => trapAt .dieUnresponsive a

/-- The checks of the address of one access by core `c` under context `ctx`, in the order of R138 and R212:
class, LM protection, alignment, translation, access type. `noType` refuses pages of type 01 too (R275) (DESIGN CHOICE, log
entry 5). -/
def locate (s : State) (c : Nat) (ctx : Option Nat) (acc : Access) (noType : Bool) (a : X) (align : Nat) :
    Except Stop (State × Place) :=
  match classOf s c a with
  | .ownLm o =>
    if atticBase ≤ o then trapAt .lmProtection a
    else if a.toNat % align ≠ 0 then trapAt .misaligned a
    else .ok (s, .lm o)
  | .shared o => if a.toNat % align ≠ 0 then trapAt .misaligned a else .ok (s, .shared o)
  | .global =>
    if a.toNat % align ≠ 0 then trapAt .misaligned a
    else match reach (transWay s c ctx a.toNat acc) a, translate s c ctx a.toNat acc with
      | .error e, _ => .error e
      | _, none => trapAt .translation a
      | _, some (s, pa, mt, de) =>
        if (acc == .atomic && mt == 2) || (noType && mt ≠ 0) then trapAt .accessType a
        else if isBacked pa then .ok (s, .phys a.toNat pa mt de (pageC s c ctx a.toNat acc)) else .error (.stuck .unbacked)
  | _ => trapAt .address a

/-- The way to a place from core `c` (R367, R438). -/
def pathTo (s : State) (c : Nat) (write : Bool) : Place → Path
  | .lm _ => .opened
  | .shared o => pathShared s (dieNo c) o
  | .phys _ pa mt _ _ => pathPhys s (dieNo c) pa mt write

/-- The tokens of a place's line may come to core `c`: no persistent request of another has them (R256, R257). -/
def tokensAt (s : State) (c : Nat) (write : Bool) : Place → Except Stop Unit
  | .phys _ pa mt _ _ =>
    await (decide (2 ^ 40 ≤ pa) || linesFree s c (lineOf pa) write (cacheable pa mt)) (.tokens (lineOf pa) write (cacheable pa mt))
  | _ => .ok ()

/-- The checks of one access: its address, then its way and its tokens (R138, R256, R367, R438). -/
def resolve (s : State) (c : Nat) (ctx : Option Nat) (acc : Access) (noType : Bool) (a : X) (align : Nat) :
    Except Stop (State × Place) := do
  let (s, p) ← locate s c ctx acc noType a align
  reach (pathTo s c (writes acc) p) a
  tokensAt s c (writes acc) p
  .ok (s, p)

/-- The checks of a list of elements, lowest first (R148). -/
def resolveAll (c : Nat) (ctx : Option Nat) (acc : Access) (align : Nat) :
    State → List (Nat × X) → Except Stop (State × List (Nat × Place))
  | s, [] => .ok (s, [])
  | s, (i, a) :: t => do
    let (s, p) ← resolve s c ctx acc false a align
    let (s, ps) ← resolveAll c ctx acc align s t
    .ok (s, (i, p) :: ps)

/-- The checks of the memory model's ordered domains for one place (R325, R328, R333). -/
def domainCheck (acc : Accessor) (write : Bool) (s : State) : Place → Except Stop State
  | .lm _ => .ok s
  | .shared _ =>
    match acc.task with
    | some n => do
      await ((taskOf s n).all (fun t => !t.spec)) .earliest
      .ok s
    | none => .ok s
  | .phys va pa mt de _ => lineAccess s acc va pa mt de write

/-- The checks of R325 for every place, in element order. -/
def domainAll (acc : Accessor) (write : Bool) : State → List (Nat × Place) → Except Stop State
  | s, [] => .ok s
  | s, (_, p) :: t => do
    let s ← domainCheck acc write s p
    domainAll acc write s t

/-! ### The scoreboard gate (R142) -/

/-- LM granule of an offset (R141). -/
def granule (o : Nat) : Nat := o / 32

/-- A span holds a granule. -/
def spanHas (p : Option Span) (g : Nat) : Bool := p.any (fun q => q.1 ≤ g && g ≤ q.2)

/-- Two tile masks meet. -/
def masksMeet (a b : Nat) : Bool := (List.range 8).any (fun i => bit a i && bit b i)

/-- An entry conflicts with a core access to granules and tiles (R142). -/
def entryBlocks (gs : List Nat) (tiles : Nat) (write : Bool) (e : SbEntry) : Bool :=
  gs.any (fun g => spanHas e.wr g || (write && (spanHas e.rda g || spanHas e.rdb g)))
    || masksMeet e.twr tiles || (write && masksMeet e.trd tiles)

/-- The age of a lane's first attempt of the access that it makes now: the next age when this is the first (R142). -/
def tryAge (k : Core) (l : Lane) : Nat :=
  match l.firstTry with
  | some (.scoreboard _ _ _ b) => b
  | _ => k.eng.sbAge

/-- A core access waits while an entry older than its first attempt conflicts with it (R142). -/
def sbGate (s : State) (gs : List Nat) (tiles : Nat) (write : Bool) : Except Stop Unit :=
  let k := curCore s
  let before := tryAge k (cur s)
  await (!(k.eng.sb.any (fun e => decide (e.2.age < before) && entryBlocks gs tiles write e.2)))
    (.scoreboard gs tiles write before)

/-- The granules of the local places of an access of `n` bytes each. -/
def localGranules (n : Nat) (ps : List (Nat × Place)) : List Nat :=
  ps.foldl (fun gs e => match e.2 with
    | .lm o => insertNat (insertNat gs (granule o)) (granule (o + n - 1))
    | _ => gs) []

/-! ### Reading and writing -/

/-- The lines that core `c` reads at these places come into its L1D cache (R255). -/
def cachePlaces (s : State) (c : Nat) (ps : List (Nat × Place)) : State :=
  ps.foldl (fun s e => match e.2 with
    | .phys _ pa mt _ _ => if cacheable pa mt then cacheRead s c (lineOf pa) else s
    | _ => s) s

/-- What a device window gives and takes: read of `n` bytes at a physical address, and write. -/
structure Devices where
  read : State → Nat → Nat → Nat → Nat
  write : State → Nat → Nat → Nat → Nat → State

/-- The value of `n` bytes at a place read by core `c`; a window is read only with memory type 10 (R217) (DESIGN CHOICE, log entry 5). -/
def readPlace (dev : Devices) (s : State) (c n : Nat) : Place → Nat
  | .phys _ pa mt _ _ => if isWindow pa then (if mt = 2 then dev.read s c pa n else 0) else memRead s.mem pa n
  | p => memRead s.mem (placeKey c p) n

/-- Writes `n` bytes at a place (R145, R149) (DESIGN CHOICE, log entry 5; DEDUCED, log entry 17). -/
def writePlace (dev : Devices) (s : State) (c n v : Nat) : Place → State
  | .phys _ pa mt _ cz =>
    if isWindow pa then (if mt = 2 then dev.write s c pa n v else s)
    else if cacheable pa mt then
      let s := cacheWrite (putBytes s pa n v) c (lineOf pa)
      if cz then chooseBlock s (pa / 256) else s
    else storeKey s pa n v
  | p => storeKey s (placeKey c p) n v

/-! ### Results and counters (R149, R153) -/

/-- Holds an instruction that would take lcnt or scnt above 63 (R149). -/
def counterRoom (l : Lane) (load store : Bool) : Except Stop Unit :=
  await ((!load || l.lcnt < 63) && (!store || l.scnt < 63)) (.counters (if load then 62 else 63) (if store then 62 else 63))

/-- A global store counts in scnt until it is visible at die scope (R149) (DESIGN CHOICE, log entry 16). -/
def countStore (s : State) : State :=
  let s := setCur s { cur s with scnt := (cur s).scnt + 1 }
  dueEvent s (.storePerformed s.sched.core s.sched.lane)

/-- A local read of a poisoned word faults once nothing that it waits for can still write it (R138, R142, R153). -/
def localPoison (s : State) (c n : Nat) (ps : List (Nat × Place)) : Except Stop Unit :=
  match ps.find? (fun e => e.2.isLocal && poisoned s (placeKey c e.2) n) with
  | some (_, .lm o) => trapAt .poisoned (BitVec.ofNat 64 (0xFF80 * 2 ^ 48 + o))
  | _ => .ok ()

/-- The places of the elements before the first that fails (R148). -/
def placesBefore (c : Nat) (ctx : Option Nat) (acc : Access) (align : Nat) : State → List (Nat × X) → List (Nat × Place)
  | _, [] => []
  | s, (i, a) :: t =>
    match resolve s c ctx acc false a align with
    | .ok (s, p) => (i, p) :: placesBefore c ctx acc align s t
    | .error _ => []

/-- The address of the first element that is in global memory or shared space, or 0. -/
def firstAddr (ps : List (Nat × Place)) : X :=
  match ps.find? (fun e => !e.2.isLocal) with
  | some (_, .phys va _ _ _ _) => BitVec.ofNat 64 va
  | some (_, .shared o) => BitVec.ofNat 64 (0xFF90 * 2 ^ 48 + o)
  | _ => 0

/-- The first poisoned address among places read (R153). -/
def firstPoison (s : State) (c n : Nat) (ps : List (Nat × Place)) : Option X :=
  (ps.find? (fun e => !e.2.isLocal && poisoned s (placeKey c e.2) n)).map (fun e =>
    match e.2 with
    | .phys va _ _ _ _ => BitVec.ofNat 64 va
    | .shared o => BitVec.ofNat 64 (0xFF90 * 2 ^ 48 + o)
    | .lm o => BitVec.ofNat 64 (0xFF80 * 2 ^ 48 + o))

end Sys2Proof.Machine
end

