-- ==== Sys2Proof/Machine/Flues.lean ====
section
/-! DEFINITION. Flues: FTURN and turns (R361 to R365), link sequences and retries (R362), power states and failures (R366,
R367), and the Horn ports (R418). -/

namespace Sys2Proof.Machine

/-! ### Turn commands (R363 to R365) -/

/-- Groups of a flue (R361). -/
def flueGroups (f : Nat) : Nat := if f < 8 then 16 else 8

/-- The status that a command for an end gets: 4, 3, 2 or 0, checked in that order (R363). -/
def turnStatus (s : State) (f : Nat) (endB : Bool) (target : Nat) : Nat :=
  let x := flueOf s f
  if x.pwr = 3 then 4
  else if target < 2 ∨ flueGroups f - 2 < target then 3
  else if 4 ≤ (if endB then x.qb else x.qa).length then 2 else 0

/-- Queues a command at one end; a Drowsy flue wakes (R363, R366) (DEDUCED, log entry 37). -/
def queueTurn (s : State) (f : Nat) (endB : Bool) (target : Nat) : State :=
  let x := flueOf s f
  let x := if endB then { x with qb := x.qb ++ [target] } else { x with qa := x.qa ++ [target] }
  dueEvent (wakeFlue (setFlue s f x) f) (.flueTurnStart f)

/-- The flue and end that a selector names for a die (R363). -/
def turnEnd (d : Nat) (sel : Nat) : Nat × Bool :=
  if sel = 0 then (d, false) else if sel = 1 then (8 + d, false) else (8 + (d + 7) % 8, true)

/-- The firing's launch holds the flue grant of a die (R34, R363) (DEDUCED, log entry 37). -/
def flueGranted (s : State) (d : Nat) : Bool := (launchOf s s.sched.core (cur s)).any (fun x => bit x.2.flues d)

/-- `FTURN xd, xa, #sel` (R363). -/
def execFturn (o : FturnOp) : State → Host.Outcome State Fault Refusal := guardedStateOp 8 o.guard (fun s => do
  let l := cur s
  irrevocable l
  gate l [.x o.a] [.x o.d]
  let d := dieNo s.sched.core
  let (f, b) := turnEnd d o.sel.val
  let n := (getX l o.a.reg).toNat
  let answer := fun (s : State) (st : Nat) => setCur s (putX (kill (cur s) [.x o.a]) o.d (BitVec.ofNat 64 st))
  if !flueGranted s d then
    let x := flueOf s f
    .ok (answer (setFlue s f { x with drops := min (x.drops + 1) 0xFFFF }) 1)
  else
    let st := turnStatus s f b n
    .ok (answer (if st = 0 then queueTurn s f b n else s) st))

/-- A write of FLCMD queues a command as FTURN does, without the grant check (R365). -/
def writeFlcmd (s : State) (f w : Nat) : State :=
  let b := bit w 5
  if turnStatus s f b (w % 32) = 0 then queueTurn s f b (w % 32) else s

/-- FLCMD_WRITE (R365): by a supervisor core (R351). -/
def execFlcmdWrite (who flue : Nat) (value : X) (s : State) : Host.Outcome State Fault Refusal :=
  .next (if isSup who && decide (flue < 16) then writeFlcmd s flue value.toNat else s)

/-- FLUE_TURN_START (R364): with no turn in progress, the flue Active and 2 µs after the previous start, the end whose
turn it is gives the new count. A command for the present count completes without a turn (DEDUCED, log entry 37). -/
def execFlueTurnStart (flue : Nat) (s : State) : Host.Outcome State Fault Refusal :=
  let s := sampleTime s
  let x := flueOf s flue
  let useB := !x.qb.isEmpty && (x.qa.isEmpty || !x.lastb)
  let early := x.started.any (fun t => decide (s.sched.gtime - t < 2000))
  .next (if x.turning.isSome || x.pwr != 0 then s
    else match (if useB then x.qb else x.qa) with
      | [] => s
      | t :: rest =>
        let gab := if useB then t else flueGroups flue - t
        let x' := if useB then { x with qb := rest, lastb := true } else { x with qa := rest, lastb := false }
        if gab = x.gab then dueEvent (setFlue s flue x') (.flueTurnStart flue)
        else if early then dueEvent s (.flueTurnStart flue)
        else dueEvent (setFlue s flue { x' with turning := some gab, started := some s.sched.gtime }) (.flueGroupTurned flue))

/-- FLUE_GROUP_TURNED (R364): one group has reversed; the turn ends with the last. -/
def execFlueGroupTurned (flue : Nat) (s : State) : Host.Outcome State Fault Refusal :=
  let x := flueOf s flue
  .next (match x.turning with
    | none => s
    | some g =>
      let n := if x.gab < g then x.gab + 1 else x.gab - 1
      if n = g then
        dueEvent (setFlue s flue { x with gab := n, turning := none, turns := min (x.turns + 1) 0xFFFF }) (.flueTurnStart flue)
      else dueEvent (setFlue s flue { x with gab := n }) (.flueGroupTurned flue))

/-! ### Link sequences and power states (R362, R366, R367) -/

/-- The flue enters Down: its commands are discarded (R364, R366) (DEDUCED, log entry 37). -/
def flueDown (s : State) (f : Nat) : State :=
  setFlue s f { flueOf s f with pwr := 3, qa := [], qb := [], turning := none, failsAB := 0, failsBA := 0 }

/-- One direction of a flue: the next sequence to send, the next to deliver, the oldest unacknowledged, the retries of that. -/
structure LinkEnd where
  send : BitVec 16
  recv : BitVec 16
  ack : BitVec 16
  fails : Nat
  deriving DecidableEq, Repr

/-- A direction of a flue: towards end B, or towards end A. -/
def linkOf (x : Flue) (toB : Bool) : LinkEnd :=
  if toB then ⟨x.sendAB, x.recvAB, x.ackAB, x.failsAB⟩ else ⟨x.sendBA, x.recvBA, x.ackBA, x.failsBA⟩

/-- The flue with a direction replaced. -/
def withLink (x : Flue) (toB : Bool) (e : LinkEnd) : Flue :=
  if toB then { x with sendAB := e.send, recvAB := e.recv, ackAB := e.ack, failsAB := e.fails }
  else { x with sendBA := e.send, recvBA := e.recv, ackBA := e.ack, failsBA := e.fails }

/-- A packet takes the next sequence of a direction, unless 512 are unacknowledged (R362) (DEDUCED, log entry 37). -/
def linkSend (e : LinkEnd) : LinkEnd := if (e.send - e.ack).toNat < 512 then { e with send := e.send + 1 } else e

/-- A packet of sequence `seq` arrives within the retry window of 512: it has been sent, with those before it; the one next to
deliver is delivered, one already delivered is dropped, and both are acknowledged, which `acked` says reaches the sender; one ahead of
the sequence is dropped (R362) (DEDUCED, log entry 37). -/
def linkReceive (acked : Bool) (e : LinkEnd) (seq : BitVec 16) : LinkEnd :=
  let answer := fun (e : LinkEnd) => if acked && e.ack != e.recv then { e with ack := e.recv, fails := 0 } else e
  let ahead := (seq - e.recv).toNat
  if ahead < 512 then
    let e := if (e.send - e.recv).toNat ≤ ahead then { e with send := seq + 1 } else e
    if seq = e.recv then answer { e with recv := seq + 1 } else e
  else if (e.recv - seq).toNat ≤ 512 then answer e else e

/-- LINK_PACKET_RECEIVE (R362): whether the acknowledgement reaches the sender is open. -/
def execLinkPacketReceive (flue : Nat) (toB : Bool) (seq : BitVec 16) (s : State) : Host.Outcome State Fault Refusal :=
  let x := flueOf s flue
  .next (if x.pwr ≠ 0 then s
    else setFlue (draw s) flue (withLink x toB (linkReceive (Config.ackArrives s.sched.freeCtr) (linkOf x toB) seq)))

/-- LINK_RETRY (R362): the oldest unacknowledged packet is sent again; the sixteenth consecutive retry takes the flue Down. -/
def execLinkRetry (flue : Nat) (toB : Bool) (s : State) : Host.Outcome State Fault Refusal :=
  let x := flueOf s flue
  let e := linkOf x toB
  .next (if x.pwr ≠ 0 ∨ e.send = e.ack then s
    else if 16 ≤ e.fails + 1 then flueDown s flue
    else setFlue s flue (withLink x toB { e with fails := e.fails + 1 }))

/-- FLUE_DROWSY (R366): an idle Active flue that is not pinned and has no command queued. -/
def execFlueDrowsy (flue : Nat) (s : State) : Host.Outcome State Fault Refusal :=
  let x := flueOf s flue
  .next (if x.pwr = 0 ∧ !x.pin ∧ x.idle ≠ 0 ∧ x.qa.isEmpty ∧ x.qb.isEmpty ∧ x.turning.isNone then
    setFlue s flue { x with pwr := 1 } else s)

/-- FLUE_TRAINED (R366): a Waking flue becomes Active. -/
def execFlueTrained (flue : Nat) (s : State) : Host.Outcome State Fault Refusal :=
  let x := flueOf s flue
  .next (if x.pwr = 2 then dueEvent (setFlue s flue { x with pwr := 0 }) (.flueTurnStart flue) else s)

/-- FLUE_WAKE_TIMEOUT (R366, R367): a flue that has not trained goes Down, and the requests that wait for it fail when
they are tried again. -/
def execFlueWakeTimeout (flue : Nat) (s : State) : Host.Outcome State Fault Refusal :=
  .next (if (flueOf s flue).pwr = 2 then flueDown s flue else s)

/-- The data address of the access that a lane waits with and that may have had no response: one that waits for a flue to wake has not been
sent (R213, R367) (DEDUCED, log entry 37). -/
def waitAddr (l : Lane) : Option X :=
  match l.wait with
  | some (.functionReady _ a) => some a
  | some (.held va _ _) => some (BitVec.ofNat 64 va)
  | _ => none

/-- Result `ix` is written as zero, in its turn. -/
def zeroAt (l : Lane) (ix : Nat) : Lane :=
  { l with results := l.results.modify ix (fun r => { r with value := 0, poisonAt := none }) }

/-- The destination's full and dead bits as they stood, among marks that say dead of nothing that was live (R211). -/
def marksBack (m old : Marks) (d : Dest) : Marks :=
  let at' := fun (w o : BitVec 32) (r : Reg) => if o.getLsbD r.val then w ||| BitVec.twoPow 32 r.val else w &&& ~~~ BitVec.twoPow 32 r.val
  let m := { m with xdead := m.xdead &&& old.xdead, vdead := m.vdead &&& old.vdead }
  match d with
  | .x r => { m with xfull := at' m.xfull old.xfull r, xdead := at' m.xdead old.xdead r }
  | .v r => { m with vfull := at' m.vfull old.vfull r, vdead := at' m.vdead old.vdead r }

/-- A lane whose request has had no response stands at that instruction again, which has changed no state (R211, R367). What it completed
since stays as it is (DEDUCED, log entry 37). -/
def backAt (l : Lane) (ix : Nat) (r : Result) : Lane :=
  { l with results := l.results.eraseIdx ix, lcnt := l.lcnt - 1, pc := r.site.pc, loop := r.site.loop,
           instcnt := if satInc r.site.instcnt = l.instcnt then r.site.instcnt else l.instcnt - 1,
           marks := marksBack l.marks r.site.marks r.dest, status := .ready, wait := none, waitCount := 0, firstTry := none,
           frz := { l.frz with failing := some ⟨r.addr, r.instr, true⟩ } }

/-- A lane's request has had no response (R211, R213, R214, R367): its oldest outstanding global access fails, or else the access that it
waits with, and the lane freezes at that access with code 0x3C. One that has ended its firing sends the packet alone, and in the wait
of R213 the result is written as zero and the packet that is due gets its POISON mark (DEDUCED, log entry 37). -/
def laneUnresponsive (core lane : Nat) (s : State) : State :=
  let l := laneOf s core lane
  match l.results.zipIdx.find? (fun e => e.1.counted) with
  | some (r, ix) =>
    match l.frz.pending with
    | some p => setLane s core lane { zeroAt l ix with frz := { l.frz with pending := some { p with poison := true } } }
    | none =>
      if l.status == .draining then
        sendPacket (setLane s core lane (zeroAt l ix)) core false
          { packetFor s core lane .dieUnresponsive r.addr r.instr with ended := true, nofrz := true, pc := r.site.pc.setWidth 64 }
      else setLane s core lane (if l.frz.failing.isSome then zeroAt l ix else backAt l ix r)
  | none =>
    match l.frz.pending, waitAddr l with
    | none, some a => setLane s core lane { l with status := .ready, wait := none, frz := { l.frz with failing := some ⟨a, l.waitInstr, true⟩ } }
    | _, _ => s

/-! ### Packets between dies (R361, R366) -/

/-- The ring flues from die `a` to die `b`, the shorter way round and upwards on a tie: the route is open (DESIGN CHOICE, log entry
42). -/
def ringRoute (a b : Nat) : List Nat :=
  let up := (b + 8 - a) % 8
  if up ≤ 4 then (List.range up).map (fun i => 8 + (a + i) % 8) else (List.range (8 - up)).map (fun i => 8 + (a + 7 - i) % 8)

/-- The ring flues of the other way round. -/
def ringBack (a b : Nat) : List Nat := ((List.range 8).map (8 + ·)).filter (fun f => !(ringRoute a b).contains f)

/-- The flues that a packet takes: the other way round when a flue of the first is Down (DESIGN CHOICE, log entry 42). -/
def packetRoute (s : State) (a b : Nat) : List Nat :=
  let r := ringRoute a b
  if r.any (fun f => (flueOf s f).pwr == 3) && !(a == b) then ringBack a b else r

/-- The way of a packet between two dies has reported ready and is Active (R366, R437). -/
def ringOpen (s : State) (a b : Nat) : Bool := (packetRoute s a b).all (fun f => (flueOf s f).pwr == 0 && bit s.pkg.ready (2320 + f))

/-- A packet from die `a` to die `b` takes its place in the sequence of each flue on its way (R362) (DEDUCED, log entry 37). -/
def packetSent (s : State) (a b : Nat) : State :=
  let way := packetRoute s a b
  let toB := decide ((b + 8 - a) % 8 ≤ 4) == (way == ringRoute a b)
  way.foldl (fun s f => setFlue s f (withLink (flueOf s f) toB (linkSend (linkOf (flueOf s f) toB)))) s

/-- A packet to send wakes the Drowsy flues on its way (R366). -/
def wakeRing (s : State) (a b : Nat) : State := (packetRoute s a b).foldl wakeFlue s

/-! ### Horn ports (R418) -/

/-- Horn port `p`. -/
def portOf (s : State) (p : Nat) : HornPort := smGetD s.pkg.horn p HornPort.reset

/-- Replaces Horn port `p`. -/
def setPort (s : State) (p : Nat) (x : HornPort) : State := onPkg s (fun k => { k with horn := smSet k.horn p x })

/-- A flit leaves by a port with room in its retry window of 1,024 (R418) (DEDUCED, log entry 37). -/
def sendFlit (s : State) (p : Nat) : Option State :=
  let x := portOf s p
  if (x.sendSeq - x.ackSeq).toNat < 1024 then some (setPort s p { x with sendSeq := x.sendSeq + 1 }) else none

/-- HORN_RETRY (R418): the oldest unacknowledged flit is sent again and counted; sixteen consecutive retries take the port Down. -/
def execHornRetry (port : Nat) (s : State) : Host.Outcome State Fault Refusal :=
  let x := portOf s port
  let x' := { x with retry := min (x.retry + 1) 0xFFFF, fails := x.fails + 1 }
  .next (if x.state ≠ 0 ∨ x.sendSeq = x.ackSeq then s
    else setPort s port (if 16 ≤ x'.fails then { x' with state := 3, downs := min (x.downs + 1) 0xFFFF, fails := 0 } else x'))

/-- HORN_RETRAIN (R418): a Down port starts training. -/
def execHornRetrain (port : Nat) (s : State) : Host.Outcome State Fault Refusal :=
  let x := portOf s port
  .next (if x.state = 3 ∧ port < 64 then setPort s port { x with state := 1 } else s)

/-- HORN_PORT_TRAINED (R418): a port in Training becomes Active. -/
def execHornPortTrained (port : Nat) (s : State) : Host.Outcome State Fault Refusal :=
  let x := portOf s port
  .next (if x.state = 1 then setPort s port { x with state := 0 } else s)

end Sys2Proof.Machine
end

