-- ==== Sys2Proof/Machine/Scoreboard.lean ====
section
/-! DEFINITION. Scoreboard entries of asynchronous operations (R141 to R143). -/

namespace Sys2Proof.Machine

/-- An entry that holds nothing, of lane `l`. -/
def sbEmpty (l : Nat) : SbEntry := ⟨0, l, 0, none, none, none, 0, 0, 0, 0, none⟩

/-- The granules of the LM bytes from `lo` to `hi` (R141). -/
def spanOf (lo hi : Nat) : Option Span := some (granule lo, granule hi)

/-- Two intervals share a granule. -/
def spansMeet (a b : Option Span) : Bool :=
  match a, b with
  | some x, some y => decide (x.1 ≤ y.2) && decide (y.1 ≤ x.2)
  | _, _ => false

/-- Two entries conflict: they share a granule, a tile or an accumulator that one of them writes (R142). Accumulator
records of gang operations of one seat do not (R245). -/
def entriesConflict (e f : SbEntry) : Bool :=
  spansMeet e.wr f.wr || spansMeet e.wr f.rda || spansMeet e.wr f.rdb || spansMeet f.wr e.rda || spansMeet f.wr e.rdb
    || masksMeet e.twr (f.twr ||| f.trd) || masksMeet f.twr e.trd
    || (!(e.gang.isSome && e.gang == f.gang) && (masksMeet e.awr (f.awr ||| f.ard) || masksMeet f.awr e.ard))

/-- Lowest free of `n` slots. -/
def lowestFree {α : Type} (m : SMap α) (n : Nat) : Option Nat := (List.range n).find? (fun i => (smGet m i).isNone)

/-- Room for `n` entries: there are 48 (R141). -/
def sbRoomFor (k : Core) (n : Nat) : Bool := decide (((List.range 48).filter (fun i => (smGet k.eng.sb i).isSome)).length + n ≤ 48)

/-- Room for an entry. -/
def sbRoom (k : Core) : Bool := sbRoomFor k 1

/-- Takes an entry for an operation; answers its age, which orders it (R142). Which of the free entries it takes is open: the lowest (DESIGN
CHOICE, log entry 61). -/
def takeEntry (s : State) (c : Nat) (e : SbEntry) : State × Nat :=
  let k := coreOf s c
  let a := k.eng.sbAge
  match lowestFree k.eng.sb 48 with
  | none => (s, a)
  | some i => (setCore s c { k with eng := { k.eng with sb := smSet k.eng.sb i { e with age := a }, sbAge := a + 1 } }, a)

/-- The entry of an age. -/
def entryOf (k : Core) (age : Nat) : Option SbEntry := (k.eng.sb.find? (fun e => e.2.age == age)).map (·.2)

/-- Frees the entry of an age (R143). -/
def freeEntry (s : State) (c : Nat) (age : Option Nat) : State :=
  match age with
  | none => s
  | some a => onCore s c (fun k => { k with eng := { k.eng with sb := k.eng.sb.filter (fun e => e.2.age != a) } })

/-- The entry holds an interval, a tile or an accumulator. -/
def SbEntry.holds (e : SbEntry) : Bool :=
  e.rda.isSome || e.rdb.isSome || e.wr.isSome || e.trd != 0 || e.twr != 0 || e.ard != 0 || e.awr != 0

/-- The entry of an age releases a part of what it holds; with nothing more it is freed (R143). -/
def releasePart (s : State) (c : Nat) (age : Option Nat) (f : SbEntry → SbEntry) : State :=
  onCore s c (fun k => { k with eng := { k.eng with
    sb := (k.eng.sb.map (fun e => if some e.2.age = age then (e.1, f e.2) else e)).filter (fun e => some e.2.age ≠ age || SbEntry.holds e.2) } })

/-- The entry of an age releases its index list, read to its end (R143, R280). -/
def releaseIndex (s : State) (c : Nat) (age : Option Nat) (scatter : Bool) : State :=
  releasePart s c age (fun e => if scatter then { e with rdb := none } else { e with rda := none })

/-- The entry of an age releases its read intervals, after its last read (R143). -/
def releaseReads (s : State) (c : Nat) (age : Option Nat) : State := releasePart s c age (fun e => { e with rda := none, rdb := none })

/-- A core access that a conflict has kept from performing since its first attempt stands before an entry taken later, and conflicts
with it (R142). -/
def accessBefore (e : SbEntry) (l : Lane) : Bool :=
  match l.firstTry with
  | some (.scoreboard gs tiles write before) => decide (before ≤ e.age) && entryBlocks gs tiles write e
  | _ => false

/-- No earlier entry and no core access first tried earlier conflicts with an operation's own entry; one without an entry is
checked against none (R142, R144). -/
def mayStart (k : Core) (age : Option Nat) : Bool :=
  match age.bind (entryOf k) with
  | none => true
  | some e => !(k.eng.sb.any (fun f => decide (f.2.age < e.age) && entriesConflict e f.2)) && !k.lanes.toList.any (accessBefore e)

/-! ### Order at the Larder's banks (R357) -/

/-- The operation ID (R279). -/
def opId (c slot : Nat) (op : EngOp) : Nat := c * 2 ^ 20 + slot * 2 ^ 15 + op.seq % 2 ^ 15

/-- The bank of a shared-space offset (R352). -/
def bankOf (s : State) (off : Nat) : Nat := off / 256 % (128 * s.pkg.shared)

/-- The destination offset and the sector count of a bank operation (R354, R355). -/
def bankDest (op : EngOp) : Option (Nat × Nat) :=
  let off := op.xs.toNat % 2 ^ 48
  match op.kind with
  | .bop o => some (off, o.n.toNat + 1)
  | .bred o => some (off, o.n.toNat + 1)
  | .bvec o => some (off, o.n.toNat + 1)
  | _ => none

/-- An operation of core `c` issued before number `before` still has a sector to apply at the bank of `off` (R357). -/
def bankPending (s : State) (c off before : Nat) : Bool :=
  (coreOf s c).eng.queue.any (fun e => decide (e.2.seq < before) && (match bankDest e.2 with
    | none => false
    | some (d, n) => (List.range n).any (fun q =>
        bankOf s (d + 32 * q) == bankOf s off && !(smGetD s.pkg.applied (opId c e.1 e.2) []).contains q)))

/-- A seat operation that has not started: the first of its queue that has not (R233). -/
def nextSeatOp (q : List SeatOp) : Option SeatOp := q.find? (fun p => !p.started)

/-- Every queued operation of a core may be tried again: its start is due (R143). -/
def kick (s : State) (c : Nat) : State :=
  let k := coreOf s c
  let s := (k.eng.queue.filter (fun e => e.2.state == .queued)).foldl (fun s e => dueEvent s (.asyncOpStart c 0 e.1)) s
  (List.range 2).foldl (fun s i =>
    match nextSeatOp (k.stove.seats[i]?.getD []) with
    | some p => if p.held.isNone then dueEvent s (.asyncOpStart c (i + 1) p.age) else s
    | none => s) s

/-- A span as V, LO and HI fields of 29 bits (R146). -/
def spanBits (p : Option Span) : Nat :=
  match p with
  | some (lo, hi) => 2 ^ 28 + lo % 2 ^ 14 * 2 ^ 14 + hi % 2 ^ 14
  | none => 0

/-- The 16 bytes of scoreboard entry `i` (R146). -/
def sbWord (k : Core) (i : Nat) : Nat :=
  match smGet k.eng.sb i with
  | none => 0
  | some e => 2 ^ 127 + e.lane % 16 * 2 ^ 123 + e.qslot % 32 * 2 ^ 118 + spanBits e.rda * 2 ^ 82 + spanBits e.rdb * 2 ^ 53
      + spanBits e.wr * 2 ^ 24 + e.trd % 256 * 2 ^ 16 + e.twr % 256 * 2 ^ 8 + e.ard % 16 * 2 ^ 4 + e.awr % 16

/-- Code of an operation's state in ENGCTL (R285). -/
def opStateCode : OpState → Nat
  | .queued => 1 | .running => 2 | .suspended => 3

end Sys2Proof.Machine
end

