-- ==== Sys2Proof/Machine/Streams.lean ====
section
/-! DEFINITION. The core-state block in LM: handler entries (R20, R21), range registers (R176), stream buffers (R182) and
actor registrations (R186 to R188). -/

namespace Sys2Proof.Machine

/-! ### Handler vector entries (R20) -/

/-- LM offset of the handler table (R135). -/
def handlerBase : Nat := 0x7E000

/-- The two doublewords of handler entry `n` of core `c`. -/
def handlerEntry (s : State) (c n : Nat) : Nat × Nat :=
  (memRead s.mem (lmKey c (handlerBase + 16 * n)) 8, memRead s.mem (lmKey c (handlerBase + 16 * n + 8)) 8)

/-- The entry starts a firing (R21). -/
def handlerOk (e : Nat) : Bool :=
  bit e 52 && decide (bits e 53 3 ≤ 4) && bits e 48 2 != 3 && bits e 56 8 == 0 && !bit e 0

/-! ### Registers of the core-state block (R11, R176, R182, R194) -/

/-- The bits of an LM doubleword that exist: all but the reserved ones of the registers of the core-state block. -/
def lmHeld (o : Nat) : Nat :=
  let all := 2 ^ 64 - 1
  if o < 0x7F000 ∨ 0x7FA00 ≤ o ∨ (0x7F400 ≤ o ∧ o < 0x7F800) then all
  else if o < 0x7F080 then (if o / 8 % 4 = 1 then 2 ^ 64 - 2 ^ 16 + 3 else all)
  else if 0x7F100 ≤ o ∧ o < 0x7F300 then (if o / 8 % 4 < 2 then 0 else if o / 8 % 4 = 2 then 2 ^ 64 - 2 ^ 26 else all)
  else if 0x7F800 ≤ o then (if o / 8 % 4 = 0 then all else if o / 8 % 4 = 1 then 2 ^ 42 - 1 - 2 ^ 31 else 0)
  else 0

/-! ### Range registers (R176) -/

/-- LM offset of range register `k`. -/
def rangeAt (k : Nat) : Nat := 0x7F000 + 32 * k

/-- A range register. -/
structure RangeReg where
  next : X
  stop : X
  grain : BitVec 32
  domain : Nat
  stealing : Bool
  valid : Bool
  steals : BitVec 32
  lent : BitVec 32
  deriving DecidableEq, Repr

/-- Range register `k` of core `c`. -/
def rangeGet (s : State) (c k : Nat) : RangeReg :=
  let w := memRead s.mem (lmKey c (rangeAt k)) 32
  ⟨BitVec.ofNat 64 (bits w 192 64), BitVec.ofNat 64 (bits w 128 64), BitVec.ofNat 32 (bits w 96 32), bits w 80 16,
    bit w 65, bit w 64, BitVec.ofNat 32 (bits w 32 32), BitVec.ofNat 32 (bits w 0 32)⟩

/-- Writes range register `k` of core `c`. -/
def rangeSet (s : State) (c k : Nat) (r : RangeReg) : State :=
  onMem s (fun m => memWrite m (lmKey c (rangeAt k)) 32
    (r.next.toNat * 2 ^ 192 + r.stop.toNat * 2 ^ 128 + r.grain.toNat * 2 ^ 96 + r.domain % 65536 * 2 ^ 80
      + r.stealing.toNat * 2 ^ 65 + r.valid.toNat * 2 ^ 64 + r.steals.toNat * 2 ^ 32 + r.lent.toNat))

/-! ### Stream buffers (R182) -/

/-- A stream buffer's state block. -/
structure StreamBuf where
  tail : Nat
  head : Nat
  size : Nat
  base : Nat
  esz : Nat
  deriving DecidableEq, Repr

/-- LM offset of the state block of buffer `b`. -/
def streamAt (b : Nat) : Nat := 0x7F100 + 32 * b

/-- Stream buffer `b` of core `c`. -/
def streamGet (s : State) (c b : Nat) : StreamBuf :=
  let w := memRead s.mem (lmKey c (streamAt b)) 32
  ⟨bits w 224 32, bits w 192 32, bits w 176 16, bits w 157 19, bits w 154 3⟩

/-- Writes the state block of buffer `b` of core `c`. -/
def streamSet (s : State) (c b : Nat) (q : StreamBuf) : State :=
  onMem s (fun m => memWrite m (lmKey c (streamAt b)) 32
    (q.tail % 2 ^ 32 * 2 ^ 224 + q.head % 2 ^ 32 * 2 ^ 192 + q.size % 2 ^ 16 * 2 ^ 176 + q.base % 2 ^ 19 * 2 ^ 157
      + q.esz % 8 * 2 ^ 154))

/-- Element size in bytes (R182). -/
def esize (q : StreamBuf) : Nat := 4 * 2 ^ q.esz

/-- Elements in the buffer (R182). -/
def streamCount (q : StreamBuf) : Nat := (q.tail + 2 ^ 32 - q.head) % 2 ^ 32

/-- Room of the buffer (R182). -/
def streamRoom (q : StreamBuf) : Nat := q.size - streamCount q

/-- LM offset of element `i` of the buffer (R182). -/
def elemAt (q : StreamBuf) (i : Nat) : Nat := q.base + i % q.size * esize q

/-! ### Actors (R186 to R188) -/

/-- Registration `n` of core `c` as a 64-byte number. -/
def actorReg (s : State) (c n : Nat) : Nat := memRead s.mem (lmKey c (0x7F400 + 64 * n)) 64

/-- A slot's buffer, valid bit and count (R186). -/
def slotOf (w i : Nat) : Nat × Bool × Nat := (bits w (16 * i) 4, bit w (16 * i + 4), bits w (16 * i + 8) 8)

/-- The slots of a registration: four inputs, then four outputs. -/
def actorSlots (r : Nat) : List (Nat × Bool × Nat) :=
  (List.range 4).map (slotOf (bits r 128 64)) ++ (List.range 4).map (slotOf (bits r 192 64))

/-- The actor's inputs hold their counts and its outputs have room (R188). -/
def actorReady (s : State) (c r : Nat) : Bool :=
  bit r 52
    && (List.range 4).all (fun i => let (b, v, n) := slotOf (bits r 128 64) i
                                    !v || decide (n ≤ streamCount (streamGet s c b)))
    && (List.range 4).all (fun i => let (b, v, n) := slotOf (bits r 192 64) i
                                    !v || decide (n ≤ streamRoom (streamGet s c b)))

/-- Every enabled actor of core `c` with no firing running or waiting becomes waiting when its rule holds, with its
registration as it stands then (R187, R188). -/
def evalActors (s : State) (c : Nat) : State :=
  let k := coreOf s c
  let fresh := (List.range 16).filter (fun n =>
    (smGet k.msg.actorWaiting n).isNone && !k.msg.actorRunning.contains n && actorReady s c (actorReg s c n))
  if fresh.isEmpty then s
  else onCore s c (fun k => { k with msg := { k.msg with
    actorWaiting := fresh.foldl (fun m n => smSet m n (actorReg s c n)) k.msg.actorWaiting } })

end Sys2Proof.Machine
end

