-- ==== Sys2Proof/Machine/Tasks.lean ====
section
/-! DEFINITION. Task records, acceptance and placement (R18, R19, R36, R317, R320), join counters and continuations
(R170 to R173), dispatch (R16, R17), the end of a firing (R14, R451) and commits (R336). -/

namespace Sys2Proof.Machine

/-! ### Task records (R18) -/

/-- A record's field `[lo+n-1:lo]` at byte offset `o`. -/
def recField (r o lo n : Nat) : Nat := bits r (8 * o + lo) n

/-- The checks of a record that a lane makes at issue (R168). -/
def recordOk (r : Nat) : Bool :=
  recField r 56 16 2 != 3 && recField r 56 21 11 == 0 && recField r 8 0 1 == 0 && recField r 8 48 16 == 0

/-- The quads of a domain in ascending order, from its quad map in memory (R36, R340). -/
def domainQuads (s : State) (d : Domain) : List Nat :=
  let m := memRead s.mem d.qmap.toNat 128
  (List.range 640).filter (bit m)

/-- The first member of a list with the least measure. -/
def leastBy (f : Nat → Nat) (l : List Nat) : Option Nat := bestBy (fun a b => decide (f a < f b)) l

/-- Die `die`'s copy of a launch's virtual-core map names a core of quad `q` (R253). -/
def mapNames (s : State) (x : Launch) (die q : Nat) : Bool :=
  (smGet x.vmap die).any (fun i => (smGetD (dieOf s die).vmaps i []).any (fun e =>
    e.2.getLsbD 15 && (List.range 4).any (fun j => quadCore q j == e.2.toNat % 4096)))

/-- The quads of a domain as die `die` finds them for spawns and steals: those that its copy of the launch's map names, or all while it
names none of them (R253) (DEDUCED, log entry 56). -/
def seenQuads (s : State) (d : Domain) (die : Nat) : List Nat :=
  let qs := domainQuads s d
  let named := qs.filter (fun q => (smGet s.pkg.launches d.launch).any (fun x => mapNames s x die q))
  if named.isEmpty then qs else named

/-- The quad of a list, in ascending order, that a record is placed on (R36). `die` is the die of the spawning lane, or `none` for the host. -/
def placeAmong (s : State) (qs : List Nat) (die : Option Nat) (hint : Nat) : Option Nat :=
  match qs.head? with
  | none => none
  | some q0 =>
    if hint ≠ 0 then qs[hint / 64 * 0x9E3779B97F4A7C15 % 2 ^ 64 / 2 ^ 53 % qs.length]?
    else
      let near := match die with
        | some x => qs.filter (fun q => q / 80 == x)
        | none => []
      let near := if near.isEmpty then qs.filter (fun q => q / 80 == q0 / 80) else near
      leastBy (fun q => queuedAt s q true) near

/-- The quad a record is placed on (R36), among those of its domain that its launch still holds (R294). -/
def placeQuad (s : State) (d : Domain) (die : Option Nat) (hint : Nat) : Option Nat :=
  let allowed := fun q => match smGet s.pkg.launches d.launch with
    | some x => x.quads.contains q
    | none => true
  placeAmong s ((seenQuads s d (die.getD ((domainQuads s d).headD 0 / 80))).filter allowed) die hint

/-- The core of a quad a record is placed on: the fewest queued tasks, then the lowest number (R36). -/
def placeCore (s : State) (q : Nat) : Nat :=
  (leastBy (fun c => queuedOn s c) ((List.range 4).map (quadCore q))).getD (quadCore q 0)

/-! ### Join counters (R170 to R173) -/

/-- The record of a registration is spawned by its core (R172). What a full spawn queue does to it is open: it joins the queue beyond the
16 entries, and no lane waits for it (DESIGN CHOICE, log entry 58). -/
def spawnReg (s : State) (j : JoinReg) : State :=
  dueEvent (onCore s j.spawn.core (fun k => { k with msg := { k.msg with spawnQ := k.msg.spawnQ ++ [j.spawn] } })) (.taskAccept j.spawn.core)

/-- After an atomic operation on a counter: every registration on it spawns its record when it is zero (R172). -/
def joinFire (s : State) (key : Nat) : State :=
  if memRead s.mem key 8 ≠ 0 then s
  else
    let fire := s.pkg.joins.filter (fun j => j.addr == key)
    fire.foldl spawnReg (onPkg s (fun p => { p with joins := p.joins.filter (fun j => j.addr != key) }))

/-- Join counters in a range of memory that an atomic operation leaves zero fire (R172). -/
def joinFireAll (s : State) (key n : Nat) : State :=
  (s.pkg.joins.map (·.addr)).foldl (fun s a => if key ≤ a ∧ a < key + n then joinFire s a else s) s

/-- An atomic add to a 64-bit join counter, performed by the home slice of die `d` or at its memory (R170, R171). -/
def joinAdd (s : State) (d key : Nat) (delta : Int) : State :=
  if key = voidKey then s else joinFire (sliceStore s d key 8 (wrap 64 ((memRead s.mem key 8 : Int) + delta))) key

/-- The decrement of R171 by core `c`, once its way is open and nothing holds the counter's line (R333, R367). -/
def joinTry (s : State) (c : Nat) (src : TxSource) (a : X) : Except Stop State := do
  let (s, p) ← resolve s c src.ctx .atomic true a 8
  let s ← domainCheck ⟨src.task, src.owner⟩ true s p
  .ok (if p.isLocal then s else joinAdd s (dieNo c) (placeKey c p) (-1))

/-- Updates of one barrier, or decrements of one counter, keep their order by this key. -/
def joinKey (a : X) : Nat := 2 ^ 64 + a.toNat

/-- The update joins those of core `c` that are on their way (R171, R274). -/
def queueUpdate (s : State) (c : Nat) (u : TxUpdate) : State :=
  dueEvent (onCore s c (fun k => { k with eng := { k.eng with tx := k.eng.tx ++ [u] } })) (.txBarrierUpdate c)

/-- What an update on its way waits for begins: a Drowsy flue wakes (R366), and other dies give the line up (R257). -/
def wakeUpdate (s : State) (c : Nat) : Stop → State
  | .wait (.link f _) => wakeFlue s f
  | .wait (.tokens line w _) => (List.range 8).foldl (fun s d => if d = dieNo c then s else dueEvent s (.directoryRecall d line w)) s
  | _ => s

/-- The join decrement of R171 at a virtual address: at once, or when what it waits for ends. One whose address no longer translates, or
whose way has failed, is lost (DESIGN CHOICE, log entry 58). -/
def joinDec (s : State) (c : Nat) (src : TxSource) (a : X) : State :=
  match joinTry s c src a with
  | .ok s => s
  | .error (.wait w) => queueUpdate (wakeUpdate s c (.wait w)) c ⟨16, a, joinKey a, .join, src⟩
  | .error _ => s

/-! ### Acceptance (R19, R317, R320) -/

/-- The lowest number from `n` on that is not in a list, within `fuel` tries. -/
def nextFree (used : List Nat) : Nat → Nat → Nat
  | 0, n => n
  | fuel + 1, n => if used.contains n then nextFree used fuel (n + 1) else n

/-- A key of timestamp `ts` above the key `low`, as a number (R316, R317): its tiebreak is one that no uncommitted task of the
domain has, and otherwise open (DESIGN CHOICE, log entry 4). While the open choice is large or taken it is the lowest that is left,
and where none is left the timestamp is raised by 1 (DESIGN CHOICE, log entry 40). -/
def newKey (s : State) (dom ts low : Nat) : Nat :=
  let used := (domainTasks s dom).map (fun e => e.2.tb.toNat)
  let from' := if low / 2 ^ 32 = ts then low % 2 ^ 32 + 1 else 0
  let open' := from' + (Config.tiebreak s.sched.freeCtr).toNat % 2 ^ 16
  let tb := if open' < 2 ^ 31 ∧ !used.contains open' then open' else nextFree used used.length from'
  if tb < 2 ^ 32 then ts * 2 ^ 32 + tb
  else if ts + 1 < 2 ^ 64 then (ts + 1) * 2 ^ 32 + nextFree used used.length 0
  else noKey

/-- What the host link reports of a record it rejects: SPWREJ, SPWLAST and a packet of its own to die 0 (R415). -/
def rejectHost (s : State) (record : Nat) : State :=
  let s := sampleTime s
  let h := s.pkg.host
  let full := bits h.spwstat.toNat 32 32 = 2 ^ 32 - 1
  let p := { packetNone 0xFFF 0 .taskRejected 0 (BitVec.ofNat 128 record) with
             seq := h.faultSeq, inc := s.pkg.inc, gtime := s.sched.gtime }
  let h := { h with spwstat := if full then h.spwstat else h.spwstat + BitVec.ofNat 64 (2 ^ 32),
                    spwlast := BitVec.ofNat 512 record, faultSeq := h.faultSeq + 1 }
  let s := onPkg s (fun p => { p with host := h })
  dueEvent (onDie s 0 (fun x => { x with fpqWait := queuePacket x.fpqWait p })) (.faultRingWrite 0)

/-- The context of the firing that spawned a record (R106, R170). -/
def spawnCtx (s : State) (q : Spawn) : Option Nat :=
  match q.launch with
  | some n => (smGet s.pkg.launches n).map (fun x => ctxOnDie x (dieNo q.core))
  | none => s.sched.fwCtx

/-- The supervisor of the spawning die learns of a rejected record (R168, R214); SPAWNC's increment is undone (R170). A record of
`SPAWN` or `JOINAT` whose program set has-join has its counter decremented too: the spec is silent on it (DESIGN CHOICE, log entry
41). -/
def rejectSpawn (s : State) (q : Spawn) : State :=
  if q.host then rejectHost s q.record
  else
    let counter := BitVec.ofNat 64 (bits q.record 384 64)
    let s := if bit q.record 468 then joinDec s q.core ⟨spawnCtx s q, none, none⟩ counter else s
    sendPacket s q.core false (packetNone q.core q.lane .taskRejected 0 (BitVec.ofNat 128 q.record))

/-- The least key that a record's task may have, exclusive, and its timestamp: above its parent's (R167, R316), or above its
quad's floor (R317). -/
def recordFloor (s : State) (d : Domain) (q : Spawn) (quad : Nat) (own : Bool) : Nat × Nat :=
  let ts := recField q.record 0 0 64
  let floor := smGetD (quadOf s quad).floors d.id (0, 0)
  if own then (max ts q.tstamp.toNat, (q.origin.bind (taskOf s)).elim 0 taskKey)
  else (max ts floor.1.toNat, floor.1.toNat * 2 ^ 32 + floor.2.toNat)

/-- The parent link that a record of a speculative task of its own domain carries: its number and 1, which is open (R18, R19) (DESIGN
CHOICE, log entry 26). -/
def parentLink (own : Bool) (q : Spawn) : Nat := if own then q.parent.elim 0 (· + 1) else 0

/-- The task of a record accepted on a quad, with a key (R18, R316, R317). -/
def newTask (s : State) (d : Domain) (q : Spawn) (quad key : Nat) (own : Bool) : Task :=
  let r := putBits q.record 480 32 (parentLink own q)
  { domain := d.id, ordered := d.ordered,
    ts := if d.ordered then BitVec.ofNat 64 (key / 2 ^ 32) else BitVec.ofNat 64 (recField q.record 0 0 64),
    tb := if d.ordered then BitVec.ofNat 32 key else 0, state := .queued,
    record := if d.ordered then putBits r 0 64 (key / 2 ^ 32) else r,
    quad := quad, core := placeCore s quad, lane := 0, launchTask := false, spilled := false, slot := 0,
    unfixed := d.ordered && !own && (quadOf s quad).silent.contains d.id, spec := d.ordered, dropped := false,
    parent := if own then q.parent else none, rsig := 0, wsig := 0, undo := [], wset := [], rset := [], deps := [], held := [],
    join := if bit q.record 468 then some (BitVec.ofNat 64 (bits q.record 384 64)) else none,
    ctx := (smGet s.pkg.launches d.launch).map (fun x => ctxOnDie x (quad / 80)) }

/-- A record is queued on a quad of its live domain, or waits at its source while the spill region is full, or while the quad has no way
to it (R36, R317, R320, R358). One for which
its launch holds no quad of its domain any more is rejected as by R19: R36 does not say what becomes of it (DESIGN CHOICE, log entry
58). -/
def placeRecord (s : State) (slot : Nat) (d : Domain) (q : Spawn) : State × Bool :=
  match placeQuad s d (if q.host then none else some (dieNo q.core)) (recField q.record 16 0 64) with
  | none => (rejectSpawn s q, true)
  | some quad =>
    let own := q.origin.isSome && q.domain == d.id
    let (ts, low) := recordFloor s d q quad own
    let key := if d.ordered then newKey s d.id ts low else 0
    let n := s.hearth.nextTask
    let spills := needsSpill s quad d.id (if d.ordered then key else n)
    match spills, (spillSlot s d).map (spillWay s d quad) with
    | true, none => (onHearth s (fun h => { h with domains := smSet h.domains slot { d with spillf := true } }), false)
    | true, some (.waking f) => (wakeFlue s f, false)
    | true, some (.notReady _) | true, some .down | true, some .failed => (s, false)
    | _, _ =>
      let t := newTask s d q quad key own
      (settleQueue (onHearth (draw s) (fun h => { h with tasks := smSet h.tasks n t, nextTask := n + 1 })) quad d.id, true)

/-- The target quad takes a record (R19, R36, R167, R169, R317, R320): held in the commit queue of its speculative parent, which
belongs to another domain, until that commits; rejected; or queued with its key. A firing of no launch may spawn into any live domain on
a supervisor core and into none elsewhere: R168 names the domains of a launch alone (DESIGN CHOICE, log entry 58). -/
def acceptSpawn (s : State) (q : Spawn) : State × Bool :=
  let id := recField q.record 56 0 16
  match q.parent.filter (fun n => id != q.domain && (taskOf s n).isSome) with
  | some n => (onTask s n (fun t => { t with held := t.held ++ [{ q with parent := none }] }), true)
  | none =>
    match domainOf s id with
    | none => (rejectSpawn s q, true)
    | some (slot, d) =>
      if !(q.host || q.launch = some d.launch || (q.launch.isNone && isSup q.core)) || !recordOk q.record then (rejectSpawn s q, true)
      else placeRecord s slot d q

/-! ### The end of a firing (R14, R171, R451) -/

/-- A Draining lane whose registers are all full becomes Free; an unordered task's join counter is decremented
(R24, R171). -/
def drain (s : State) (c l : Nat) : State :=
  let x := laneOf s c l
  if x.status == .draining && x.marks.xfull ||| 1 == BitVec.allOnes 32 && x.marks.vfull == BitVec.allOnes 32 then
    let s := match x.firing.join with
      | some a => joinDec s c ⟨ctxOf s c x, none, none⟩ a
      | none => s
    setLane s c l (freed (laneOf s c l))
  else s

/-- What a firing leaves behind when it ends by completion or kill: tiles, its actor's mark, its task (R188, R451). -/
def endFiring (s : State) (c l : Nat) : State :=
  let x := laneOf s c l
  let s := onCore s c (fun k => releaseSlot k l)
  if x.firing.kind == .actor then
    evalActors (onCore s c (fun k => { k with msg := { k.msg with
      actorRunning := k.msg.actorRunning.filter (· ≠ x.firing.actor) } })) c
  else s

/-- DONE (R102, R451): the firing ends; the lane drains. An ordered task becomes Finished and keeps its join counter
for its commit; an unordered one leaves the queue (DEDUCED, log entry 26). -/
def doneFiring (s : State) (c l : Nat) : State :=
  let x := laneOf s c l
  let s := endFiring s c l
  let s := match x.firing.task with
    | some n => onTask s n (fun t => { t with state := .finished })
    | none => s
  let f := { Firing.reset with domain := x.firing.domain, join := x.firing.join, launch := x.firing.launch }
  drain (setLane s c l { laneOf s c l with status := .draining, wait := none, firing := f, loop := LoopState.reset }) c l

/-! ### Commits (R336) -/

/-- A record without its parent link (R18). -/
def unlinked (r : Nat) : Nat := putBits r 480 32 0

/-- The parent links of a task's children are cleared: in the table, in their records, spilled ones too, and in the records that have
not been accepted (R336). -/
def unlinkChildren (s : State) (n : Nat) : State :=
  let s := (s.hearth.tasks.filter (fun e => e.2.parent = some n && e.2.spilled)).foldl (fun s e =>
    match domainOf s e.2.domain with
    | some (_, d) => storeKey s (d.tspill.toNat + 64 * e.2.slot + 60) 4 0
    | none => s) s
  let s := onHearth s (fun h => { h with tasks := h.tasks.map (fun e =>
    (e.1, if e.2.parent = some n then { e.2 with parent := none, record := unlinked e.2.record } else e.2)) })
  { s with cores := s.cores.map (fun e => (e.1, { e.2 with msg := { e.2.msg with
      spawnQ := e.2.msg.spawnQ.map (fun q => if q.parent = some n then { q with parent := none } else q) } })) }

/-- Task `n` commits: undo dropped, children unlinked, held spawns sent, join counter decremented. -/
def commitTask (s : State) (n : Nat) : State :=
  match taskOf s n with
  | none => s
  | some t =>
    let s := unlinkChildren (delTask s n) n
    let s := onHearth s (fun h => { h with
      tasks := h.tasks.map (fun e => (e.1, { e.2 with deps := e.2.deps.filter (· ≠ n) })),
      domains := h.domains.map (fun e =>
        if e.2.live && e.2.id == t.domain then (e.1, { e.2 with commits := satInc e.2.commits }) else e),
      sealed := h.sealed.filter (· ≠ n) })
    let s := t.held.foldl (fun s q => dueEvent (onCore s q.core (fun k =>
      { k with msg := { k.msg with spawnQ := k.msg.spawnQ ++ [q] } })) (.taskAccept q.core)) s
    let s := match t.join with
      | some a => joinDec s (if t.core < 4096 then t.core else quadCore t.quad 0) ⟨t.ctx, none, some (t.domain, taskKey t)⟩ a
      | none => s
    hostReleased s

/-! ### Dispatch (R16, R17) -/

/-- A firing that waits for a core. -/
inductive Candidate where
  | handler (ix : Nat) (m : Message)
  | actor (n reg : Nat)
  | task (n : Nat) (t : Task)
  deriving DecidableEq, Repr

/-- The launch of a core may start firings: its allowance is not exhausted (R443). -/
def accountOpen (s : State) (x : Launch) : Bool :=
  match smGet s.pkg.accounts x.account with
  | some a => !a.paused
  | none => true

/-- The launch that holds a core's quad draws more than its rate cap (R443). -/
def overCap (s : State) (c : Nat) : Bool :=
  (launchAt s c).any (fun x => (smGet s.pkg.accounts x.2.account).any (fun a =>
    a.v && a.capNow != 0 && decide (a.capNow.toNat * 1000 < a.pwr.toNat)))

/-- A core over its cap samples its cycle count before it dispatches (R443) (DESIGN CHOICE, log entry 7). -/
def capClock (s : State) (c : Nat) : State := if overCap s c then sampleCycles s c else s

/-- A core over its cap has dispatched within the latest 256 ac cycles (R443). -/
def capHolds (s : State) (c : Nat) : Bool :=
  let k := (coreOf s c).ctl
  overCap s c && k.lastStart.any (fun t => decide ((k.cycles - t).toNat < 256))

/-- A core over its cap notes when it dispatches (R443). -/
def capMark (s : State) (c : Nat) : State :=
  if overCap s c then onCore s c (fun k => { k with ctl := { k.ctl with lastStart := some k.ctl.cycles } }) else s

/-- Index of a core's quad or supervisor core in the ready map (R437). -/
def readyIx (c : Nat) : Nat := if isSup c then 2336 + dieNo c * 4 + colNo c else quadNo c

/-- A quad is being switched (R293): CCTL.HOLD is set on its four cores, as the first step of a switch sets it, or its row's DMA engine
saves or restores it (DEDUCED, log entry 33). -/
def switching (s : State) (q : Nat) : Bool :=
  decide (q < 640) && ((List.range 4).all (fun j => (coreOf s (quadCore q j)).ctl.hold)
    || (smGet (dieOf s (q / 80)).dma (q % 80 / 8)).any (fun b => b.stat == 1 && b.col == q % 8))

/-- Dispatch on a core is withheld as a whole (R37): CCTL.HOLD, a quad being vacated or switched, a launch that is paused or over
its cap, a die in reset, and a core that has not reported ready (R437, R443). -/
def coreHeld (s : State) (c : Nat) : Bool :=
  (coreOf s c).ctl.hold || (!isSup c && ((quadOf s (quadNo c)).vacating || switching s (quadNo c))) || decide ((dieOf s (dieNo c)).rst ≠ 0)
    || !bit s.pkg.ready (readyIx c) || capHolds s c
    || (match launchAt s c with
        | some (_, x) => !accountOpen s x
        | none => false)

/-- Commit-queue entries in use on a quad (R321). -/
def commitEntries (s : State) (q : Nat) : Nat :=
  (s.hearth.tasks.filter (fun e => e.2.ordered && e.2.quad == q && e.2.state != .queued)).length

/-- The lowest Free lane. -/
def freeLaneOf (k : Core) : Option Nat := (List.range 16).find? (fun i => k.lanes[laneIx i].status == .free)

/-- A record in its quad's queue whose domain runs (R317, R320, R342). -/
def taskReady (s : State) (t : Task) : Bool :=
  t.state == .queued && !t.spilled && !t.unfixed && (domainOf s t.domain).any (fun d => !d.2.susp)

/-- A place for a class-1 firing: two lanes of a core hold them (R16). -/
def seatOpen (s : State) (c cls : Nat) : Bool := cls != 1 || (coreOf s c).stove.owner.any (·.isNone)

/-- The dispatcher of a task's own core can start it now. -/
def canStart (s : State) (t : Task) : Bool :=
  taskReady s t && !coreHeld s t.core && (freeLaneOf (coreOf s t.core)).isSome && seatOpen s t.core (recField t.record 56 16 2)

/-- A quad holds the earliest task of one of its domains in its queue (R321). -/
def earliestQueued (s : State) (q : Nat) : Bool :=
  s.hearth.tasks.any (fun e => e.2.quad == q && e.2.state == .queued && isEarliest s e.2)

/-- A commit-queue entry for an ordered task (R321): the quad has 128, and one that pressure has freed is for the earliest task. -/
def entryOpen (s : State) (t : Task) : Bool :=
  let used := commitEntries s t.quad
  decide (used < 128) && (used != 127 || !(quadOf s t.quad).kept || isEarliest s t || !earliestQueued s t.quad)

/-- A queued task may be dispatched now (R320, R321, R342): an ordered one when it has a commit-queue entry, and no task of its
domain on the quad with a lesser key can be started at this moment (DEDUCED, log entry 26). -/
def taskOpen (s : State) (t : Task) : Bool :=
  taskReady s t
    && (!t.ordered || (entryOpen s t
        && !(s.hearth.tasks.any (fun e => e.2.ordered && e.2.domain == t.domain && e.2.quad == t.quad
              && decide (taskKey e.2 < taskKey t) && canStart s e.2))))

/-- The priority, source rank, order within the source, and slot class of a candidate (R16). -/
def candRank (s : State) (c : Nat) : Candidate → Nat × Nat × Nat × Nat
  | .handler ix m => let e := (handlerEntry s c m.type).1; (bits e 50 2, 0, ix, bits e 48 2)
  | .actor n r => (bits r 50 2, 1, n, bits r 48 2)
  | .task n t => (recField t.record 56 18 2, if t.ordered then 2 else 3, if t.ordered then taskKey t else n,
      recField t.record 56 16 2)

/-- One candidate goes before another (R16). -/
def candBefore (s : State) (c : Nat) (a b : Candidate) : Bool :=
  let (pa, ra, oa, _) := candRank s c a
  let (pb, rb, ob, _) := candRank s c b
  decide (pa > pb) || (pa == pb && (decide (ra < rb) || (ra == rb && decide (oa < ob))))

/-- The waiting firings of core `c`. -/
def candidates (s : State) (c : Nat) : List Candidate :=
  let k := coreOf s c
  (k.msg.arrival.zipIdx.map (fun e => Candidate.handler e.2 e.1)) ++ (k.msg.actorWaiting.map (fun e => Candidate.actor e.1 e.2))
    ++ ((s.hearth.tasks.filter (fun e => e.2.core == c && taskOpen s e.2)).map (fun e => Candidate.task e.1 e.2))

/-- A class-1 candidate is passed over while two lanes hold class-1 firings (R16); a message whose entry is no longer valid is
not, since it starts no firing (R21). -/
def classOpen (s : State) (c : Nat) (x : Candidate) : Bool :=
  seatOpen s c (candRank s c x).2.2.2 || (match x with
    | .handler _ m => !handlerOk (handlerEntry s c m.type).1
    | _ => false)

/-- The core's tiles and masks for a class-1 firing on lane `l`: the lower four if unowned, else the upper (R25, R225). -/
def takeSeat (k : Core) (l cls : Nat) : Core :=
  if cls ≠ 1 then k
  else
    let i : Fin 2 := if k.stove.owner[(0 : Fin 2)].isNone then 0 else 1
    { k with stove := { k.stove with
        owner := k.stove.owner.set i (some l),
        masks := k.stove.masks.set i ⟨BitVec.allOnes 64, BitVec.allOnes 64, BitVec.allOnes 64⟩ } }

/-- The entry state of a lane (R17): registers full and live, counters and loop state zero; SRSTATE is kept. -/
def entered (l : Lane) (pc : Nat) (f : Firing) (xs : List X) : Lane :=
  let x := (xs.zipIdx).foldl (fun (v : Vector X 32) e => v.setIfInBounds (e.2 + 1) e.1) (Vector.replicate 32 0)
  { l with regs := ⟨x, Vector.replicate 32 0, (Vector.replicate 8 0).set 0 (BitVec.allOnes 32)⟩,
           marks := ⟨BitVec.allOnes 32, BitVec.allOnes 32, 0, 0⟩, pc := BitVec.ofNat 48 pc, firing := f,
           loop := LoopState.reset, lcnt := 0, scnt := 0, instcnt := 0, status := .ready, wait := none,
           results := [], aged := false, waitCount := 0, frz := FreezeCtl.reset,
           ras := [], firstTry := none, group := none }

/-- The 16 bytes of a message's header (R159). -/
def headerWord (m : Message) : Nat :=
  m.dest + m.type * 2 ^ 12 + m.flags * 2 ^ 20 + m.payload.length * 2 ^ 28 + m.rel.toNat * 2 ^ 31 + m.seq.toNat * 2 ^ 32 + m.src * 2 ^ 64
    + m.srcLane * 2 ^ 76 + m.inc * 2 ^ 80 + m.push.elim 0 (fun b => 2 ^ 84 + b * 2 ^ 85)

/-- A message whose entry is no longer valid is discarded with its packet (R21, R214). -/
def discardMessage (s : State) (c ix : Nat) (m : Message) : State :=
  let s := onCore s c (fun k => { k with msg := { k.msg with arrival := k.msg.arrival.eraseIdx ix } })
  sendPacket s c false (packetNone c 0 .handlerEntry 0 (BitVec.ofNat 128 (headerWord m)))

/-- Starts a candidate on lane `l` of core `c` (R17). -/
def startFiring (s : State) (c l : Nat) : Candidate → State
  | .handler ix m =>
    let (e, arg) := handlerEntry s c m.type
    let n := bits e 53 3
    let f : Firing := { Firing.reset with
      kind := .handler, cls := bits e 48 2, prio := bits e 50 2, fire := m.fired, launch := (launchAt s c).map (·.1),
      payload := (List.range n).map (fun i => (m.payload[i]?).getD 0), carried := min n m.payload.length }
    let s := onCore s c (fun k => takeSeat { k with msg := { k.msg with arrival := k.msg.arrival.eraseIdx ix } } l f.cls)
    setLane s c l (entered (laneOf s c l) (bits e 0 48) f
      [BitVec.ofNat 64 arg, BitVec.ofNat 64 (m.src + m.srcLane * 2 ^ 12), m.seq.setWidth 64,
       BitVec.ofNat 64 (m.type + m.flags * 2 ^ 8)])
  | .actor n r =>
    let f : Firing := { Firing.reset with
      kind := .actor, cls := bits r 48 2, prio := bits r 50 2, actor := n, launch := (launchAt s c).map (·.1) }
    let s := onCore s c (fun k => takeSeat { k with msg := { k.msg with
      actorWaiting := smDel k.msg.actorWaiting n, actorRunning := insertNat k.msg.actorRunning n } } l f.cls)
    setLane s c l (entered (laneOf s c l) (bits r 0 48) f [BitVec.ofNat 64 (bits r 64 64), BitVec.ofNat 64 n])
  | .task n t =>
    -- a queued task is promoted at its dispatch once the round's values have reached its quad (R330)
    let spec := t.ordered && !(isEarliest s t && !s.hearth.pendingQuads.contains t.quad)
    let f : Firing := { Firing.reset with
      kind := if t.launchTask then .launch else if t.ordered then .ordered else .unordered,
      cls := recField t.record 56 16 2, prio := recField t.record 56 18 2, spec := spec, domain := t.domain,
      tstamp := if t.ordered then t.ts else 0, task := if t.ordered then some n else none,
      join := if t.ordered then none else t.join }
    let s := if isEarliest s t && (quadOf s t.quad).kept then onQuad s t.quad (fun x => { x with kept := false }) else s
    let s := if t.ordered then setTask s n { t with state := .running, lane := l, core := c, spec := spec } else delTask s n
    let s := onCore s c (fun k => takeSeat k l f.cls)
    setLane s c l (entered (laneOf s c l) (recField t.record 8 0 48) f
      ((List.range 4).map (fun i => BitVec.ofNat 64 (bits t.record (192 + 64 * i) 64)) ++ [BitVec.ofNat 64 (bits t.record 128 64)]))

/-- The task that commit-queue pressure aborts on a quad (R321): with the queue full and an earliest task queued, the entry of
the greatest key that an abort may reach (R326). -/
def pressed (s : State) (q : Nat) : Option Nat :=
  if commitEntries s q < 128 || !earliestQueued s q then none
  else (bestBy (fun (a b : Nat × Task) => decide (taskKey b.2 < taskKey a.2))
    (s.hearth.tasks.filter (fun e => e.2.ordered && e.2.quad == q && e.2.state != .queued && e.2.spec && !spared s e.1 e.2))).map (·.1)

/-- Commit-queue pressure (R321). -/
def commitPressure (s : State) (q : Nat) : State :=
  match pressed s q with
  | some n => onQuad (abortStep s n false) q (fun x => { x with kept := true })
  | none => if (quadOf s q).kept && !earliestQueued s q then onQuad s q (fun x => { x with kept := false }) else s

/-- The dispatcher of core `c` starts one firing on its lowest Free lane, if one waits and may start (R16). Messages
whose entry is no longer valid are discarded when they are considered (R21). -/
def dispatchCore (s : State) (c : Nat) : State :=
  let s := capClock (if isSup c then s else commitPressure s (quadNo c)) c
  let k := coreOf s c
  match freeLaneOf k with
  | none => s
  | some l =>
    if coreHeld s c then s
    else
      match bestBy (candBefore s c) ((candidates s c).filter (classOpen s c)) with
      | none => s
      | some (.handler ix m) =>
        if handlerOk (handlerEntry s c m.type).1 then capMark (startFiring s c l (.handler ix m)) c else discardMessage s c ix m
      | some x => spillDue (capMark (startFiring s c l x) c) (quadNo c)

end Sys2Proof.Machine
end

