-- ==== Sys2Proof/Machine/TxBarriers.lean ====
section
/-! DEFINITION. Transaction barriers (R273 to R276) and the record cache (R271, R272). -/

namespace Sys2Proof.Machine

/-! ### The 16 bytes of a barrier (R273) -/

/-- PHASE. -/
def txPhase (b : Nat) : Nat := bits b 0 4

/-- ERR. -/
def txErr (b : Nat) : Bool := bit b 4

/-- PARR, pending arrivals. -/
def txParr (b : Nat) : Nat := bits b 8 16

/-- EXPECT, expected arrivals. -/
def txExpect (b : Nat) : Nat := bits b 24 16

/-- PSECT, pending sectors, as an unsigned 32-bit number. -/
def txPsect (b : Nat) : Nat := bits b 40 32

/-- FAIL, the failure count. -/
def txFail (b : Nat) : Nat := bits b 72 16

/-- The evaluation after every update (R274). -/
def txEvaluate (b : Nat) : Nat :=
  if txParr b = 0 ∧ txPsect b = 0 then putBits (putBits b 0 4 (txPhase b + 1)) 8 16 (txExpect b) else b

/-- ERR set, with the code when ERR was 0 (R273, R284). -/
def txSetErr (b code : Nat) : Nat := if txErr b then b else putBits (putBits b 4 1 1) 5 3 code

/-- `k` sectors subtracted from PSECT (R281). -/
def txSectors (b k : Nat) : Nat := putBits b 40 32 (txPsect b + (2 ^ 32 - k % 2 ^ 32))

/-- `k` failures counted, saturating (R273). -/
def txFails (b k : Nat) : Nat := putBits b 72 16 (min (txFail b + k) 0xFFFF)

/-- An arrival beyond zero (R275). -/
def txUnderflow (b : Nat) : TxDo → Bool
  | .arrive n => decide (txParr b < n)
  | _ => false

/-- What an update does before the evaluation (R275). -/
def txApply (b : Nat) : TxDo → Nat
  | .init ph n => putBits b 0 128 (ph % 16 + n % 2 ^ 16 * 2 ^ 8 + n % 2 ^ 16 * 2 ^ 24)
  | .arrive n =>
    let c := putBits b 8 16 (txParr b - min n (txParr b))
    if txParr b < n then txSetErr c 3 else c
  | .expect n => putBits b 40 32 (txPsect b + n)
  | .engine n f code =>
    let c := txFails (txSectors b n) f
    match code with
    | some e => txSetErr c e
    | none => c
  | .join => b

/-- An atomic update of the 16 bytes of a barrier, evaluated, by its home: the core, a slice of die `d` or a bank (R274). -/
def txUpdate (s : State) (d key : Nat) (f : Nat → Nat) : State :=
  if key = voidKey then s else sliceStore s d key 16 (txEvaluate (f (memRead s.mem key 16)))

/-- The packet of an arrival underflow (R284). -/
def underflowPacket (s : State) (c lane : Nat) (addr : X) : State :=
  sendPacket s c true (packetNone c lane .engineError addr 3)

/-- An update performs at its barrier's home (R274, R275). -/
def performTx (s : State) (c : Nat) (u : TxUpdate) : State :=
  let under := u.key ≠ voidKey && txUnderflow (memRead s.mem u.key 16) u.what
  let s := txUpdate s (dieNo c) u.key (fun b => txApply b u.what)
  if under then underflowPacket s c u.lane u.addr else s

/-- What an update waits for before it performs at its home (R256, R257, R325, R333): nothing in own LM or through a window. -/
def txReady (s : State) (c : Nat) (u : TxUpdate) : Except Stop State :=
  match classOf s c u.addr with
  | .global =>
    if u.key = voidKey then .ok s
    else do
      await (decide (2 ^ 40 ≤ u.key) || linesFree s c (lineOf u.key) true true) (.tokens (lineOf u.key) true true)
      match translate s c u.src.ctx u.addr.toNat .atomic with
      | some (_, _, mt, de) => lineAccess s ⟨u.src.task, u.src.owner⟩ u.addr.toNat u.key mt de true
      | none => .ok s
  | .shared _ => domainCheck ⟨u.src.task, u.src.owner⟩ true s (.shared 0)
  | _ => .ok s

/-- An update on its way performs, or has to wait (R171, R274, R333). -/
def txTry (s : State) (c : Nat) (u : TxUpdate) : Except Stop State :=
  match u.what with
  | .join => joinTry s c u.src u.addr
  | _ => do
    let s ← txReady s c u
    .ok (performTx s c u)

/-- An update reaches its home, and waits on its way when something holds it (R274, R333). -/
def sendUpdate (s : State) (c : Nat) (u : TxUpdate) : State :=
  match txTry s c u with
  | .ok s => s
  | .error e => queueUpdate (wakeUpdate s c e) c u

/-- The first update that may perform does so, with none before it of the same barrier; while none may they stay on their way
(R274). -/
def txFirst (c : Nat) (s : State) : List TxUpdate → List TxUpdate → State
  | held, [] => if held.isEmpty then s else dueEvent s (.txBarrierUpdate c)
  | held, u :: t =>
    if held.any (fun h => h.key == u.key) then txFirst c s (held ++ [u]) t
    else match txTry (onCore s c (fun k => { k with eng := { k.eng with tx := held ++ t } })) c u with
      | .ok s => s
      | .error (.wait w) => txFirst c (wakeUpdate s c (.wait w)) (held ++ [u]) t
      | .error _ => onCore s c (fun k => { k with eng := { k.eng with tx := held ++ t } })

/-! ### Barrier instructions (R275) -/

/-- The checks of a barrier address by the issuing lane: where it is stored (R275, R329, R333). -/
def txPlace (s : State) (a : X) (write : Bool) : Except Stop (State × Place) := do
  let c := s.sched.core
  match classOf s c a with
  | .ownLm _ => .ok ()
  | _ => irrevocable (cur s)
  let (s, p) ← resolve s c (ctxOf s c (cur s)) (if write then .atomic else .load) true a 16
  let s ← domainCheck (accessorOf (cur s)) write s p
  localPoison s c 16 [(0, p)]
  .ok (s, p)

/-- An update is sent: an own-LM barrier is updated at once, another when the update reaches its home. The updates of
a lane to one barrier keep their order. -/
def sendTx (s : State) (p : Place) (a : X) (what : TxDo) : State :=
  let c := s.sched.core
  let l := cur s
  let u : TxUpdate := ⟨s.sched.lane, a, placeKey c p, what, ⟨ctxOf s c l, l.firing.task, ownerOf s l.firing.task⟩⟩
  if p.isLocal then performTx s c u else queueUpdate s c u

/-- `TXINIT xb, xn, #ph` (R275). -/
def execTxinit (o : TxinitOp) : State → Host.Outcome State Fault Refusal := stateOp 8 (fun s => do
  let l := cur s
  gate l [.x (plain o.xb), .x (plain o.xn)] []
  let n := (getX l o.xn).toNat
  need (decide (n < 2 ^ 16)) .message
  let (s, p) ← txPlace s (getX l o.xb) true
  .ok (sendTx s p (getX l o.xb) (.init o.ph.toNat n)))

/-- `TXARR.scope xb, #n` (R275): every earlier access has performed, since accesses perform in issue order (log entry
5) (DESIGN CHOICE, log entry 5). -/
def execTxarr (o : TxarrOp) : State → Host.Outcome State Fault Refusal := stateOp 8 (fun s => do
  let l := cur s
  gate l [.x (plain o.xb)] []
  let (s, p) ← txPlace s (getX l o.xb) true
  .ok (sendTx s p (getX l o.xb) (.arrive o.n.toNat)))

/-- `TXEXP xb, xn, #n` (R275). -/
def execTxexp (o : TxexpOp) : State → Host.Outcome State Fault Refusal := stateOp 8 (fun s => do
  let l := cur s
  gate l [.x (plain o.xb), .x (plain o.xn)] []
  let (s, p) ← txPlace s (getX l o.xb) true
  .ok (sendTx s p (getX l o.xb) (.expect (bits (getX l o.xn).toNat 0 32 + o.n.toNat))))

/-- The barrier as the lane reads it, after its own updates to it (R275). -/
def txRead (s : State) (a : X) : Except Stop (State × Nat × Nat) := do
  let (s, p) ← txPlace s a false
  let key := placeKey s.sched.core p
  await (!((curCore s).eng.tx.any (fun u => u.lane == s.sched.lane && u.key == key))) .txSent
  .ok (s, key, memRead s.mem key 16)

/-- `TXWAIT.scope xb, #ph`: Blocked until the phase moves on or ERR is set (R275). -/
def execTxwait (o : TxwaitOp) : State → Host.Outcome State Fault Refusal := stateOp 8 (fun s => do
  let l := cur s
  gate l [.x (plain o.xb)] []
  let (s, key, b) ← txRead s (getX l o.xb)
  await (txPhase b != o.ph.toNat || txErr b) (.txPhase key o.ph.toNat)
  .ok s)

/-- All ones or zero. -/
def allTrue (c : Bool) : P := if c then BitVec.allOnes 32 else 0

/-- `TXTEST xb, #ph, pN` (R275). -/
def execTxtest (o : TxtestOp) : State → Host.Outcome State Fault Refusal := stateOp 8 (fun s => do
  let l := cur s
  gate l [.x (plain o.xb)] []
  let (s, _, b) ← txRead s (getX l o.xb)
  .ok (setCur s (putP (cur s) o.p (allTrue (txPhase b != o.ph.toNat)))))

/-- `TXTEST.err xb, pN` (R275). -/
def execTxtestErr (o : TxtestErrOp) : State → Host.Outcome State Fault Refusal := stateOp 8 (fun s => do
  let l := cur s
  gate l [.x (plain o.xb)] []
  let (s, _, b) ← txRead s (getX l o.xb)
  .ok (setCur s (putP (cur s) o.p (allTrue (txErr b)))))

/-- TX_BARRIER_UPDATE (R274): the oldest update of a core that is on its way and may perform does so. -/
def execTxBarrierUpdate (core : Nat) (s : State) : Host.Outcome State Fault Refusal :=
  .next (txFirst core s [] (coreOf s core).eng.tx)

/-! ### The record cache (R271, R272) -/

/-- A cached record of a context. -/
def cachedRecord (k : Core) (ctx : Option Nat) (a : Nat) : Option Nat :=
  (k.ctl.records.find? (fun e => e.1 == ctx && e.2.1 == a)).map (fun e => e.2.2)

/-- Puts a record first in the cache of 16 entries, dropping the one used least recently (R271) (DESIGN CHOICE, log entry 18). -/
def cacheRecord (s : State) (c : Nat) (ctx : Option Nat) (a v : Nat) : State :=
  onCore s c (fun k => { k with ctl := { k.ctl with records :=
    ((ctx, a, v) :: k.ctl.records.filter (fun e => !(e.1 == ctx && e.2.1 == a))).take 16 } })

/-- Where a record's 64 bytes at an address lie, read by an engine of core `c` for a lane's firing: any class that
engines reach (R137, R271). -/
def recordPlace (s : State) (c : Nat) (l : Lane) (a : X) : Except Stop (State × Nat) := do
  match classOf s c a with
  | .otherLm id o =>
    if atticBase ≤ o then trapAt .lmProtection a
    else if poisoned s (lmKey id o) 64 then trapAt .poisoned a
    else .ok (s, lmKey id o)
  | _ => do
    let (s, p) ← resolve s c (ctxOf s c l) .load false a 64
    let s ← domainCheck (accessorOf l) false s p
    if poisoned s (placeKey c p) 64 then trapAt .poisoned a else .ok (s, placeKey c p)

/-- A read of a record through the cache (R271): its 192 bytes, or the fault of the fetch. -/
def readRecord (s : State) (c : Nat) (l : Lane) (a : X) : Except Stop (State × Nat) :=
  let ctx := ctxOf s c l
  match cachedRecord (coreOf s c) ctx a.toNat with
  | some v => .ok (cacheRecord s c ctx a.toNat v, v)
  | none => do
    let (s, k0) ← recordPlace s c l a
    let (s, k1) ← recordPlace s c l (a + 64)
    let (s, k2) ← recordPlace s c l (a + 128)
    let v := memRead s.mem k0 64 + 2 ^ 512 * memRead s.mem k1 64 + 2 ^ 1024 * memRead s.mem k2 64
    .ok (cacheRecord s c ctx a.toNat v, v)

/-- `SHFENCE` waits for scnt = 0 and empties the record cache (R272). -/
def execShfence (_ : Z64) : State → Host.Outcome State Fault Refusal := stateOp 8 (fun s => do
  await (decide ((cur s).scnt = 0)) (.counters 63 0)
  .ok (onCurCore s (fun k => { k with ctl := { k.ctl with records := [] } })))

/-- `SHPF xs` fetches a record into the cache (R272). It never faults: a dead register or an address that would fault
is dropped (DEDUCED, log entry 36). It waits for its operand, and for the way to the record. -/
def execShpf (o : ShpfOp) : State → Host.Outcome State Fault Refusal := stateOp 8 (fun s =>
  let l := cur s
  let a := getX l o.xs
  match gate l [.x (plain o.xs)] [] with
  | .error (.fault _ _) => .ok s
  | .error e => .error e
  | .ok () =>
    match (if a.toNat % 64 = 0 then readRecord s s.sched.core l a else trap .misaligned) with
    | .ok (s, _) => .ok s
    | .error (.wait w) => .error (.wait w)
    | .error _ => .ok s)

end Sys2Proof.Machine
end

