-- ==== Sys2Proof/Machine/Numbers.lean ====
section
/-! DEFINITION. Numbers at the lane (R64 to R83): formats, exact values, rounding with its random draws, and the exact
functions that the vector unit and the Stove round. -/

namespace Sys2Proof.Machine

/-! ### Exact values -/

/-- A value before rounding: NaN, an infinity, or (−1)^neg × m × 2^e. With `more` the magnitude lies strictly between
m × 2^e and (m + 1) × 2^e; m then has at least 80 bits. -/
inductive Num where
  | nan
  | inf (neg : Bool)
  | fin (neg : Bool) (m : Nat) (e : Int) (more : Bool)
  deriving DecidableEq, Repr

/-- A zero of a sign. -/
def zeroNum (neg : Bool) : Num := .fin neg 0 0 false

/-- An integer. -/
def intNum (i : Int) : Num := .fin (decide (i < 0)) i.natAbs 0 false

/-- The value is zero. -/
def Num.isZero : Num → Bool
  | .fin _ m _ more => m == 0 && !more
  | _ => false

/-- The value is NaN. -/
def Num.isNan : Num → Bool
  | .nan => true
  | _ => false

/-- The sign of a value. -/
def Num.neg : Num → Bool
  | .fin n _ _ _ => n
  | .inf n => n
  | .nan => false

/-- Number of bits of a number below 2^fuel. -/
def bitLen (n : Nat) : Nat := if n = 0 then 0 else Nat.log2 n + 1

/-- An aligned magnitude as an integer at exponent `e`. -/
def scaledInt (neg : Bool) (m : Nat) (k : Int) : Int :=
  let v : Int := m * 2 ^ k.toNat
  if neg then -v else v

/-- The exact sum; `rd` gives an exact cancellation the sign minus (R67). -/
def addNum (rd : Bool) : Num → Num → Num
  | .nan, _ => .nan
  | _, .nan => .nan
  | .inf a, .inf b => if a = b then .inf a else .nan
  | .inf a, _ => .inf a
  | _, .inf b => .inf b
  | .fin a m e p, .fin b n f q =>
    if m = 0 then (if n = 0 then zeroNum (if a = b then a else rd) else .fin b n f q)
    else if n = 0 then .fin a m e p
    else
      let k := min e f
      let v := scaledInt a m (e - k) + scaledInt b n (f - k)
      if v = 0 then zeroNum rd else .fin (decide (v < 0)) v.natAbs k false

/-- The value with its sign changed. -/
def negNum : Num → Num
  | .nan => .nan
  | .inf a => .inf (!a)
  | .fin a m e p => .fin (!a) m e p

/-- The exact product. -/
def mulNum : Num → Num → Num
  | .nan, _ => .nan
  | _, .nan => .nan
  | .inf a, .inf b => .inf (a != b)
  | .inf a, .fin b n _ _ => if n = 0 then .nan else .inf (a != b)
  | .fin a m _ _, .inf b => if m = 0 then .nan else .inf (a != b)
  | .fin a m e _, .fin b n f _ => .fin (a != b) (m * n) (e + f) false

/-- The exact quotient (R115). -/
def divNum : Num → Num → Num
  | .nan, _ => .nan
  | _, .nan => .nan
  | .inf _, .inf _ => .nan
  | .inf a, .fin b _ _ _ => .inf (a != b)
  | .fin a _ _ _, .inf b => zeroNum (a != b)
  | .fin a m e _, .fin b n f _ =>
    if n = 0 then (if m = 0 then .nan else .inf (a != b))
    else if m = 0 then zeroNum (a != b)
    else
      let k := 90 + bitLen n - bitLen m
      .fin (a != b) (m * 2 ^ k / n) (e - f - k) (decide (m * 2 ^ k % n ≠ 0))

/-- Bit by bit, the integer square root of `n` below 2^k, given the part `r` already found. -/
def isqrtFrom (n r : Nat) : Nat → Nat
  | 0 => r
  | k + 1 => if (r + 2 ^ k) * (r + 2 ^ k) ≤ n then isqrtFrom n (r + 2 ^ k) k else isqrtFrom n r k

/-- The integer square root. -/
def isqrt (n : Nat) : Nat := isqrtFrom n 0 (bitLen n / 2 + 1)

/-- A finite positive magnitude with an even exponent. -/
def evenExp (m : Nat) (e : Int) : Nat × Int := if e % 2 = 0 then (m, e) else (2 * m, e - 1)

/-- The exact square root (R115). -/
def sqrtNum : Num → Num
  | .nan => .nan
  | .inf a => if a then .nan else .inf false
  | .fin a m e _ =>
    if m = 0 then zeroNum a
    else if a then .nan
    else
      let (m, e) := evenExp m e
      let n := m * 2 ^ 200
      let s := isqrt n
      .fin false s (e / 2 - 100) (decide (s * s ≠ n))

/-- The exact reciprocal square root (R115). -/
def rsqNum : Num → Num
  | .nan => .nan
  | .inf a => if a then .nan else zeroNum false
  | .fin a m e _ =>
    if m = 0 then .inf a
    else if a then .nan
    else
      let (m, e) := evenExp m e
      let k := 100 + bitLen m
      let s := isqrt (2 ^ (2 * k) / m)
      .fin false s (-(e / 2) - k) (decide (s * s * m ≠ 2 ^ (2 * k)))

/-- The product, in units of 2^-400, of 2^(2^-i) over the one bits of the fraction `f` of `k` bits, the top bit first;
`c` is 2^(2^-i) for the bit before (DEDUCED, log entry 11). -/
def exp2Prod (f acc c : Nat) : Nat → Nat
  | 0 => acc
  | k + 1 =>
    let c := isqrt (c * 2 ^ 400)
    exp2Prod f (if bit f k then acc * c / 2 ^ 400 else acc) c k

/-- The exact power of two of a value (R115): an irrational power is cut to 100 bits (DEDUCED, log entry 11). -/
def exp2Num : Num → Num
  | .nan => .nan
  | .inf a => if a then zeroNum false else .inf false
  | .fin a m e _ =>
    if m = 0 then .fin false 1 0 false
    else if 0 ≤ e then .fin false 1 (if a then -((m : Int) * 2 ^ (min e 64).toNat) else (m : Int) * 2 ^ (min e 64).toNat) false
    else
      let k := (-e).toNat
      if m % 2 ^ k = 0 then .fin false 1 (if a then -((m / 2 ^ k : Nat) : Int) else (m / 2 ^ k : Nat)) false
      else if bitLen m + 90 < k then
        if a then .fin false (2 ^ 89 - 1) (-89) true else .fin false (2 ^ 89) (-89) true
      else
        let v : Int := if a then -(m : Int) else m
        let i := v / 2 ^ k
        let f := (v % 2 ^ k).toNat
        .fin false (exp2Prod f (2 ^ 400) (2 ^ 401) k / 2 ^ 300) (i - 100) true

/-- `k` more bits of the logarithm of `y` (in units of 2^-600, from 1 to 2), below the bits `acc` (DEDUCED, log entry 11). -/
def log2Bits (y acc : Nat) : Nat → Nat
  | 0 => acc
  | k + 1 =>
    let z := y * y / 2 ^ 600
    if 2 ^ 601 ≤ z then log2Bits (z / 2) (2 * acc + 1) k else log2Bits z (2 * acc) k

/-- The exact binary logarithm (R115): an irrational logarithm is cut to 160 fraction bits (DEDUCED, log entry 11). -/
def log2Num : Num → Num
  | .nan => .nan
  | .inf a => if a then .nan else .inf false
  | .fin a m e _ =>
    if m = 0 then .inf true
    else if a then .nan
    else
      let n := bitLen m - 1
      let i : Int := e + n
      if m = 2 ^ n then intNum i
      else
        let b := log2Bits (m * 2 ^ 600 / 2 ^ n) 0 160
        if 0 ≤ i then .fin false (i.toNat * 2 ^ 160 + b) (-160) true
        else .fin true (i.natAbs * 2 ^ 160 - b - 1) (-160) true

/-- The order of two values that are not NaN; −0 is below +0 when `signed` (R114, R117). -/
def lessNum (signed : Bool) : Num → Num → Bool
  | .nan, _ => false
  | _, .nan => false
  | .inf a, .inf b => a && !b
  | .inf a, _ => a
  | _, .inf b => !b
  | .fin a m e _, .fin b n f _ =>
    let k := min e f
    let x := scaledInt a m (e - k)
    let y := scaledInt b n (f - k)
    decide (x < y) || (signed && x == 0 && y == 0 && a && !b)

/-! ### Rounding (R74 to R79) -/

/-- A binary floating format: exponent and fraction bits, bias, largest finite code, and how it treats what lies
beyond (R66, R68). -/
structure Flt where
  ebits : Nat
  mbits : Nat
  bias : Int
  top : Nat
  /-- It has infinities. -/
  hasInf : Bool
  /-- It has a NaN. -/
  hasNan : Bool
  deriving DecidableEq, Repr

/-- FP64 (R66). -/
def fp64 : Flt := ⟨11, 52, 1023, 0x7FEFFFFFFFFFFFFF, true, true⟩

/-- FP32 (R66). -/
def fp32 : Flt := ⟨8, 23, 127, 0x7F7FFFFF, true, true⟩

/-- FP16 (R66). -/
def fp16 : Flt := ⟨5, 10, 15, 0x7BFF, true, true⟩

/-- BF16 (R66). -/
def bf16 : Flt := ⟨8, 7, 127, 0x7F7F, true, true⟩

/-- E4M3 (R68). -/
def e4m3 : Flt := ⟨4, 3, 7, 0x7E, false, true⟩

/-- E5M2 (R68). -/
def e5m2 : Flt := ⟨5, 2, 15, 0x7B, true, true⟩

/-- E2M1 (R68). -/
def e2m1 : Flt := ⟨2, 1, 1, 7, false, false⟩

/-- Width of a floating format in bits. -/
def Flt.width (f : Flt) : Nat := 1 + f.ebits + f.mbits

/-- A code of magnitude `c` with a sign. -/
def signedCode (f : Flt) (neg : Bool) (c : Nat) : Nat := if neg then c + 2 ^ (f.width - 1) else c

/-- The canonical NaN (R77); a format without one gives 0 (R79). -/
def nanCode (f : Flt) : Nat := if f.hasInf then f.top + 1 + 2 ^ (f.mbits - 1) else if f.hasNan then f.top + 1 else 0

/-- The value of a code (R66 to R68). -/
def decodeFlt (f : Flt) (c : Nat) : Num :=
  let neg := bit c (f.width - 1)
  let mag := c % 2 ^ (f.width - 1)
  if f.hasInf && mag == f.top + 1 then .inf neg
  else if f.hasNan && decide (f.top < mag) then .nan
  else
    let e := mag / 2 ^ f.mbits
    let m := mag % 2 ^ f.mbits
    if e = 0 then .fin neg m (1 - f.bias - f.mbits) false
    else .fin neg (m + 2 ^ f.mbits) ((e : Int) - f.bias - f.mbits) false

/-- Whether a magnitude between two neighbours takes the farther one (R74, R76): `r` of `d` parts beyond the nearer,
strictly more with `more`; `odd` when the nearer one's last bit is 1. -/
def goesUp (mode : Round) (draw : Nat) (neg odd : Bool) (r d : Nat) (more : Bool) : Bool :=
  match mode with
  | .rne | .rnesat => decide (d < 2 * r) || (2 * r == d && (more || odd))
  | .rz => false
  | .ru => !neg && (decide (r ≠ 0) || more)
  | .rd => neg && (decide (r ≠ 0) || more)
  | .sr => decide (draw < r * 65536 / d)

/-- What an overflow gives (R78). -/
def overflowCode (f : Flt) (mode : Round) (neg : Bool) : Nat :=
  let big := signedCode f neg f.top
  if f.hasInf then
    let inf := signedCode f neg (f.top + 1)
    match mode with
    | .rnesat => big
    | .rne => inf
    | .sr => inf
    | .rz => big
    | .ru => if neg then big else inf
    | .rd => if neg then inf else big
  else if f.hasNan then (if mode = .rnesat then big else nanCode f)
  else big

/-- A magnitude cut at the quantum 2^q: whole quanta, the rest in parts of a denominator, and whether more follows. A
magnitude far below the quantum counts as a rest just above zero. -/
def cutAt (m : Nat) (e q : Int) (more : Bool) : Nat × Nat × Nat × Bool :=
  if q ≤ e then (m * 2 ^ (e - q).toNat, 0, 1, more)
  else
    let k := (q - e).toNat
    if bitLen m + 64 < k then (0, 0, 1, more || m != 0) else (m / 2 ^ k, m % 2 ^ k, 2 ^ k, more)

/-- Rounds a value into a floating format under a mode and a draw, with overflow as under mode `ov` (R74, R76, R78, R79) (DEDUCED, log entry 15). -/
def roundWith (f : Flt) (mode ov : Round) (draw : Nat) : Num → Nat
  | .nan => nanCode f
  | .inf neg => if f.hasInf then signedCode f neg (f.top + 1) else overflowCode f ov neg
  | .fin neg m e more =>
    if m = 0 && !more then signedCode f neg 0
    else
      let low := 1 - f.bias - f.mbits
      let q := max (e + bitLen m - 1 - f.mbits) low
      let (n, r, d, more) := cutAt m e q more
      let n := if goesUp mode draw neg (n % 2 == 1) r d more then n + 1 else n
      let code := ((q - low) * 2 ^ f.mbits + n).toNat
      if f.top < code then overflowCode f ov neg else signedCode f neg code

/-- Rounds a value into a floating format under a mode and a draw. -/
def roundFlt (f : Flt) (mode : Round) (draw : Nat) (v : Num) : Nat := roundWith f mode mode draw v

/-- Rounds a magnitude to an integer in whole units (R79, R121). -/
def roundInt (mode : Round) (draw : Nat) (neg : Bool) (m : Nat) (e : Int) (more : Bool) : Int :=
  let (n, r, d, more) := cutAt m e 0 more
  let n := if goesUp mode draw neg (n % 2 == 1) r d more then n + 1 else n
  if neg then -(n : Int) else n

/-- An integer clamped to a range. -/
def clampInt (lo hi i : Int) : Int := if i < lo then lo else if hi < i then hi else i

/-! ### LOG6 (R71, R72) -/

/-- TPOW in units of 2^-15 (R72). -/
def tpow (f : Nat) : Nat := if f = 0 then 0x8000 else if f = 1 then 0x9838 else if f = 2 then 0xB505 else 0xD745

/-- The magnitude of a quarter-unit exponent: TPOW[f] × 2^(n − 15) (R72). -/
def logMag (neg : Bool) (q : Int) : Num := .fin neg (tpow (q % 4).toNat) (q / 4 - 15) false

/-- The value of a LOG6 code (R71, R120). -/
def decodeLog6 (c : Nat) : Num :=
  if c % 64 = 0x10 then zeroNum false else if c % 64 = 0x30 then .nan else logMag (bit c 5) (sgn 5 c)

/-- The last of the quarter exponents from `4E` on whose magnitude is at most `x` of exponent `e`. -/
def logFloor (m : Nat) (e : Int) : Int :=
  let E : Int := e + bitLen m - 1
  let fits := fun (i : Nat) => !lessNum false (.fin false m e false) (logMag false (4 * E + i))
  if fits 3 then 4 * E + 3 else if fits 2 then 4 * E + 2 else if fits 1 then 4 * E + 1 else 4 * E

/-- The code of a quarter exponent from −15 to 15. -/
def logCode (neg : Bool) (q : Int) : Nat := wrap 5 q + (if neg then 32 else 0)

/-- Rounds a value into LOG6, with overflow as under mode `ov` (R74, R78, R79): candidates are compared linearly. -/
def roundLog6 (mode ov : Round) (draw : Nat) : Num → Nat
  | .nan => 0x30
  | .inf neg => if ov = .rnesat then logCode neg 15 else 0x30
  | .fin neg m e more =>
    if m = 0 && !more then 0x10
    else
      let q := logFloor m e
      let tiny := decide (q < -15)
      let k := min e (-80)
      let at' := fun (x : Num) => match x with
        | .fin _ n f _ => n * 2 ^ (f - k).toNat
        | _ => 0
      let lo := if tiny then 0 else at' (logMag false q)
      let hi := at' (logMag false (if tiny then -15 else q + 1))
      let up := goesUp mode draw neg (!tiny && q % 2 == 1) (m * 2 ^ (e - k).toNat - lo) (hi - lo) more
      if tiny then (if up then logCode neg (-15) else 0x10)
      else
        let q := if up then q + 1 else q
        if 15 < q then (if ov = .rnesat then logCode neg 15 else 0x30) else logCode neg q

/-! ### Formats (R52, R120) -/

/-- Width in bits of a format's value. -/
def fmtWidth : Fmt → Nat
  | .ui8 => 8 | .ui16 => 16 | .ui32 => 32 | .ui64 => 64 | .i8 => 8 | .i16 => 16 | .i32 => 32 | .i64 => 64
  | .f16 => 16 | .bf16 => 16 | .f32 => 32 | .f64 => 64 | .e4m3 => 8 | .e5m2 => 8 | .e2m1 => 4 | .lg6 => 6

/-- What a format holds: unsigned or signed integers, a floating format, or LOG6. -/
inductive FmtKind where
  | uint | sint | flt (f : Flt) | log
  deriving DecidableEq, Repr

/-- The kind of a format. -/
def fmtKind : Fmt → FmtKind
  | .ui8 => .uint | .ui16 => .uint | .ui32 => .uint | .ui64 => .uint | .i8 => .sint | .i16 => .sint | .i32 => .sint
  | .i64 => .sint | .f16 => .flt fp16 | .bf16 => .flt bf16 | .f32 => .flt fp32 | .f64 => .flt fp64
  | .e4m3 => .flt e4m3 | .e5m2 => .flt e5m2 | .e2m1 => .flt e2m1 | .lg6 => .log

/-- The value of a code of a format. -/
def decodeFmt (f : Fmt) (c : Nat) : Num :=
  match fmtKind f with
  | .uint => intNum (c % 2 ^ (fmtWidth f))
  | .sint => intNum (sgn (fmtWidth f) c)
  | .flt x => decodeFlt x c
  | .log => decodeLog6 c

/-- The bounds of an integer format. -/
def intBounds (f : Fmt) : Int × Int :=
  match fmtKind f with
  | .uint => (0, 2 ^ (fmtWidth f) - 1)
  | _ => (-2 ^ ((fmtWidth f) - 1), 2 ^ ((fmtWidth f) - 1) - 1)

/-- Rounds a value into a format, with overflow as under mode `ov` (R74, R78, R79). -/
def roundFmtWith (f : Fmt) (mode ov : Round) (draw : Nat) (v : Num) : Nat :=
  match fmtKind f with
  | .flt x => roundWith x mode ov draw v
  | .log => roundLog6 mode ov draw v
  | _ =>
    let (lo, hi) := intBounds f
    match v with
    | .nan => 0
    | .inf neg => wrap (fmtWidth f) (if neg then lo else hi)
    | .fin neg m e more => wrap (fmtWidth f) (clampInt lo hi (roundInt mode draw neg m e more))

/-- Rounds a value into a format. -/
def roundFmt (f : Fmt) (mode : Round) (draw : Nat) (v : Num) : Nat := roundFmtWith f mode mode draw v

/-- What an overflow of a sign gives in a format (R78, R79). -/
def overflowFmt (f : Fmt) (ov : Round) (neg : Bool) : Nat :=
  match fmtKind f with
  | .flt x => overflowCode x ov neg
  | .log => if ov = .rnesat then logCode neg 15 else 0x30
  | _ => wrap (fmtWidth f) (if neg then (intBounds f).1 else (intBounds f).2)

/-- The format is one of integers. -/
def fmtIsInt (f : Fmt) : Bool :=
  match fmtKind f with
  | .uint => true
  | .sint => true
  | _ => false

/-- Converts a code between formats (R78, R79, R120): an integer keeps its low bits in a narrower integer format unless
the mode is .rnesat. -/
def convert (dst src : Fmt) (mode : Round) (draw c : Nat) : Nat :=
  if fmtIsInt dst && fmtIsInt src && decide (fmtWidth dst < fmtWidth src) && mode != .rnesat then c % 2 ^ fmtWidth dst
  else roundFmt dst mode draw (decodeFmt src c)

/-! ### The stochastic generator (R75, R76) -/

/-- One step of the generator. -/
def srStep (s : BitVec 32) : BitVec 32 :=
  let s := s ^^^ (s <<< 13)
  let s := s ^^^ (s >>> 17)
  s ^^^ (s <<< 5)

/-- SRSTATE after a write (R75): zero is stored as 1. -/
def srWrite (w : BitVec 32) : BitVec 32 := if w = 0 then 1 else w

/-- The draw of a rounding step and the generator after it; only .sr steps it. -/
def takeDraw (mode : Round) (s : BitVec 32) : Nat × BitVec 32 :=
  if mode = .sr then ((srStep s).toNat % 65536, srStep s) else (0, s)

/-- One rounding step into a floating format. -/
def roundStep (f : Flt) (mode : Round) (v : Num) (s : BitVec 32) : Nat × BitVec 32 :=
  let (d, s) := takeDraw mode s
  (roundFlt f mode d v, s)

/-! ### Structured sparsity (R83) -/

/-- Binomial coefficient of small numbers. -/
def choose : Nat → Nat → Nat
  | _, 0 => 1
  | 0, _ + 1 => 0
  | n + 1, k + 1 => choose n k + choose n (k + 1)

/-- The kept positions of a code, from the highest: the greatest p with C(p, i) at most what is left (R83). -/
def unrank (m : Nat) : Nat → Nat → List Nat
  | 0, _ => []
  | i + 1, c =>
    let p := ((List.range m).filter (fun p => decide (choose p (i + 1) ≤ c))).foldl max 0
    unrank m i (c - choose p (i + 1)) ++ [p]

/-- n, m, code bits and number of valid codes of a pattern number 1 to 4 (R83). -/
def patternOf (p : Nat) : Nat × Nat × Nat × Nat :=
  if p = 1 then (1, 4, 2, 4) else if p = 2 then (2, 4, 3, 6) else if p = 3 then (2, 8, 5, 28) else (4, 8, 7, 70)

end Sys2Proof.Machine
end

