-- ==== Sys2Proof/Machine/Vector.lean ====
section
/-! DEFINITION. Vector and search instructions (R108 to R134): element-wise operations, conversions, moves, reductions,
scans, distances and top-k, in their C, V and X forms (R51, R110). -/

namespace Sys2Proof.Machine

/-! ### Elements (R108) -/

/-- Element width W. -/
def tyW : ElemTy → Nat
  | .i64 => 64 | .ui64 => 64 | .f64 => 64 | _ => 32

/-- Number of elements N. -/
def tyN (t : ElemTy) : Nat := 1024 / tyW t

/-- Value width w. -/
def tyVal : ElemTy → Nat
  | .i64 => 64 | .ui64 => 64 | .f64 => 64 | .f16 => 16 | .bf16 => 16 | _ => 32

/-- The floating format of a type. -/
def tyFlt : ElemTy → Option Flt
  | .f32 => some fp32 | .f64 => some fp64 | .f16 => some fp16 | .bf16 => some bf16 | _ => none

/-- The type is signed. -/
def tySigned : ElemTy → Bool
  | .i32 => true | .i64 => true | _ => false

/-- The format of sums: FP32 for 16-bit types, else the type's (R129 to R131). -/
def accFlt (f : Flt) : Flt := if f.width = 16 then fp32 else f

/-- Element `i` of width `W`. -/
def elem (W : Nat) (v : V) (i : Nat) : Nat := bits v.toNat (W * i) W

/-- An element's value as an integer. -/
def elemInt (t : ElemTy) (c : Nat) : Int := if tySigned t then sgn (tyW t) c else (c % 2 ^ tyW t : Nat)

/-- The elements packed into a number, the first lowest. -/
def packElems (W : Nat) : List Nat → Nat
  | [] => 0
  | e :: t => e % 2 ^ W + 2 ^ W * packElems W t

/-- The vector of `N` elements of width `W` given by a function. -/
def vecOf (W N : Nat) (f : Nat → Nat) : V := BitVec.ofNat 1024 (packElems W ((List.range N).map f))

/-- A function of elements applied in ascending order to the active ones of the list, with the generator's state (R76). -/
def mapActive (f : Nat → BitVec 32 → Nat × BitVec 32) (act : Nat → Bool) (old : Nat → Nat) :
    List Nat → BitVec 32 → List Nat × BitVec 32
  | [], s => ([], s)
  | i :: t, s =>
    let (e, s) := if act i then f i s else (old i, s)
    let (r, s) := mapActive f act old t s
    (e :: r, s)

/-- A new value of each active element of `old`; the others keep theirs (R47). -/
def vecMap (W : Nat) (act : P) (old : V) (sr : BitVec 32) (f : Nat → BitVec 32 → Nat × BitVec 32) : V × BitVec 32 :=
  let (l, s) := mapActive f (pbit act) (elem W old) (List.range (1024 / W)) sr
  (BitVec.ofNat 1024 (packElems W l), s)

/-- An instruction that writes a vector from its lane's registers. -/
def vecLane (srcs : List Opnd) (d : Reg) (f : Lane → V × BitVec 32) (l : Lane) : Except Stop Lane := do
  gate l srcs [.v d]
  let (v, s) := f l
  .ok { putV (kill l srcs) d v with sr := s }

/-! ### Element-wise operations (R113 to R116, R119) -/

/-- What an operation makes of one element's sources, with the generator's state. -/
abbrev ElemFn := List Nat → BitVec 32 → Nat × BitVec 32

/-- The operands of an element-wise instruction: destination, sources, guard, type and mode. -/
structure VArgs where
  d : Reg
  srcs : List Src
  guard : PReg
  ty : ElemTy
  rnd : Round
  deriving DecidableEq, Repr

/-- Operands of a V format of two sources: all elements, RNE (R110). -/
def argsV2 (o : V2) : VArgs := ⟨o.d, [o.a, o.b], 0, o.ty, .rne⟩

/-- Operands of a fused V format: vd is the third source (R110). -/
def argsV3 (o : V2) : VArgs := ⟨o.d, [o.a, o.b, plain o.d], 0, o.ty, .rne⟩

/-- Operands of a V format of one source. -/
def argsV1 (o : V1) : VArgs := ⟨o.d, [o.a], 0, o.ty, .rne⟩

/-- Operands of an X form of two sources. -/
def argsX2 (o : VX2) : VArgs := ⟨o.d, [o.a, o.b], o.guard, o.ty, o.rnd⟩

/-- Operands of an X form of three sources. -/
def argsX3 (o : VX3) : VArgs := ⟨o.d, [o.a, o.b, o.c], o.guard, o.ty, o.rnd⟩

/-- Operands of an X form of one source. -/
def argsX1 (o : VX1) : VArgs := ⟨o.d, [o.a], o.guard, o.ty, o.rnd⟩

/-- Operands of a C vector form: `va, va, vb` of type .f32 (R51). -/
def argsC (o : C2) : VArgs := ⟨o.a, [plain o.a, plain o.b], 0, .f32, .rne⟩

/-- Operands of the V form of VLUT, on 32-bit elements (R126). -/
def argsLut (o : R3) : VArgs := ⟨o.d, [o.a, o.b], 0, .ui32, .rne⟩

/-- The values of the source vectors. -/
def srcVals (g : VArgs) (l : Lane) : List V := g.srcs.map (getV l)

/-- The result of an element-wise instruction. -/
def elemResult (f : ElemFn) (g : VArgs) (l : Lane) : V × BitVec 32 :=
  vecMap (tyW g.ty) (getP l g.guard) l.regs.v[g.d] l.sr (fun i s => f ((srcVals g l).map (fun v => elem (tyW g.ty) v i)) s)

/-- A vector instruction of `n` bytes with the given result (DEDUCED, log entry 15). -/
def vecOp (n : Nat) (f : VArgs → Lane → V × BitVec 32) (g : VArgs) : State → Host.Outcome State Fault Refusal :=
  laneOp n (vecLane (g.srcs.map .v) g.d (f g))

/-- An X-format instruction that its guard's bit 0 switches off, all but the illegality of its source names (R47, R55). -/
def guardedVec (g : PReg) (srcs : List Opnd) (f : Lane → Except Stop Lane) : State → Host.Outcome State Fault Refusal :=
  laneOp 8 (fun l => if guardOn l g then f l else if srcs.any (opndIllegal l) then trap .illegal else .ok l)

/-- A vector instruction of `n` bytes whose result is long-latency (R26, R111): draws are taken at issue, and inactive
elements take their previous values when it arrives. -/
def vecLong (n : Nat) (f : VArgs → Lane → V × BitVec 32) (g : VArgs) : State → Host.Outcome State Fault Refusal :=
  stateOp n (fun s => do
    let l := cur s
    gate l (g.srcs.map .v) [.v g.d]
    let (v, r) := f g l
    .ok (produce (setCur s { kill l (g.srcs.map .v) with sr := r }) ⟨.v g.d, v, false, none, s.sched.bits, 0, siteOf s⟩))

/-- Source `k` of an element. -/
def arg (xs : List Nat) (k : Nat) : Nat := (xs[k]?).getD 0

/-- An arithmetic operation: exact, then rounded once in the element's format, or modulo 2^W (R113, R80). -/
def arith (g : VArgs) (fl : List Num → Num) (it : List Int → Int) : ElemFn := fun xs s =>
  match tyFlt g.ty with
  | some f => roundStep f g.rnd (fl (xs.map (decodeFlt f))) s
  | none => (wrap (tyW g.ty) (it (xs.map (elemInt g.ty))), s)

/-- An operation on the elements' bits. -/
def pureFn (f : List Nat → Nat) : ElemFn := fun xs s => (f xs, s)

/-- Value `k` of a list of exact values. -/
def num (xs : List Num) (k : Nat) : Num := (xs[k]?).getD .nan

/-- Integer `k` of a list. -/
def int (xs : List Int) (k : Nat) : Int := (xs[k]?).getD 0

/-- The sign an exact cancellation takes under a mode (R67). -/
def downMode (r : Round) : Bool := r == .rd

/-- a + b (R113). -/
def addE (g : VArgs) : ElemFn := arith g (fun x => addNum (downMode g.rnd) (num x 0) (num x 1)) (fun x => int x 0 + int x 1)

/-- a − b (R113). -/
def subE (g : VArgs) : ElemFn :=
  arith g (fun x => addNum (downMode g.rnd) (num x 0) (negNum (num x 1))) (fun x => int x 0 - int x 1)

/-- a × b (R113). -/
def mulE (g : VArgs) : ElemFn := arith g (fun x => mulNum (num x 0) (num x 1)) (fun x => int x 0 * int x 1)

/-- a × b + c, fused (R113). -/
def fmaE (g : VArgs) : ElemFn :=
  arith g (fun x => addNum (downMode g.rnd) (mulNum (num x 0) (num x 1)) (num x 2)) (fun x => int x 0 * int x 1 + int x 2)

/-- a × b − c, fused (R113). -/
def fmsE (g : VArgs) : ElemFn :=
  arith g (fun x => addNum (downMode g.rnd) (mulNum (num x 0) (num x 1)) (negNum (num x 2)))
    (fun x => int x 0 * int x 1 - int x 2)

/-- c − a × b, fused (R113). -/
def fnmaE (g : VArgs) : ElemFn :=
  arith g (fun x => addNum (downMode g.rnd) (num x 2) (negNum (mulNum (num x 0) (num x 1))))
    (fun x => int x 2 - int x 0 * int x 1)

/-- −a: the sign bit changed, or 0 − a (R113). -/
def negE (g : VArgs) : ElemFn := pureFn (fun xs =>
  let a := arg xs 0 % 2 ^ tyVal g.ty
  match tyFlt g.ty with
  | some f => if (decodeFlt f a).isNan then nanCode f else (a + 2 ^ (f.width - 1)) % 2 ^ f.width
  | none => wrap (tyW g.ty) (-elemInt g.ty a))

/-- |a| (R113). -/
def absE (g : VArgs) : ElemFn := pureFn (fun xs =>
  let a := arg xs 0 % 2 ^ tyVal g.ty
  match tyFlt g.ty with
  | some f => if (decodeFlt f a).isNan then nanCode f else a % 2 ^ (f.width - 1)
  | none => wrap (tyW g.ty) (elemInt g.ty a).natAbs)

/-- The lesser or greater of two elements, copied bit for bit, with the NaN rules of R114. -/
def pick (t : ElemTy) (great other : Bool) (a b : Nat) : Nat :=
  let a := a % 2 ^ tyVal t
  let b := b % 2 ^ tyVal t
  match tyFlt t with
  | none =>
    let less := decide (elemInt t b < elemInt t a)
    if (less != great) && elemInt t a != elemInt t b then b else a
  | some f =>
    let x := decodeFlt f a
    let y := decodeFlt f b
    if x.isNan && y.isNan then nanCode f
    else if x.isNan then (if other then b else nanCode f)
    else if y.isNan then (if other then a else nanCode f)
    else if (if great then lessNum true x y else lessNum true y x) then b else a

/-- VMIN, VMAX, VMINN and VMAXN (R114). -/
def pickE (great other : Bool) (g : VArgs) : ElemFn := pureFn (fun xs => pick g.ty great other (arg xs 0) (arg xs 1))

/-- min(max(a, b), c) (R119). -/
def clampE (g : VArgs) : ElemFn :=
  pureFn (fun xs => pick g.ty false false (pick g.ty true false (arg xs 0) (arg xs 1)) (arg xs 2))

/-- An exact function of floating elements, rounded once (R115). -/
def funE (fl : List Num → Num) (g : VArgs) : ElemFn := arith g fl (fun _ => 0)

/-- 1/a (R115). -/
def rcpE : VArgs → ElemFn := funE (fun x => divNum (intNum 1) (num x 0))

/-- 1/√a (R115). -/
def rsqE : VArgs → ElemFn := funE (fun x => rsqNum (num x 0))

/-- √a (R115). -/
def sqrtE : VArgs → ElemFn := funE (fun x => sqrtNum (num x 0))

/-- a/b (R115). -/
def divE : VArgs → ElemFn := funE (fun x => divNum (num x 0) (num x 1))

/-- 2^a (R115). -/
def exp2E : VArgs → ElemFn := funE (fun x => exp2Num (num x 0))

/-- log2 a (R115). -/
def log2E : VArgs → ElemFn := funE (fun x => log2Num (num x 0))

/-- Bitwise operations over the whole element (R116). -/
def bitE (f : Nat → Nat → Nat) (_ : VArgs) : ElemFn := pureFn (fun xs => f (arg xs 0) (arg xs 1))

/-- Left shift by the low bits of the count (R116). -/
def shlE (g : VArgs) : ElemFn := pureFn (fun xs => arg xs 0 * 2 ^ (arg xs 1 % tyW g.ty))

/-- Right shift with zeros (R116). -/
def shrE (g : VArgs) : ElemFn := pureFn (fun xs => arg xs 0 / 2 ^ (arg xs 1 % tyW g.ty))

/-- Right shift with copies of the top bit (R116). -/
def sraE (g : VArgs) : ElemFn :=
  pureFn (fun xs => wrap (tyW g.ty) (sgn (tyW g.ty) (arg xs 0) / 2 ^ (arg xs 1 % tyW g.ty)))

/-- `VADD.type vd, va, vb` (R113). -/
def execVadd (o : V2) : State → Host.Outcome State Fault Refusal := vecOp 4 (fun g => elemResult (addE g) g) (argsV2 o)

/-- X-form `VADD.type vd, va, vb` (R113, R110). -/
def execVaddX (o : VX2) : State → Host.Outcome State Fault Refusal := vecOp 8 (fun g => elemResult (addE g) g) (argsX2 o)

/-- `VSUB.type vd, va, vb` (R113). -/
def execVsub (o : V2) : State → Host.Outcome State Fault Refusal := vecOp 4 (fun g => elemResult (subE g) g) (argsV2 o)

/-- X-form `VSUB.type vd, va, vb` (R113, R110). -/
def execVsubX (o : VX2) : State → Host.Outcome State Fault Refusal := vecOp 8 (fun g => elemResult (subE g) g) (argsX2 o)

/-- `VMUL.type vd, va, vb` (R113). -/
def execVmul (o : V2) : State → Host.Outcome State Fault Refusal := vecOp 4 (fun g => elemResult (mulE g) g) (argsV2 o)

/-- X-form `VMUL.type vd, va, vb` (R113, R110). -/
def execVmulX (o : VX2) : State → Host.Outcome State Fault Refusal := vecOp 8 (fun g => elemResult (mulE g) g) (argsX2 o)

/-- C `VADD.f32 va, va, vb` (R51). -/
def execVaddC (o : C2) : State → Host.Outcome State Fault Refusal := vecOp 2 (fun g => elemResult (addE g) g) (argsC o)

/-- C `VSUB.f32 va, va, vb` (R51). -/
def execVsubC (o : C2) : State → Host.Outcome State Fault Refusal := vecOp 2 (fun g => elemResult (subE g) g) (argsC o)

/-- C `VMUL.f32 va, va, vb` (R51). -/
def execVmulC (o : C2) : State → Host.Outcome State Fault Refusal := vecOp 2 (fun g => elemResult (mulE g) g) (argsC o)

/-- `VFMA.type vd, va, vb` (R113). -/
def execVfma (o : V2) : State → Host.Outcome State Fault Refusal := vecOp 4 (fun g => elemResult (fmaE g) g) (argsV3 o)

/-- X-form `VFMA.type vd, va, vb, vc` (R113, R110). -/
def execVfmaX (o : VX3) : State → Host.Outcome State Fault Refusal := vecOp 8 (fun g => elemResult (fmaE g) g) (argsX3 o)

/-- `VFMS.type vd, va, vb` (R113). -/
def execVfms (o : V2) : State → Host.Outcome State Fault Refusal := vecOp 4 (fun g => elemResult (fmsE g) g) (argsV3 o)

/-- X-form `VFMS.type vd, va, vb, vc` (R113, R110). -/
def execVfmsX (o : VX3) : State → Host.Outcome State Fault Refusal := vecOp 8 (fun g => elemResult (fmsE g) g) (argsX3 o)

/-- `VFNMA.type vd, va, vb` (R113). -/
def execVfnma (o : V2) : State → Host.Outcome State Fault Refusal := vecOp 4 (fun g => elemResult (fnmaE g) g) (argsV3 o)

/-- X-form `VFNMA.type vd, va, vb, vc` (R113, R110). -/
def execVfnmaX (o : VX3) : State → Host.Outcome State Fault Refusal := vecOp 8 (fun g => elemResult (fnmaE g) g) (argsX3 o)

/-- `VNEG.type vd, va` (R113). -/
def execVneg (o : V1) : State → Host.Outcome State Fault Refusal := vecOp 4 (fun g => elemResult (negE g) g) (argsV1 o)

/-- X-form `VNEG.type vd, va` (R113, R110). -/
def execVnegX (o : VX1) : State → Host.Outcome State Fault Refusal := vecOp 8 (fun g => elemResult (negE g) g) (argsX1 o)

/-- `VABS.type vd, va` (R113). -/
def execVabs (o : V1) : State → Host.Outcome State Fault Refusal := vecOp 4 (fun g => elemResult (absE g) g) (argsV1 o)

/-- X-form `VABS.type vd, va` (R113, R110). -/
def execVabsX (o : VX1) : State → Host.Outcome State Fault Refusal := vecOp 8 (fun g => elemResult (absE g) g) (argsX1 o)

/-- `VMIN.type vd, va, vb` (R114). -/
def execVmin (o : V2) : State → Host.Outcome State Fault Refusal := vecOp 4 (fun g => elemResult (pickE false false g) g) (argsV2 o)

/-- X-form `VMIN.type vd, va, vb` (R114, R110). -/
def execVminX (o : VX2) : State → Host.Outcome State Fault Refusal := vecOp 8 (fun g => elemResult (pickE false false g) g) (argsX2 o)

/-- `VMAX.type vd, va, vb` (R114). -/
def execVmax (o : V2) : State → Host.Outcome State Fault Refusal := vecOp 4 (fun g => elemResult (pickE true false g) g) (argsV2 o)

/-- X-form `VMAX.type vd, va, vb` (R114, R110). -/
def execVmaxX (o : VX2) : State → Host.Outcome State Fault Refusal := vecOp 8 (fun g => elemResult (pickE true false g) g) (argsX2 o)

/-- `VMINN.type vd, va, vb` (R114). -/
def execVminn (o : V2) : State → Host.Outcome State Fault Refusal := vecOp 4 (fun g => elemResult (pickE false true g) g) (argsV2 o)

/-- X-form `VMINN.type vd, va, vb` (R114, R110). -/
def execVminnX (o : VX2) : State → Host.Outcome State Fault Refusal := vecOp 8 (fun g => elemResult (pickE false true g) g) (argsX2 o)

/-- `VMAXN.type vd, va, vb` (R114). -/
def execVmaxn (o : V2) : State → Host.Outcome State Fault Refusal := vecOp 4 (fun g => elemResult (pickE true true g) g) (argsV2 o)

/-- X-form `VMAXN.type vd, va, vb` (R114, R110). -/
def execVmaxnX (o : VX2) : State → Host.Outcome State Fault Refusal := vecOp 8 (fun g => elemResult (pickE true true g) g) (argsX2 o)

/-- `VRCP.type vd, va` (R115). -/
def execVrcp (o : V1) : State → Host.Outcome State Fault Refusal := vecOp 4 (fun g => elemResult (rcpE g) g) (argsV1 o)

/-- X-form `VRCP.type vd, va` (R115, R110). -/
def execVrcpX (o : VX1) : State → Host.Outcome State Fault Refusal := vecOp 8 (fun g => elemResult (rcpE g) g) (argsX1 o)

/-- `VRSQ.type vd, va` (R115). -/
def execVrsq (o : V1) : State → Host.Outcome State Fault Refusal := vecOp 4 (fun g => elemResult (rsqE g) g) (argsV1 o)

/-- X-form `VRSQ.type vd, va` (R115, R110). -/
def execVrsqX (o : VX1) : State → Host.Outcome State Fault Refusal := vecOp 8 (fun g => elemResult (rsqE g) g) (argsX1 o)

/-- `VSQRT.type vd, va` (R115). -/
def execVsqrt (o : V1) : State → Host.Outcome State Fault Refusal := vecLong 4 (fun g => elemResult (sqrtE g) g) (argsV1 o)

/-- X-form `VSQRT.type vd, va` (R115, R110). -/
def execVsqrtX (o : VX1) : State → Host.Outcome State Fault Refusal := vecLong 8 (fun g => elemResult (sqrtE g) g) (argsX1 o)

/-- `VDIV.type vd, va, vb` (R115). -/
def execVdiv (o : V2) : State → Host.Outcome State Fault Refusal := vecLong 4 (fun g => elemResult (divE g) g) (argsV2 o)

/-- X-form `VDIV.type vd, va, vb` (R115, R110). -/
def execVdivX (o : VX2) : State → Host.Outcome State Fault Refusal := vecLong 8 (fun g => elemResult (divE g) g) (argsX2 o)

/-- `VEXP2.type vd, va` (R115). -/
def execVexp2 (o : V1) : State → Host.Outcome State Fault Refusal := vecOp 4 (fun g => elemResult (exp2E g) g) (argsV1 o)

/-- X-form `VEXP2.type vd, va` (R115, R110). -/
def execVexp2X (o : VX1) : State → Host.Outcome State Fault Refusal := vecOp 8 (fun g => elemResult (exp2E g) g) (argsX1 o)

/-- `VLOG2.type vd, va` (R115). -/
def execVlog2 (o : V1) : State → Host.Outcome State Fault Refusal := vecOp 4 (fun g => elemResult (log2E g) g) (argsV1 o)

/-- X-form `VLOG2.type vd, va` (R115, R110). -/
def execVlog2X (o : VX1) : State → Host.Outcome State Fault Refusal := vecOp 8 (fun g => elemResult (log2E g) g) (argsX1 o)

/-- `VAND.type vd, va, vb` (R116). -/
def execVand (o : V2) : State → Host.Outcome State Fault Refusal := vecOp 4 (fun g => elemResult (bitE Nat.land g) g) (argsV2 o)

/-- X-form `VAND.type vd, va, vb` (R116, R110). -/
def execVandX (o : VX2) : State → Host.Outcome State Fault Refusal := vecOp 8 (fun g => elemResult (bitE Nat.land g) g) (argsX2 o)

/-- `VOR.type vd, va, vb` (R116). -/
def execVor (o : V2) : State → Host.Outcome State Fault Refusal := vecOp 4 (fun g => elemResult (bitE Nat.lor g) g) (argsV2 o)

/-- X-form `VOR.type vd, va, vb` (R116, R110). -/
def execVorX (o : VX2) : State → Host.Outcome State Fault Refusal := vecOp 8 (fun g => elemResult (bitE Nat.lor g) g) (argsX2 o)

/-- `VXOR.type vd, va, vb` (R116). -/
def execVxor (o : V2) : State → Host.Outcome State Fault Refusal := vecOp 4 (fun g => elemResult (bitE Nat.xor g) g) (argsV2 o)

/-- X-form `VXOR.type vd, va, vb` (R116, R110). -/
def execVxorX (o : VX2) : State → Host.Outcome State Fault Refusal := vecOp 8 (fun g => elemResult (bitE Nat.xor g) g) (argsX2 o)

/-- `VSHL.type vd, va, vb` (R116). -/
def execVshl (o : V2) : State → Host.Outcome State Fault Refusal := vecOp 4 (fun g => elemResult (shlE g) g) (argsV2 o)

/-- X-form `VSHL.type vd, va, vb` (R116, R110). -/
def execVshlX (o : VX2) : State → Host.Outcome State Fault Refusal := vecOp 8 (fun g => elemResult (shlE g) g) (argsX2 o)

/-- `VSHR.type vd, va, vb` (R116). -/
def execVshr (o : V2) : State → Host.Outcome State Fault Refusal := vecOp 4 (fun g => elemResult (shrE g) g) (argsV2 o)

/-- X-form `VSHR.type vd, va, vb` (R116, R110). -/
def execVshrX (o : VX2) : State → Host.Outcome State Fault Refusal := vecOp 8 (fun g => elemResult (shrE g) g) (argsX2 o)

/-- `VSRA.type vd, va, vb` (R116). -/
def execVsra (o : V2) : State → Host.Outcome State Fault Refusal := vecOp 4 (fun g => elemResult (sraE g) g) (argsV2 o)

/-- X-form `VSRA.type vd, va, vb` (R116, R110). -/
def execVsraX (o : VX2) : State → Host.Outcome State Fault Refusal := vecOp 8 (fun g => elemResult (sraE g) g) (argsX2 o)

/-! ### Permutations and look-ups (R124, R126) -/

/-- Source vector `k`. -/
def vec (vs : List V) (k : Nat) : V := (vs[k]?).getD 0

/-- A result whose elements are chosen from whole source vectors. -/
def pickResult (f : List V → Nat → Nat) (g : VArgs) (l : Lane) : V × BitVec 32 :=
  vecMap (tyW g.ty) (getP l g.guard) l.regs.v[g.d] l.sr (fun i s => (f (srcVals g l) i, s))

/-- Element `i` of VPERM: the element of va that element `i` of vb numbers (R124). -/
def permAt (g : VArgs) (vs : List V) (i : Nat) : Nat :=
  elem (tyW g.ty) (vec vs 0) (elem (tyW g.ty) (vec vs 1) i % tyN g.ty)

/-- Element `i` of VLUT: each byte indexes the 128 bytes of vb (R126). -/
def lutAt (vs : List V) (i : Nat) : Nat :=
  packElems 8 ((List.range 4).map (fun k => elem 8 (vec vs 1) (elem 8 (vec vs 0) (4 * i + k) % 128)))

/-- `VPERM.type vd, va, vb` (R124). -/
def execVperm (o : V2) : State → Host.Outcome State Fault Refusal := vecOp 4 (fun g => pickResult (permAt g) g) (argsV2 o)

/-- X-form `VPERM.type vd, va, vb` (R124, R110). -/
def execVpermX (o : VX2) : State → Host.Outcome State Fault Refusal := vecOp 8 (fun g => pickResult (permAt g) g) (argsX2 o)

/-- `VLUT vd, va, vb` (R126). -/
def execVlut (o : R3) : State → Host.Outcome State Fault Refusal := vecOp 4 (pickResult lutAt) (argsLut o)

/-- X-form `VLUT vd, va, vb` (R126, R110): the guard acts per 32-bit element. -/
def execVlutX (o : VX2) : State → Host.Outcome State Fault Refusal := vecOp 8 (pickResult lutAt) { argsX2 o with ty := .ui32 }

/-! ### Compare, select, clamp (R117 to R119) -/

/-- The condition of VCMP holds between two elements (R117). -/
def vcond (t : ElemTy) (c : Cond) (a b : Nat) : Bool :=
  match tyFlt t with
  | some f =>
    let x := decodeFlt f a
    let y := decodeFlt f b
    let un := x.isNan || y.isNan
    let lt := lessNum false x y
    let gt := lessNum false y x
    (match c with
     | .eq => !un && !lt && !gt
     | .ne => un || lt || gt
     | .lt => lt
     | _ => !un && !gt)
  | none =>
    let x := elemInt t a
    let y := elemInt t b
    (match c with
     | .eq => x == y
     | .ne => x != y
     | .lt => decide (x < y)
     | _ => decide (x ≤ y))

/-- The predicate of a condition between the elements of two vectors; bits from N on are 0 (R117). -/
def vcmpMask (t : ElemTy) (c : Cond) (a b : V) : P :=
  BitVec.ofNat 32 (packElems 1 ((List.range (tyN t)).map (fun i => (vcond t c (elem (tyW t) a i) (elem (tyW t) b i)).toNat)))

/-- `VCMP.type.cond pd, va, vb` (R117): a payload name that is no operand here is illegal even when the guard is off (R47). -/
def execVcmp (o : VcmpOp) : State → Host.Outcome State Fault Refusal := guardedVec o.guard [.v o.a, .v o.b] (fun l => do
  gate l [.v o.a, .v o.b] []
  .ok (putP (kill l [.v o.a, .v o.b]) o.d (vcmpMask o.ty o.cond (getV l o.a) (getV l o.b))))

/-- `VSEL.type vd, va, vb, pc` (R118). -/
def execVsel (o : VselOp) : State → Host.Outcome State Fault Refusal := laneOp 8 (vecLane [.v o.a, .v o.b] o.d (fun l =>
  vecMap (tyW o.ty) (getP l o.guard) l.regs.v[o.d] l.sr
    (fun i s => (elem (tyW o.ty) (getV l (if pbit (getP l o.c.reg) i then o.a else o.b)) i, s))))

/-- `VCLAMP.type vd, va, vb, vc` (R119). -/
def execVclamp (o : VX3) : State → Host.Outcome State Fault Refusal := vecOp 8 (fun g => elemResult (clampE g) g) (argsX3 o)

/-! ### Conversion and rounding to integral (R120, R121) -/

/-- Bits that a format takes in an element: LOG6 takes a byte (R120). -/
def partWidth (f : Fmt) : Nat := if f = .lg6 then 8 else fmtWidth f

/-- Element width of a conversion (R120). -/
def cvtW (o : VcvtOp) : Nat := if fmtWidth o.dfmt = 64 ∨ fmtWidth o.sfmt = 64 then 64 else 32

/-- One element of VCVT: part `spart` of the source converted into part `dpart` of the old element (R120) (DEDUCED, log entry 15). -/
def cvtElem (o : VcvtOp) (src old : Nat) (s : BitVec 32) : Nat × BitVec 32 :=
  let (d, s) := takeDraw o.rnd s
  let c := bits src (partWidth o.sfmt * o.spart.val) (fmtWidth o.sfmt)
  (putBits old (partWidth o.dfmt * o.dpart.val) (partWidth o.dfmt) (convert o.dfmt o.sfmt o.rnd d c), s)

/-- `VCVT.dfmt.sfmt vd, va, #dpart, #spart` (R120). -/
def execVcvt (o : VcvtOp) : State → Host.Outcome State Fault Refusal := laneOp 8 (vecLane [.v o.a] o.d (fun l =>
  vecMap (cvtW o) (getP l o.guard) l.regs.v[o.d] l.sr
    (fun i s => cvtElem o (elem (cvtW o) (getV l o.a) i) (elem (cvtW o) l.regs.v[o.d] i) s)))

/-- A floating element rounded to an integral value of its format; the sign of a zero result is the operand's (R121). -/
def roundE (g : VArgs) : ElemFn := fun xs s =>
  match tyFlt g.ty with
  | none => (arg xs 0, s)
  | some f =>
    let (d, s) := takeDraw g.rnd s
    let a := arg xs 0 % 2 ^ f.width
    (match decodeFlt f a with
     | .nan => nanCode f
     | .inf _ => a
     | .fin neg m e more =>
       roundFlt f .rne 0 (.fin neg (roundInt g.rnd d neg m e more).natAbs 0 false), s)

/-- `VROUND.type vd, va` (R121). -/
def execVround (o : VX1) : State → Host.Outcome State Fault Refusal := vecOp 8 (fun g => elemResult (roundE g) g) (argsX1 o)

/-! ### Moving elements (R122 to R125) -/

/-- `VSPLAT.type vd, xa` (R122). -/
def execVsplat (o : XX1) : State → Host.Outcome State Fault Refusal := laneOp 8 (vecLane [.x o.a] o.d (fun l =>
  vecMap (tyW o.ty) (getP l o.guard) l.regs.v[o.d] l.sr (fun _ s => ((getX l o.a.reg).toNat % 2 ^ tyVal o.ty, s))))

/-- An element as VEXTR extends it (R122). -/
def extracted (t : ElemTy) (c : Nat) : X :=
  if t = .i32 then BitVec.ofInt 64 (sgn 32 c) else BitVec.ofNat 64 (c % 2 ^ tyVal t)

/-- `VEXTR.type xd, va, xb` (R122). -/
def execVextr (o : XX2) : State → Host.Outcome State Fault Refusal := guardedVec o.guard [.v o.a, .x o.b] (fun l => do
  gate l [.v o.a, .x o.b] [.x o.d]
  .ok (putX (kill l [.v o.a, .x o.b]) o.d
    (extracted o.ty (elem (tyW o.ty) (getV l o.a) ((getX l o.b.reg).toNat % tyN o.ty)))))

/-- `VINS.type vd, xa, xb` (R122). -/
def execVins (o : XX2) : State → Host.Outcome State Fault Refusal := laneOp 8 (vecLane [.x o.a, .x o.b] o.d (fun l =>
  vecMap (tyW o.ty) (getP l o.guard &&& BitVec.twoPow 32 ((getX l o.b.reg).toNat % tyN o.ty)) l.regs.v[o.d] l.sr
    (fun _ s => ((getX l o.a.reg).toNat % 2 ^ tyVal o.ty, s))))

/-- `VIOTA.type vd, pa` (R123). -/
def execViota (o : ViotaOp) : State → Host.Outcome State Fault Refusal := laneOp 8 (vecLane [] o.d (fun l =>
  vecMap (tyW o.ty) (getP l o.guard) l.regs.v[o.d] l.sr (fun i s => (popBelow (getP l o.a.reg).toNat i, s))))

/-- Element `i` of VSLIDE by k (R124). -/
def slideAt (t : ElemTy) (k : Int) (a b : V) (i : Nat) : Nat :=
  let j := (i : Int) + k
  let n : Int := tyN t
  if j < 0 then elem (tyW t) b (j + n).toNat else if j < n then elem (tyW t) a j.toNat else elem (tyW t) b (j - n).toNat

/-- `VSLIDE.type vd, va, vb, #k` (R124). -/
def execVslide (o : VslideOp) : State → Host.Outcome State Fault Refusal := laneOp 8 (vecLane [.v o.a, .v o.b] o.d (fun l =>
  vecMap (tyW o.ty) (getP l o.guard) l.regs.v[o.d] l.sr
    (fun i s => (slideAt o.ty o.k.toInt (getV l o.a) (getV l o.b) i, s))))

/-- Index of the `j`-th one bit of a predicate among the first `n`, or none. -/
def onePlace (p : P) (n j : Nat) : Option Nat := ((List.range n).filter (pbit p))[j]?

/-- `VCOMP.type vd, va, pb` packs the elements that pb selects (R125). -/
def execVcomp (o : VcompOp) : State → Host.Outcome State Fault Refusal := laneOp 8 (vecLane [.v o.a] o.d (fun l =>
  let w := tyW o.ty
  (vecOf w (tyN o.ty) (fun j => match onePlace (getP l o.b.reg) (tyN o.ty) j with
    | some i => elem w (getV l o.a) i
    | none => elem w l.regs.v[o.d] j), l.sr)))

/-- `VEXPD.type vd, va, pb` spreads the low elements over those that pb selects (R125). -/
def execVexpd (o : VcompOp) : State → Host.Outcome State Fault Refusal := laneOp 8 (vecLane [.v o.a] o.d (fun l =>
  let p := getP l o.b.reg
  vecMap (tyW o.ty) p l.regs.v[o.d] l.sr (fun i s => (elem (tyW o.ty) (getV l o.a) (popBelow p.toNat i), s))))

/-! ### Trees, reductions and scans (R81, R127, R128) -/

/-- One level of the tree: node j combines nodes 2j and 2j + 1; one absent child passes the other on (R81). -/
def treeLevel {α : Type} (c : α → α → BitVec 32 → α × BitVec 32) :
    List (Option α) → BitVec 32 → List (Option α) × BitVec 32
  | some a :: some b :: t, s =>
    let (z, s) := c a b s
    let (r, s) := treeLevel c t s
    (some z :: r, s)
  | a :: b :: t, s =>
    let (r, s) := treeLevel c t s
    ((match a with
      | some x => some x
      | none => b) :: r, s)
  | l, s => (l, s)

/-- The root of a tree of `k` levels: an absent root gives the identity `z` (R81). -/
def treeRoot {α : Type} (c : α → α → BitVec 32 → α × BitVec 32) (z : α) :
    Nat → List (Option α) → BitVec 32 → α × BitVec 32
  | 0, l, s => (l.head?.join.getD z, s)
  | k + 1, l, s =>
    let (l, s) := treeLevel c l s
    treeRoot c z k l s

/-- Levels of the tree (R81). -/
def tyLevels (t : ElemTy) : Nat := if tyW t = 64 then 4 else 5

/-- The leaves of the active elements. -/
def leaves {α : Type} (t : ElemTy) (act : P) (f : Nat → α) : List (Option α) :=
  (List.range (tyN t)).map (fun i => if pbit act i then some (f i) else none)

/-- The combination of two elements by an operator, each sum rounded once (R127) (DEDUCED, log entry 15). -/
def combine (t : ElemTy) (op : RedOp) (rnd : Round) (a b : Nat) (s : BitVec 32) : Nat × BitVec 32 :=
  match op with
  | .sum =>
    match tyFlt t with
    | some f => roundStep f rnd (addNum (downMode rnd) (decodeFlt f a) (decodeFlt f b)) s
    | none => ((a + b) % 2 ^ tyW t, s)
  | .min => (pick t false false a b, s)
  | .max => (pick t true false a b, s)
  | .minn => (pick t false true a b, s)
  | .maxn => (pick t true true a b, s)
  | .and => (Nat.land a b, s)
  | .or => (Nat.lor a b, s)
  | .xor => (Nat.xor a b, s)

/-- The identity of an operator (R127). -/
def identity (t : ElemTy) (op : RedOp) : Nat :=
  let top := if tySigned t then 2 ^ (tyW t - 1) - 1 else 2 ^ tyW t - 1
  let low := if tySigned t then 2 ^ (tyW t - 1) else 0
  match op, tyFlt t with
  | .min, some f => f.top + 1
  | .max, some f => signedCode f true (f.top + 1)
  | .minn, some f => nanCode f
  | .maxn, some f => nanCode f
  | .min, none => top
  | .minn, none => top
  | .max, none => low
  | .maxn, none => low
  | .and, _ => 2 ^ tyW t - 1
  | _, _ => 0

/-- An element as a reduction reads it: its value bits, a NaN canonical (R77, R108) (DEDUCED, log entry 15). -/
def canonElem (t : ElemTy) (c : Nat) : Nat :=
  match tyFlt t with
  | some f => if (decodeFlt f c).isNan then nanCode f else c % 2 ^ f.width
  | none => c

/-- One value written to every active element. -/
def spread (t : ElemTy) (act : P) (old : V) (r : Nat × BitVec 32) : V × BitVec 32 := vecMap (tyW t) act old r.2 (fun _ s => (r.1, s))

/-- `VRED.type.op vd, va` (R127). -/
def execVred (o : VredOp) : State → Host.Outcome State Fault Refusal := laneOp 8 (vecLane [.v o.a] o.d (fun l =>
  let act := getP l o.guard
  spread o.ty act l.regs.v[o.d] (treeRoot (combine o.ty o.op o.rnd) (identity o.ty o.op) (tyLevels o.ty)
    (leaves o.ty act (fun i => canonElem o.ty (elem (tyW o.ty) (getV l o.a) i))) l.sr)))

/-- The elements of VSCAN from running value `r` on (R128). -/
def scanFrom (o : VscanOp) (act : P) (a old : V) : List Nat → Nat → BitVec 32 → List Nat × BitVec 32
  | [], _, s => ([], s)
  | i :: t, r, s =>
    if pbit act i then
      let (z, s) := combine o.ty o.op o.rnd r (elem (tyW o.ty) a i) s
      let (l, s) := scanFrom o act a old t z s
      ((if o.excl then r else z) :: l, s)
    else
      let (l, s) := scanFrom o act a old t r s
      (elem (tyW o.ty) old i :: l, s)

/-- `VSCAN.type.op vd, va` (R128). -/
def execVscan (o : VscanOp) : State → Host.Outcome State Fault Refusal := laneOp 8 (vecLane [.v o.a] o.d (fun l =>
  let (e, s) := scanFrom o (getP l o.guard) (getV l o.a) l.regs.v[o.d] (List.range (tyN o.ty)) (identity o.ty o.op) l.sr
  (BitVec.ofNat 1024 (packElems (tyW o.ty) e), s)))

/-! ### Dot products, distances, normalisation (R129 to R131) -/

/-- A rounding step whose result stays a value. -/
def roundNum (f : Flt) (rnd : Round) (x : Num) (s : BitVec 32) : Num × BitVec 32 :=
  let (c, s) := roundStep f rnd x s
  (decodeFlt f c, s)

/-- The tree sum of exact leaves, each node rounded once, and +0 of none; a single active leaf is rounded at the root (R81, R129). -/
def sumTree (f : Flt) (rnd : Round) (levels : Nat) (l : List (Option Num)) (s : BitVec 32) : Num × BitVec 32 :=
  let (r, s) := treeRoot (fun a b s => roundNum f rnd (addNum (downMode rnd) a b) s) (zeroNum false) levels l s
  if (l.filter Option.isSome).length = 1 then roundNum f rnd r s else (r, s)

/-- The code of an exact value that a format holds. -/
def exactCode (f : Flt) (x : Num) : Nat := roundFlt f .rne 0 x

/-- Exact leaves of the active elements of two vectors. -/
def numLeaves (f : Flt) (t : ElemTy) (act : P) (vs : List V) (h : Num → Num → Num) : List (Option Num) :=
  leaves t act (fun i => h (decodeFlt f (elem (tyW t) (vec vs 0) i)) (decodeFlt f (elem (tyW t) (vec vs 1) i)))

/-- VDOT (R129). -/
def dotResult (g : VArgs) (l : Lane) : V × BitVec 32 :=
  let act := getP l g.guard
  let vs := srcVals g l
  let r := match tyFlt g.ty with
    | some f =>
      let (r, s) := sumTree (accFlt f) g.rnd (tyLevels g.ty) (numLeaves f g.ty act vs mulNum) l.sr
      (exactCode (accFlt f) r, s)
    | none =>
      let w := tyW g.ty
      treeRoot (fun a b s => ((a + b) % 2 ^ w, s)) 0 (tyLevels g.ty)
        (leaves g.ty act (fun i => elem w (vec vs 0) i * elem w (vec vs 1) i % 2 ^ w)) l.sr
  spread g.ty act l.regs.v[g.d] r

/-- The square of a difference (R130). -/
def sqDiff (a b : Num) : Num :=
  let d := addNum false a (negNum b)
  mulNum d d

/-- VDIST of one tree (R130). -/
def distResult (h : Num → Num → Num) (g : VArgs) (l : Lane) : V × BitVec 32 :=
  let act := getP l g.guard
  match tyFlt g.ty with
  | some f =>
    let (r, s) := sumTree (accFlt f) g.rnd (tyLevels g.ty) (numLeaves f g.ty act (srcVals g l) h) l.sr
    spread g.ty act l.regs.v[g.d] (exactCode (accFlt f) r, s)
  | none => (l.regs.v[g.d], l.sr)

/-- The final steps of VDIST.cos, each taking its draw (R130) (DEDUCED, log entry 15). -/
def cosSteps (f : Flt) (rnd : Round) (ip na nb : Num) (s : BitVec 32) : Num × BitVec 32 :=
  let (p, s) := roundNum f rnd (mulNum na nb) s
  let (q, s) := roundNum f rnd (sqrtNum p) s
  let (t, s) := roundNum f rnd (divNum ip q) s
  let (r, s) := roundNum f rnd (addNum (downMode rnd) (intNum 1) (negNum t)) s
  (if p.isZero then intNum 1 else r, s)

/-- VDIST.cos (R130). -/
def cosResult (g : VArgs) (l : Lane) : V × BitVec 32 :=
  let act := getP l g.guard
  let vs := srcVals g l
  match tyFlt g.ty with
  | some f =>
    let a := accFlt f
    let sum := fun (h : Num → Num → Num) s => sumTree a g.rnd (tyLevels g.ty) (numLeaves f g.ty act vs h) s
    let (ip, s) := sum mulNum l.sr
    let (na, s) := sum (fun x _ => mulNum x x) s
    let (nb, s) := sum (fun _ y => mulNum y y) s
    let (r, s) := cosSteps a g.rnd ip na nb s
    spread g.ty act l.regs.v[g.d] (exactCode a r, s)
  | none => (l.regs.v[g.d], l.sr)

/-- VNORM (R131). -/
def normResult (g : VArgs) (l : Lane) : V × BitVec 32 :=
  let act := getP l g.guard
  let vs := srcVals g l
  match tyFlt g.ty with
  | some f =>
    let a := accFlt f
    let (r, s) := sumTree a g.rnd (tyLevels g.ty) (numLeaves f g.ty act (vs ++ vs) (fun x _ => mulNum x x)) l.sr
    let (q, s) := roundNum a g.rnd (sqrtNum r) s
    vecMap (tyW g.ty) act l.regs.v[g.d] s (fun i s =>
      let c := elem (tyW g.ty) (vec vs 0) i % 2 ^ f.width
      let (d, s) := takeDraw g.rnd s
      (if r.isZero then c else roundFlt f g.rnd d (divNum (decodeFlt f c) q), s))
  | none => (l.regs.v[g.d], l.sr)

/-- `VDOT.type vd, va, vb` (R129). -/
def execVdot (o : V2) : State → Host.Outcome State Fault Refusal := vecOp 4 dotResult (argsV2 o)

/-- X-form `VDOT.type vd, va, vb` (R129, R110). -/
def execVdotX (o : VX2) : State → Host.Outcome State Fault Refusal := vecOp 8 dotResult (argsX2 o)

/-- `VDIST.l2sq.type vd, va, vb` (R130). -/
def execVdistL2sq (o : V2) : State → Host.Outcome State Fault Refusal := vecOp 4 (distResult sqDiff) (argsV2 o)

/-- X-form `VDIST.l2sq.type vd, va, vb` (R130, R110). -/
def execVdistL2sqX (o : VX2) : State → Host.Outcome State Fault Refusal := vecOp 8 (distResult sqDiff) (argsX2 o)

/-- `VDIST.ip.type vd, va, vb` (R130). -/
def execVdistIp (o : V2) : State → Host.Outcome State Fault Refusal := vecOp 4 (distResult mulNum) (argsV2 o)

/-- X-form `VDIST.ip.type vd, va, vb` (R130, R110). -/
def execVdistIpX (o : VX2) : State → Host.Outcome State Fault Refusal := vecOp 8 (distResult mulNum) (argsX2 o)

/-- `VDIST.cos.type vd, va, vb` (R130). -/
def execVdistCos (o : V2) : State → Host.Outcome State Fault Refusal := vecOp 4 cosResult (argsV2 o)

/-- X-form `VDIST.cos.type vd, va, vb` (R130, R110). -/
def execVdistCosX (o : VX2) : State → Host.Outcome State Fault Refusal := vecOp 8 cosResult (argsX2 o)

/-- `VNORM.type vd, va` (R131). -/
def execVnorm (o : V1) : State → Host.Outcome State Fault Refusal := vecOp 4 normResult (argsV1 o)

/-- X-form `VNORM.type vd, va` (R131, R110). -/
def execVnormX (o : VX1) : State → Host.Outcome State Fault Refusal := vecOp 8 normResult (argsX1 o)

/-! ### Top-k (R132 to R134) -/

/-- A candidate: key and id, in source order. -/
abbrev Ranked := Nat × Nat

/-- The id of an empty slot (R132). -/
def emptyId : Nat := 0xFFFFFFFF

/-- Key `a` ranks before key `b`, by the first two criteria of R132. -/
def keyBefore (t : ElemTy) (most : Bool) (a b : Nat) : Bool :=
  match tyFlt t with
  | some f =>
    let x := decodeFlt f a
    let y := decodeFlt f b
    if x.isNan then false else if y.isNan then true else if most then lessNum false y x else lessNum false x y
  | none => if most then decide (elemInt t b < elemInt t a) else decide (elemInt t a < elemInt t b)

/-- Candidate `a` ranks before `b`; ties are left in source order (R132). -/
def rankedBefore (t : ElemTy) (most : Bool) (a b : Ranked) : Bool :=
  keyBefore t most a.1 b.1 || (!keyBefore t most b.1 a.1 && decide (a.2 < b.2))

/-- Inserts a candidate after those that it does not rank before. -/
def insertRanked (t : ElemTy) (most : Bool) (c : Ranked) : List Ranked → List Ranked
  | [] => [c]
  | h :: r => if rankedBefore t most c h then c :: h :: r else h :: insertRanked t most c r

/-- The best `k` candidates that are not empty, in rank order (R132). -/
def bestRanked (t : ElemTy) (most : Bool) (k : Nat) (cs : List Ranked) : List Ranked :=
  ((cs.filter (fun c => c.2 ≠ emptyId)).foldl (fun acc c => insertRanked t most c acc) []).take k

/-- The top-k record of ranked entries (R132, R133): a NaN key is written canonical. -/
def topkRecord (t : ElemTy) (l : List Ranked) : V :=
  vecOf 32 32 (fun i => match l[i % 16]? with
    | some (k, id) => if i < 16 then canonElem t k else id
    | none => emptyId)

/-- The candidates of TOPK: keys of va with ids of vb (R133). -/
def topkPairs (a b : V) : List Ranked := (List.range 32).map (fun i => (elem 32 a i, elem 32 b i))

/-- The entries of a record (R132). -/
def recordPairs (a : V) : List Ranked := (List.range 16).map (fun i => (elem 32 a i, elem 32 a (16 + i)))

/-- TOPK and TOPKM of candidates made from two vectors: long-latency (R111). -/
def topkOp (cand : V → V → List Ranked) (o : TopkOp) : State → Host.Outcome State Fault Refusal :=
  vecLong 8 (fun g l =>
    (topkRecord o.ty (bestRanked o.ty o.max o.k.toNat (cand (vec (srcVals g l) 0) (vec (srcVals g l) 1))), l.sr))
    ⟨o.d, [o.a, o.b], 0, o.ty, .rne⟩

/-- `TOPK.type vd, va, vb, #k` (R133). -/
def execTopk (o : TopkOp) : State → Host.Outcome State Fault Refusal := topkOp topkPairs o

/-- `TOPKM.type vd, va, vb, #k`: the entries of va come first on ties (R134). -/
def execTopkm (o : TopkOp) : State → Host.Outcome State Fault Refusal := topkOp (fun a b => recordPairs a ++ recordPairs b) o

end Sys2Proof.Machine
end

