-- ==== Sys2Proof/Machine/Records.lean ====
section
/-! DEFINITION. Shape records (R267 to R270): their fields and validity, the sector counts of operations (R281), and
where each piece of a box lies on its global and its LM side. -/

namespace Sys2Proof.Machine

/-- A shape record (R267). Lists hold the first `rank` dimensions. -/
structure ShapeRec where
  base : Nat
  fmt : Nat
  rank : Nat
  swz : Nat
  bnd : Nat
  dims : List Nat
  strides : List Int
  box : List Nat
  fill : Nat
  scale : Nat
  index : Nat
  deriving DecidableEq, Repr

/-- Dimension `k` of a record's dims, strides and box fields (R267). -/
def recDim (w k : Nat) : Nat := bits w (8 * 16 + 32 * k) 32

/-- Stride `k`, signed. -/
def recStride (w k : Nat) : Int := sgn 64 (bits w (8 * 40 + 64 * k) 64)

/-- Box extent `k`. -/
def recBox (w k : Nat) : Nat := bits w (8 * 88 + 16 * k) 16

/-- The record in 192 bytes (R267). -/
def shapeOf (w : Nat) : ShapeRec :=
  let r := bits w 72 8
  { base := bits w 0 64, fmt := bits w 64 8, rank := r, swz := bits w 80 8, bnd := bits w 88 8,
    dims := (List.range (min r 6)).map (recDim w), strides := (List.range (min r 6)).map (recStride w),
    box := (List.range (min r 6)).map (recBox w), fill := bits w (8 * 104) 64, scale := bits w (8 * 112) 64,
    index := bits w (8 * 120) 64 }

/-- The record is valid (R268). `raw` accepts the format .raw32, which only XCOPY takes (R267). A nonzero
Index field of an operation without rows is accepted (DESIGN CHOICE, log entry 52). -/
def recordValid (raw : Bool) (w : Nat) : Bool :=
  let r := bits w 72 8
  bits w (8 * 14) 16 == 0 && bits w (8 * 100) 32 == 0 && bits w (8 * 128) 512 == 0
    && bits w (8 * 13) 8 == 1 && (decide (bits w 64 8 < 16) || (raw && bits w 64 8 == 16))
    && decide (1 ≤ r) && decide (r ≤ 6) && decide (bits w 80 8 ≤ 3) && decide (bits w 88 8 ≤ 1) && decide (bits w 96 8 ≤ 1)
    && (List.range 6).all (fun k =>
      if k < r then recDim w k != 0 && recBox w k != 0 else recDim w k == 0 && recStride w k == 0 && recBox w k == 0)
    && recStride w (r - 1) == 0
    && (bits w (8 * 112) 64 == 0 || decide (12 ≤ bits w 64 8 ∧ bits w 64 8 ≤ 15))

/-- b: the format's width in bits, 256 for .raw32 (R269). -/
def recBits (r : ShapeRec) : Nat := if r.fmt = 16 then 256 else fmtWidth (Fmt.ofCode r.fmt)

/-- Product of a list. -/
def prodOf (l : List Nat) : Nat := l.foldl (· * ·) 1

/-- Bits of data of a whole box, or of a row of `XGATHER` and `XSCATTER` (R281). -/
def dataBits (r : ShapeRec) (rows : Bool) : Nat := prodOf (if rows then r.box.tail else r.box) * recBits r

/-- Ceiling division. -/
def ceilDiv (a b : Nat) : Nat := (a + b - 1) / b

/-- Sectors of the data of a box or row (R281). -/
def dataSectors (r : ShapeRec) (rows : Bool) : Nat := ceilDiv (dataBits r rows) 256

/-- Scale bytes of a box (R270), zero when the record has no scales. -/
def scaleBytes (r : ShapeRec) : Nat := if r.scale = 0 then 0 else prodOf r.box / 32

/-- The innermost member of a list. -/
def innermost {α : Type} (l : List α) (d : α) : α := l.getLast?.getD d

/-- The box starts and ends on whole bytes (R269). -/
def wholeBytes (r : ShapeRec) (c : List Int) : Bool :=
  let n : Int := if r.fmt = 14 then 2 else if r.fmt = 15 then 4 else 1
  innermost (c.take r.rank) 0 % n == 0 && ((innermost r.box 0 : Nat) : Int) % n == 0

/-- The box covers whole scales (R270). -/
def wholeScales (r : ShapeRec) (c : List Int) : Bool :=
  r.scale == 0 || (innermost (c.take r.rank) 0 % 32 == 0 && innermost r.box 0 % 32 == 0)

/-- The row-major coordinates of element `i` of a box, innermost last (R269). -/
def unflatten : List Nat → Nat → List Nat
  | [], _ => []
  | b :: t, i => (i / prodOf t % b) :: unflatten t i

/-- A position is in bounds (R269). -/
def inBounds (r : ShapeRec) (p : List Int) : Bool :=
  (p.zip r.dims).all (fun e => decide (0 ≤ e.1) && decide (e.1 < e.2))

/-- A signed 80-bit intermediate (R269). -/
def wrap80 (z : Int) : Int := sgn 80 (wrap 80 z)

/-- The bit address of a position: its byte address is formed with 80-bit signed intermediates (R269). -/
def addressBits (r : ShapeRec) (p : List Int) : Int :=
  let b := innermost p 0 * recBits r
  8 * wrap80 ((r.base : Int) + ((p.dropLast.zip r.strides).map (fun e => e.1 * e.2)).sum + b / 8) + b % 8

/-- The position of element `e` of the box at coordinates `c`, or of row `j` with first coordinate `row` (R269, R287). -/
def posOf (r : ShapeRec) (c : List Int) (row : Option Int) (e : Nat) : List Int :=
  match row with
  | none => List.zipWith (fun (a : Int) (b : Nat) => a + b) (c.take r.rank) (unflatten r.box e)
  | some x => x :: List.zipWith (fun (a : Int) (b : Nat) => a + b) (c.take r.rank).tail (unflatten r.box.tail e)

/-- The global bit address of linear bit `b` of a box or row; `none` when its element is out of bounds (R269). -/
def globalBit (r : ShapeRec) (c : List Int) (row : Option Int) (b : Nat) : Option Int :=
  let p := posOf r c row (b / recBits r)
  if inBounds r p then some (addressBits r p + (b % recBits r : Nat)) else none

/-- The bit address of scale byte `j` of a box, row-major over the box; `none` when it is out of bounds (R270). -/
def scaleBit (r : ShapeRec) (c : List Int) (j : Nat) : Option Int :=
  let box := r.box.dropLast ++ [innermost r.box 32 / 32]
  let dims := r.dims.dropLast ++ [ceilDiv (innermost r.dims 1) 32]
  let start := (c.take r.rank).dropLast ++ [innermost (c.take r.rank) 0 / 32]
  let p := List.zipWith (fun (a : Int) (b : Nat) => a + b) start (unflatten box j)
  if (p.zip dims).all (fun e => decide (0 ≤ e.1) && decide (e.1 < e.2)) then
    some (8 * ((r.scale : Int) + (p.zip dims).foldl (fun (acc : Int) (e : Int × Nat) => acc * (e.2 : Int) + e.1) 0))
  else none

/-- The byte offset of linear byte `b` under a swizzle (R269). The two halves of an element of .raw32 are swizzled apart (DESIGN CHOICE,
log entry 50). -/
def swizzled (z b : Nat) : Nat :=
  if z = 0 then b
  else
    let line := b / 128
    line * 128 + Nat.xor (b / 16 % 8) (line % 2 ^ z) * 16 + b % 16

/-- The global address of linear bit `b` of a box or row, in bounds or not (R269, R284). -/
def elementAddr (r : ShapeRec) (c : List Int) (row : Option Int) (b : Nat) : Nat :=
  wrap 64 ((addressBits r (posOf r c row (b / recBits r)) + (b % recBits r : Nat)) / 8)

/-- The own-LM part of the addresses from `a` to `b` (R280). -/
def ownSpan (a b : Int) : Option Span :=
  let own : Int := 0xFF80 * 2 ^ 48
  if b < own ∨ own + 0x80000 ≤ a then none
  else spanOf (max a own - own).toNat (min b (own + 0x7FFFF) - own).toNat

/-- The first and last byte address of the scales of a box, when it has any (R270). -/
def scaleBounds (r : ShapeRec) (c : List Int) : Option (Int × Int) :=
  let dims := r.dims.dropLast ++ [ceilDiv (innermost r.dims 1) 32]
  let fit := fun (l : List Int) => l.dropLast ++ [innermost l 0 / 32]
  let lo := fit ((c.take r.rank).map (fun x => max 0 x))
  let hi := fit (List.zipWith (fun (d : Nat) (e : Int) => min ((d : Int) - 1) e) r.dims
    (List.zipWith (fun (x : Int) (b : Nat) => x + b - 1) (c.take r.rank) r.box))
  let place := fun (p : List Int) => (r.scale : Int) + (p.zip dims).foldl (fun (acc : Int) (e : Int × Nat) => acc * (e.2 : Int) + e.1) 0
  if r.scale = 0 ∨ (lo.zip hi).any (fun e => decide (e.2 < e.1)) then none else some (place lo, place hi)

/-- The bounding interval of the scales of a box within own LM (R270, R280). -/
def scaleSpan (r : ShapeRec) (c : List Int) : Option Span := (scaleBounds r c).bind (fun e => ownSpan e.1 e.2)

/-- The first and last byte address of a record-side footprint, when it has an element. `rows` takes every row of dimension 0
(R269, R280). -/
def recordBounds (r : ShapeRec) (c : List Int) (rows : Bool) : Option (Int × Int) :=
  let lo := (List.range r.rank).map (fun (k : Nat) => if rows && k == 0 then (0 : Int) else max 0 (c.getD k 0))
  let hi := (List.range r.rank).map (fun (k : Nat) =>
    let d : Int := ((r.dims[k]?).getD 1 : Nat)
    if rows && k == 0 then d - 1 else min (d - 1) (c.getD k 0 + ((r.box[k]?).getD 1 : Nat) - 1))
  if (lo.zip hi).any (fun e => decide (e.2 < e.1)) then none
  else
    let outer := (lo.dropLast.zip hi.dropLast).zip r.strides
    let a : Int := r.base + (outer.map (fun e => min (e.1.1 * e.2) (e.1.2 * e.2))).sum + innermost lo 0 * recBits r / 8
    let b : Int := r.base + (outer.map (fun e => max (e.1.1 * e.2) (e.1.2 * e.2))).sum + (innermost hi 0 + 1) * recBits r / 8 - 1
    some (a, b)

/-- The bounding interval of a record-side footprint within own LM (R280). -/
def recordSpan (r : ShapeRec) (c : List Int) (rows : Bool) : Option Span := (recordBounds r c rows).bind (fun e => ownSpan e.1 e.2)

/-! ### Reductions (R288, R356) -/

/-- The element type of a reducing format. -/
def redTy : Fmt → ElemTy
  | .ui32 => .ui32
  | .ui64 => .ui64
  | .i32 => .i32
  | .i64 => .i64
  | .f16 => .f16
  | .bf16 => .bf16
  | .f64 => .f64
  | _ => .f32

/-- One combination d := op(d, s) (R288, R356). -/
def redElem (op : RedFn) (f : Fmt) (d v : Nat) : Nat :=
  let op' : RedOp := match op with
    | .add => .sum
    | .min => .min
    | .max => .max
    | .and => .and
    | .or => .or
    | .xor => .xor
  (combine (redTy f) op' .rne d v 1).1

/-- A 32-byte sector combined element by element. -/
def redSector (op : RedFn) (f : Fmt) (d v : Nat) : Nat :=
  let w := fmtWidth f
  packElems w ((List.range (256 / w)).map (fun i => redElem op f (bits d (i * w) w) (bits v (i * w) w)))

end Sys2Proof.Machine
end

