-- ==== Sys2Proof/Machine/Stove.lean ====
section
/-! DEFINITION. The Stove: tile and matrix instructions, the array's arithmetic, gangs and gang fault groups
(R222 to R252). -/

namespace Sys2Proof.Machine

/-! ### Tiles, formats and accumulators (R222 to R226) -/

/-- Row `r` of physical tile `t` of core `c`. -/
def tileRow (s : State) (c t r : Nat) : Nat := memRead s.mem (tileKey c t (128 * r)) 128

/-- Writes row `r` of physical tile `t`. -/
def setTileRow (s : State) (c t r v : Nat) : State := onMem s (fun m => memWrite m (tileKey c t (128 * r)) 128 v)

/-- Largest COLS of a format (R223). -/
def maxCols (f : Fmt) : Nat := if f = .lg6 then 168 else 1024 / fmtWidth f

/-- Row bytes of a configuration (R222). -/
def rowBytes (g : TileCfg) : Nat := (g.cols * fmtWidth g.fmt + 31) / 32 * 4

/-- The classes of R223. -/
inductive StoveClass where
  | d | s | h | q8 | q4 | i8 | l6
  deriving DecidableEq, Repr

/-- The class of a format that the Stove multiplies (R223). -/
def fmtClass : Fmt → Option StoveClass
  | .f64 => some .d | .f32 => some .s | .f16 => some .h | .bf16 => some .h | .e4m3 => some .q8 | .e5m2 => some .q8
  | .e2m1 => some .q4 | .i8 => some .i8 | .lg6 => some .l6 | _ => none

/-- K of a class (R223). -/
def classK : StoveClass → Nat
  | .d => 16 | .s => 32 | .h => 64 | .q8 => 128 | .q4 => 256 | .i8 => 128 | .l6 => 128

/-- Products per rounding of a class (R82). -/
def classGroup : StoveClass → Nat
  | .d => 1 | .s => 4 | .h => 16 | _ => 32

/-- Cell kind of a class (R223). -/
def classKind : StoveClass → AccKind
  | .d => .fp64 | .i8 => .fixi | .l6 => .fixl | _ => .fp32

/-- The format takes block scales (R70, R236). -/
def scaled (f : Fmt) : Bool := f == .e4m3 || f == .e5m2 || f == .e2m1 || f == .lg6

/-- Cell (m, n) of accumulator `a` of core `c`. -/
def cellKey (c a m n : Nat) : Nat := accKey c a (m * 128 + n * 8)

/-! ### Arithmetic of one cell (R72, R73, R82) -/

/-- An E8M0 scale (R69). -/
def scaleNum (e : Nat) : Num := if e = 255 then .nan else .fin false 1 ((e : Int) - 127) false

/-- A LOG6 term in units of 2^-24, rounded to one by RNE when it is finer; `none` is NaN (R72, R73). -/
def log6Term (a b ea eb : Nat) : Option Int :=
  if a = 0x30 ∨ b = 0x30 ∨ ea = 0xFF ∨ eb = 0xFF then none
  else if a = 0x10 ∨ b = 0x10 then some 0
  else
    let q : Int := 4 * (((ea : Int) - 127) + ((eb : Int) - 127)) + sgn 5 a + sgn 5 b
    some (roundInt .rne 0 (bit a 5 != bit b 5) (tpow (q % 4).toNat) (q / 4 + 9) false)

/-- One product's inputs: activation code and scale, weight code and scale; none when it is masked or not kept. -/
abbrev Product := Option (Nat × Nat × Nat × Nat)

/-- A product as an exact value (R70, R82). -/
def productNum (fa fw : Fmt) : Product → Num
  | none => zeroNum false
  | some (a, ea, w, ew) =>
    let p := mulNum (decodeFmt fa a) (decodeFmt fw w)
    if scaled fa then mulNum (mulNum p (scaleNum ea)) (scaleNum ew) else p

/-- A product as a fixed-point term; `none` is NaN (R73). -/
def productFix (fa : Fmt) : Product → Option Int
  | none => some 0
  | some (a, ea, w, ew) => if fa = .lg6 then log6Term a w ea ew else some (sgn 8 a * sgn 8 w)

/-- The exact sum of a list: zero only with the sign that all its terms share (R82). -/
def sumNums : List Num → Num
  | [] => zeroNum false
  | a :: t => t.foldl (addNum false) a

/-- Adds groups of `g` products to a cell, rounding once per group by RNE (R82). -/
def addGroups (f : Flt) (g : Nat) : Nat → Nat → List Num → Nat
  | 0, acc, _ => acc
  | n + 1, acc, l =>
    if l.isEmpty then acc
    else addGroups f g n (roundFlt f .rne 0 (addNum false (decodeFlt f acc) (sumNums (l.take g)))) (l.drop g)

/-- A fixed-point cell after a stream: the exact sum is added once and saturated once (R73). -/
def addFix (cell : Nat) (terms : List (Option Int)) : Nat :=
  let v := sgn 48 cell + (terms.map (fun t => t.getD 0)).sum
  let r := clampInt (-2 ^ 47) (2 ^ 47 - 1) v
  wrap 48 r + (if bit cell 48 || v != r then 2 ^ 48 else 0)
    + (if bit cell 49 || terms.any (fun t => t.isNone) then 2 ^ 49 else 0)

/-- A cell after a stream of products (R82). -/
def accumulate (cls : StoveClass) (fa fw : Fmt) (cell : Nat) (ps : List Product) : Nat :=
  match cls with
  | .d => addGroups fp64 1 ps.length cell (ps.map (productNum fa fw))
  | .i8 => addFix cell (ps.map (productFix fa))
  | .l6 => addFix cell (ps.map (productFix fa))
  | c => addGroups fp32 (classGroup c) ps.length (cell % 2 ^ 32) (ps.map (productNum fa fw))

/-! ### Weights and activations (R236 to R239) -/

/-- s of a pattern: how far it expands K (R237). -/
def expansion (pat : Nat) : Nat := if pat = 0 then 1 else (patternOf pat).2.1 / (patternOf pat).1

/-- Weight at logical position `k` of column `n`, with its scale, or none when it is not kept (R236, R237). -/
def weightAt (w : WeightSet) (fw : Fmt) (K n k : Nat) : Option (Nat × Nat) :=
  let b := fmtWidth fw
  let row := fun r => (w.cells[r]?).getD 0
  if w.pattern = 0 then
    some (bits (row n) (k * b) b, (w.scales[n * (K / 32) + k / 32]?).getD 127)
  else
    let (nn, mm, cw, _) := patternOf w.pattern
    let g := k / mm
    ((unrank mm nn (bits (row (16 + n)) (g * cw) cw)).findIdx? (· == k % mm)).map
      (fun i => (bits (row n) ((g * nn + i) * b) b, 127))

/-- Every pattern code of a sparse weight set is valid (R83). -/
def codesValid (w : WeightSet) (K : Nat) : Bool :=
  let (nn, _, cw, valid) := patternOf w.pattern
  (List.range 16).all (fun n => (List.range (K / nn)).all (fun g =>
    decide (bits ((w.cells[16 + n]?).getD 0) (g * cw) cw < valid)))

/-- One activation row: codes with their scales at logical positions 0 to K_L − 1. -/
abbrev ActRow := List (Nat × Nat)

/-- Logical row `m` of the feeder's tile (R238, R239); `scales` is the LM offset of the scales, if read. -/
def actRow (s : State) (c t : Nat) (fa : Fmt) (K sx : Nat) (scales : Option Nat) (m : Nat) : ActRow :=
  let b := fmtWidth fa
  let codes := (List.range sx).flatMap (fun j =>
    let row := tileRow s c t (sx * m + j)
    (List.range K).map (fun k => bits row (k * b) b))
  let sc := (List.range (sx * K / 32)).map (fun j =>
    match scales with
    | some o => (memGet s.mem (lmKey c (o + m * (sx * K / 32) + j))).toNat
    | none => 127)
  codes.zipIdx.map (fun e => (e.1, (sc[e.2 / 32]?).getD 127))

/-- A stream into one slice: rows of activations from accumulator row `base` on (R238). -/
def streamSlice (s : State) (c acc : Nat) (cls : StoveClass) (fa : Fmt) (z : Bool) (mk : Masks) (w : WeightSet)
    (base : Nat) (rows : List ActRow) : State :=
  let K := classK cls
  let kl := expansion w.pattern * K
  let fw := w.fmt.getD fa
  let kind := classKind cls
  let k := coreOf s c
  let ai : Fin 4 := ⟨acc % 4, Nat.mod_lt _ (by decide)⟩
  let s := if z && k.stove.acc[ai] != kind then onMem s (fun m => memClear m (accKey c acc 0) 8192) else s
  let s := onCore s c (fun k => { k with stove := { k.stove with acc := k.stove.acc.set ai kind } })
  let cols := (List.range 16).filter (fun n => mk.col.getLsbD n)
  cols.foldl (fun s n =>
    let wcol := (List.range kl).map (weightAt w fw K n)
    (rows.zipIdx).foldl (fun s e =>
      let m := base + e.2
      if !mk.row.getLsbD m then s
      else
        let ps : List Product := ((e.1.zip wcol).zipIdx).map (fun x =>
          if !mk.k.getLsbD (64 * x.2 / kl) then none
          else x.1.2.map (fun q => (x.1.1.1, x.1.1.2, q.1, q.2)))
        let a := cellKey c acc m n
        let old := if z then 0 else memRead s.mem a 8
        onMem s (fun mm => memWrite mm a 8 (accumulate cls fa fw old ps))) s) s

/-! ### Seats (R224) -/

/-- The seat of a lane that owns tiles. -/
def seatOf (k : Core) (l : Nat) : Option (Fin 2) :=
  if k.stove.owner[(0 : Fin 2)] = some l then some 0 else if k.stove.owner[(1 : Fin 2)] = some l then some 1 else none

/-- Replaces a seat queue. -/
def setSeat (k : Core) (i : Fin 2) (q : List SeatOp) : Core :=
  { k with stove := { k.stove with seats := k.stove.seats.set i q } }

/-- Physical tile of tile number `t` of a seat (R222). -/
def tileNo (i : Fin 2) (t : Fin 4) : Nat := 4 * i.val + t.val

/-- Operations that hold a place in a seat queue: those that have not left it (R246). -/
def seatLoad (q : List SeatOp) : Nat := (q.filter (fun p => !p.started || !p.formed)).length

/-- A gang operation (R233). -/
def isGang : SeatKind → Bool
  | .gwld _ => true
  | .gmma _ => true
  | .gmmas _ => true
  | .gmmag _ => true
  | _ => false

/-- An instruction of a tile firing: it has its seat's tiles; any other firing finds it illegal (R25, R227). -/
def withSeat {α : Type} (s : State) (f : Fin 2 → Except Stop α) : Except Stop α :=
  match seatOf (curCore s) s.sched.lane with
  | some i => if (cur s).firing.cls = 1 then f i else trap .illegal
  | none => trap .illegal

/-- Puts an operation into its seat queue with its scoreboard entry (R141, R233); its start is then due. It has no slot in the engine queue,
and the QSLOT of its entry, for which R146 gives no value, is 0 (DESIGN CHOICE, log entry 61). -/
def enqueueSeat (s : State) (i : Fin 2) (kind : SeatKind) (nosb : Bool) (xa xb : X) (table draws : List Nat)
    (cfg : TileCfg) (e : SbEntry) : Except Stop State := do
  let c := s.sched.core
  let k := coreOf s c
  await (decide (seatLoad k.stove.seats[i] < 16)) (.seatQueue i.val)
  if nosb then .ok () else await (sbRoom k) .sbEntry
  let l := cur s
  let (s, age) := if nosb then (s, none) else
    let r := takeEntry s c e
    (r.1, some r.2)
  let n := (coreOf s c).eng.sbAge
  let p : SeatOp :=
    { age := n, lane := s.sched.lane, kind := kind, pc := l.pc.setWidth 64, bits := s.sched.bits, xa := xa, xb := xb,
      masks := k.stove.masks[i], table := table, sb := age, draws := draws, cfg := cfg, started := false, formed := false,
      ended := false, launch := (launchOf s c l).map (·.1), held := none }
  let s := onCore s c (fun k => setSeat { k with eng := { k.eng with sbAge := n + 1 } } i (k.stove.seats[i] ++ [p]))
  .ok (dueEvent s (.asyncOpStart c (i.val + 1) n))

/-- LM offset of an own-LM address, or an address fault (R137, R229). -/
def ownOffset (s : State) (a : X) : Except Stop Nat :=
  match classOf s s.sched.core a with
  | .ownLm o => .ok o
  | _ => trapAt .address a

/-! ### Tile instructions (R228 to R232) -/

/-- `TCFG.fmt tA, xa, xb` (R228). -/
def execTcfg (o : TcfgOp) : State → Host.Outcome State Fault Refusal := stateOp 8 (fun s => withSeat s (fun i => do
  let l := cur s
  gate l [.x (plain o.xa), .x (plain o.xb)] []
  let cfg : TileCfg := ⟨o.fmt, min (max (getX l o.xa).toNat 1) 64, min (max (getX l o.xb).toNat 1) (maxCols o.fmt)⟩
  .ok (onCurCore s (fun k => { k with stove := { k.stove with
    cfg := k.stove.cfg.setIfInBounds (tileNo i o.ta) cfg } }))))

/-- The configuration of a physical tile. -/
def cfgOf (k : Core) (t : Nat) : TileCfg := (k.stove.cfg[t]?).getD ⟨.ui8, 64, 128⟩

/-- TLD and TST: the checks of R229, then the queue (R244). -/
def tileMove (o : TldOp) (load : Bool) (s : State) : Except Stop State := withSeat s (fun i => do
  let l := cur s
  gate l [.x (plain o.xa), .x (plain o.xb)] []
  let a := getX l o.xa
  let st := (getX l o.xb).toNat
  let cfg := cfgOf (curCore s) (tileNo i o.ta)
  let off ← ownOffset s a
  if off % 4 ≠ 0 ∨ st % 4 ≠ 0 then trapAt .misaligned a
  else
    let e := off + (cfg.rows - 1) * st + rowBytes cfg - 1
    if 0x7FFFF < st ∨ atticBase ≤ e then trapAt .lmProtection a
    else
      let t := 2 ^ tileNo i o.ta
      let b := sbEmpty s.sched.lane
      enqueueSeat s i (if load then .tld o else .tst o) o.nosb a (getX l o.xb) [] [] cfg
        (if load then { b with rda := spanOf off e, twr := t } else { b with wr := spanOf off e, trd := t }))

/-- `TLD tA, [xa], xb` (R229). -/
def execTld (o : TldOp) : State → Host.Outcome State Fault Refusal := stateOp 8 (tileMove o true)

/-- `TST [xa], tA, xb` (R229). -/
def execTst (o : TldOp) : State → Host.Outcome State Fault Refusal := stateOp 8 (tileMove o false)

/-- `TZERO tA` (R230). -/
def execTzero (o : TzeroOp) : State → Host.Outcome State Fault Refusal := stateOp 8 (fun s => withSeat s (fun i =>
  enqueueSeat s i (.tzero o) o.nosb 0 0 [] [] (cfgOf (curCore s) (tileNo i o.ta))
    { sbEmpty s.sched.lane with twr := 2 ^ tileNo i o.ta }))

/-- `TROW vd, tA, xa` (R231). -/
def execTrow (o : TrowOp) : State → Host.Outcome State Fault Refusal := stateOp 8 (fun s => withSeat s (fun i => do
  let l := cur s
  gate l [.x (plain o.xa)] [.v o.vd]
  sbGate s [] (2 ^ tileNo i o.ta) false
  .ok (setCur s (putV l o.vd (BitVec.ofNat 1024 (tileRow s s.sched.core (tileNo i o.ta) ((getX l o.xa).toNat % 64)))))))

/-- `TSETROW tA, xa, vb` (R231). -/
def execTsetrow (o : TsetrowOp) : State → Host.Outcome State Fault Refusal := stateOp 8 (fun s => withSeat s (fun i => do
  let l := cur s
  gate l [.x (plain o.xa), .v o.vb] []
  sbGate s [] (2 ^ tileNo i o.ta) true
  .ok (setTileRow (setCur s (kill l [.v o.vb])) s.sched.core (tileNo i o.ta) ((getX l o.xa).toNat % 64) (getV l o.vb).toNat)))

/-- `MSK mask, xa` (R232). -/
def execMsk (o : MskOp) : State → Host.Outcome State Fault Refusal := stateOp 8 (fun s => withSeat s (fun i => do
  let l := cur s
  gate l [.x (plain o.xa)] []
  let v := getX l o.xa
  .ok (onCurCore s (fun k =>
    let m := k.stove.masks[i]
    let m := if o.mask.val = 0 then { m with row := v }
      else if o.mask.val = 1 then { m with col := BitVec.ofNat 64 (v.toNat % 65536) } else { m with k := v }
    { k with stove := { k.stove with masks := k.stove.masks.set i m } }))))

/-! ### Gang fault groups (R247 to R249) -/

/-- Group number of the count in GSTAT (R249). -/
def groupNo (q seat count : Nat) : Nat := q % 80 * 512 + seat * 256 + count % 256

/-- A seat's GSTAT as a new group updates it (R249). -/
def gstatNew (q seat : Nat) (old : X) (members origin cause : Nat) : X :=
  let n := min (bits old.toNat 0 32 + 1) (2 ^ 32 - 1)
  BitVec.ofNat 64 (groupNo q seat n * 2 ^ 48 + members % 16 * 2 ^ 44 + origin % 4 * 2 ^ 42 + cause * 2 ^ 32 + n)

/-- Records a new group of a quad's seat; answers its number. -/
def newGroup (s : State) (q : Nat) (i : Fin 2) (members origin cause : Nat) : State × Nat :=
  let g := gstatNew q i.val (quadOf s q).gstat[i] members origin cause
  (onQuad s q (fun x => { x with gstat := x.gstat.set i g }), bits g.toNat 48 16)

/-- Replaces or removes the operation of an age in a seat queue. -/
def editSeat (s : State) (c : Nat) (i : Fin 2) (age : Nat) (f : SeatOp → Option SeatOp) : State :=
  onCore s c (fun k => setSeat k i (k.stove.seats[i].filterMap (fun p => if p.age = age then f p else some p)))

/-- An unformed instance of core `j` has left its queue: the open positions of the seat come nearer there (R247). -/
def passPosition (q : Nat) (i : Fin 2) (s : State) (j : Nat) : State :=
  onQuad s q (fun x => { x with opened := x.opened.map (fun y =>
    if y.seat == i.val then { y with waiting := y.waiting.map (fun w => if w.1 == j then (w.1, w.2 - 1) else w) } else y) })

/-- A member whose instance is in its seat queue joins a group (R247): its lane freezes before its next issue and the
instance stays held; with the firing ended, the instance is withdrawn. -/
def joinGroup (s : State) (c : Nat) (i : Fin 2) (g : Nat) (code : FaultCode) (p : SeatOp) : State :=
  let pk : Packet := { packetFor s c p.lane code 0 p.bits with gang := true, group := BitVec.ofNat 16 g }
  if p.ended then
    let s := passPosition (quadNo c) i (freeEntry (editSeat s c i p.age (fun _ => none)) c p.sb) (inQuad c)
    kick (sendPacket s c false { pk with pc := p.pc, ended := true, nofrz := true, aux := p.pc.setWidth 128 }) c
  else
    let s := editSeat s c i p.age (fun p => some { p with held := some g, started := true })
    let s := onLaneAt s c p.lane (fun l => { l with group := some g })
    freeze s c p.lane { pk with aux := BitVec.ofNat 128 (p.pc.toNat + 2 ^ 64) }

/-- The oldest arrived gang instance of a core's seat that has not formed (R233). -/
def arrived (k : Core) (i : Fin 2) : Option SeatOp :=
  k.stove.seats[i].find? (fun p => isGang p.kind && p.started && !p.formed && p.held.isNone)

/-- Gang instances of a core's seat that have not formed. -/
def unformed (k : Core) (i : Fin 2) : Nat := (k.stove.seats[i].filter (fun p => isGang p.kind && !p.formed)).length

/-- The arrived instances of a quad's seat, by core. -/
def arrivedAll (s : State) (q : Nat) (i : Fin 2) : List (Nat × SeatOp) :=
  (List.range 4).filterMap (fun j => (arrived (coreOf s (quadCore q j)) i).map (fun p => (j, p)))

/-- Bit mask of cores in quad. -/
def coreMask (l : List Nat) : Nat := (l.map (fun j => 2 ^ j)).sum

/-- A group of arrived instances forms (R247, R248). -/
def groupOf (s : State) (q : Nat) (i : Fin 2) (ms : List (Nat × SeatOp)) (origin cause : Nat) (code : FaultCode) : State :=
  let (s, g) := newGroup s q i (coreMask (ms.map (·.1))) origin cause
  ms.foldl (fun s e => joinGroup s (quadCore q e.1) i g code e.2) s

/-- A lane faults at issue of a gang instruction (R247): it freezes there, instances that have arrived for the same
position join, and the position stays open for the other cores. -/
def gangIssueFault (s : State) (i : Fin 2) (code : FaultCode) (addr : X) : State :=
  let c := s.sched.core
  if isSup c then takeFault s code addr
  else
    let q := quadNo c
    let own := inQuad c
    let n := unformed (coreOf s c) i
    let others := (List.range 4).filter (· ≠ own)
    let now := if n = 0 then (arrivedAll s q i).filter (fun e => e.1 ≠ own) else []
    let rest := others.filter (fun j => !(now.any (fun e => e.1 == j)))
    let (s, g) := newGroup s q i (coreMask (own :: now.map (·.1))) own (if code = .gangFault then 6 else 7)
    let s := onQuad s q (fun x => { x with opened := x.opened ++ [⟨i.val, g, rest.map (fun j =>
      (j, n))⟩] })
    let pc := (cur s).pc
    let pk : Packet := { packetFor s c s.sched.lane code addr s.sched.bits with
      gang := true, group := BitVec.ofNat 16 g, aux := pc.setWidth 128 }
    let s := setCur s { cur s with group := some g }
    let s := freeze s c s.sched.lane pk
    now.foldl (fun s e => joinGroup s (quadCore q e.1) i g .gangFault e.2) s

/-- The outcome of a gang instruction: a fault at its issue forms a group (R247). -/
def gangOp (f : Fin 2 → State → Except Stop State) (s : State) : Host.Outcome State Fault Refusal :=
  match withSeat s (fun i => .ok i) with
  | .error e => finish s (.error e)
  | .ok i =>
    match f i s with
    | .error (.fault c a) => .next (gangIssueFault s i c a)
    | r => finish s (r.map (fun t => setCur t (retire 8 (cur t))))

/-! ### Gang instructions (R236 to R241) -/

/-- An own-LM block of `n` bytes for scales, or its fault (R236). -/
def scaleBlock (s : State) (a : X) (n : Nat) : Except Stop Nat := do
  let o ← ownOffset s a
  if atticBase < o + n then trapAt .lmProtection a else .ok o

/-- K of a format, 0 for one that the Stove does not multiply. -/
def fmtK (f : Fmt) : Nat := (fmtClass f).elim 0 classK

/-- `GWLD.fmt.pat tA, xb` (R236). -/
def execGwld (o : GwldOp) : State → Host.Outcome State Fault Refusal := gangOp (fun i s => do
  let l := cur s
  irrevocable l
  gate l [.x (plain o.xb)] []
  let b := getX l o.xb
  let n := 16 * fmtK o.fmt / 32
  let e : SbEntry := { sbEmpty s.sched.lane with trd := 2 ^ tileNo i o.ta, gang := some i.val }
  let e ← if o.pat.val = 0 ∧ scaled o.fmt ∧ b ≠ 0 then do
      let off ← scaleBlock s b n
      .ok { e with rda := spanOf off (off + n - 1) }
    else .ok e
  enqueueSeat s i (.gwld o) o.nosb 0 b [] [] (cfgOf (curCore s) 0) e)

/-- ROWS of a group-table entry (R240). -/
def entryRows (e : Nat) : Nat := bits e 0 7

/-- The sparsity pattern that a later stream of a seat meets: the last GWLD still queued, else the latched one (DEDUCED, log entry 19). -/
def queuedPattern (k : Core) (i : Fin 2) : Nat :=
  match (k.stove.seats[i].filterMap (fun p => match p.kind with
      | .gwld o => some o.pat.val
      | .gmmag _ => if p.table.all (fun e => entryRows e == 0) then none else some 0
      | _ => none)).getLast? with
  | some p => p
  | none => k.stove.weights[i].pattern

/-- The issuing core feeds the gang (R238). -/
def isFeeder (s : State) (f : Fin 4) : Bool := inQuad s.sched.core == f.val

/-- GMMA and GMMAS at issue (R238, R239, R244). -/
def gmmaIssue (o : GmmaOp) (sparse : Bool) (i : Fin 2) (s : State) : Except Stop State := do
  let l := cur s
  irrevocable l
  gate l [.x (plain o.xa), .x (plain o.xb)] []
  let m := (getX l o.xa).toNat
  let b := getX l o.xb
  let sx := if sparse then expansion (queuedPattern (curCore s) i) else 1
  let n := m * (sx * fmtK o.fmt / 32)
  let feed := isFeeder s o.feeder
  let a := 2 ^ o.acc.val
  let e : SbEntry := { sbEmpty s.sched.lane with
    trd := if feed then 2 ^ tileNo i o.ta else 0, ard := if o.z then 0 else a, awr := a, gang := some i.val }
  let e ← if feed ∧ scaled o.fmt ∧ b ≠ 0 then do
      let off ← scaleBlock s b n
      .ok (if n = 0 then e else { e with rda := spanOf off (off + n - 1) })
    else .ok e
  enqueueSeat s i (if sparse then .gmmas o else .gmma o) o.nosb (getX l o.xa) b [] [] (cfgOf (curCore s) 0) e

/-- `GMMA.fmt accN, tA, #f, xa, xb` (R238). -/
def execGmma (o : GmmaOp) : State → Host.Outcome State Fault Refusal := gangOp (gmmaIssue o false)

/-- `GMMAS.fmt accN, tA, #f, xa, xb` (R238). -/
def execGmmas (o : GmmaOp) : State → Host.Outcome State Fault Refusal := gangOp (gmmaIssue o true)

/-- A group-table entry's fields (R240): weight format, weight offset, scales. -/
def entryFmt (e : Nat) : Fmt := Fmt.ofCode (bits e 8 4)

/-- LM offset of a group's weights. -/
def entryW (e : Nat) : Nat := bits e 32 19

/-- LM offset of a group's scales, when they are read. -/
def entryS (e : Nat) : Option Nat := if bit e 95 && scaled (entryFmt e) then some (bits e 64 19) else none

/-- Bytes of a group's weight scales. -/
def entrySBytes (e : Nat) : Nat := 16 * fmtK (entryFmt e) / 32

/-- The contents of a group-table entry are right for a stream of format `f` (R240). -/
def entryOk (f : Fmt) (e : Nat) : Bool :=
  bits e 12 20 == 0 && !bit e 7 && bits e 51 13 == 0 && bits e 83 12 == 0 && bits e 96 32 == 0
    && (fmtClass (entryFmt e)).isSome && fmtClass (entryFmt e) == fmtClass f && entryW e % 4 == 0
    && decide (entryW e + 2048 ≤ atticBase)
    && (!bit e 95 || decide (bits e 64 19 + entrySBytes e ≤ atticBase))

/-- Bounding interval of all the weight and scale blocks of a table (R244). -/
def tableSpan (t : List Nat) : Option Span :=
  let bs := t.flatMap (fun e =>
    (entryW e, entryW e + 2047) :: (if bit e 95 then [(bits e 64 19, bits e 64 19 + entrySBytes e - 1)] else []))
  match bs with
  | [] => none
  | (a, b) :: r => some (granule (r.foldl (fun m e => min m e.1) a), granule (r.foldl (fun m e => max m e.2) b))

/-- GMMAG at issue: the table is read as a core access and checked (R240, R244). -/
def gmmagIssue (o : GmmagOp) (i : Fin 2) (s : State) : Except Stop State := do
  let l := cur s
  let c := s.sched.core
  irrevocable l
  gate l [.x (plain o.xa), .x (plain o.xb)] []
  let a := getX l o.xa
  let n := 16 * (o.g.val + 1)
  let off ← ownOffset s a
  if off % 16 ≠ 0 then trapAt .misaligned a
  else if atticBase < off + n then trapAt .lmProtection a
  else
    sbGate s ((List.range (granule (off + n - 1) + 1 - granule off)).map (· + granule off)) 0 false
    if poisoned s (lmKey c off) n then trapAt .poisoned a
    else
      let t := (List.range (o.g.val + 1)).map (fun k => memRead s.mem (lmKey c (off + 16 * k)) 16)
      let rows := (t.map entryRows).sum
      if !(t.all (entryOk o.fmt)) ∨ 64 < rows then trap .gangFault
      else
        let b := getX l o.xb
        let feed := isFeeder s o.feeder
        let acc := 2 ^ o.acc.val
        let e : SbEntry := { sbEmpty s.sched.lane with
          rda := tableSpan t, trd := if feed then 2 ^ tileNo i o.ta else 0, ard := if o.z then 0 else acc, awr := acc,
          gang := some i.val }
        let ns := rows * (fmtK o.fmt / 32)
        let e ← if feed ∧ scaled o.fmt ∧ b ≠ 0 then do
            let so ← scaleBlock s b ns
            .ok (if ns = 0 then e else { e with rdb := spanOf so (so + ns - 1) })
          else .ok e
        enqueueSeat s i (.gmmag o) o.nosb a b t [] (cfgOf (curCore s) 0) e

/-- `GMMAG.fmt accN, tA, #f, xa, xb, #g` (R240). -/
def execGmmag (o : GmmagOp) : State → Host.Outcome State Fault Refusal := gangOp (gmmagIssue o)

/-! ### Accumulators to tiles (R242, R243) -/

/-- `n` draws of the generator with the state after them (R112). -/
def takeDraws (mode : Round) : Nat → BitVec 32 → List Nat × BitVec 32
  | 0, s => ([], s)
  | n + 1, s =>
    let (d, s) := takeDraw mode s
    let (l, s) := takeDraws mode n s
    (d :: l, s)

/-- The elements that a seat's masks select, row by row (R242). -/
def maskedCells (m : Masks) : List (Nat × Nat) :=
  (((List.range 64).filter (fun r => m.row.getLsbD r)).flatMap (fun r =>
    ((List.range 16).filter (fun n => m.col.getLsbD n)).map (fun n => (r, n))))

/-- `GACC.fmt.rnd tB, accN, xa` (R242): draws are taken at issue. -/
def execGacc (o : GaccOp) : State → Host.Outcome State Fault Refusal := stateOp 8 (fun s => withSeat s (fun i => do
  let l := cur s
  gate l [.x (plain o.xa)] []
  let cells := maskedCells (curCore s).stove.masks[i]
  let (ds, sr) := takeDraws o.rnd cells.length l.sr
  let s ← enqueueSeat s i (.gacc o) o.nosb (getX l o.xa) 0 [] ds (cfgOf (curCore s) 0)
    { sbEmpty s.sched.lane with twr := 2 ^ tileNo i o.tb, ard := 2 ^ o.acc.val }
  .ok (setCur s { cur s with sr := sr })))

/-- `GACCZ #mask` (R243). -/
def execGaccz (o : GacczOp) : State → Host.Outcome State Fault Refusal := stateOp 8 (fun s => withSeat s (fun i => do
  irrevocable (cur s)
  enqueueSeat s i (.gaccz o) o.nosb 0 0 [] [] (cfgOf (curCore s) 0) { sbEmpty s.sched.lane with awr := o.mask.toNat }))

/-- One converted element of GACC (R242). -/
def gaccCell (o : GaccOp) (kind : AccKind) (sigma : Num) (draw cell : Nat) : Nat :=
  let ov : Round := if o.sat then .rnesat else o.rnd
  let fix := fun (e : Int) =>
    if bit cell 49 then roundFmtWith o.fmt o.rnd ov draw .nan
    else if bit cell 48 then overflowFmt o.fmt ov (decide (sgn 48 cell < 0))
    else roundFmtWith o.fmt o.rnd ov draw (mulNum (.fin (decide (sgn 48 cell < 0)) (sgn 48 cell).natAbs e false) sigma)
  match kind with
  | .fixi => fix 0
  | .fixl => fix (-24)
  | .fp64 => roundFmtWith o.fmt o.rnd ov draw (mulNum (decodeFlt fp64 cell) sigma)
  | _ => roundFmtWith o.fmt o.rnd ov draw (mulNum (decodeFlt fp32 cell) sigma)

/-- The conversion of an accumulator into a tile (R242). -/
def runGacc (s : State) (c : Nat) (i : Fin 2) (o : GaccOp) (p : SeatOp) : State :=
  let kind := (coreOf s c).stove.acc[o.acc]
  let sigma := decodeFlt fp32 (p.xa.toNat % 2 ^ 32)
  let t := tileNo i o.tb
  let b := fmtWidth o.fmt
  ((maskedCells p.masks).zipIdx).foldl (fun s e =>
    let (m, n) := e.1
    let v := gaccCell o kind sigma ((p.draws[e.2]?).getD 0) (memRead s.mem (cellKey c o.acc.val m n) 8)
    setTileRow s c t m (putBits (tileRow s c t m) (n * b) b v)) s

/-! ### Completion of tile operations (R229, R230, R246) -/

/-- TLD (R229). -/
def runTld (s : State) (c : Nat) (i : Fin 2) (o : TldOp) (p : SeatOp) : State :=
  let off := p.xa.toNat % 2 ^ 19
  (List.range p.cfg.rows).foldl (fun s r =>
    setTileRow s c (tileNo i o.ta) r (memRead s.mem (lmKey c (off + r * p.xb.toNat)) (rowBytes p.cfg))) s

/-- TST (R229). -/
def runTst (s : State) (c : Nat) (i : Fin 2) (o : TldOp) (p : SeatOp) : State :=
  let off := p.xa.toNat % 2 ^ 19
  (List.range p.cfg.rows).foldl (fun s r =>
    storeKey s (lmKey c (off + r * p.xb.toNat)) (rowBytes p.cfg) (tileRow s c (tileNo i o.ta) r)) s

/-- GACCZ (R243). -/
def runGaccz (s : State) (c : Nat) (mask : BitVec 4) : State :=
  ((List.finRange 4).filter (fun a => mask.getLsb a)).foldl (fun s (a : Fin 4) =>
    onCore (onMem s (fun m => memClear m (accKey c a.val 0) 8192)) c
      (fun k => { k with stove := { k.stove with acc := k.stove.acc.set a .none } })) s

/-- The effect of a tile operation that completes. -/
def runSeatOp (s : State) (c : Nat) (i : Fin 2) (p : SeatOp) : State :=
  match p.kind with
  | .tld o => runTld s c i o p
  | .tst o => runTst s c i o p
  | .tzero o => onMem s (fun m => memClear m (tileKey c (tileNo i o.ta) 0) 8192)
  | .gacc o => runGacc s c i o p
  | .gaccz o => runGaccz s c o.mask
  | _ => s

/-- A seat number. -/
def seatIx (n : Nat) : Fin 2 := ⟨n % 2, Nat.mod_lt _ (by decide)⟩

/-- TILE_OP_COMPLETE (R246): the oldest running tile operation of a seat takes effect and releases its records. -/
def execTileOpComplete (core seat : Nat) (s : State) : Host.Outcome State Fault Refusal :=
  let i := seatIx seat
  match (coreOf s core).stove.seats[i].find? (fun p => p.started && !isGang p.kind) with
  | none => .next s
  | some p =>
    let s := runSeatOp s core i p
    .next (kick (freeEntry (editSeat s core i p.age (fun _ => none)) core p.sb) core)

/-! ### Gangs (R233 to R241) -/

/-- A gang may form at a quad's seat: its turn is that of the fourth arrival (R233, R235). -/
def noteForming (s : State) (q : Nat) (i : Fin 2) : State :=
  if (arrivedAll s q i).length < 4 ∨ (quadOf s q).forming.contains i.val then s
  else onQuad s q (fun x => { x with forming := x.forming ++ [i.val] })

/-- The formation of a gang is due once its four instances have arrived. -/
def dueGang (s : State) (c : Nat) (i : Fin 2) : State :=
  if isSup c then s else dueEvent (noteForming s (quadNo c) i) (.gangForm (quadNo c) i.val)

/-- An instance arrives at the barrier, the first of its queue that has not formed: it joins a group that is open for its position, if any
(R247, R250). -/
def arrive (s : State) (c : Nat) (i : Fin 2) (p : SeatOp) : State :=
  let q := quadNo c
  let j := inQuad c
  let mine := fun (o : OpenPosition) => o.seat == i.val && o.waiting.any (fun w => w.1 == j && w.2 == 0)
  match (quadOf s q).opened.find? mine with
  | some o =>
    let s := onQuad s q (fun x => { x with
      opened := x.opened.map (fun y => if y.group == o.group && y.seat == o.seat then
        { y with waiting := y.waiting.filter (fun w => w.1 != j) } else y),
      gstat := if bits (x.gstat[i]).toNat 48 16 = o.group then
          x.gstat.set i (x.gstat[i] ||| BitVec.ofNat 64 (2 ^ (44 + j))) else x.gstat })
    joinGroup s c i o.group .gangFault p
  | none => dueGang s c i

/-- The operation ahead of the first that has not started has started, and formed if it is a gang operation (R233). -/
def aheadStarted (q : List SeatOp) : Bool :=
  (q.takeWhile (fun p => p.started)).all (fun p => (!isGang p.kind || p.formed) && p.held.isNone)

/-- The first operation of a seat queue that has not started starts, if it may (R142, R233) (DEDUCED, log entry 19). -/
def startSeatOp (s : State) (c : Nat) (i : Fin 2) : State :=
  let k := coreOf s c
  let q := k.stove.seats[i]
  match nextSeatOp q with
  | none => s
  | some p =>
    if p.held.isNone && aheadStarted q && mayStart k p.sb then
      let p' := { p with started := true, formed := !isGang p.kind }
      let s := editSeat s c i p.age (fun _ => some p')
      if isGang p.kind then arrive s c i p'
      else kick (dueEvent s (.tileOpComplete c i.val)) c
    else s

/-- What the instances of a gang must agree on, as numbers (R234). -/
def gangKey (p : SeatOp) : List Nat :=
  match p.kind with
  | .gwld o => [0, o.fmt.code, o.pat.val]
  | .gmma o => [1, o.fmt.code, o.feeder.val, p.xa.toNat]
  | .gmmas o => [2, o.fmt.code, o.feeder.val, p.xa.toNat]
  | .gmmag o => [3, o.fmt.code, o.feeder.val, o.g.val] ++ p.table.flatMap (fun e => [entryRows e, (entryFmt e).code])
  | _ => [4]

/-- A core's weight set of a seat: the seat's own, in its slice (R224). -/
def weightsOf (s : State) (c : Nat) (i : Fin 2) : WeightSet := (coreOf s c).stove.weights[i]

/-- The checks of a stream on one slice (R238): cause and code of the first that fails. -/
def sliceCheck (s : State) (c : Nat) (i : Fin 2) (p : SeatOp) : Option (Nat × FaultCode) :=
  let w := weightsOf s c i
  let kindOk := fun (acc : Fin 4) (f : Fmt) (z : Bool) =>
    let k := (coreOf s c).stove.acc[acc]
    z || k == .none || (fmtClass f).any (fun x => classKind x == k)
  let stream := fun (o : GmmaOp) (sparse : Bool) =>
    let m := p.xa.toNat
    if m = 0 then none
    else if 64 / (if sparse then expansion w.pattern else 1) < m then some (2, FaultCode.gangFault)
    else if w.fmt.isNone || w.fmt.bind fmtClass != fmtClass o.fmt then some (3, .gangFault)
    else if (w.pattern != 0) != sparse then some (4, .gangFault)
    else if sparse && !codesValid w (fmtK o.fmt) then some (9, .sparsePattern)
    else if !kindOk o.acc o.fmt o.z then some (5, .gangFault)
    else none
  match p.kind with
  | .gmma o => stream o false
  | .gmmas o => stream o true
  | .gmmag o => if p.table.all (fun e => entryRows e == 0) || kindOk o.acc o.fmt o.z then none else some (5, .gangFault)
  | _ => none

/-- Replaces a core's weight set of a seat. -/
def setWeights (s : State) (c : Nat) (i : Fin 2) (w : WeightSet) : State :=
  onCore s c (fun k => { k with stove := { k.stove with weights := k.stove.weights.set i w } })

/-- `n` bytes of LM as a list. -/
def lmBytes (s : State) (c o n : Nat) : List Nat := (List.range n).map (fun k => (memGet s.mem (lmKey c (o + k))).toNat)

/-- GWLD in one slice (R236, R237). -/
def runGwld (s : State) (c : Nat) (i : Fin 2) (o : GwldOp) (p : SeatOp) : State :=
  let rows := if o.pat.val = 0 then 16 else 32
  let scales := if o.pat.val = 0 ∧ scaled o.fmt ∧ p.xb ≠ 0
    then lmBytes s c (p.xb.toNat % 2 ^ 19) (16 * fmtK o.fmt / 32) else []
  setWeights s c i ⟨some o.fmt, o.pat.val, (List.range rows).map (tileRow s c (tileNo i o.ta)), scales⟩

/-- The weights of one group of a table (R240). -/
def groupWeights (s : State) (c e : Nat) : WeightSet :=
  ⟨some (entryFmt e), 0, (List.range 16).map (fun n => memRead s.mem (lmKey c (entryW e + 128 * n)) 128),
    match entryS e with
    | some o => lmBytes s c o (entrySBytes e)
    | none => []⟩

/-- LM offset of the activation scales, when they are read (R239). -/
def actScales (f : Fmt) (b : X) : Option Nat := if scaled f && b != 0 then some (b.toNat % 2 ^ 19) else none

/-- The feeder's operation among the four. -/
def feederOf (ops : List SeatOp) (f : Fin 4) : Option SeatOp := ops[f.val]?

/-- A GMMA or GMMAS stream through the four slices (R238). -/
def runGmma (s : State) (q : Nat) (i : Fin 2) (ops : List SeatOp) (o : GmmaOp) : State :=
  match fmtClass o.fmt, feederOf ops o.feeder with
  | some cls, some fp =>
    let ta := match fp.kind with
      | .gmma x => x.ta
      | .gmmas x => x.ta
      | _ => o.ta
    let m := fp.xa.toNat
    let fc := quadCore q o.feeder.val
    let sx := expansion (weightsOf s (quadCore q 0) i).pattern
    let rows := (List.range m).map (actRow s fc (tileNo i ta) o.fmt (classK cls) sx (actScales o.fmt fp.xb))
    if m = 0 then s
    else (ops.zipIdx).foldl (fun s e =>
      match e.1.kind with
      | .gmma x => streamSlice s (quadCore q e.2) x.acc.val cls o.fmt x.z e.1.masks (weightsOf s (quadCore q e.2) i) 0 rows
      | .gmmas x => streamSlice s (quadCore q e.2) x.acc.val cls o.fmt x.z e.1.masks (weightsOf s (quadCore q e.2) i) 0 rows
      | _ => s) s
  | _, _ => s

/-- GMMAG in one slice: for each group with rows, its weights and then its stream (R240). -/
def runGroups (s : State) (c : Nat) (i : Fin 2) (p : SeatOp) (x : GmmagOp) (cls : StoveClass) (rows : List ActRow) : State :=
  (p.table.foldl (fun (r : State × Nat) e =>
    let n := entryRows e
    if n = 0 then r
    else
      let s := setWeights r.1 c i (groupWeights r.1 c e)
      (streamSlice s c x.acc.val cls x.fmt x.z p.masks (weightsOf s c i) r.2 ((rows.drop r.2).take n), r.2 + n)) (s, 0)).1

/-- A GMMAG through the four slices (R240). -/
def runGmmag (s : State) (q : Nat) (i : Fin 2) (ops : List SeatOp) (o : GmmagOp) : State :=
  match fmtClass o.fmt, feederOf ops o.feeder with
  | some cls, some fp =>
    let ta := match fp.kind with
      | .gmmag x => x.ta
      | _ => o.ta
    let m := (fp.table.map entryRows).sum
    let rows := (List.range m).map
      (actRow s (quadCore q o.feeder.val) (tileNo i ta) o.fmt (classK cls) 1 (actScales o.fmt fp.xb))
    (ops.zipIdx).foldl (fun s e =>
      match e.1.kind with
      | .gmmag x => runGroups s (quadCore q e.2) i e.1 x cls rows
      | _ => s) s
  | _, _ => s

/-- The effect of a gang on the array (R235 to R240) (DEDUCED, log entry 19). -/
def runGang (s : State) (q : Nat) (i : Fin 2) (ops : List SeatOp) : State :=
  match (ops.head?.map (fun p => p.kind) : Option SeatKind) with
  | some (.gwld _) => (ops.zipIdx).foldl (fun s e =>
      match e.1.kind with
      | .gwld o => runGwld s (quadCore q e.2) i o e.1
      | _ => s) s
  | some (.gmma o) => runGmma s q i ops o
  | some (.gmmas o) => runGmma s q i ops o
  | some (.gmmag o) => runGmmag s q i ops o
  | _ => s

/-- Gangs of a quad that formed earlier and have not completed: the weight sets as they will leave them decide the
checks of a later one (R235). -/
def gangReady (s : State) (q : Nat) : Bool := (quadOf s q).formed.isEmpty

/-- The first arrived instance that disagrees with that of core 0, or the first failed check: origin, cause and code
(R234, R238, R249). Of several failed checks the first in the order of R238 counts, then the lowest core (DESIGN CHOICE, log entry
49). -/
def gangCheck (s : State) (q : Nat) (i : Fin 2) (ops : List (Nat × SeatOp)) : Option (Nat × Nat × FaultCode) :=
  match ops with
  | [] => none
  | (_, p0) :: t =>
    match t.find? (fun e => gangKey e.2 != gangKey p0) with
    | some e => some (e.1, 1, .gangFault)
    | none =>
      let fails := ops.filterMap (fun e => (sliceCheck s (quadCore q e.1) i e.2).map (fun x => (e.1, x.1, x.2)))
      let rank := fun c => if c = 9 then 45 else c * 10
      bestBy (fun a b => decide (rank a.2.1 < rank b.2.1)) fails

/-- The seats whose gangs may form, the next first (R235). -/
def formingSeats (s : State) (q : Nat) : List Nat := (quadOf s q).forming.filter (fun j => (arrivedAll s q (seatIx j)).length == 4)

/-- The gangs that may form are formed in their turn. -/
def dueForming (s : State) (q : Nat) : State := (formingSeats s q).foldl (fun s j => dueEvent s (.gangForm q j)) s

/-- Formation: four arrived instances are compared and checked, and form one gang or a fault group (R233, R234). The
checks are those of the weight sets that earlier gangs leave, so they wait for them to complete; the seat whose four arrived
first goes first (R235). -/
def formGang (s : State) (q : Nat) (i : Fin 2) : State :=
  let ms := arrivedAll s q i
  let s := noteForming s q i
  if ms.length < 4 || !gangReady s q || (formingSeats s q).head? != some i.val then s
  else
    let s := onQuad s q (fun x => { x with forming := (formingSeats s q).filter (· ≠ i.val) })
    match gangCheck s q i ms with
    | some (origin, cause, code) => dueForming (groupOf s q i ms origin cause code) q
    | none =>
      let s := ms.foldl (fun s e => editSeat s (quadCore q e.1) i e.2.age (fun p => some { p with formed := true })) s
      let s := (List.range 4).foldl (passPosition q i) s
      let s := onQuad s q (fun x => { x with formed := x.formed ++ [(i.val, ms.map (fun e => e.2.age))] })
      let s := dueEvent s (.gangComplete q)
      ms.foldl (fun s e => kick s (quadCore q e.1)) s

/-- GANG_FORM (R233) (DEDUCED, log entry 19). -/
def execGangForm (quad seat : Nat) (s : State) : Host.Outcome State Fault Refusal := .next (formGang s quad (seatIx seat))

/-- GANG_TIMEOUT (R248): the instances that have arrived form a timeout group. -/
def execGangTimeout (quad seat : Nat) (s : State) : Host.Outcome State Fault Refusal :=
  let i := seatIx seat
  let ms := arrivedAll s quad i
  if ms.isEmpty || decide (4 ≤ ms.length) then .next s
  else .next (groupOf s quad i ms ((ms.head?.map (·.1)).getD 0) 8 .gangTimeout)

/-- GANG_POSITION_EXPIRY (R247): the oldest open position of the seat closes. -/
def execGangPositionExpiry (quad seat : Nat) (s : State) : Host.Outcome State Fault Refusal :=
  .next (onQuad s quad (fun x => { x with opened := match x.opened.find? (fun o => o.seat == seat) with
    | some o => x.opened.filter (fun y => !(y.seat == seat && y.group == o.group))
    | none => x.opened }))

/-- GANG_COMPLETE (R235, R246): the gang that formed first takes effect, and its records are released (DEDUCED, log entry 19). -/
def execGangComplete (quad : Nat) (s : State) : Host.Outcome State Fault Refusal :=
  match (quadOf s quad).formed with
  | [] => .next s
  | (seat, ages) :: t =>
    let i := seatIx seat
    let ops := (ages.zipIdx).filterMap (fun e =>
      (coreOf s (quadCore quad e.2)).stove.seats[i].find? (fun p => p.age == e.1))
    let s := onQuad s quad (fun x => { x with formed := t })
    let s := runGang s quad i ops
    let s := (ops.zipIdx).foldl (fun s e =>
      let c := quadCore quad e.2
      kick (freeEntry (editSeat s c i e.1.age (fun _ => none)) c e.1.sb) c) s
    .next (dueForming s quad)

/-! ### The fate of a group (R250) -/

/-- The Frozen lanes of group `g` of a quad, as core and lane. -/
def groupLanes (s : State) (q g : Nat) : List (Nat × Nat) :=
  (List.range 4).flatMap (fun j => ((List.range 16).filter (fun l =>
    (laneOf s (quadCore q j) l).group == some g && (laneOf s (quadCore q j) l).status == .frozen)).map
    (fun l => (quadCore q j, l)))

/-- The held instance of a lane in group `g`. -/
def heldOf (s : State) (c l g : Nat) : Option (Fin 2 × SeatOp) :=
  (List.finRange 2).findSome? (fun i =>
    ((coreOf s c).stove.seats[i].find? (fun p => p.held == some g && p.lane == l)).map (fun p => (i, p)))

/-- A held instance is withdrawn with its entry freed (R143, R250). -/
def withdrawHeld (s : State) (c l g : Nat) : State :=
  match heldOf s c l g with
  | some (i, p) => kick (passPosition (quadNo c) i (freeEntry (editSeat s c i p.age (fun _ => none)) c p.sb) (inQuad c)) c
  | none => s

/-- A held instance arrives at the barrier again from its place in the queue (R250). -/
def releaseHeld (s : State) (c l g : Nat) : State :=
  match heldOf s c l g with
  | some (i, p) =>
    dueEvent (editSeat s c i p.age (fun p => some { p with held := none, started := false })) (.asyncOpStart c (i.val + 1) p.age)
  | none => s

end Sys2Proof.Machine
end

