-- ==== Sys2Proof/Machine/Engines.lean ====
section
/-! DEFINITION. Engine operations: their queue, sectors, errors, suspension and completion (R277 to R289), for the data
movers XCOPY, XGATHER, XSCATTER, XFILL and XRED, and what the package and pod operations share with them. -/

namespace Sys2Proof.Machine

/-! ### Operations -/

/-- The operation in a queue slot (R279). -/
def engOp (s : State) (c slot : Nat) : Option EngOp := smGet (coreOf s c).eng.queue slot

/-- Replaces the operation in a queue slot. -/
def setEngOp (s : State) (c slot : Nat) (op : EngOp) : State :=
  onCore s c (fun k => { k with eng := { k.eng with queue := smSet k.eng.queue slot op } })

/-- Stream buffer of a .sb form (R282). -/
def sbOf : EngKind → Option Nat
  | .copyIn o => if o.sb then some o.buf.val else none
  | .copyOut o => if o.sb then some o.buf.val else none
  | .red o => if o.sb then some o.buf.val else none
  | _ => none

/-- The stream buffer is the operation's output (R282). -/
def sbOutput : EngKind → Bool
  | .copyIn _ => true
  | _ => false

/-- Where an operation's elements start in its stream buffer: at TAIL for an output, else at HEAD (R282). -/
def streamStart (s : State) (c : Nat) (kind : EngKind) : Nat :=
  match sbOf kind with
  | some b => let q := streamGet s c b; if sbOutput kind then q.tail else q.head
  | none => 0

/-- Elements of a stream buffer that an operation moves: ⌈B / ESIZE⌉ (R282). -/
def sbElems (s : State) (c : Nat) (op : EngOp) (b : Nat) : Nat :=
  ceilDiv (ceilDiv (dataBits (shapeOf op.recA) false) 8) (esize (streamGet s c b))

/-- Rows of a gather or scatter. -/
def rowCount : EngKind → Nat
  | .gather o => o.cnt.toNat
  | .scatter o => o.cnt.toNat
  | _ => 0

/-- The block size of a queue descriptor (R416). -/
def blkSize (d : Nat) : Nat := 2 ^ bits d (8 * 38) 4

/-- Elements of a collective (R424): how many its destination receives. -/
def collElems (d : Nat) (gather : Bool) : Nat := bits d 128 32 * (if gather then bits d 256 16 else 1)

/-- Sectors of one row (R281). -/
def rowSectors (op : EngOp) : Nat := dataSectors (shapeOf op.recA) true

/-- N, the sector count of an operation (R281, R354, R420, R424). -/
def opSectors (op : EngOp) : Nat :=
  let r := shapeOf op.recA
  match op.kind with
  | .copyIn _ => dataSectors r false + ceilDiv (scaleBytes r) 32
  | .copyOut _ => dataSectors r false + ceilDiv (scaleBytes r) 32
  | .copyXx _ => dataSectors r false
  | .fill _ => dataSectors r false
  | .red _ => dataSectors r false
  | .gather o => o.cnt.toNat * rowSectors op
  | .scatter o => o.cnt.toNat * rowSectors op
  | .blkRd o => (o.cnt.toNat + 1) * blkSize op.recA / 32
  | .blkWr o => (o.cnt.toNat + 1) * blkSize op.recA / 32
  | .blkFlush _ => 1
  | .bop o => o.n.toNat + 1
  | .bred o => o.n.toNat + 1
  | .bvec o => o.n.toNat + 1
  | .get o => o.n.toNat + 1
  | .put o => o.n.toNat + 1
  | .ramo o => o.n.toNat + 1
  | .allred o => ceilDiv (collElems op.recA false * fmtWidth o.fmt) 256
  | .allgth o => ceilDiv (collElems op.recA true * fmtWidth o.fmt) 256
  | .redsct o => ceilDiv (collElems op.recA false * fmtWidth o.fmt) 256
  | .cbar _ => 1

/-- How a sector takes effect: by the engine, by a reducing home, by a bank ALU, or through the outside world. -/
inductive SectorWay where
  | engine | reduce | bank | outside
  deriving DecidableEq, Repr

/-- The way of an operation's sectors. -/
def wayOf : EngKind → SectorWay
  | .red _ => .reduce
  | .bop _ => .bank
  | .bred _ => .bank
  | .bvec _ => .bank
  | .copyIn _ => .engine
  | .copyOut _ => .engine
  | .copyXx _ => .engine
  | .fill _ => .engine
  | .gather _ => .engine
  | .scatter _ => .engine
  | _ => .outside

/-- A sector that its home has applied (R289). -/
def sectorApplied (s : State) (c slot : Nat) (op : EngOp) (q : Nat) : Bool :=
  (smGetD s.pkg.applied (opId c slot op) []).contains q

/-- The lowest sector not yet counted is due: to be applied, or to complete (R283). -/
def postSector (s : State) (c slot : Nat) (op : EngOp) : State :=
  match (List.range (opSectors op)).find? (fun q => !op.counted.contains q) with
  | none => s
  | some q =>
    match wayOf op.kind with
    | .engine => dueEvent s (.sectorComplete c slot q)
    | .reduce => dueEvent s (if sectorApplied s c slot op q then .sectorComplete c slot q else .reduceSectorApply c slot q)
    | .bank => dueEvent s (if sectorApplied s c slot op q then .sectorComplete c slot q else .bankSectorApply c slot q)
    | .outside => s

/-! ### Packets, counting and the end (R281, R284) -/

/-- A packet of an operation (R214, R284). -/
def opPacket (s : State) (c slot : Nat) (op : EngOp) (code : FaultCode) (addr aux : Nat) : State :=
  sendPacket s c true { packetNone c op.lane code (BitVec.ofNat 64 addr) (BitVec.ofNat 128 aux) with
    engop := BitVec.ofNat 32 (opId c slot op) }

/-- What an operation reports to its barrier (R281, R284): sectors, the failures among them, and the code of an error. The update goes to
the barrier's home (R274), where it performs at once unless something holds it (R333). -/
def updateBar (s : State) (c : Nat) (op : EngOp) (sectors fails : Nat) (code : Option Nat) : State :=
  match op.bar with
  | some k => sendUpdate s c ⟨16, op.xb, k, .engine sectors fails code, ⟨op.ctx, op.task, op.owner⟩⟩
  | none => s

/-- The operation leaves the queue and releases what it holds (R143, R279); homes forget it (R289). -/
def releaseOp (s : State) (c slot : Nat) (op : EngOp) : State :=
  let s := onPkg s (fun p => { p with applied := smDel p.applied (opId c slot op) })
  let s := onCore s c (fun k => { k with eng := { k.eng with queue := smDel k.eng.queue slot } })
  kick (evalActors (freeEntry (freeEntry s c op.sb) c op.sbScale) c) c

/-- HEAD or TAIL of a stream-buffer form advances (R282) (DEDUCED, log entry 24). -/
def advanceStream (s : State) (c : Nat) (op : EngOp) : State :=
  match sbOf op.kind with
  | none => s
  | some b =>
    let q := streamGet s c b
    let n := sbElems s c op b
    streamSet s c b (if sbOutput op.kind then { q with tail := (q.tail + n) % 2 ^ 32 } else { q with head := (q.head + n) % 2 ^ 32 })

/-- Sectors that a divided operation's first part has: those of its data (R141, R280). -/
def firstPart (op : EngOp) : Nat := dataSectors (shapeOf op.recA) false

/-- The first part of a divided operation frees its entry when its sectors are counted (R141, R143). -/
def endFirstPart (s : State) (c : Nat) (op : EngOp) : State × EngOp :=
  if op.sb.isSome && op.sbScale.isSome && (List.range (firstPart op)).all op.counted.contains then
    (kick (freeEntry s c op.sb) c, { op with sb := none })
  else (s, op)

/-- Sectors are counted at the barrier, with the failures among them, in one update (R281, R303); the operation
completes with the last. `code` records an error that does not end it. -/
def countSectors (s : State) (c slot : Nat) (op : EngOp) (qs : List Nat) (fails : List Nat) (code : Option Nat) : State :=
  let op' := { op with counted := op.counted ++ qs, failed := op.failed ++ fails, heldAt := none }
  let s := updateBar s c op qs.length fails.length code
  if opSectors op ≤ op'.counted.length then releaseOp (advanceStream s c op) c slot op'
  else
    let (s, op') := endFirstPart s c op'
    postSector (setEngOp s c slot op') c slot op'

/-- The fault code of an error packet (R284). -/
def errCode (e : Nat) (wake : Bool) : FaultCode :=
  if e = 1 then .badRecord else if e = 2 then .addrOverflow else if e = 5 then (if wake then .linkWake else .dieUnresponsive)
  else .engineError

/-- The first poisoned byte of `n` bytes at a key (R284). -/
def poisonByte (s : State) (k n : Nat) : Option Nat := (List.range n).find? (fun i => poisoned s (k + i) 1)

/-- Bytes written to memory-list keys, but to no window: each byte, then the poison units that they cover whole (R136, R360). -/
def storeBytes (s : State) (l : List (Nat × Nat)) : State :=
  let l := l.filter (fun e => e.1 != voidKey)
  let s := l.foldl (fun s e => storeKey s e.1 1 e.2) s
  if s.poison.isEmpty then s
  else
    let keys := l.map (·.1)
    { s with poison := s.poison.filter (fun p =>
        !((List.range (if 2 ^ 45 ≤ p then 4 else 64)).all (fun i => keys.contains (p + i)))) }

/-! ### Where the pieces of a sector lie -/

/-- What keeps a sector from performing (R284, R285, R333, R367): an error with its address, a translation fault, speculative tasks that hold the line, something else to wait
for, a flue that must wake, a line whose tokens an active persistent request takes, or a Down flue. -/
inductive SectorStop where
  | err (code addr : Nat)
  | suspend (addr : Nat)
  | held (va line : Nat) (write : Bool)
  | hold
  | wake (flue : Nat)
  | recall (line : Nat) (write : Bool)
  | down (addr : Nat)
  deriving DecidableEq, Repr

/-- One side of a piece: a global-side bit address, a bit of own LM, or bits of a value. -/
inductive Point where
  | glob (bit : Int)
  | lm (bit : Nat)
  | val (v : Nat)
  deriving DecidableEq, Repr

/-- `n` bits from one point to another, and the fill bits that a poisoned sector writes there. -/
structure Move where
  src : Point
  dst : Point
  n : Nat
  fill : Nat
  deriving DecidableEq, Repr

/-- What lies under the bytes that an engine reaches: the compressible blocks, and the lines that the home slices serve (R254, R359). -/
structure Under where
  blocks : List Nat
  lines : List Nat
  deriving DecidableEq, Repr

/-- Nothing. -/
def Under.none : Under := ⟨[], []⟩

/-- All of both. -/
def Under.union (a b : Under) : Under := ⟨b.blocks.foldl insertNat a.blocks, b.lines.foldl insertNat a.lines⟩

/-- A point found in the memory list: the keys of its bytes, its first bit in the first, or its value, and what lies under its bytes. -/
structure Spot where
  keys : List Nat
  bit : Nat
  val : Option Nat
  under : Under
  deriving DecidableEq, Repr

/-- The ordered task that an operation's accesses belong to, while it exists (R322, R332). -/
def opTask (s : State) (op : EngOp) : Option Nat := op.task.filter (fun n => (taskOf s n).isSome)

/-- An engine's request waits for its way or fails with ECODE 5 (R367, R438). -/
def engineReach (p : Path) (a : Nat) : Except SectorStop Unit :=
  match p with
  | .opened => .ok ()
  | .waking f => .error (.wake f)
  | .notReady _ => .error .hold
  | .down => .error (.down a)
  | .failed => .error (.err 5 a)

/-- What a wait of a lane's access is to an engine's. -/
def engineWait : Stop → SectorStop
  | .wait (.held va line w) => .held va line w
  | _ => .hold

/-- The memory-list key of one byte that an engine of core `c` reaches, and what lies under it (R137, R264, R284). A
window reads as zero and takes no write (R217, R253, R339, R351). The memory types that ECODE 3 calls wrong are the model's: a
reduction on a type other than 00 (DESIGN CHOICE, log entry 51). -/
def enginePlace (s : State) (c : Nat) (op : EngOp) (acc : Access) (a : Nat) : Except SectorStop (State × Nat × Under) :=
  match classOf s c (BitVec.ofNat 64 a) with
  | .ownLm o => if atticBase ≤ o then .error (.err 3 a) else .ok (s, lmKey c o, .none)
  | .otherLm id o => if atticBase ≤ o then .error (.err 3 a) else .ok (s, lmKey id o, .none)
  | .shared o =>
    if (opTask s op).any (fun n => (taskOf s n).any (·.spec)) then .error .hold
    else do
      engineReach (pathShared s (dieNo c) o) a
      .ok (s, larderKey o, .none)
  | .unmapped => .error (.err (if bits a 56 8 = 0xFF then 3 else 2) a)
  | .global => do
    engineReach (transWay s c op.ctx a acc) a
    match translate s c op.ctx a acc with
    | none => .error (.suspend a)
    | some (s, pa, mt, de) =>
      if (acc == .atomic && mt != 0) || !isBacked pa then .error (.err 3 a)
      else do
        engineReach (pathPhys s (dieNo c) pa mt (writes acc)) a
        if pa < 2 ^ 40 ∧ !linesFree s c (lineOf pa) (writes acc) (cacheable pa mt) then .error (.recall (lineOf pa) (writes acc))
        else match lineAccess s ⟨opTask s op, op.owner⟩ a pa mt de (writes acc) with
          | .ok s => .ok (s, if isWindow pa then voidKey else pa,
              ⟨if pageC s c op.ctx a acc then [pa / 256] else [], if cacheable pa mt then [lineOf pa] else []⟩)
          | .error e => .error (engineWait e)

/-- The keys of `n` bytes from an address on, and what lies under them. -/
def engineBytes (c : Nat) (op : EngOp) (acc : Access) : State → Nat → Nat → Except SectorStop (State × List Nat × Under)
  | s, _, 0 => .ok (s, [], .none)
  | s, a, n + 1 => do
    let (s, k, u) ← enginePlace s c op acc a
    let (s, ks, us) ← engineBytes c op acc s (a + 1) n
    .ok (s, k :: ks, us.union u)

/-- Finds a point of `n` bits; an address outside 0 to 2^64 - 1 counts as non-canonical (R269). -/
def findPoint (s : State) (c : Nat) (op : EngOp) (acc : Access) (n : Nat) : Point → Except SectorStop (State × Spot)
  | .val v => .ok (s, ⟨[], 0, some v, .none⟩)
  | .lm b => .ok (s, ⟨(List.range (ceilDiv (b % 8 + n) 8)).map (fun i => lmKey c (b / 8 + i)), b % 8, none, .none⟩)
  | .glob b =>
    if b < 0 ∨ 2 ^ 67 ≤ b then .error (.err 2 (wrap 64 (b / 8)))
    else do
      let (s, ks, us) ← engineBytes c op acc s (b.toNat / 8) (ceilDiv (b.toNat % 8 + n) 8)
      .ok (s, ⟨ks, b.toNat % 8, none, us⟩)

/-- Finds both sides of every piece. A reduction reads and writes its destination. -/
def findMoves (c : Nat) (op : EngOp) (red : Bool) : State → List Move →
    Except SectorStop (State × List (Spot × Spot × Move))
  | s, [] => .ok (s, [])
  | s, m :: t => do
    let (s, a) ← findPoint s c op .load m.n m.src
    let (s, b) ← findPoint s c op (if red then .atomic else .store) m.n m.dst
    let (s, r) ← findMoves c op red s t
    .ok (s, (a, b, m) :: r)

/-- The bits at a spot. -/
def readSpot (s : State) (p : Spot) (n : Nat) : Nat :=
  match p.val with
  | some v => v % 2 ^ n
  | none => p.keys.foldr (fun k v => (memGet s.mem k).toNat + 256 * v) 0 / 2 ^ p.bit % 2 ^ n

/-- What a write by an engine of die `d` leaves under it: the states of the compressible blocks are chosen again (R359), and the home
slices hold the lines dirty (R254, R375). -/
def settle (s : State) (d : Nat) (u : Under) : State :=
  u.lines.foldl (fun s line => homeWrite s d line) (u.blocks.foldl chooseBlock s)

/-- Writes bits at spots, in order, by an engine of die `d`. -/
def writeSpots (s : State) (d : Nat) (l : List (Spot × Nat × Nat)) : State :=
  settle (storeBytes s ((l.foldl (fun (r : Memory × List (Nat × Nat)) e =>
    let (p, n, v) := e
    let old := p.keys.foldr (fun k v => (memGet r.1 k).toNat + 256 * v) 0
    let new := putBits old p.bit n v
    let cells := p.keys.zipIdx.map (fun x => (x.1, bits new (8 * x.2) 8))
    (cells.foldl (fun m c => memSet m c.1 (BitVec.ofNat 8 c.2)) r.1, r.2 ++ cells)) (s.mem, [])).2))
    d (l.foldl (fun u e => u.union e.1.under) .none)

/-- A point of a sector's own-LM side: linear bit `b` of the operation (R269, R282). A buffer that is not configured has none. -/
def lmPoint (s : State) (c : Nat) (op : EngOp) (b : Nat) : Except SectorStop Point :=
  let o := match sbOf op.kind with
    | some i =>
      let q := streamGet s c i
      elemAt q (op.sbase + b / 8 / esize q) + b / 8 % esize q
    | none => op.xl.toNat % 2 ^ 19 + swizzled (shapeOf op.recA).swz (b / 8)
  if atticBase ≤ o || (sbOf op.kind).any (fun i => (streamGet s c i).size = 0) then .error (.err 3 (0xFF80 * 2 ^ 48 + o))
  else .ok (.lm (8 * o + b % 8))

/-- The linear bits of sector `k` of `total` bits, in steps of `u`. -/
def sectorBits (k total u : Nat) : List Nat :=
  (List.range (ceilDiv 256 u)).filterMap (fun i =>
    -- the first unit that starts at or after the sector's first bit
    let b := (ceilDiv (256 * k) u + i) * u
    if b < total ∧ b < 256 * (k + 1) then some b else none)

/-- Collects the pieces of a list of units. -/
def collect {α β : Type} (f : α → Except SectorStop (Option β)) : List α → Except SectorStop (List β)
  | [] => .ok []
  | a :: t => do
    let x ← f a
    let r ← collect f t
    .ok (x.toList ++ r)

/-- Bits copied together: a byte, or one bit of a format narrower than a byte. -/
def unitOf (r : ShapeRec) : Nat := if recBits r < 8 then 1 else 8

/-- The fill value's bits for linear bit `b` (R267). -/
def fillAt (r : ShapeRec) (b : Nat) : Nat := r.fill / 2 ^ (b % recBits r)

/-- A global bit of linear bit `b`, an element dropped or filled out of bounds, or the error of bounds = 1 with the element's address
(R284, R286). -/
def boundsOk (r : ShapeRec) (c : List Int) (row : Option Int) (b : Nat) : Except SectorStop (Option Int) :=
  let g := globalBit r c row b
  if g.isNone ∧ r.bnd = 1 then .error (.err 6 (elementAddr r c row b)) else .ok g

/-- Pieces between LM and one record (R286, R287): `lo` is the linear bit of the LM side at which the row starts. -/
def sideMoves (s : State) (c : Nat) (op : EngOp) (inward : Bool) (row : Option Int) (lo : Nat) (l : List Nat) :
    Except SectorStop (List Move) :=
  let r := shapeOf op.recA
  let u := unitOf r
  collect (fun b => do
    let g ← boundsOk r op.coords row b
    let m ← lmPoint s c op (lo + b)
    .ok (match g with
      | some g => some (if inward then ⟨.glob g, m, u, fillAt r b⟩ else ⟨m, .glob g, u, fillAt r b⟩)
      | none => if inward then some ⟨.val (fillAt r b), m, u, fillAt r b⟩ else none)) l

/-- Where scale byte `j` lies on the LM side (R270): row-major, under no swizzle. In a .sb form the scales follow the data bytes,
past the n elements that the data make (R282) (DESIGN CHOICE, log entry 53). -/
def scalePoint (s : State) (c : Nat) (op : EngOp) (j : Nat) : Except SectorStop Point :=
  let r := shapeOf op.recA
  let at' := 32 * dataSectors r false + j
  if (sbOf op.kind).isSome then lmPoint s c op (8 * at')
  else
    let o := op.xl.toNat % 2 ^ 19 + at'
    if atticBase ≤ o then .error (.err 3 (0xFF80 * 2 ^ 48 + o)) else .ok (.lm (8 * o))

/-- Pieces of a scale sector (R270). The value of an out-of-bounds scale is open (DESIGN CHOICE, log entry 4). -/
def scaleMoves (s : State) (c : Nat) (op : EngOp) (inward : Bool) (k : Nat) : Except SectorStop (List Move) :=
  let r := shapeOf op.recA
  collect (fun b => do
    let m ← scalePoint s c op (b / 8)
    .ok (match scaleBit r op.coords (b / 8) with
      | some g => some (if inward then ⟨.glob g, m, 8, r.fill⟩ else ⟨m, .glob g, 8, r.fill⟩)
      | none => if inward then some ⟨.val (Config.freeV (s.sched.freeCtr + b)).toNat, m, 8, r.fill⟩ else none))
    (sectorBits k (8 * scaleBytes r) 8)

/-- The row of a gather or scatter, or none for an index outside dimension 0 (R287). -/
def rowIndex (op : EngOp) (j : Nat) : Option Int :=
  match (op.rows[j]?).join with
  | some i => if 0 ≤ i ∧ i < innermost ((shapeOf op.recA).dims.take 1) 0 then some i else none
  | none => none

/-- The index of row `j` was poisoned. -/
def rowPoisoned (op : EngOp) (j : Nat) : Bool := rowCount op.kind != 0 && (op.rows[j]?) == some none

/-- A row with an index out of range (R287). -/
def rowBad (op : EngOp) (j : Nat) : Bool := rowCount op.kind != 0 && (rowIndex op j).isNone && !rowPoisoned op j

/-- Fill pieces of an LM sector (R284, R287). -/
def fillMoves (s : State) (c : Nat) (op : EngOp) (lo : Nat) (l : List Nat) : Except SectorStop (List Move) :=
  let r := shapeOf op.recA
  collect (fun b => do
    let m ← lmPoint s c op (lo + b)
    .ok (some ⟨.val (fillAt r b), m, unitOf r, fillAt r b⟩)) l

/-- Address of the first index (R287). -/
def indexAddr (op : EngOp) : Nat := (shapeOf op.recA).index + 4 * (op.xn.toNat % 2 ^ 32)

/-- The pieces of sector `q` of a data mover (R286 to R288). -/
def sectorMoves (s : State) (c : Nat) (op : EngOp) (q : Nat) : Except SectorStop (List Move) :=
  let r := shapeOf op.recA
  let nd := dataSectors r false
  let total := dataBits r false
  let one := fun (inward : Bool) =>
    if q < nd then sideMoves s c op inward none 0 (sectorBits q total (unitOf r)) else scaleMoves s c op inward (q - nd)
  let rowTotal := dataBits r true
  let rowed := fun (inward : Bool) =>
    let j := q / rowSectors op
    let l := sectorBits (q % rowSectors op) rowTotal (unitOf r)
    if rowPoisoned op j then (if inward then fillMoves s c op (j * rowTotal) l else .ok [])
    else match rowIndex op j with
      | some i => sideMoves s c op inward (some i) (j * rowTotal) l
      | none =>
        if r.bnd = 1 then .error (.err 6 ((indexAddr op + 4 * j) % 2 ^ 64))
        else if inward then fillMoves s c op (j * rowTotal) l else .ok []
  match op.kind with
  | .copyIn _ => one true
  | .copyOut _ => one false
  | .copyXx _ =>
    let r2 := shapeOf op.recB
    collect (fun b => do
      let d ← boundsOk { r2 with box := r.box } op.coords none b
      let g ← boundsOk r op.coords none b
      .ok (d.map (fun d => match g with
        | some g => ⟨.glob g, .glob d, unitOf r, fillAt r b⟩
        | none => ⟨.val (fillAt r b), .glob d, unitOf r, fillAt r b⟩))) (sectorBits q total (unitOf r))
  | .fill _ =>
    collect (fun b => do
      let d ← boundsOk r op.coords none b
      .ok (d.map (fun d => ⟨.val (fillAt r b), .glob d, unitOf r, fillAt r b⟩))) (sectorBits q total (unitOf r))
  | .red _ =>
    collect (fun b => do
      let d ← boundsOk r op.coords none b
      let m ← lmPoint s c op b
      .ok (d.map (fun d => ⟨m, .glob d, recBits r, r.fill⟩))) (sectorBits q total (recBits r))
  | .gather _ => rowed true
  | .scatter _ => rowed false
  | _ => .ok []

/-- The value a piece writes: a copy, or a combination with the destination (R288). A reduction whose format is not as
wide as the record's has no stated result: a free value (DESIGN CHOICE, log entry 4). -/
def moveValue (s : State) (op : EngOp) (p d : Spot) (n : Nat) : Nat :=
  match op.kind with
  | .red o =>
    if fmtWidth o.fmt = n then redElem o.op o.fmt (readSpot s d n) (readSpot s p n)
    else (Config.freeV s.sched.freeCtr).toNat
  | _ => readSpot s p n

/-- The address of a point. -/
def pointAddr : Point → Nat
  | .glob b => wrap 64 (b / 8)
  | .lm b => 0xFF80 * 2 ^ 48 + b / 8
  | .val _ => 0

/-- The first poisoned byte of a point found at a spot: its address (R284). -/
def spotPoison (s : State) (p : Spot) (at' : Point) : Option Nat :=
  (p.keys.zipIdx.find? (fun e => poisoned s e.1 1)).map (fun e => pointAddr at' + e.2)

/-- A sector's pieces performed; answers the address of poisoned data that it read: it was then written with the fill value
(R284). -/
def performMoves (s : State) (c : Nat) (op : EngOp) (l : List Move) : Except SectorStop (State × Option Nat) := do
  let red := match op.kind with
    | .red _ => true
    | _ => false
  let (s, ps) ← findMoves c op red s l
  let bad := ps.findSome? (fun e => (spotPoison s e.1 e.2.2.src).or (if red then spotPoison s e.2.1 e.2.2.dst else none))
  let writes := ps.map (fun e =>
    (e.2.1, e.2.2.n, if bad.isSome then e.2.2.fill else moveValue s op e.1 e.2.1 e.2.2.n))
  .ok (draw (writeSpots s (dieNo c) writes), bad)

/-- Reads `n` indices of a gather or scatter, in order (R287) (DEDUCED, log entry 24). -/
def fetchRows (c : Nat) (op : EngOp) : State → Nat → Nat → Except SectorStop (State × List (Option Int))
  | s, _, 0 => .ok (s, [])
  | s, a, n + 1 => do
    let (s, ks, _) ← engineBytes c op .load s (a % 2 ^ 64) 4
    let v := if ks.any (fun k => poisoned s k 1) then none
      else some (sgn 32 (ks.foldr (fun k v => (memGet s.mem k).toNat + 256 * v) 0))
    let (s, r) ← fetchRows c op s (a + 4) n
    .ok (s, v :: r)

/-- The operation writes to global memory the rows of its LM side. -/
def isScatter : EngKind → Bool
  | .scatter _ => true
  | _ => false

/-- The operation with its indices read up to the batch of eight that holds row `j`; the list is released after its last read
(R143, R287). -/
def withRows (s : State) (c slot : Nat) (op : EngOp) (j : Nat) : Except SectorStop (State × EngOp) :=
  let have' := op.rows.length
  if rowCount op.kind = 0 ∨ j < have' then .ok (s, op)
  else do
    let (s, r) ← fetchRows c op s (indexAddr op + 4 * have') (min (rowCount op.kind) (8 * (j / 8 + 1)) - have')
    let op := { op with rows := op.rows ++ r }
    let s := setEngOp s c slot op
    .ok (if op.rows.length = rowCount op.kind then kick (releaseIndex s c op.sb (isScatter op.kind)) c else s, op)

/-! ### The end in error (R284) -/

/-- Fills the LM side of a sector of an inward operation. -/
def fillSector (s : State) (c : Nat) (op : EngOp) (q : Nat) : State :=
  let r := shapeOf op.recA
  let put := fun (l : Except SectorStop (List Move)) =>
    match l with
    | .error _ => s
    | .ok l => match findMoves c op false s l with
      | .ok (s', ps) => writeSpots s' (dieNo c) (ps.map (fun e => (e.2.1, e.2.2.n, readSpot s' e.1 e.2.2.n)))
      | .error _ => s
  -- each unit apart, so that one outside LM leaves the others filled
  match op.kind with
  | .copyIn _ =>
    if q < dataSectors r false then
      (sectorBits q (dataBits r false) (unitOf r)).foldl (fun s b =>
        match fillMoves s c op 0 [b] with
        | .ok l => match findMoves c op false s l with
          | .ok (s', ps) => writeSpots s' (dieNo c) (ps.map (fun e => (e.2.1, e.2.2.n, readSpot s' e.1 e.2.2.n)))
          | .error _ => s
        | .error _ => s) s
    else put (.ok [])
  | .gather _ =>
    put (fillMoves s c op (q / rowSectors op * dataBits r true) (sectorBits (q % rowSectors op) (dataBits r true) (unitOf r)))
  | .get _ => storeKey s (lmKey c (op.xl.toNat % 2 ^ 19 + 32 * q)) 32 0
  | _ => s

/-- The part of a global local end that has not been written is zeroed (R284, R417, R421). -/
def zeroGlobal (s : State) (c : Nat) (op : EngOp) (q : Nat) : State :=
  match engineBytes c op .store s (op.xl.toNat + 32 * q) 32 with
  | .ok (s, ks, us) => settle (storeBytes s (ks.map (fun k => (k, 0)))) (dieNo c) us
  | .error _ => s

/-- Elements of an inward operation that have not been written take the fill value, or zero (R284). -/
def fillUndone (s : State) (c : Nat) (op : EngOp) (qs : List Nat) : State :=
  match op.kind with
  | .copyIn _ => qs.foldl (fun s q => fillSector s c op q) s
  | .gather _ => qs.foldl (fun s q => fillSector s c op q) s
  | .get _ =>
    match classOf s c op.xl with
    | .ownLm _ => qs.foldl (fun s q => fillSector s c op q) s
    | _ => qs.foldl (fun s q => zeroGlobal s c op q) s
  | .blkRd _ => qs.foldl (fun s q => zeroGlobal s c op q) s
  | _ => s

/-- The rows or sectors that an error leaves undone and that are not yet counted in FAIL (R284). -/
def undoneCount (op : EngOp) (qs : List Nat) : Nat :=
  if rowCount op.kind = 0 then (qs.filter (fun q => !op.failed.contains q)).length
  else ((List.range (rowCount op.kind)).filter (fun j =>
    !op.failed.contains j && qs.any (fun q => q / rowSectors op == j))).length

/-- An operation ends in error (R284): fills, counts, sets ERR, subtracts, sends its packet, releases its entry (DEDUCED, log entry 24). -/
def endError (s : State) (c slot code addr : Nat) (wake : Bool) : State :=
  match engOp s c slot with
  | none => s
  | some op =>
    let qs := (List.range (opSectors op)).filter (fun q => !op.counted.contains q)
    let s := fillUndone s c op qs
    let s := updateBar s c op qs.length (undoneCount op qs) (some code)
    let s := opPacket s c slot op (errCode code wake) addr (if errCode code wake = .engineError then code else 0)
    releaseOp s c slot op

/-- The operation ends at acceptance with ECODE 1: ERR is set and nothing is counted or subtracted (R281, R284) (DEDUCED, log entry 24). -/
def endInvalid (s : State) (c slot addr : Nat) : State :=
  match engOp s c slot with
  | none => s
  | some op =>
    let s := updateBar s c op 0 0 (some 1)
    releaseOp (opPacket s c slot op .badRecord addr 0) c slot op

/-- What a sector that cannot perform leads to (R284, R285, R333) (DEDUCED, log entry 24). -/
def sectorStopped (s : State) (c slot : Nat) (op : EngOp) (q : Nat) : SectorStop → State
  | .err code a => endError s c slot code a false
  | .suspend a =>
    opPacket (setEngOp s c slot { op with state := .suspended, faulted := some q, faultAt := a, heldAt := none }) c slot op
      .engineError a 0
  | .held va line w => postSector (setEngOp s c slot { op with heldAt := some (va, line, w) }) c slot op
  | .hold => postSector (setEngOp s c slot { op with heldAt := none }) c slot op
  | .wake f => postSector (wakeFlue s f) c slot op
  | .recall line w =>
    let s := (List.range 8).foldl (fun s d => if d = dieNo c then s else dueEvent s (.directoryRecall d line w)) s
    postSector (setEngOp s c slot { op with heldAt := none }) c slot op
  | .down a => endError s c slot 5 a true

/-! ### Starting and performing (R142, R282, R283) -/

/-- The stream-buffer condition of an operation's start (R189, R282). -/
def streamOk (s : State) (c : Nat) (op : EngOp) : Bool :=
  match sbOf op.kind with
  | none => true
  | some b =>
    let q := streamGet s c b
    decide (sbElems s c op b ≤ (if sbOutput op.kind then streamRoom q else streamCount q))

/-- Another started operation of the core uses the same end of the same stream buffer: R189 and R282 do not say whether a second may
start, and the model holds it (DESIGN CHOICE, log entry 46). -/
def streamBusy (s : State) (c slot : Nat) (op : EngOp) : Bool :=
  match sbOf op.kind with
  | none => false
  | some b => (coreOf s c).eng.queue.any (fun e => e.1 != slot && e.2.state != .queued && sbOf e.2.kind == some b
      && sbOutput e.2.kind == sbOutput op.kind)

/-- The sectors that complete together: those of a whole row whose index is out of range (R287, R303). -/
def sectorGroup (op : EngOp) (q : Nat) : List Nat :=
  if rowBad op (q / rowSectors op) then
    ((List.range (rowSectors op)).map (· + q / rowSectors op * rowSectors op)).filter (fun k => !op.counted.contains k)
  else [q]

/-- Performs the sectors of a group; answers the address of the first poisoned data read. -/
def performGroup (c : Nat) (op : EngOp) : State → List Nat → Except SectorStop (State × Option Nat)
  | s, [] => .ok (s, none)
  | s, q :: t => do
    let m ← sectorMoves s c op q
    let (s, b) ← performMoves s c op m
    let (s, b') ← performGroup c op s t
    .ok (s, b.or b')

/-- The second part of a divided operation waits for the first, and for what its own entry conflicts with (R141, R142). -/
def secondPartHeld (s : State) (c : Nat) (op : EngOp) (q : Nat) : Bool :=
  op.sbScale.isSome && decide (firstPart op ≤ q) && (op.sb.isSome || !mayStart (coreOf s c) op.sbScale)

/-- A sector of a copy, gather, scatter or fill performs and is counted (R283, R286, R287). -/
def copySector (s : State) (c slot : Nat) (op : EngOp) (q : Nat) : State :=
  match (if secondPartHeld s c op q then .error .hold else withRows s c slot op (q / rowSectors op)) with
  | .error e => sectorStopped s c slot op q e
  | .ok (s, op) =>
    let qs := sectorGroup op q
    match performGroup c op s qs with
    | .error e => sectorStopped s c slot op q e
    | .ok (s, bad) =>
      let j := q / rowSectors op
      let key := if rowCount op.kind = 0 then q else j
      match (if rowPoisoned op j then some ((indexAddr op + 4 * j) % 2 ^ 64) else bad) with
      | some a => countSectors (opPacket s c slot op .engineError a 4) c slot op qs [key] (some 4)
      | none => countSectors s c slot op qs (if rowBad op j then [j] else []) none

/-- A started operation of a core whose sector `q` is not yet counted. -/
def runningOp (s : State) (c slot q : Nat) : Option EngOp :=
  (engOp s c slot).filter (fun op => op.state == .running && decide (q < opSectors op) && !op.counted.contains q)

/-- Marks a sector as applied at its home (R289). With the last, the operation has read its LM side for the last time (R143). -/
def markApplied (s : State) (c slot : Nat) (op : EngOp) (q : Nat) : State :=
  let old := smGetD s.pkg.applied (opId c slot op) []
  let s := onPkg s (fun p => { p with applied := smSet p.applied (opId c slot op) (insertNat old q) })
  if (List.range (opSectors op)).all (sectorApplied s c slot op) then kick (releaseReads s c op.sb) c else s

/-- The sector is within the window of 64 beyond the lowest one not yet counted (R289, R357). -/
def inWindow (op : EngOp) (q : Nat) : Bool :=
  decide (q ≤ ((List.range (opSectors op)).find? (fun q => !op.counted.contains q)).getD 0 + 64)

/-- The bytes of Larder shared space that a reducing sector writes, at which the bank's ALU performs (R172, R288). -/
def reducedKeys (s : State) (c : Nat) (op : EngOp) (q : Nat) : List Nat :=
  match sectorMoves s c op q with
  | .error _ => []
  | .ok l => l.flatMap (fun m => match m.dst with
    | .glob b => (List.range (ceilDiv (b.toNat % 8 + m.n) 8)).filterMap (fun i =>
        match classOf s c (BitVec.ofNat 64 (b.toNat / 8 + i)) with
        | .shared o => some (larderKey o)
        | _ => none)
    | _ => [])

/-- REDUCE_SECTOR_APPLY (R288, R289): the home applies a reducing sector once, within its window. -/
def execReduceSectorApply (core slot sector : Nat) (s : State) : Host.Outcome State Fault Refusal :=
  match runningOp s core slot sector with
  | none => .next s
  | some op =>
    if wayOf op.kind != .reduce || !inWindow op sector then .next s
    else if sectorApplied s core slot op sector then .next (dueEvent s (.sectorComplete core slot sector))
    else
      match performGroup core op s [sector] with
      | .error e => .next (sectorStopped s core slot op sector e)
      | .ok (s, bad) =>
        let s := (reducedKeys s core op sector).foldl (fun s k => joinFireAll s (k / 8 * 8) 1) (markApplied s core slot op sector)
        .next (match bad with
          | some a => countSectors (opPacket s core slot op .engineError a 4) core slot op [sector] [sector] (some 4)
          | none => dueEvent s (.sectorComplete core slot sector))

/-! ### Acceptance (R278 to R282) -/

/-- The three coordinate registers of an operation (R48). -/
def coordRegs (xc : Reg) : List Reg := if xc = 0 then [] else [xc, xc + 1, xc + 2]

/-- The six coordinates: two signed halves of each register, or zeros (R48). -/
def coordsOf (l : Lane) (xc : Reg) : List Int :=
  if xc = 0 then List.replicate 6 0
  else (coordRegs xc).flatMap (fun r => [sgn 32 (bits (getX l r).toNat 0 32), sgn 32 (bits (getX l r).toNat 32 32)])

/-- The own-LM start of a command (R278): its offset, or its fault. -/
def lmStart (s : State) (a : X) : Except Stop Nat :=
  match classOf s s.sched.core a with
  | .ownLm o => if atticBase ≤ o then trapAt .lmProtection a else .ok o
  | _ => trapAt .address a

/-- The checks of a record address (R278). -/
def recordAddr (s : State) (a : X) : Except Stop Unit :=
  match classOf s s.sched.core a with
  | .unmapped => trapAt .address a
  | .ownLm o => if atticBase ≤ o then trapAt .lmProtection a else if a.toNat % 64 ≠ 0 then trapAt .misaligned a else .ok ()
  | .otherLm _ o => if atticBase ≤ o then trapAt .lmProtection a else if a.toNat % 64 ≠ 0 then trapAt .misaligned a else .ok ()
  | _ => if a.toNat % 64 ≠ 0 then trapAt .misaligned a else .ok ()

/-- A valid barrier address, or 0 for none: where the barrier is stored (R278). -/
def barPlace (s : State) (a : X) : Except Stop (State × Option Nat) :=
  if a = 0 then .ok (s, none)
  else do
    let (s, p) ← resolve s s.sched.core (ctxOf s s.sched.core (cur s)) .atomic true a 16
    .ok (s, some (placeKey s.sched.core p))

/-- The written end of a command is own LM: every interval that it writes lies in own LM whole, which does not make it irrevocable
(R278, R329). A command that writes nothing is judged by its record's base (DEDUCED, log entry 24). -/
def writtenOwn (base : Nat) (written : List (Int × Int)) : Bool :=
  let own : Int := 0xFF80 * 2 ^ 48
  (if written.isEmpty then [((base : Int), (base : Int))] else written).all (fun e => decide (own ≤ e.1 ∧ e.2 < own + 0x80000))

/-- The intervals that a command writes at its record side: the data's and, of a copy outwards, the scales' (R270, R280). -/
def writtenBounds (kind : EngKind) (ra rb : Nat) (c : List Int) : List (Int × Int) :=
  let r := shapeOf ra
  match kind with
  | .copyXx _ => (recordBounds { shapeOf rb with box := r.box } c false).toList
  | .copyOut _ => (recordBounds r c false).toList ++ (scaleBounds r c).toList
  | .scatter _ => (recordBounds r c true).toList
  | _ => (recordBounds r c false).toList

/-- An operation as it enters the queue. -/
def newOp (s : State) (kind : EngKind) (xs xl xn xb : X) (coords : List Int) (recA recB : Nat) (bar : Option Nat) : EngOp :=
  let c := s.sched.core
  let l := cur s
  { seq := (coreOf s c).eng.seq, lane := s.sched.lane, kind := kind, xs := xs, xl := xl, xn := xn, xb := xb,
    coords := coords, recA := recA, recB := recB, ctx := ctxOf s c l, task := l.firing.task, owner := ownerOf s l.firing.task,
    peers := [],
    launch := (launchOf s c l).map (·.1), state := .queued, counted := [], failed := [], rows := [], faulted := none,
    faultAt := 0, bar := bar, sb := none, sbScale := none, heldAt := none, sbase := streamStart s c kind, sent := 0 }

/-- Takes the entries of an operation; answers their ages. -/
def takeEntries (s : State) (c slot : Nat) : List SbEntry → State × List Nat
  | [] => (s, [])
  | e :: t =>
    let (s, a) := takeEntry s c { e with qslot := slot }
    let (s, as) := takeEntries s c slot t
    (s, a :: as)

/-- Accepts an operation (R279): room in the queue, the scoreboard entries that it takes, of those that hold anything (R141), its slot and
sequence number. `after` then ends it at once or leaves its start due (DEDUCED, log entry 24). -/
def acceptOp (s : State) (op : EngOp) (entries : List SbEntry) (after : State → Nat → Nat → State) : Except Stop State := do
  let c := s.sched.core
  match lowestFree (coreOf s c).eng.queue 32 with
  | none => waitFor .engineQueue
  | some slot =>
    let entries := entries.filter SbEntry.holds
    await (entries.isEmpty || sbRoomFor (coreOf s c) entries.length) .sbEntry
    let (s, ages) := takeEntries s c slot entries
    let s := onCore s c (fun k => { k with eng := { k.eng with seq := k.eng.seq + 1 } })
    .ok (after (setEngOp s c slot { op with sb := ages[0]?, sbScale := ages[1]? }) c slot)

/-- The start of an accepted operation is due. -/
def dueStart (s : State) (c slot : Nat) : State := dueEvent s (.asyncOpStart c 0 slot)

/-- The own-LM end of a data mover: first and last byte offset from xl (R280). -/
def lmEnd (op : EngOp) : Span :=
  let r := shapeOf op.recA
  let o := op.xl.toNat % 2 ^ 19
  let data := if rowCount op.kind = 0 then ceilDiv (dataBits r false) 8
    else ceilDiv (rowCount op.kind * dataBits r true) 8
  let hi := if r.swz = 0 then data - 1 else (data - 1) / 128 * 128 + 127
  let hi := match op.kind with
    | .copyIn _ => if r.scale = 0 then hi else max hi (ceilDiv data 32 * 32 + scaleBytes r - 1)
    | .copyOut _ => if r.scale = 0 then hi else max hi (ceilDiv data 32 * 32 + scaleBytes r - 1)
    | _ => hi
  (granule o, granule (min (o + hi) 0x7FFFF))

/-- The slot area of a stream buffer (R282). -/
def sbArea (s : State) (b : Nat) : Option Span :=
  let q := streamGet s s.sched.core b
  spanOf q.base (q.base + q.size * esize q - 1)

/-- The own-LM interval of an index list (R280). -/
def indexSpan (op : EngOp) : Option Span :=
  let own := 0xFF80 * 2 ^ 48
  let a := indexAddr op % 2 ^ 64
  if own ≤ a ∧ a < own + 0x80000 then spanOf (a - own) (min (a - own + 4 * rowCount op.kind - 1) 0x7FFFF) else none

/-- The scoreboard entries of a data mover (R280, R282): two when it writes both a record's data and its scales in own LM, and so is
divided (R141) (DEDUCED, log entry 24). -/
def moverEntries (s : State) (op : EngOp) : List SbEntry :=
  let e := sbEmpty s.sched.lane
  let r := shapeOf op.recA
  let side := fun (w : Nat) => recordSpan (shapeOf w) op.coords (rowCount op.kind != 0)
  let lm := match sbOf op.kind with
    | some b => sbArea s b
    | none => some (lmEnd op)
  match op.kind with
  | .copyIn _ => [{ e with wr := lm, rda := side op.recA, rdb := scaleSpan r op.coords }]
  | .copyOut _ =>
    match side op.recA, scaleSpan r op.coords with
    | some d, some x => [{ e with rda := lm, wr := some d }, { e with rda := lm, wr := some x }]
    | d, x => [{ e with rda := lm, wr := d.or x }]
  | .red _ => [{ e with rda := lm, wr := side op.recA }]
  | .gather _ => [{ e with wr := lm, rda := indexSpan op, rdb := side op.recA }]
  | .scatter _ => [{ e with rda := lm, rdb := indexSpan op, wr := side op.recA }]
  | .copyXx _ => [{ e with rda := side op.recA, wr := recordSpan { shapeOf op.recB with box := r.box } op.coords false }]
  | .fill _ => [{ e with wr := side op.recA }]
  | _ => [e]

/-- The conditions that end a valid command in error at its acceptance (R269, R270, R282): ECODE 3, with the failing address: xl, the
box's first element, its scales or the buffer's slots (DEDUCED, log entry 24). -/
def acceptError (s : State) (op : EngOp) : Option Nat :=
  let r := shapeOf op.recA
  let rank1 := rowCount op.kind != 0 && r.rank == 1
  let usesLm := match op.kind with
    | .copyXx _ => false
    | .fill _ => false
    | _ => (sbOf op.kind).isNone
  let scales := match op.kind with
    | .copyIn _ => true
    | .copyOut _ => true
    | _ => false
  let sbBad := (sbOf op.kind).bind (fun b =>
    let q := streamGet s s.sched.core b
    if q.size = 0 ∨ q.size < sbElems s s.sched.core op b then some (0xFF80 * 2 ^ 48 + q.base) else none)
  if usesLm && r.swz != 0 && op.xl.toNat % 128 != 0 then some op.xl.toNat
  else if !rank1 && !wholeBytes r op.coords then some (elementAddr r op.coords none 0)
  else if scales && !wholeScales r op.coords then some r.scale
  else sbBad

/-- The registers and forms of a data mover. -/
structure MoverArgs where
  kind : EngKind
  xs : Reg
  xc : Reg
  xl : Reg
  xn : Reg
  xb : Reg
  nosb : Bool
  /-- It has an own-LM end named by xl. -/
  lmEnd : Bool
  /-- It writes its record's global side. -/
  writes : Bool
  /-- XCOPY takes the format .raw32. -/
  raw : Bool

/-- A data mover at issue (R277 to R282). -/
def moverOp (g : MoverArgs) (s : State) : Except Stop State := do
  let l := cur s
  let c := s.sched.core
  let two := match g.kind with
    | .copyXx _ => true
    | _ => false
  let ix := match g.kind with
    | .gather _ => true
    | .scatter _ => true
    | _ => false
  gate l ([.x (plain g.xs)] ++ (coordRegs g.xc).map (fun r => Opnd.x (plain r)) ++
    (if g.lmEnd then [.x (plain g.xl)] else []) ++ [.x (plain g.xb)] ++
    (if two || ix then [.x (plain g.xn)] else [])) []
  if g.lmEnd then
    let _ ← lmStart s (getX l g.xl)
  recordAddr s (getX l g.xs)
  if two then recordAddr s (getX l g.xn)
  let (s, bar) ← barPlace s (getX l g.xb)
  let (s, ra) ← readRecord s c l (getX l g.xs)
  let (s, rb) ← if two then readRecord s c l (getX l g.xn) else .ok (s, 0)
  if g.writes && !writtenOwn (bits (if two then rb else ra) 0 64) (writtenBounds g.kind ra rb (coordsOf l g.xc)) then irrevocable l
  let op := newOp s g.kind (getX l g.xs) (if g.lmEnd then getX l g.xl else 0) (getX l g.xn) (getX l g.xb)
    (coordsOf l g.xc) ra rb bar
  let a := shapeOf ra
  let b := shapeOf rb
  if !recordValid g.raw ra then acceptOp s op [] (fun s c slot => endInvalid s c slot (getX l g.xs).toNat)
  else if two && (!recordValid g.raw rb || a.fmt != b.fmt || a.rank != b.rank) then
    acceptOp s op [] (fun s c slot => endInvalid s c slot (getX l g.xn).toNat)
  else
    acceptOp s op (if g.nosb then [] else moverEntries s op) (fun s c slot =>
      match acceptError s op with
      | some at' => endError s c slot 3 at' false
      | none => dueStart s c slot)

/-- `XCOPY.in xl, xs, xc, xb` (R277). -/
def execXcopyIn (o : XcopyOp) : State → Host.Outcome State Fault Refusal :=
  stateOp 8 (moverOp ⟨.copyIn o, o.xs, o.xc, o.xl, 0, o.xb, o.nosb, !o.sb, false, true⟩)

/-- `XCOPY.out xl, xs, xc, xb` (R277). -/
def execXcopyOut (o : XcopyOp) : State → Host.Outcome State Fault Refusal :=
  stateOp 8 (moverOp ⟨.copyOut o, o.xs, o.xc, o.xl, 0, o.xb, o.nosb, !o.sb, true, true⟩)

/-- `XCOPY.xx xn, xs, xc, xb` (R277). -/
def execXcopyXx (o : XxOp) : State → Host.Outcome State Fault Refusal :=
  stateOp 8 (moverOp ⟨.copyXx o, o.xs, o.xc, 0, o.xn, o.xb, o.nosb, false, true, true⟩)

/-- `XGATHER xl, xs, xc, xn, xb, #cnt` (R277). -/
def execXgather (o : XgatherOp) : State → Host.Outcome State Fault Refusal :=
  stateOp 8 (moverOp ⟨.gather o, o.xs, o.xc, o.xl, o.xn, o.xb, o.nosb, true, false, false⟩)

/-- `XSCATTER xl, xs, xc, xn, xb, #cnt` (R277). -/
def execXscatter (o : XgatherOp) : State → Host.Outcome State Fault Refusal :=
  stateOp 8 (moverOp ⟨.scatter o, o.xs, o.xc, o.xl, o.xn, o.xb, o.nosb, true, true, false⟩)

/-- `XRED.op.fmt xl, xs, xc, xb` (R277). -/
def execXred (o : XredOp) : State → Host.Outcome State Fault Refusal :=
  stateOp 8 (moverOp ⟨.red o, o.xs, o.xc, o.xl, 0, o.xb, o.nosb, !o.sb, true, false⟩)

/-- `XFILL xs, xc, xb` (R277). -/
def execXfill (o : XfillOp) : State → Host.Outcome State Fault Refusal :=
  stateOp 8 (moverOp ⟨.fill o, o.xs, o.xc, 0, 0, o.xb, o.nosb, false, true, false⟩)

/-! ### Supervisor control (R285) -/

/-- The supervisor of die `d` reaches a window: core `who` is one of the die's own supervisor cores (R217, R253). -/
def ownSup (who d : Nat) : Bool := isSup who && dieNo who == d

/-- A fail: the operation ends with ECODE 3 (R285). -/
def failOp (s : State) (c slot : Nat) : State :=
  match engOp s c slot with
  | some op => if op.state == .suspended then endError s c slot 3 op.faultAt false else s
  | none => s

/-- The address that the lowest sector not yet counted reaches outside the core. -/
def sectorAddr (s : State) (c : Nat) (op : EngOp) : Nat :=
  let q := ((List.range (opSectors op)).find? (fun q => !op.counted.contains q)).getD 0
  match wayOf op.kind, sectorMoves s c op q with
  | .bank, _ => op.xs.toNat + 32 * q
  | _, .ok l => (l.findSome? (fun m => match m.src, m.dst with
      | .glob b, _ => some (wrap 64 (b / 8))
      | _, .glob b => some (wrap 64 (b / 8))
      | _, _ => none)).getD 0
  | _, .error _ => 0

/-- DIE_UNRESPONSIVE (R211, R214, R284, R367): a request of lane `lane`, or of the started engine operation in slot `lane - 16`, has
had no response; such an operation ends with ECODE 5 (DEDUCED, log entry 37). -/
def execDieUnresponsive (core lane : Nat) (s : State) : Host.Outcome State Fault Refusal :=
  .next (if lane < 16 then laneUnresponsive core lane s
    else match engOp s core (lane - 16) with
      | some op =>
        if op.state == .running && wayOf op.kind != .outside then endError s core (lane - 16) 5 (sectorAddr s core op) false else s
      | none => s)

/-- ENGCTL_FAIL (R285). -/
def execEngctlFail (who core slot : Nat) (s : State) : Host.Outcome State Fault Refusal :=
  .next (if ownSup who (dieNo core) then failOp s core slot else s)

end Sys2Proof.Machine
end

