-- ==== Sys2Proof/Machine/BankOps.lean ====
section
/-! DEFINITION. The Larder's bank ALU operations BOP, BRED and BVEC (R354 to R357). -/

namespace Sys2Proof.Machine

/-- Shared-space offset of a range of `n` sectors, or its fault (R355): class and range, then alignment. -/
def sharedRange (s : State) (a : X) (n : Nat) : Except Stop Nat :=
  match classOf s s.sched.core a with
  | .shared o =>
    if sharedSize s < o + 32 * n then trapAt .address a
    else if o % 32 ≠ 0 then trapAt .misaligned a else .ok o
  | _ => trapAt .address a

/-- Own-LM offset of a source of `n` sectors, or its fault (R355, R420). -/
def lmRange (s : State) (a : X) (n : Nat) : Except Stop Nat := do
  let o ← lmStart s a
  if atticBase < o + 32 * n then trapAt .lmProtection a
  else if o % 32 ≠ 0 then trapAt .misaligned a else .ok o

/-- A bank operation at issue (R355): irrevocable, its checks, and acceptance. -/
def bankIssue (srcs : List Reg) (xb : Reg) (check : Lane → State → Except Stop Unit) (mk : Lane → EngKind × X × X × X)
    (entries : Lane → List SbEntry) (s : State) : Except Stop State := do
  let l := cur s
  irrevocable l
  gate l (srcs.map (fun r => Opnd.x (plain r))) []
  check l s
  let (s, bar) ← barPlace s (getX l xb)
  let (kind, xs, xl, xn) := mk l
  let op := newOp s kind xs xl xn (getX l xb) [] 0 0 bar
  let a := xs.toNat
  let b := xn.toNat
  let overlap := match kind with
    | .bvec o => decide (a ≠ b ∧ a < b + 32 * (o.n.toNat + 1) ∧ b < a + 32 * (o.n.toNat + 1))
    | _ => false
  acceptOp s op (entries l) (fun s c slot => if overlap then endError s c slot 3 a false else dueStart s c slot)

/-- `BOP.op.fmt xs, xn, xb, #n` (R354). -/
def execBop (o : BopOp) : State → Host.Outcome State Fault Refusal :=
  stateOp 8 (bankIssue [o.xs, o.xb, o.xn] o.xb
    (fun l s => do let _ ← sharedRange s (getX l o.xs) (o.n.toNat + 1))
    (fun l => (.bop o, getX l o.xs, 0, getX l o.xn)) (fun _ => []))

/-- `BRED.op.fmt xl, xs, xb, #n` (R354). -/
def execBred (o : BredOp) (s : State) : Host.Outcome State Fault Refusal :=
  let n := o.n.toNat + 1
  stateOp 8 (bankIssue [o.xs, o.xl, o.xb] o.xb
    (fun l s => do
      let _ ← sharedRange s (getX l o.xs) n
      let _ ← lmRange s (getX l o.xl) n)
    (fun l => (.bred o, getX l o.xs, getX l o.xl, 0))
    (fun l => if o.nosb then []
      else
        let a := (getX l o.xl).toNat % 2 ^ 19
        [{ sbEmpty s.sched.lane with rda := spanOf a (a + 32 * n - 1) }])) s

/-- `BVEC.op.fmt xs, xn, xb, #n` (R354). -/
def execBvec (o : BvecOp) : State → Host.Outcome State Fault Refusal :=
  stateOp 8 (bankIssue [o.xs, o.xb, o.xn] o.xb
    (fun l s => do
      let _ ← sharedRange s (getX l o.xs) (o.n.toNat + 1)
      let _ ← sharedRange s (getX l o.xn) (o.n.toNat + 1))
    (fun l => (.bvec o, getX l o.xs, 0, getX l o.xn)) (fun _ => []))

/-- The 32 bytes that a bank operation combines, with the address of the first of them that is poisoned (R284, R356). -/
def bankSource (s : State) (c : Nat) (op : EngOp) (q : Nat) : Nat × Option Nat :=
  match op.kind with
  | .bop o =>
    let w := fmtWidth o.fmt
    (packElems w (List.replicate (256 / w) op.xn.toNat), none)
  | .bred _ =>
    let k := lmKey c (op.xl.toNat % 2 ^ 19 + 32 * q)
    (memRead s.mem k 32, (poisonByte s k 32).map (fun i => op.xl.toNat + 32 * q + i))
  | _ => (memRead s.mem (larderKey (op.xn.toNat % 2 ^ 48 + 32 * q)) 32, none)

/-- A sector after a bank operation (R356). -/
def bankResult (op : EngOp) (d v : Nat) : Nat :=
  match op.kind with
  | .bop o =>
    match o.op with
    | .set => v
    | .add => redSector .add o.fmt d v
    | .min => redSector .min o.fmt d v
    | .max => redSector .max o.fmt d v
    | .and => redSector .and o.fmt d v
    | .or => redSector .or o.fmt d v
    | .xor => redSector .xor o.fmt d v
  | .bred o => redSector o.op o.fmt d v
  | .bvec o => redSector o.op o.fmt d v
  | _ => d

/-- BANK_SECTOR_APPLY (R289, R356, R357): a bank applies a sector once, within its window and after those of the core's earlier operations. A
poisoned source is written as an open value and counted (R284, R360) (DEDUCED, log entry 17). -/
def execBankSectorApply (core slot sector : Nat) (s : State) : Host.Outcome State Fault Refusal :=
  match runningOp s core slot sector with
  | none => .next s
  | some op =>
    if wayOf op.kind != .bank || !inWindow op sector then .next s
    else if sectorApplied s core slot op sector then .next (dueEvent s (.sectorComplete core slot sector))
    else
      let off := op.xs.toNat % 2 ^ 48 + 32 * sector
      if bankPending s core off op.seq then .next (dueEvent s (.bankSectorApply core slot sector))
      else match engineReach (pathShared s (dieNo core) off) (op.xs.toNat + 32 * sector) with
      | .error e => .next (sectorStopped s core slot op sector e)
      | .ok () =>
        let (v, bad) := bankSource s core op sector
        let key := larderKey off
        let new := if bad.isSome then (Config.freeV s.sched.freeCtr).toNat % 2 ^ 256 else bankResult op (memRead s.mem key 32) v
        let s := joinFireAll (markApplied (draw (storeKey s key 32 new)) core slot op sector) key 32
        .next (match bad with
          | some a => countSectors (opPacket s core slot op .engineError a 4) core slot op [sector] [sector] (some 4)
          | none => dueEvent s (.sectorComplete core slot sector))

end Sys2Proof.Machine
end

