-- ==== Sys2Proof/Machine/Barriers.lean ====
section
/-! DEFINITION. Barriers of the core, quad, die, package and pod: BAR, BARA and BARW (R368 to R370), their configuration
and forced releases (R371), and the messages of pod barriers (R427). -/

namespace Sys2Proof.Machine

/-! ### The barriers (R368) -/

/-- An index of one of eight. -/
def ix8 (i : Nat) : Fin 8 := ⟨i % 8, Nat.mod_lt _ (by decide)⟩

/-- Number of barrier IDs of a scope (R368). -/
def barrierIds : Scope → Nat
  | .core => 8 | .quad => 8 | .die => 32 | .pkg => 64 | .pod => 64 | .none => 0

/-- Most arrivals that a core or quad barrier accepts (R368, R370). -/
def barrierLimit (sc : Scope) : Nat := if sc = .core then 16 else 64

/-- The configured barrier of a die, package or pod scope seen from die `d`. -/
def netBarrier (s : State) (sc : Scope) (d id : Nat) : NetBarrier :=
  match sc with
  | .die => smGetD (dieOf s d).bars id NetBarrier.reset
  | .pkg => smGetD s.pkg.bars id NetBarrier.reset
  | .pod => smGetD s.pkg.podBars id NetBarrier.reset
  | _ => NetBarrier.reset

/-- Replaces a configured barrier. -/
def setNetBarrier (s : State) (sc : Scope) (d id : Nat) (b : NetBarrier) : State :=
  match sc with
  | .die => onDie s d (fun x => { x with bars := smSet x.bars id b })
  | .pkg => onPkg s (fun p => { p with bars := smSet p.bars id b })
  | .pod => onPkg s (fun p => { p with podBars := smSet p.podBars id b })
  | _ => s

/-- The barrier of a scope seen from core `c`. -/
def barrierOf (s : State) (c : Nat) (sc : Scope) (id : Nat) : Barrier :=
  match sc with
  | .core => (coreOf s c).ctl.bars[ix8 id]
  | .quad => (quadOf s (quadNo c)).bars[ix8 id]
  | sc => (netBarrier s sc (dieNo c) id).bar

/-- Replaces the barrier of a scope seen from core `c`. -/
def setBarrier (s : State) (c : Nat) (sc : Scope) (id : Nat) (b : Barrier) : State :=
  match sc with
  | .core => onCore s c (fun k => { k with ctl := { k.ctl with bars := k.ctl.bars.set (ix8 id) b } })
  | .quad => onQuad s (quadNo c) (fun q => { q with bars := q.bars.set (ix8 id) b })
  | sc => setNetBarrier s sc (dieNo c) id { netBarrier s sc (dieNo c) id with bar := b }

/-- The barrier is granted to the issuing firing (R35, R368): configured ones to the launch that they name. -/
def barrierGranted (s : State) (sc : Scope) (id : Nat) : Bool :=
  match sc with
  | .core => true
  | .quad => true
  | sc =>
    let b := netBarrier s sc (dieNo s.sched.core) id
    b.v && (launchOf s s.sched.core (cur s)).map (·.1) == some b.launch

/-- The phase ends: PHASE advances and COUNT is 0 (R370). -/
def advanceBar (b : Barrier) : Barrier := { b with phase := (b.phase + 1) % 16, count := 0 }

/-- All arrivals of the phase are in, so that a pod barrier waits for its release (R427). -/
def allArrived (b : Barrier) : Bool := b.count == b.expect && b.expect != 0

/-- A status and a phase as xd holds them (R370). -/
def barrierWord (status phase : Nat) : X := BitVec.ofNat 64 (status * 2 ^ 60 + phase % 16)

/-- The rank of a launch in its pod group, when it has one (R413). -/
def launchRank (s : State) (launch : Nat) : Option Nat :=
  match smGet s.pkg.launches launch with
  | some x => if x.gv then some x.rank else none
  | none => none

/-- One arrival (R370). The last of a pod barrier's local arrivals sends the package's arrival to rank 0, which is this
package itself or another (R427). -/
def arriveBar (s : State) (c : Nat) (sc : Scope) (id : Nat) : State :=
  let b := barrierOf s c sc id
  let b' := { b with count := b.count + 1 }
  if sc = .pod then
    let s := setBarrier s c sc id b'
    if allArrived b' && launchRank s (netBarrier s .pod 0 id).launch == some 0 then dueEvent s (.podBarrierArrival id) else s
  else setBarrier s c sc id (if b'.count = b'.expect then advanceBar b' else b')

/-- What BAR, BARA and BARW do at a barrier. -/
inductive BarDo where
  | both | arrive | wait
  deriving DecidableEq, Repr

/-- The lane completes with its status word, or waits for the phase to end (R370). -/
def awaitPhase (s : State) (o : BarOp) (ph : Nat) : State :=
  let c := s.sched.core
  let p := (barrierOf s c o.scope o.id.toNat).phase
  if p ≠ ph then setCur s (retire 8 (putX (cur s) o.d (barrierWord 0 p)))
  else setCur s (blocked (cur s) (.barrier o.scope (dieNo c) o.id.toNat ph o.d))

/-- A barrier instruction (R370). An arrival waits until the lane's earlier accesses have performed. -/
def barOp (what : BarDo) (o : BarOp) (s : State) : Host.Outcome State Fault Refusal :=
  if !guardOn (cur s) o.guard then .next (setCur s (retire 8 (cur s)))
  else finish s (do
    let l := cur s
    irrevocable l
    gate l [.x o.a] [.x o.d]
    let c := s.sched.core
    let id := o.id.toNat
    let k := kill l [.x o.a]
    let answer := fun (w : X) => setCur s (retire 8 (putX k o.d w))
    if !barrierGranted s o.scope id then .ok (answer (barrierWord 1 0))
    else
      let b := barrierOf s c o.scope id
      let a := (getX l o.a.reg).toNat
      if what = .wait then .ok (awaitPhase (setCur s k) o (a % 16))
      else
        let own := o.scope == .core || o.scope == .quad
        let n := a % 2 ^ 16
        if own && (n == 0 || decide (barrierLimit o.scope < n) || (decide (0 < b.count) && n != b.expect)) then
          .ok (answer (barrierWord 2 0))
        else do
          await (decide (l.lcnt = 0 ∧ l.scnt = 0)) (.counters 0 0)
          await (!(o.scope == .pod && allArrived b)) (.podRelease id)
          let s := setCur s k
          let s := if own && b.count == 0 then setBarrier s c o.scope id { b with expect := n } else s
          let s := arriveBar s c o.scope id
          if what = .arrive then .ok (setCur s (retire 8 (putX (cur s) o.d (barrierWord 0 b.phase))))
          else .ok (awaitPhase s o b.phase))

/-- `BAR xd, #id, xa` (R369, R370). -/
def execBar (o : BarOp) : State → Host.Outcome State Fault Refusal := barOp .both o

/-- `BARA xd, #id, xa` (R369, R370). -/
def execBara (o : BarOp) : State → Host.Outcome State Fault Refusal := barOp .arrive o

/-- `BARW xd, #id, xa` (R369, R370). -/
def execBarw (o : BarOp) : State → Host.Outcome State Fault Refusal := barOp .wait o

/-! ### Forced releases and configuration (R371, R427) -/

/-- A lane waits at a barrier of a die, package or pod scope. -/
def waitsAt (sc : Scope) (d id : Nat) : Option Wait → Option Reg
  | some (.barrier sc' d' id' _ r) => if sc' = sc ∧ id' = id ∧ (sc ≠ .die ∨ d' = d) then some r else none
  | _ => none

/-- Applies a function to every lane of the machine. -/
def onAllLanes (s : State) (f : Nat → Lane → Lane) : State :=
  { s with cores := s.cores.map (fun e => (e.1, { e.2 with lanes := e.2.lanes.map (f e.1) })) }

/-- FORCE (R371): PHASE advances, COUNT is 0, and every waiting lane is released with status 3 (DEDUCED, log entry 27). -/
def forceBarrier (s : State) (sc : Scope) (d id : Nat) : State :=
  let b := netBarrier s sc d id
  let s := setNetBarrier s sc d id { b with bar := advanceBar b.bar }
  onAllLanes s (fun _ l =>
    match waitsAt sc d id l.wait with
    | some r => { l with wait := some (.barrierForced sc d id r) }
    | none => l)

/-- BARRIER_FORCE (R371): a supervisor writes FORCE of a die or package barrier. -/
def execBarrierForce (who : Nat) (scope : Scope) (die id : Nat) (s : State) : Host.Outcome State Fault Refusal :=
  .next (if isSup who && decide (die < 8) && ((scope == .die && decide (id < 32)) || (scope == .pkg && decide (id < 64))) then
    forceBarrier s scope die id else s)

/-- POD_BARRIER_FORCE (R427). -/
def execPodBarrierForce (who id : Nat) (s : State) : Host.Outcome State Fault Refusal :=
  .next (if isSup who && decide (id < 64) then forceBarrier s .pod 0 id else s)

/-- POD_BARRIER_ARRIVAL (R427): rank 0 counts a package's arrival, and releases every member with the last. -/
def execPodBarrierArrival (id : Nat) (s : State) : Host.Outcome State Fault Refusal :=
  let b := netBarrier s .pod 0 id
  .next (if b.v && launchRank s b.launch == some 0 then
    if b.npkg < b.pcount + 1 then dueEvent (setNetBarrier s .pod 0 id { b with pcount := 0 }) (.podBarrierRelease id)
    else setNetBarrier s .pod 0 id { b with pcount := b.pcount + 1 }
  else s)

/-- POD_BARRIER_RELEASE (R427): the package that has completed its arrivals advances PHASE, which frees its waiters (DEDUCED, log entry 27). -/
def execPodBarrierRelease (id : Nat) (s : State) : Host.Outcome State Fault Refusal :=
  let b := netBarrier s .pod 0 id
  .next (if b.v && allArrived b.bar then setNetBarrier s .pod 0 id { b with bar := advanceBar b.bar } else s)

/-- The low doubleword of a barrier's configuration as it reads (R371, R427). -/
def barrierLow (pod : Bool) (b : NetBarrier) : Nat :=
  b.bar.expect % 2 ^ 16 + b.bar.count % 2 ^ 16 * 2 ^ 16 + (if pod then b.pcount % 2 ^ 14 * 2 ^ 34 else 0)
    + b.bar.phase % 16 * 2 ^ 48 + b.v.toNat * 2 ^ 63

/-- The high doubleword: LAUNCH, and the group of a pod barrier. -/
def barrierHigh (pod : Bool) (b : NetBarrier) : Nat :=
  b.launch % 2 ^ 32 * 2 ^ 32 + (if pod then b.group % 2 ^ 16 * 2 ^ 16 + b.npkg % 2 ^ 14 * 4 else 0)

/-- A write of the low doubleword (R371): a changed EXPECT is dropped while COUNT is not 0, and V needs an EXPECT. -/
def writeBarrierLow (s : State) (sc : Scope) (d id w : Nat) : State :=
  let b := netBarrier s sc d id
  let e := if b.bar.count ≠ 0 then b.bar.expect else w % 2 ^ 16
  let s := setNetBarrier s sc d id { b with v := bit w 63 && w % 2 ^ 16 != 0, bar := { b.bar with expect := e } }
  if bit w 62 then forceBarrier s sc d id else s

/-- A write of the high doubleword. -/
def writeBarrierHigh (s : State) (sc : Scope) (d id w : Nat) : State :=
  let b := netBarrier s sc d id
  let b := { b with launch := bits w 32 32 }
  setNetBarrier s sc d id (if sc = .pod then { b with group := bits w 16 16, npkg := bits w 2 14 } else b)

end Sys2Proof.Machine
end

