-- ==== Sys2Proof/Machine/Coherence.lean ====
section
/-! DEFINITION. The steps of the token protocol and of the package directory (R254 to R258, R353), and page walks that complete
(R264, R265). What a line's bytes are does not depend on them: memory holds every line's current data. -/

namespace Sys2Proof.Machine

/-- PAGE_WALK_COMPLETE (R264, R265): a walk for core `core` sets A and D and fills its TLBs, under the context of the launch
that holds the core. A walk that has no way to its entries does not complete (R358). -/
def execPageWalkComplete (core : Nat) (va : X) (acc : Access) (s : State) : Host.Outcome State Fault Refusal :=
  let ctx := match launchAt s core with
    | some (_, x) => some (ctxOnDie x (dieNo core))
    | none => s.sched.fwCtx
  .next (match ctx with
    | none => s
    | some ctx => if namesCore core && decide (va.toNat < 2 ^ 56) && walkWay s core ctx va.toNat == .opened then (pageWalk s core ctx va.toNat acc).elim s (·.1) else s)

/-- The tokens that an access needs go to core `c` (DESIGN CHOICE, log entry 28). -/
def serve (s : State) (c line : Nat) (write : Bool) : State :=
  let s := roomL1 s c line
  let t := tokensOf s (dieNo c) line
  setTokens s (dieNo c) line (if write then takeAll c t else takeToken c t)

/-- Core `c` asks for a line already (DESIGN CHOICE, log entry 28). -/
def asks (l : List TokenReq) (c : Nat) : Bool := l.any (fun r => r.core == c)

/-- Core `c` has a persistent request for a line at its slice. -/
def persists (s : State) (c line : Nat) : Bool :=
  (asksOf s (dieNo c) line).any (fun r => r.line == line && r.core == some c)

/-- A line of HBM and a core of the package. -/
def lineCore (core line : Nat) : Bool := namesCore core && decide (line < 2 ^ 40 ∧ line % 64 = 0)

/-- TRANSIENT_REQUEST (R256): the home slice, or the holders, send the tokens; while the die lacks them, and asks the directory
for them (R353), or a persistent request is active for the line, the request stays. -/
def execTransientRequest (core line : Nat) (write : Bool) (s : State) : Host.Outcome State Fault Refusal :=
  let d := dieNo core
  let t := tokensOf s d line
  .next (if !lineCore core line then s
    else if dieCan s d line write && (activeAsk s d line).isNone then
      let s := serve s core line write
      setTokens s d line { tokensOf s d line with transient := t.transient.filter (fun r => r.core ≠ core) }
    else if asks t.transient core || persists s core line then s
    else
      let s := setTokens s d line { t with transient := t.transient ++ [⟨core, write, 0⟩] }
      if dieCan s d line write then s else dueEvent s (.directoryRequest d line write))

/-- TRANSIENT_TIMEOUT (R256): an attempt has failed, and the requester tries again. -/
def execTransientTimeout (core line : Nat) (s : State) : Host.Outcome State Fault Refusal :=
  let d := dieNo core
  let t := tokensOf s d line
  .next (if !asks t.transient core then s
    else setTokens s d line { t with transient := t.transient.map (fun r =>
      if r.core = core then { r with attempts := min 8 (r.attempts + 1) } else r) })

/-- The die's home slice gives a line back, or keeps it for reading with its data written back (R257). -/
def giveBack (s : State) (d line : Nat) (all : Bool) : State :=
  let e := directoryOf s line
  if all then setDirectory (surrender s line d) line (dirWithout e d)
  else setDirectory (setTokens s d line { tokensOf s d line with dirty := false }) line { e with exclusive := false }

/-- The first of a slice's requests that satisfies `p` leaves it. -/
def dropAsk (s : State) (d line : Nat) (p : TokenAsk → Bool) : State := setAsks s d line ((asksOf s d line).eraseP p)

/-- The active persistent request of a line has the line's tokens forwarded to it, or its die asks the directory for them (R256);
the home slice's own request is served at once, and the next one becomes active (R257) (DESIGN CHOICE, log entry 28). -/
def activate (s : State) (d line : Nat) : State :=
  let go := fun (s : State) => match activeAsk s d line with
    | some ⟨_, some c, w⟩ =>
      if dieCan s d line w then dueEvent (serve s c line w) (.persistentDeactivate d line)
      else dueEvent s (.directoryRequest d line w)
    | _ => s
  match activeAsk s d line with
  | some ⟨_, none, w⟩ => go (giveBack (dropAsk s d line (fun r => r.line == line && r.core.isNone)) d line w)
  | _ => go s

/-- The request that has just entered a slice's table is active when no older one of its line is (R256). -/
def takeWaiting (s : State) (d line : Nat) : State :=
  match (asksOf s d line)[63]? with
  | some r => if activeAsk s d r.line = some r && r.line != line then activate s d r.line else s
  | none => s

/-- PERSISTENT_REQUEST (R256): after eight failed attempts the request joins the slice's table, or waits for it, in order of
arrival; it is active when it is the oldest of its line there. -/
def execPersistentRequest (core line : Nat) (s : State) : Host.Outcome State Fault Refusal :=
  let d := dieNo core
  let t := tokensOf s d line
  .next (match t.transient.find? (fun r => r.core == core && decide (8 ≤ r.attempts)) with
    | none => s
    | some r =>
      let first := (activeAsk s d line).isNone
      let s := setTokens s d line { t with transient := t.transient.filter (fun x => x.core ≠ core) }
      let s := setAsks s d line (asksOf s d line ++ [⟨line, some core, r.write⟩])
      if first && (activeAsk s d line).isSome then activate s d line else s)

/-- A lane of core `c` still waits for the tokens of a line (DESIGN CHOICE, log entry 28). -/
def laneAsks (s : State) (c line : Nat) : Bool :=
  (coreOf s c).lanes.toList.any (fun l => l.status == .blocked && (match l.wait with
    | some (.tokens k _ _) => k == line
    | _ => false))

/-- PERSISTENT_DEACTIVATE (R256): the active request's access has performed, and the next one becomes active. While a lane has yet to
make that access it does not deactivate. -/
def execPersistentDeactivate (die line : Nat) (s : State) : Host.Outcome State Fault Refusal :=
  .next (match activeAsk s die line with
    | some ⟨l, some c, w⟩ =>
      if laneAsks s c line then dueEvent s (.persistentDeactivate die line)
      else if dieCan s die line w then takeWaiting (activate (dropAsk s die line (· == ⟨l, some c, w⟩)) die line) die line else s
    | _ => s)

/-- A step of the protocol goes over its way, waits for it, waking a Drowsy flue, or fails and is lost (R366, R367, R438). -/
def overWay (s : State) (p : Path) (again : Due) (go : State) : State :=
  match p with
  | .opened => go
  | .waking f => dueEvent (wakeFlue s f) again
  | .notReady _ => dueEvent s again
  | _ => s

/-- The directory grants a die a line, or waits for the dies that must give it up while their own active request performs (R257, R353). -/
def grantLine (s : State) (die line : Nat) (write : Bool) : State :=
  let busy := recallWaits s (some die) line write
  if !busy.isEmpty then
    dueEvent (busy.foldl (fun s e => askBack s e line write) s) (.directoryRequest die line write)
  else
    let s := if write then grantWrite s die line else grantRead s die line
    if (activeAsk s die line).isSome then activate s die line else s

/-- DIRECTORY_REQUEST (R353): the directory recalls or downgrades the line in the dies that hold it, and grants it. A die in reset asks
for nothing (R373, R376). -/
def execDirectoryRequest (die line : Nat) (write : Bool) (s : State) : Host.Outcome State Fault Refusal :=
  .next (if !(decide (die < 8 ∧ line < 2 ^ 40 ∧ line % 64 = 0 ∧ (dieOf s die).rst ≠ 2)) || dieCan s die line write then s
    else overWay s (pathPhys s die line 0 write) (.directoryRequest die line write) (grantLine s die line write))

/-- DIRECTORY_RECALL (R257): the home slice gathers the tokens and gives the line back, or writes it back and keeps it for
reading; it ranks as the oldest arrival, after an active request whose access performs. -/
def execDirectoryRecall (die line : Nat) (all : Bool) (s : State) : Host.Outcome State Fault Refusal :=
  .next (if !(tokensOf s die line).granted then s
    else overWay s (flueOpen s die .opened) (.directoryRecall die line all)
      (if askRuns s die line then askBack s die line all else giveBack s die line all))

end Sys2Proof.Machine
end

