-- ==== Sys2Proof/WellFormed.lean ====
section
/-! DEFINITION. Which operand values an instruction accepts beyond the fields' places: element types, formats, counts
and register runs (R55 and each instruction's rule). What depends on the firing, its slot class, its payload
registers and its core, is checked where the instruction issues. -/

namespace Sys2Proof

/-- A field read as a vector: a payload register is named by a number below 4 (R45). -/
def vecOk (s : Src) : Bool := !(s.last && s.trap) || decide (s.reg.val < 4)

/-- A run of `n` registers read as vectors stays within its file, and is 0 when it is empty (R162). -/
def runOk (s : Src) (n : Nat) : Bool :=
  if n = 0 then s == ⟨0, false, false⟩
  else decide (s.reg.val + n ≤ if s.last && s.trap then 4 else 32)

/-- A floating element type (R109). -/
def ElemTy.isF : ElemTy → Bool
  | .f32 | .f64 | .f16 | .bf16 => true
  | _ => false

/-- The number of elements of a type (R108). -/
def ElemTy.elems : ElemTy → Nat
  | .i64 | .ui64 | .f64 => 16
  | _ => 32

/-- The types that TOPK and TOPKM accept (R109). -/
def ElemTy.ranked : ElemTy → Bool
  | .f32 | .i32 | .ui32 => true
  | _ => false

/-- The types that VSCTA accepts (R147). -/
def ElemTy.added : ElemTy → Bool
  | .f16 | .bf16 => false
  | _ => true

/-- The round field of an X form that rounds on floating types only (R52, R109). -/
def rndOk (ty : ElemTy) (r : Round) : Bool := ty.isF || r == .rne

/-- VRED and VSCAN: and, or and xor take integer types, and only a floating sum rounds (R109, R110). -/
def foldOk (op : RedOp) (ty : ElemTy) (r : Round) : Bool :=
  (!(op == .and || op == .or || op == .xor) || !ty.isF) && (r == .rne || (op == .sum && ty.isF))

/-- The bits of a format's place in a vector element: a LOG6 code takes a byte (R52, R120). -/
def Fmt.place : Fmt → Nat
  | .ui8 | .i8 | .e4m3 | .e5m2 | .lg6 => 8
  | .ui16 | .i16 | .f16 | .bf16 => 16
  | .ui32 | .i32 | .f32 => 32
  | .ui64 | .i64 | .f64 => 64
  | .e2m1 => 4

/-- VCVT: both parts lie in the element (R120). -/
def partsOk (d s : Fmt) (dp sp : Nat) : Bool :=
  let w := if d.place = 64 || s.place = 64 then 64 else 32
  decide ((dp + 1) * d.place ≤ w) && decide ((sp + 1) * s.place ≤ w)

/-- The bit fields of BFX, BFXU and BFI (R94). -/
def fieldOk (pos : BitVec 6) (len : BitVec 7) : Bool :=
  decide (1 ≤ len.toNat) && decide (pos.toNat + len.toNat ≤ 64)

/-- An integer format of 32 or 64 bits (R156, R277). -/
def Fmt.word : Fmt → Bool
  | .ui32 | .ui64 | .i32 | .i64 => true
  | _ => false

/-- The formats of the vector X accesses and of CAS (R147, R156). -/
def Fmt.lane : Fmt → Bool
  | .f32 | .f64 => true
  | f => f.word

/-- The formats of LD and ST in X format (R147). -/
def Fmt.scalar (f : Fmt) : Bool := decide (f.code < 8)

/-- Order and scope of LD (R52). -/
def ldOrderOk (o : Order) (c : Scope) : Bool := (o == .plain) == (c == .none) && o != .rel

/-- Order and scope of ST (R52). -/
def stOrderOk (o : Order) (c : Scope) : Bool := (o == .plain) == (c == .none) && o != .acq && o != .acqProm

/-- Order and scope of AMO and CAS (R52, R156). -/
def amoOrderOk (o : Order) (c : Scope) : Bool := c != .none && o != .acqProm

/-- The pairings of AMO operation and format (R156). -/
def amoOk (op : AmoFn) (f : Fmt) : Bool :=
  match op with
  | .faddF32 => f == .f32
  | .faddBf16x2 => f == .bf16
  | _ => f.word

/-- The pairings of a reduction and a format (R277). -/
def redOk (op : RedFn) (f : Fmt) : Bool :=
  f.word || ((f == .f16 || f == .bf16 || f == .f32 || f == .f64) && (op == .add || op == .min || op == .max))

/-- The pairings of a bank operation and a format (R354). -/
def bankOk (op : BankFn) (f : Fmt) : Bool :=
  f.word ||
    ((f == .f16 || f == .bf16 || f == .f32 || f == .f64) && (op == .add || op == .min || op == .max || op == .set))

/-- The first of three coordinate registers (R48). -/
def coordOk (r : Reg) : Bool := decide (r.val ≤ 29)

/-- The stream-buffer form names no LM address, and the other form no buffer (R277). -/
def sbOk (sb : Bool) (buf : Fin 16) (xl : Reg) : Bool := if sb then xl == 0 else buf == 0

/-- The row count of XGATHER and XSCATTER (R277). -/
def countOk (n : BitVec 12) : Bool := decide (1 ≤ n.toNat) && decide (n.toNat ≤ 256)

/-- The formats that the array multiplies (R223). -/
def Fmt.stream : Fmt → Bool
  | .f64 | .f32 | .f16 | .bf16 | .e4m3 | .e5m2 | .e2m1 | .i8 | .lg6 => true
  | _ => false

/-- The formats that a sparse weight set accepts (R227). -/
def Fmt.denseStream (f : Fmt) : Bool := f.stream && f != .f32 && f != .f64

/-- A barrier's ID lies in its scope's range (R368, R369). -/
def barOk (c : Scope) (id : BitVec 6) : Bool :=
  match c with
  | .none => false
  | .core | .quad => decide (id.toNat < 8)
  | .die => decide (id.toNat < 32)
  | .pkg | .pod => true

/-- The system registers that exist (R106, R216, R217, R253, R339, R351, R418). -/
def sysReads : List Nat := [0x000, 0x001, 0x002, 0x003, 0x004, 0x008, 0x009, 0x00A, 0x010, 0x040, 0x041, 0x042,
  0x800, 0x801, 0x802, 0x803, 0x804, 0x810, 0x811, 0x812, 0x813, 0x814]

/-- The system registers that SYSW may write (R106, R216, R217, R253, R339, R351, R418). -/
def sysWrites : List Nat := [0x004, 0x800, 0x801, 0x802]


/-- Every operand lies in the table its instruction gives it (R55). Event steps carry no encoding (DEDUCED, log entry 14). -/
def wf : Instr → Bool
  | .movC _ => true
  | .addC _ => true
  | .subC _ => true
  | .andC _ => true
  | .orC _ => true
  | .xorC _ => true
  | .shlC _ => true
  | .shrC _ => true
  | .sraC _ => true
  | .addiC _ => true
  | .ldiC _ => true
  | .shliC _ => true
  | .shriC _ => true
  | .sraiC _ => true
  | .andiC _ => true
  | .negC _ => true
  | .ldI64C _ => true
  | .stI64C _ => true
  | .ldI32C _ => true
  | .stI32C _ => true
  | .vaddC _ => true
  | .vmulC _ => true
  | .vsubC _ => true
  | .vldC _ => true
  | .vstC _ => true
  | .bzC _ => true
  | .bnzC _ => true
  | .jmprC _ => true
  | .retC _ => true
  | .doneC _ => true
  | .nopC _ => true
  | .brkC _ => true
  | .add _ => true
  | .sub _ => true
  | .neg _ => true
  | .mul _ => true
  | .mulhi _ => true
  | .mulhiu _ => true
  | .div _ => true
  | .divu _ => true
  | .rem _ => true
  | .remu _ => true
  | .and _ => true
  | .or _ => true
  | .xor _ => true
  | .andn _ => true
  | .shl _ => true
  | .shr _ => true
  | .sra _ => true
  | .rot _ => true
  | .min _ => true
  | .max _ => true
  | .minu _ => true
  | .maxu _ => true
  | .abs _ => true
  | .clz _ => true
  | .ctz _ => true
  | .popc _ => true
  | .brev _ => true
  | .bswap _ => true
  | .sext _ => true
  | .zext _ => true
  | .cmp _ => true
  | .mov _ => true
  | .addi _ => true
  | .muli _ => true
  | .andi _ => true
  | .ori _ => true
  | .xori _ => true
  | .shli _ => true
  | .shri _ => true
  | .srai _ => true
  | .roti _ => true
  | .ldi _ => true
  | .lea _ => true
  | .cmpi _ => true
  | .br _ => true
  | .bz _ => true
  | .bnz _ => true
  | .bpAny _ => true
  | .bpAll _ => true
  | .bpNone _ => true
  | .jmp _ => true
  | .call _ => true
  | .jmpr _ => true
  | .callr _ => true
  | .ret _ => true
  | .loop o => decide (1 ≤ o.len.toNat) && decide (o.len.toNat ≤ 32)
  | .done _ => true
  | .nop _ => true
  | .trap _ => true
  | .brk _ => true
  | .ld _ => true
  | .st _ => true
  | .vld _ => true
  | .vst _ => true
  | .ldx _ => true
  | .stx _ => true
  | .vlds _ => true
  | .vsts _ => true
  | .vgth o => vecOk o.b
  | .vsct o => vecOk o.b
  | .vscta o => vecOk o.b && o.ty.added
  | .pref _ => true
  | .waitc _ => true
  | .vadd o => vecOk o.a && vecOk o.b
  | .vsub o => vecOk o.a && vecOk o.b
  | .vmul o => vecOk o.a && vecOk o.b
  | .vfma o => vecOk o.a && vecOk o.b
  | .vfms o => vecOk o.a && vecOk o.b
  | .vfnma o => vecOk o.a && vecOk o.b
  | .vneg o => vecOk o.a
  | .vabs o => vecOk o.a
  | .vmin o => vecOk o.a && vecOk o.b
  | .vmax o => vecOk o.a && vecOk o.b
  | .vminn o => vecOk o.a && vecOk o.b
  | .vmaxn o => vecOk o.a && vecOk o.b
  | .vrcp o => vecOk o.a && o.ty.isF
  | .vrsq o => vecOk o.a && o.ty.isF
  | .vsqrt o => vecOk o.a && o.ty.isF
  | .vdiv o => vecOk o.a && vecOk o.b && o.ty.isF
  | .vexp2 o => vecOk o.a && o.ty.isF
  | .vlog2 o => vecOk o.a && o.ty.isF
  | .vand o => vecOk o.a && vecOk o.b
  | .vor o => vecOk o.a && vecOk o.b
  | .vxor o => vecOk o.a && vecOk o.b
  | .vshl o => vecOk o.a && vecOk o.b && !o.ty.isF
  | .vshr o => vecOk o.a && vecOk o.b && !o.ty.isF
  | .vsra o => vecOk o.a && vecOk o.b && !o.ty.isF
  | .vperm o => vecOk o.a && vecOk o.b
  | .vdot o => vecOk o.a && vecOk o.b
  | .vlut o => vecOk o.a && vecOk o.b
  | .vdistL2sq o => vecOk o.a && vecOk o.b && o.ty.isF
  | .vdistIp o => vecOk o.a && vecOk o.b && o.ty.isF
  | .vdistCos o => vecOk o.a && vecOk o.b && o.ty.isF
  | .vnorm o => vecOk o.a && o.ty.isF
  | .pset _ => true
  | .pand _ => true
  | .por _ => true
  | .pxor _ => true
  | .pandn _ => true
  | .pnot _ => true
  | .pcnt _ => true
  | .pfirst _ => true
  | .pmovxToP _ => true
  | .pmovxToX _ => true
  | .send _ => true
  | .sendv o => runOk o.b o.n.val
  | .sendo o => runOk o.b o.n.val
  | .spawn o => vecOk o.b
  | .spawnc o => vecOk o.b
  | .joinat o => vecOk o.b
  | .tsrd _ => true
  | .abortt _ => true
  | .aborttDrop _ => true
  | .range _ => true
  | .chunk o => decide (1 ≤ o.d.val) && decide (o.d.val ≤ 30)
  | .steal _ => true
  | .actor o => vecOk o.b
  | .sbcfg _ => true
  | .push o => vecOk o.b
  | .pop _ => true
  | .hvw o => vecOk o.b
  | .vaddX o => vecOk o.a && vecOk o.b && rndOk o.ty o.rnd
  | .vsubX o => vecOk o.a && vecOk o.b && rndOk o.ty o.rnd
  | .vmulX o => vecOk o.a && vecOk o.b && rndOk o.ty o.rnd
  | .vfmaX o => vecOk o.a && vecOk o.b && vecOk o.c && rndOk o.ty o.rnd
  | .vfmsX o => vecOk o.a && vecOk o.b && vecOk o.c && rndOk o.ty o.rnd
  | .vfnmaX o => vecOk o.a && vecOk o.b && vecOk o.c && rndOk o.ty o.rnd
  | .vnegX o => vecOk o.a && o.rnd == .rne
  | .vabsX o => vecOk o.a && o.rnd == .rne
  | .vminX o => vecOk o.a && vecOk o.b && o.rnd == .rne
  | .vmaxX o => vecOk o.a && vecOk o.b && o.rnd == .rne
  | .vminnX o => vecOk o.a && vecOk o.b && o.rnd == .rne
  | .vmaxnX o => vecOk o.a && vecOk o.b && o.rnd == .rne
  | .vrcpX o => vecOk o.a && o.ty.isF
  | .vrsqX o => vecOk o.a && o.ty.isF
  | .vsqrtX o => vecOk o.a && o.ty.isF
  | .vdivX o => vecOk o.a && vecOk o.b && o.ty.isF
  | .vexp2X o => vecOk o.a && o.ty.isF
  | .vlog2X o => vecOk o.a && o.ty.isF
  | .vandX o => vecOk o.a && vecOk o.b && o.rnd == .rne
  | .vorX o => vecOk o.a && vecOk o.b && o.rnd == .rne
  | .vxorX o => vecOk o.a && vecOk o.b && o.rnd == .rne
  | .vshlX o => vecOk o.a && vecOk o.b && !o.ty.isF && o.rnd == .rne
  | .vshrX o => vecOk o.a && vecOk o.b && !o.ty.isF && o.rnd == .rne
  | .vsraX o => vecOk o.a && vecOk o.b && !o.ty.isF && o.rnd == .rne
  | .vpermX o => vecOk o.a && vecOk o.b && o.rnd == .rne
  | .vdotX o => vecOk o.a && vecOk o.b && rndOk o.ty o.rnd
  | .vlutX o => vecOk o.a && vecOk o.b && o.ty == .i32 && o.rnd == .rne
  | .vdistL2sqX o => vecOk o.a && vecOk o.b && o.ty.isF
  | .vdistIpX o => vecOk o.a && vecOk o.b && o.ty.isF
  | .vdistCosX o => vecOk o.a && vecOk o.b && o.ty.isF
  | .vnormX o => vecOk o.a && o.ty.isF
  | .vcmp o => vecOk o.a && vecOk o.b && decide (o.cond.code < 4)
  | .vsel o => vecOk o.a && vecOk o.b
  | .vcvt o => vecOk o.a && partsOk o.dfmt o.sfmt o.dpart.val o.spart.val
  | .vround o => vecOk o.a && o.ty.isF
  | .vclamp o => vecOk o.a && vecOk o.b && vecOk o.c && o.rnd == .rne
  | .vsplat _ => true
  | .vextr o => vecOk o.a
  | .vins _ => true
  | .viota o => !o.ty.isF
  | .vslide o => vecOk o.a && vecOk o.b && decide (o.k.toInt.natAbs < o.ty.elems)
  | .vcomp o => vecOk o.a
  | .vexpd o => vecOk o.a
  | .vred o => vecOk o.a && foldOk o.op o.ty o.rnd
  | .vscan o => vecOk o.a && foldOk o.op o.ty o.rnd
  | .topk o => vecOk o.a && vecOk o.b && o.ty.ranked && decide (1 ≤ o.k.toNat) && decide (o.k.toNat ≤ 16)
  | .topkm o => vecOk o.a && vecOk o.b && o.ty.ranked && decide (1 ≤ o.k.toNat) && decide (o.k.toNat ≤ 16)
  | .sel _ => true
  | .madd _ => true
  | .bfx o => fieldOk o.pos o.len
  | .bfxu o => fieldOk o.pos o.len
  | .bfi o => fieldOk o.pos o.len
  | .ldiL _ => true
  | .ldih _ => true
  | .jmpL _ => true
  | .callL _ => true
  | .ldX o => o.fmt.scalar && ldOrderOk o.order o.scope
  | .stX o => o.fmt.scalar && stOrderOk o.order o.scope
  | .amo o => amoOk o.op o.fmt && amoOrderOk o.order o.scope
  | .cas o => o.fmt.lane && amoOrderOk o.order o.scope
  | .vldX o => o.fmt.lane
  | .vstX o => vecOk o.b && o.fmt.lane
  | .vgthX o => vecOk o.b && o.fmt.lane
  | .vsctX o => vecOk o.b && vecOk o.c && o.fmt.lane
  | .vsctaX o => vecOk o.b && vecOk o.c && o.fmt.lane && o.scope != .none
  | .xcopyIn o => coordOk o.xc && sbOk o.sb o.buf o.xl
  | .xcopyOut o => coordOk o.xc && sbOk o.sb o.buf o.xl
  | .xcopyXx o => coordOk o.xc
  | .xgather o => coordOk o.xc && countOk o.cnt
  | .xscatter o => coordOk o.xc && countOk o.cnt
  | .xred o => coordOk o.xc && sbOk o.sb o.buf o.xl && redOk o.op o.fmt
  | .xfill o => coordOk o.xc
  | .xblkRd _ => true
  | .xblkWr _ => true
  | .xblkFlush _ => true
  | .txinit _ => true
  | .txarr o => o.n != 0
  | .txexp _ => true
  | .txwait _ => true
  | .txtest o => o.p != 0
  | .txtestErr o => o.p != 0
  | .shfence _ => true
  | .shpf _ => true
  | .tcfg _ => true
  | .tld _ => true
  | .tst _ => true
  | .tzero _ => true
  | .trow _ => true
  | .tsetrow o => vecOk o.vb
  | .msk _ => true
  | .gwld o => o.fmt.stream && (o.pat == 0 || o.fmt.denseStream)
  | .gmma o => o.fmt.stream
  | .gmmas o => o.fmt.denseStream
  | .gmmag o => o.fmt.stream
  | .gacc _ => true
  | .gaccz _ => true
  | .evcfg o => vecOk o.a
  | .evinj _ => true
  | .evrd _ => true
  | .evwr o => vecOk o.b
  | .evfan _ => true
  | .evstat _ => true
  | .bar o => barOk o.scope o.id
  | .bara o => barOk o.scope o.id
  | .barw o => barOk o.scope o.id
  | .fturn _ => true
  | .get _ => true
  | .put _ => true
  | .ramo o => redOk o.op o.fmt
  | .collAllred o => redOk o.op o.fmt
  | .collAllgth o => o.op == .add
  | .collRedsct o => redOk o.op o.fmt
  | .collBar o => o.op == .add && o.fmt == .ui8
  | .bop o => bankOk o.op o.fmt
  | .bred o => redOk o.op o.fmt
  | .bvec o => redOk o.op o.fmt
  | .sysr o => sysReads.contains o.num.toNat
  | .sysw o => sysWrites.contains o.num.toNat
  | .icflush o => o.scope == 1 || o.scope == 3
  | .enrd _ => true
  | .lresume _ => true
  | .lstep _ => true
  | .lkill _ => true
  | .tlbi _ => true
  | .hintSpace _ => true
  | .dispatch _ => true
  | .laneAged _ _ => true
  | .laneUnblock _ _ => true
  | .resultArrival _ _ _ => true
  | .storePerformed _ _ => true
  | .faultFreeze _ _ => true
  | .faultRingWrite _ => true
  | .messageAccept _ _ => true
  | .sendQueueReoffer _ _ => true
  | .remotePushAccept _ _ => true
  | .taskAccept _ => true
  | .taskSpillReturn _ => true
  | .stealRequest _ _ => true
  | .stealAnswer _ _ => true
  | .eventAccept _ _ => true
  | .eventSpillReturn _ => true
  | .eventDelivery _ => true
  | .eventDiscard _ => true
  | .fanoutEmit _ => true
  | .fireMessagePost _ => true
  | .asyncOpStart _ _ _ => true
  | .gangForm _ _ => true
  | .gangTimeout _ _ => true
  | .gangPositionExpiry _ _ => true
  | .gangComplete _ => true
  | .tileOpComplete _ _ => true
  | .engineSectorComplete _ _ _ _ => true
  | .engctlReplay _ _ _ => true
  | .engctlFail _ _ _ => true
  | .txBarrierUpdate _ => true
  | .reduceSectorApply _ _ _ => true
  | .bankSectorApply _ _ _ => true
  | .pageWalkComplete _ _ _ => true
  | .transientRequest _ _ _ => true
  | .transientTimeout _ _ => true
  | .persistentRequest _ _ => true
  | .persistentDeactivate _ _ => true
  | .directoryRequest _ _ _ => true
  | .directoryRecall _ _ _ => true
  | .backInvalidate _ => true
  | .hostMemWrite _ _ _ => true
  | .hostMemRead _ _ => true
  | .spawnWindowStore _ _ _ => true
  | .launchCommand _ _ _ => true
  | .launchTake _ => true
  | .launchEnd _ _ => true
  | .lstatRead => true
  | .spwstatRead => true
  | .attdropRead => true
  | .attreq _ => true
  | .attestationReport => true
  | .cctlRcflush _ _ => true
  | .cctlFrzall _ _ => true
  | .cctlHold _ _ _ => true
  | .lctlFrzreq _ _ _ _ => true
  | .debugFrameWrite _ _ _ _ _ _ => true
  | .registerWrite _ _ _ _ => true
  | .domainCreate _ _ _ => true
  | .domainSuspend _ _ => true
  | .domainResume _ _ => true
  | .domainRetire _ _ => true
  | .hearthRoundStart => true
  | .hearthRootForm => true
  | .hearthValuesArrive _ => true
  | .taskAbort _ => true
  | .holdTimeout _ _ => true
  | .spatialPreempt _ _ => true
  | .preemptDeadline _ => true
  | .dmaSave _ _ => true
  | .dmaRestore _ _ => true
  | .dmaDone _ _ _ => true
  | .dieNormalReset _ _ => true
  | .dieAbruptReset _ _ => true
  | .dieResetEnter _ => true
  | .dieRejoin _ _ => true
  | .flcmdWrite _ _ _ => true
  | .flueTurnStart _ => true
  | .flueGroupTurned _ => true
  | .linkPacketReceive _ _ _ => true
  | .linkRetry _ _ => true
  | .flueDrowsy _ => true
  | .flueTrained _ => true
  | .flueWakeTimeout _ => true
  | .dieUnresponsive _ _ => true
  | .barrierForce _ _ _ _ => true
  | .podBarrierForce _ _ => true
  | .podBarrierArrival _ => true
  | .podBarrierRelease _ => true
  | .hornFlitReceive _ _ => true
  | .hornRetry _ => true
  | .hornRetrain _ => true
  | .podPacketReceive _ => true
  | .podOpTimeout _ _ => true
  | .collTimeout _ _ => true
  | .nvmeCompletion _ _ _ => true
  | .xblkTimeout _ _ => true
  | .energyCharge _ => true
  | .energyAccountWrite _ _ _ _ _ => true
  | .powerLimitThrottle _ => true
  | .freqChangeDone _ => true
  | .thermalThrottle _ => true
  | .thermalDieReset _ => true
  | .thermalShutdown => true
  | .packageReset _ => true
  | .functionReady _ => true
  | .functionFailed _ => true
  | .lmDoubleBitError _ _ => true
  | .hbmUncorrectableError _ => true
  | .thermalThrottleEnd _ => true
  | .dieRejoinComplete _ => true
  | .hornPortTrained _ => true

end Sys2Proof
end

