-- ==== Sys2Proof/Decode.lean ====
section
/-! DEFINITION. The decoder, total on any word and rejecting by name, and the encoder (R40 to R56). Every field
has the place its format gives it; fields an instruction does not use must be zero (R55). -/

namespace Sys2Proof

/-- Why a word is not an instruction (R55). All of them raise the illegal-instruction fault. -/
inductive DecodeError where
  /-- An unassigned op5, op8 or op10 code. -/
  | unassigned
  /-- A nonzero value in an unused field, or a code out of its table's range. -/
  | reserved
  /-- A field value that this instruction does not accept. -/
  | badCode
  deriving DecidableEq, Repr

/-- A register number in bits `[lo+4:lo]`. -/
def reg (w lo : Nat) : Reg := ⟨bits w lo 5, Nat.mod_lt _ (by decide)⟩

/-- A predicate number in bits `[lo+2:lo]`. -/
def preg (w lo : Nat) : PReg := ⟨bits w lo 3, Nat.mod_lt _ (by decide)⟩

/-- A 7-bit source field (R44). -/
def src (w lo : Nat) : Src := ⟨reg w lo, bit w (lo + 5), bit w (lo + 6)⟩

/-- A 7-bit source field that names a predicate register (R44). -/
def psrc (w lo : Nat) : PSrc := ⟨preg w lo, bit w (lo + 5), bit w (lo + 6)⟩

/-- A code reduced to its table's size. -/
def finOf (n k : Nat) (h : 0 < n := by decide) : Fin n := ⟨k % n, Nat.mod_lt _ h⟩

/-- The value of a 7-bit source field (R44). -/
def Src.code (s : Src) : Nat := s.reg.val + 32 * s.last.toNat + 64 * s.trap.toNat

/-- The value of a 7-bit source field that names a predicate register (R44). -/
def PSrc.code (s : PSrc) : Nat := s.reg.val + 32 * s.last.toNat + 64 * s.trap.toNat

/-- Succeeds with `a` when the field checks of R55 hold. -/
def fields {α : Type} (ok : Bool) (a : α) : Option α := if ok then some a else none

/-- Reads the fields of `C2`. -/
def decodeC2 (w : Nat) : Option C2 :=
  fields true
    { a := reg w 6, b := reg w 11 }

/-- The field bits of `C2`. -/
def encodeC2 (o : C2) : Nat :=
  o.a.val * 2 ^ 6 + o.b.val * 2 ^ 11

/-- Reads the fields of `CI`. -/
def decodeCI (w : Nat) : Option CI :=
  fields true
    { a := reg w 6, imm := BitVec.ofNat 5 (w / 2 ^ 11) }

/-- The field bits of `CI`. -/
def encodeCI (o : CI) : Nat :=
  o.a.val * 2 ^ 6 + o.imm.toNat * 2 ^ 11

/-- Reads the fields of `C1`. -/
def decodeC1 (w : Nat) : Option C1 :=
  fields (bits w 11 5 == 0)
    { a := reg w 6 }

/-- The field bits of `C1`. -/
def encodeC1 (o : C1) : Nat :=
  o.a.val * 2 ^ 6

/-- Reads the fields of `C0`. -/
def decodeC0 (w : Nat) : Option C0 :=
  fields (bits w 6 10 == 0)
    {}

/-- The field bits of `C0`. -/
def encodeC0 (_ : C0) : Nat :=
  0

/-- Reads the fields of `CCode`. -/
def decodeCCode (w : Nat) : Option CCode :=
  fields true
    { code := BitVec.ofNat 10 (w / 2 ^ 6) }

/-- The field bits of `CCode`. -/
def encodeCCode (o : CCode) : Nat :=
  o.code.toNat * 2 ^ 6

/-- Reads the fields of `R3`. -/
def decodeR3 (w : Nat) : Option R3 :=
  fields (bits w 29 3 == 0)
    { d := reg w 10, a := src w 15, b := src w 22 }

/-- The field bits of `R3`. -/
def encodeR3 (o : R3) : Nat :=
  o.d.val * 2 ^ 10 + o.a.code * 2 ^ 15 + o.b.code * 2 ^ 22

/-- Reads the fields of `R2`. -/
def decodeR2 (w : Nat) : Option R2 :=
  fields (bits w 22 10 == 0)
    { d := reg w 10, a := src w 15 }

/-- The field bits of `R2`. -/
def encodeR2 (o : R2) : Nat :=
  o.d.val * 2 ^ 10 + o.a.code * 2 ^ 15

/-- Reads the fields of `RW`. -/
def decodeRW (w : Nat) : Option RW :=
  fields (bits w 22 7 == 0 && decide (bits w 29 3 < 3))
    { d := reg w 10, a := src w 15, w := finOf 3 (bits w 29 2) }

/-- The field bits of `RW`. -/
def encodeRW (o : RW) : Nat :=
  o.d.val * 2 ^ 10 + o.a.code * 2 ^ 15 + o.w.val * 2 ^ 29

/-- Reads the fields of `RCmp`. -/
def decodeRCmp (w : Nat) : Option RCmp :=
  fields (decide (bits w 29 3 < 6))
    { d := reg w 10, a := src w 15, b := src w 22, cond := Cond.ofCode (bits w 29 3) }

/-- The field bits of `RCmp`. -/
def encodeRCmp (o : RCmp) : Nat :=
  o.d.val * 2 ^ 10 + o.a.code * 2 ^ 15 + o.b.code * 2 ^ 22 + o.cond.code * 2 ^ 29

/-- Reads the fields of `RI`. -/
def decodeRI (w : Nat) : Option RI :=
  fields true
    { d := reg w 10, a := src w 15, imm := BitVec.ofNat 10 (w / 2 ^ 22) }

/-- The field bits of `RI`. -/
def encodeRI (o : RI) : Nat :=
  o.d.val * 2 ^ 10 + o.a.code * 2 ^ 15 + o.imm.toNat * 2 ^ 22

/-- Reads the fields of `RSh`. -/
def decodeRSh (w : Nat) : Option RSh :=
  fields (bits w 28 4 == 0)
    { d := reg w 10, a := src w 15, n := BitVec.ofNat 6 (w / 2 ^ 22) }

/-- The field bits of `RSh`. -/
def encodeRSh (o : RSh) : Nat :=
  o.d.val * 2 ^ 10 + o.a.code * 2 ^ 15 + o.n.toNat * 2 ^ 22

/-- Reads the fields of `DI`. -/
def decodeDI (w : Nat) : Option DI :=
  fields (bits w 15 7 == 0)
    { d := reg w 10, imm := BitVec.ofNat 10 (w / 2 ^ 22) }

/-- The field bits of `DI`. -/
def encodeDI (o : DI) : Nat :=
  o.d.val * 2 ^ 10 + o.imm.toNat * 2 ^ 22

/-- Reads the fields of `RICmp`. -/
def decodeRICmp (w : Nat) : Option RICmp :=
  fields (decide (bits w 2 3 < 6))
    { d := reg w 10, a := src w 15, imm := BitVec.ofNat 10 (w / 2 ^ 22), cond := Cond.ofCode (bits w 2 3) }

/-- The field bits of `RICmp`. -/
def encodeRICmp (o : RICmp) : Nat :=
  o.d.val * 2 ^ 10 + o.a.code * 2 ^ 15 + o.imm.toNat * 2 ^ 22 + o.cond.code * 2 ^ 2

/-- Reads the fields of `Br`. -/
def decodeBr (w : Nat) : Option Br :=
  fields (decide (bits w 2 3 < 6))
    { a := reg w 10, b := reg w 15, off := BitVec.ofNat 12 (w / 2 ^ 20), cond := Cond.ofCode (bits w 2 3) }

/-- The field bits of `Br`. -/
def encodeBr (o : Br) : Nat :=
  o.a.val * 2 ^ 10 + o.b.val * 2 ^ 15 + o.off.toNat * 2 ^ 20 + o.cond.code * 2 ^ 2

/-- Reads the fields of `Bz`. -/
def decodeBz (w : Nat) : Option Bz :=
  fields (bits w 15 5 == 0)
    { a := reg w 10, off := BitVec.ofNat 12 (w / 2 ^ 20) }

/-- The field bits of `Bz`. -/
def encodeBz (o : Bz) : Nat :=
  o.a.val * 2 ^ 10 + o.off.toNat * 2 ^ 20

/-- Reads the fields of `Bp`. -/
def decodeBp (w : Nat) : Option Bp :=
  fields (bits w 13 7 == 0)
    { p := preg w 10, off := BitVec.ofNat 12 (w / 2 ^ 20) }

/-- The field bits of `Bp`. -/
def encodeBp (o : Bp) : Nat :=
  o.p.val * 2 ^ 10 + o.off.toNat * 2 ^ 20

/-- Reads the fields of `BOff`. -/
def decodeBOff (w : Nat) : Option BOff :=
  fields (bits w 10 10 == 0)
    { off := BitVec.ofNat 12 (w / 2 ^ 20) }

/-- The field bits of `BOff`. -/
def encodeBOff (o : BOff) : Nat :=
  o.off.toNat * 2 ^ 20

/-- Reads the fields of `A1`. -/
def decodeA1 (w : Nat) : Option A1 :=
  fields (bits w 10 5 == 0 && bits w 22 10 == 0)
    { a := src w 15 }

/-- The field bits of `A1`. -/
def encodeA1 (o : A1) : Nat :=
  o.a.code * 2 ^ 15

/-- Reads the fields of `LoopOp`. -/
def decodeLoopOp (w : Nat) : Option LoopOp :=
  fields (bits w 10 5 == 0)
    { a := src w 15, len := BitVec.ofNat 10 (w / 2 ^ 22) }

/-- The field bits of `LoopOp`. -/
def encodeLoopOp (o : LoopOp) : Nat :=
  o.a.code * 2 ^ 15 + o.len.toNat * 2 ^ 22

/-- Reads the fields of `Z32`. -/
def decodeZ32 (w : Nat) : Option Z32 :=
  fields (bits w 10 22 == 0)
    {}

/-- The field bits of `Z32`. -/
def encodeZ32 (_ : Z32) : Nat :=
  0

/-- Reads the fields of `CodeOp`. -/
def decodeCodeOp (w : Nat) : Option CodeOp :=
  fields (bits w 10 12 == 0)
    { code := BitVec.ofNat 10 (w / 2 ^ 22) }

/-- The field bits of `CodeOp`. -/
def encodeCodeOp (o : CodeOp) : Nat :=
  o.code.toNat * 2 ^ 22

/-- Reads the fields of `LdOp`. -/
def decodeLdOp (w : Nat) : Option LdOp :=
  fields (decide (bits w 2 3 < 7))
    { d := reg w 10, a := src w 15, imm := BitVec.ofNat 10 (w / 2 ^ 22), f := finOf 7 (bits w 2 3) }

/-- The field bits of `LdOp`. -/
def encodeLdOp (o : LdOp) : Nat :=
  o.d.val * 2 ^ 10 + o.a.code * 2 ^ 15 + o.imm.toNat * 2 ^ 22 + o.f.val * 2 ^ 2

/-- Reads the fields of `StOp`. -/
def decodeStOp (w : Nat) : Option StOp :=
  fields true
    { d := reg w 10, a := src w 15, imm := BitVec.ofNat 10 (w / 2 ^ 22), f := finOf 4 (bits w 2 2) }

/-- The field bits of `StOp`. -/
def encodeStOp (o : StOp) : Nat :=
  o.d.val * 2 ^ 10 + o.a.code * 2 ^ 15 + o.imm.toNat * 2 ^ 22 + o.f.val * 2 ^ 2

/-- Reads the fields of `LdxOp`. -/
def decodeLdxOp (w : Nat) : Option LdxOp :=
  fields (decide (bits w 29 3 < 7))
    { d := reg w 10, a := src w 15, b := src w 22, f := finOf 7 (bits w 29 3) }

/-- The field bits of `LdxOp`. -/
def encodeLdxOp (o : LdxOp) : Nat :=
  o.d.val * 2 ^ 10 + o.a.code * 2 ^ 15 + o.b.code * 2 ^ 22 + o.f.val * 2 ^ 29

/-- Reads the fields of `StxOp`. -/
def decodeStxOp (w : Nat) : Option StxOp :=
  fields (decide (bits w 29 3 < 4))
    { d := reg w 10, a := src w 15, b := src w 22, f := finOf 4 (bits w 29 3) }

/-- The field bits of `StxOp`. -/
def encodeStxOp (o : StxOp) : Nat :=
  o.d.val * 2 ^ 10 + o.a.code * 2 ^ 15 + o.b.code * 2 ^ 22 + o.f.val * 2 ^ 29

/-- Reads the fields of `V2`. -/
def decodeV2 (w : Nat) : Option V2 :=
  fields true
    { d := reg w 10, a := src w 15, b := src w 22, ty := ElemTy.ofCode (bits w 29 3) }

/-- The field bits of `V2`. -/
def encodeV2 (o : V2) : Nat :=
  o.d.val * 2 ^ 10 + o.a.code * 2 ^ 15 + o.b.code * 2 ^ 22 + o.ty.code * 2 ^ 29

/-- Reads the fields of `V1`. -/
def decodeV1 (w : Nat) : Option V1 :=
  fields (bits w 22 7 == 0)
    { d := reg w 10, a := src w 15, ty := ElemTy.ofCode (bits w 29 3) }

/-- The field bits of `V1`. -/
def encodeV1 (o : V1) : Nat :=
  o.d.val * 2 ^ 10 + o.a.code * 2 ^ 15 + o.ty.code * 2 ^ 29

/-- Reads the fields of `PrefOp`. -/
def decodePrefOp (w : Nat) : Option PrefOp :=
  fields (decide (bits w 10 5 < 3))
    { a := src w 15, imm := BitVec.ofNat 10 (w / 2 ^ 22), level := finOf 3 (bits w 10 5) }

/-- The field bits of `PrefOp`. -/
def encodePrefOp (o : PrefOp) : Nat :=
  o.a.code * 2 ^ 15 + o.imm.toNat * 2 ^ 22 + o.level.val * 2 ^ 10

/-- Reads the fields of `WaitcOp`. -/
def decodeWaitcOp (w : Nat) : Option WaitcOp :=
  fields (bits w 10 5 == 0 && bits w 21 1 == 0 && bits w 28 4 == 0)
    { l := BitVec.ofNat 6 (w / 2 ^ 15), s := BitVec.ofNat 6 (w / 2 ^ 22) }

/-- The field bits of `WaitcOp`. -/
def encodeWaitcOp (o : WaitcOp) : Nat :=
  o.l.toNat * 2 ^ 15 + o.s.toNat * 2 ^ 22

/-- Reads the fields of `PsetOp`. -/
def decodePsetOp (w : Nat) : Option PsetOp :=
  fields (bits w 13 2 == 0)
    { d := preg w 10, a := src w 15, imm := BitVec.ofNat 10 (w / 2 ^ 22) }

/-- The field bits of `PsetOp`. -/
def encodePsetOp (o : PsetOp) : Nat :=
  o.d.val * 2 ^ 10 + o.a.code * 2 ^ 15 + o.imm.toNat * 2 ^ 22

/-- Reads the fields of `P3`. -/
def decodeP3 (w : Nat) : Option P3 :=
  fields (bits w 29 3 == 0 && bits w 13 2 == 0 && bits w 18 2 == 0 && bits w 25 2 == 0)
    { d := preg w 10, a := psrc w 15, b := psrc w 22 }

/-- The field bits of `P3`. -/
def encodeP3 (o : P3) : Nat :=
  o.d.val * 2 ^ 10 + o.a.code * 2 ^ 15 + o.b.code * 2 ^ 22

/-- Reads the fields of `P2`. -/
def decodeP2 (w : Nat) : Option P2 :=
  fields (bits w 22 10 == 0 && bits w 13 2 == 0 && bits w 18 2 == 0)
    { d := preg w 10, a := psrc w 15 }

/-- The field bits of `P2`. -/
def encodeP2 (o : P2) : Nat :=
  o.d.val * 2 ^ 10 + o.a.code * 2 ^ 15

/-- Reads the fields of `XP`. -/
def decodeXP (w : Nat) : Option XP :=
  fields (bits w 22 7 == 0 && bits w 18 2 == 0)
    { d := reg w 10, a := psrc w 15 }

/-- The field bits of `XP`. -/
def encodeXP (o : XP) : Nat :=
  o.d.val * 2 ^ 10 + o.a.code * 2 ^ 15

/-- Reads the fields of `PX`. -/
def decodePX (w : Nat) : Option PX :=
  fields (bits w 22 7 == 0 && bits w 13 2 == 0)
    { d := preg w 10, a := src w 15 }

/-- The field bits of `PX`. -/
def encodePX (o : PX) : Nat :=
  o.d.val * 2 ^ 10 + o.a.code * 2 ^ 15

/-- Reads the fields of `S2`. -/
def decodeS2 (w : Nat) : Option S2 :=
  fields (bits w 10 5 == 0 && bits w 29 3 == 0)
    { a := src w 15, b := src w 22 }

/-- The field bits of `S2`. -/
def encodeS2 (o : S2) : Nat :=
  o.a.code * 2 ^ 15 + o.b.code * 2 ^ 22

/-- Reads the fields of `SendvOp`. -/
def decodeSendvOp (w : Nat) : Option SendvOp :=
  fields (bits w 10 5 == 0 && decide (bits w 29 3 < 5))
    { a := src w 15, b := src w 22, n := finOf 5 (bits w 29 3) }

/-- The field bits of `SendvOp`. -/
def encodeSendvOp (o : SendvOp) : Nat :=
  o.a.code * 2 ^ 15 + o.b.code * 2 ^ 22 + o.n.val * 2 ^ 29

/-- Reads the fields of `SendoOp`. -/
def decodeSendoOp (w : Nat) : Option SendoOp :=
  fields (decide (bits w 29 3 < 5))
    { d := reg w 10, a := src w 15, b := src w 22, n := finOf 5 (bits w 29 3) }

/-- The field bits of `SendoOp`. -/
def encodeSendoOp (o : SendoOp) : Nat :=
  o.d.val * 2 ^ 10 + o.a.code * 2 ^ 15 + o.b.code * 2 ^ 22 + o.n.val * 2 ^ 29

/-- Reads the fields of `S1`. -/
def decodeS1 (w : Nat) : Option S1 :=
  fields (bits w 10 12 == 0 && bits w 29 3 == 0)
    { b := src w 22 }

/-- The field bits of `S1`. -/
def encodeS1 (o : S1) : Nat :=
  o.b.code * 2 ^ 22

/-- Reads the fields of `D1`. -/
def decodeD1 (w : Nat) : Option D1 :=
  fields (bits w 15 14 == 0)
    { d := reg w 10 }

/-- The field bits of `D1`. -/
def encodeD1 (o : D1) : Nat :=
  o.d.val * 2 ^ 10

/-- Reads the fields of `RangeOp`. -/
def decodeRangeOp (w : Nat) : Option RangeOp :=
  fields (bits w 10 5 == 0 && decide (bits w 29 3 < 4))
    { a := src w 15, b := src w 22, k := finOf 4 (bits w 29 3) }

/-- The field bits of `RangeOp`. -/
def encodeRangeOp (o : RangeOp) : Nat :=
  o.a.code * 2 ^ 15 + o.b.code * 2 ^ 22 + o.k.val * 2 ^ 29

/-- Reads the fields of `ChunkOp`. -/
def decodeChunkOp (w : Nat) : Option ChunkOp :=
  fields (bits w 22 7 == 0 && decide (bits w 29 3 < 4))
    { d := reg w 10, a := src w 15, k := finOf 4 (bits w 29 3) }

/-- The field bits of `ChunkOp`. -/
def encodeChunkOp (o : ChunkOp) : Nat :=
  o.d.val * 2 ^ 10 + o.a.code * 2 ^ 15 + o.k.val * 2 ^ 29

/-- Reads the fields of `StealOp`. -/
def decodeStealOp (w : Nat) : Option StealOp :=
  fields (bits w 15 14 == 0 && decide (bits w 29 3 < 4))
    { d := reg w 10, k := finOf 4 (bits w 29 3) }

/-- The field bits of `StealOp`. -/
def encodeStealOp (o : StealOp) : Nat :=
  o.d.val * 2 ^ 10 + o.k.val * 2 ^ 29

/-- Reads the fields of `VX3`. -/
def decodeVX3 (w : Nat) : Option VX3 :=
  fields (bits w 47 17 == 0 && decide (bits w 44 3 < 6))
    { d := reg w 12, a := src w 17, b := src w 24, c := src w 31, guard := preg w 38,
      ty := ElemTy.ofCode (bits w 41 3), rnd := Round.ofCode (bits w 44 3) }

/-- The field bits of `VX3`. -/
def encodeVX3 (o : VX3) : Nat :=
  o.d.val * 2 ^ 12 + o.a.code * 2 ^ 17 + o.b.code * 2 ^ 24 + o.c.code * 2 ^ 31 + o.guard.val * 2 ^ 38 +
    o.ty.code * 2 ^ 41 + o.rnd.code * 2 ^ 44

/-- Reads the fields of `VX2`. -/
def decodeVX2 (w : Nat) : Option VX2 :=
  fields (bits w 31 7 == 0 && bits w 47 17 == 0 && decide (bits w 44 3 < 6))
    { d := reg w 12, a := src w 17, b := src w 24, guard := preg w 38, ty := ElemTy.ofCode (bits w 41 3),
      rnd := Round.ofCode (bits w 44 3) }

/-- The field bits of `VX2`. -/
def encodeVX2 (o : VX2) : Nat :=
  o.d.val * 2 ^ 12 + o.a.code * 2 ^ 17 + o.b.code * 2 ^ 24 + o.guard.val * 2 ^ 38 + o.ty.code * 2 ^ 41 +
    o.rnd.code * 2 ^ 44

/-- Reads the fields of `VX1`. -/
def decodeVX1 (w : Nat) : Option VX1 :=
  fields (bits w 24 14 == 0 && bits w 47 17 == 0 && decide (bits w 44 3 < 6))
    { d := reg w 12, a := src w 17, guard := preg w 38, ty := ElemTy.ofCode (bits w 41 3),
      rnd := Round.ofCode (bits w 44 3) }

/-- The field bits of `VX1`. -/
def encodeVX1 (o : VX1) : Nat :=
  o.d.val * 2 ^ 12 + o.a.code * 2 ^ 17 + o.guard.val * 2 ^ 38 + o.ty.code * 2 ^ 41 + o.rnd.code * 2 ^ 44

/-- Reads the fields of `VcmpOp`. -/
def decodeVcmpOp (w : Nat) : Option VcmpOp :=
  fields (bits w 31 7 == 0 && bits w 44 3 == 0 && bits w 50 14 == 0 && bits w 15 2 == 0 &&
    decide (bits w 47 3 < 4))
    { d := preg w 12, a := src w 17, b := src w 24, guard := preg w 38, ty := ElemTy.ofCode (bits w 41 3),
      cond := Cond.ofCode (bits w 47 3) }

/-- The field bits of `VcmpOp`. -/
def encodeVcmpOp (o : VcmpOp) : Nat :=
  o.d.val * 2 ^ 12 + o.a.code * 2 ^ 17 + o.b.code * 2 ^ 24 + o.guard.val * 2 ^ 38 + o.ty.code * 2 ^ 41 +
    o.cond.code * 2 ^ 47

/-- Reads the fields of `VselOp`. -/
def decodeVselOp (w : Nat) : Option VselOp :=
  fields (bits w 44 20 == 0 && bits w 34 2 == 0)
    { d := reg w 12, a := src w 17, b := src w 24, c := psrc w 31, guard := preg w 38,
      ty := ElemTy.ofCode (bits w 41 3) }

/-- The field bits of `VselOp`. -/
def encodeVselOp (o : VselOp) : Nat :=
  o.d.val * 2 ^ 12 + o.a.code * 2 ^ 17 + o.b.code * 2 ^ 24 + o.c.code * 2 ^ 31 + o.guard.val * 2 ^ 38 +
    o.ty.code * 2 ^ 41

/-- Reads the fields of `VcvtOp`. -/
def decodeVcvtOp (w : Nat) : Option VcvtOp :=
  fields (bits w 24 14 == 0 && bits w 41 3 == 0 && bits w 61 3 == 0 && decide (bits w 44 3 < 6))
    { d := reg w 12, a := src w 17, guard := preg w 38, rnd := Round.ofCode (bits w 44 3),
      dfmt := Fmt.ofCode (bits w 47 4), sfmt := Fmt.ofCode (bits w 51 4), dpart := finOf 8 (bits w 55 3),
      spart := finOf 8 (bits w 58 3) }

/-- The field bits of `VcvtOp`. -/
def encodeVcvtOp (o : VcvtOp) : Nat :=
  o.d.val * 2 ^ 12 + o.a.code * 2 ^ 17 + o.guard.val * 2 ^ 38 + o.rnd.code * 2 ^ 44 + o.dfmt.code * 2 ^ 47 +
    o.sfmt.code * 2 ^ 51 + o.dpart.val * 2 ^ 55 + o.spart.val * 2 ^ 58

/-- Reads the fields of `XX1`. -/
def decodeXX1 (w : Nat) : Option XX1 :=
  fields (bits w 24 14 == 0 && bits w 44 20 == 0)
    { d := reg w 12, a := src w 17, guard := preg w 38, ty := ElemTy.ofCode (bits w 41 3) }

/-- The field bits of `XX1`. -/
def encodeXX1 (o : XX1) : Nat :=
  o.d.val * 2 ^ 12 + o.a.code * 2 ^ 17 + o.guard.val * 2 ^ 38 + o.ty.code * 2 ^ 41

/-- Reads the fields of `XX2`. -/
def decodeXX2 (w : Nat) : Option XX2 :=
  fields (bits w 31 7 == 0 && bits w 44 20 == 0)
    { d := reg w 12, a := src w 17, b := src w 24, guard := preg w 38, ty := ElemTy.ofCode (bits w 41 3) }

/-- The field bits of `XX2`. -/
def encodeXX2 (o : XX2) : Nat :=
  o.d.val * 2 ^ 12 + o.a.code * 2 ^ 17 + o.b.code * 2 ^ 24 + o.guard.val * 2 ^ 38 + o.ty.code * 2 ^ 41

/-- Reads the fields of `ViotaOp`. -/
def decodeViotaOp (w : Nat) : Option ViotaOp :=
  fields (bits w 24 14 == 0 && bits w 44 20 == 0 && bits w 20 2 == 0)
    { d := reg w 12, a := psrc w 17, guard := preg w 38, ty := ElemTy.ofCode (bits w 41 3) }

/-- The field bits of `ViotaOp`. -/
def encodeViotaOp (o : ViotaOp) : Nat :=
  o.d.val * 2 ^ 12 + o.a.code * 2 ^ 17 + o.guard.val * 2 ^ 38 + o.ty.code * 2 ^ 41

/-- Reads the fields of `VslideOp`. -/
def decodeVslideOp (w : Nat) : Option VslideOp :=
  fields (bits w 31 7 == 0 && bits w 44 3 == 0 && bits w 53 11 == 0)
    { d := reg w 12, a := src w 17, b := src w 24, guard := preg w 38, ty := ElemTy.ofCode (bits w 41 3),
      k := BitVec.ofNat 6 (w / 2 ^ 47) }

/-- The field bits of `VslideOp`. -/
def encodeVslideOp (o : VslideOp) : Nat :=
  o.d.val * 2 ^ 12 + o.a.code * 2 ^ 17 + o.b.code * 2 ^ 24 + o.guard.val * 2 ^ 38 + o.ty.code * 2 ^ 41 +
    o.k.toNat * 2 ^ 47

/-- Reads the fields of `VcompOp`. -/
def decodeVcompOp (w : Nat) : Option VcompOp :=
  fields (bits w 31 10 == 0 && bits w 44 20 == 0 && bits w 27 2 == 0)
    { d := reg w 12, a := src w 17, b := psrc w 24, ty := ElemTy.ofCode (bits w 41 3) }

/-- The field bits of `VcompOp`. -/
def encodeVcompOp (o : VcompOp) : Nat :=
  o.d.val * 2 ^ 12 + o.a.code * 2 ^ 17 + o.b.code * 2 ^ 24 + o.ty.code * 2 ^ 41

/-- Reads the fields of `VredOp`. -/
def decodeVredOp (w : Nat) : Option VredOp :=
  fields (bits w 24 14 == 0 && bits w 50 14 == 0 && decide (bits w 44 3 < 6))
    { d := reg w 12, a := src w 17, guard := preg w 38, ty := ElemTy.ofCode (bits w 41 3),
      rnd := Round.ofCode (bits w 44 3), op := RedOp.ofCode (bits w 47 3) }

/-- The field bits of `VredOp`. -/
def encodeVredOp (o : VredOp) : Nat :=
  o.d.val * 2 ^ 12 + o.a.code * 2 ^ 17 + o.guard.val * 2 ^ 38 + o.ty.code * 2 ^ 41 + o.rnd.code * 2 ^ 44 +
    o.op.code * 2 ^ 47

/-- Reads the fields of `VscanOp`. -/
def decodeVscanOp (w : Nat) : Option VscanOp :=
  fields (bits w 24 14 == 0 && bits w 51 13 == 0 && decide (bits w 44 3 < 6))
    { d := reg w 12, a := src w 17, guard := preg w 38, ty := ElemTy.ofCode (bits w 41 3),
      rnd := Round.ofCode (bits w 44 3), op := RedOp.ofCode (bits w 47 3), excl := bit w 50 }

/-- The field bits of `VscanOp`. -/
def encodeVscanOp (o : VscanOp) : Nat :=
  o.d.val * 2 ^ 12 + o.a.code * 2 ^ 17 + o.guard.val * 2 ^ 38 + o.ty.code * 2 ^ 41 + o.rnd.code * 2 ^ 44 +
    o.op.code * 2 ^ 47 + o.excl.toNat * 2 ^ 50

/-- Reads the fields of `TopkOp`. -/
def decodeTopkOp (w : Nat) : Option TopkOp :=
  fields (bits w 31 10 == 0 && bits w 44 3 == 0 && bits w 53 11 == 0)
    { d := reg w 12, a := src w 17, b := src w 24, ty := ElemTy.ofCode (bits w 41 3),
      k := BitVec.ofNat 5 (w / 2 ^ 47), max := bit w 52 }

/-- The field bits of `TopkOp`. -/
def encodeTopkOp (o : TopkOp) : Nat :=
  o.d.val * 2 ^ 12 + o.a.code * 2 ^ 17 + o.b.code * 2 ^ 24 + o.ty.code * 2 ^ 41 + o.k.toNat * 2 ^ 47 +
    o.max.toNat * 2 ^ 52

/-- Reads the fields of `X3`. -/
def decodeX3 (w : Nat) : Option X3 :=
  fields (bits w 41 23 == 0)
    { d := reg w 12, a := src w 17, b := src w 24, c := src w 31, guard := preg w 38 }

/-- The field bits of `X3`. -/
def encodeX3 (o : X3) : Nat :=
  o.d.val * 2 ^ 12 + o.a.code * 2 ^ 17 + o.b.code * 2 ^ 24 + o.c.code * 2 ^ 31 + o.guard.val * 2 ^ 38

/-- Reads the fields of `BfxOp`. -/
def decodeBfxOp (w : Nat) : Option BfxOp :=
  fields (bits w 24 14 == 0 && bits w 41 6 == 0 && bits w 60 4 == 0)
    { d := reg w 12, a := src w 17, guard := preg w 38, pos := BitVec.ofNat 6 (w / 2 ^ 47),
      len := BitVec.ofNat 7 (w / 2 ^ 53) }

/-- The field bits of `BfxOp`. -/
def encodeBfxOp (o : BfxOp) : Nat :=
  o.d.val * 2 ^ 12 + o.a.code * 2 ^ 17 + o.guard.val * 2 ^ 38 + o.pos.toNat * 2 ^ 47 + o.len.toNat * 2 ^ 53

/-- Reads the fields of `BfiOp`. -/
def decodeBfiOp (w : Nat) : Option BfiOp :=
  fields (bits w 31 7 == 0 && bits w 41 6 == 0 && bits w 60 4 == 0)
    { d := reg w 12, a := src w 17, b := src w 24, guard := preg w 38, pos := BitVec.ofNat 6 (w / 2 ^ 47),
      len := BitVec.ofNat 7 (w / 2 ^ 53) }

/-- The field bits of `BfiOp`. -/
def encodeBfiOp (o : BfiOp) : Nat :=
  o.d.val * 2 ^ 12 + o.a.code * 2 ^ 17 + o.b.code * 2 ^ 24 + o.guard.val * 2 ^ 38 + o.pos.toNat * 2 ^ 47 +
    o.len.toNat * 2 ^ 53

/-- Reads the fields of `LImm`. -/
def decodeLImm (w : Nat) : Option LImm :=
  fields (bits w 17 14 == 0 && bits w 63 1 == 0)
    { d := reg w 12, imm := BitVec.ofNat 32 (w / 2 ^ 31) }

/-- The field bits of `LImm`. -/
def encodeLImm (o : LImm) : Nat :=
  o.d.val * 2 ^ 12 + o.imm.toNat * 2 ^ 31

/-- Reads the fields of `LJmp`. -/
def decodeLJmp (w : Nat) : Option LJmp :=
  fields (bits w 12 19 == 0)
    { off := BitVec.ofNat 33 (w / 2 ^ 31) }

/-- The field bits of `LJmp`. -/
def encodeLJmp (o : LJmp) : Nat :=
  o.off.toNat * 2 ^ 31

/-- Reads the fields of `LCall`. -/
def decodeLCall (w : Nat) : Option LCall :=
  fields (bits w 17 14 == 0)
    { d := reg w 12, off := BitVec.ofNat 33 (w / 2 ^ 31) }

/-- The field bits of `LCall`. -/
def encodeLCall (o : LCall) : Nat :=
  o.d.val * 2 ^ 12 + o.off.toNat * 2 ^ 31

/-- Reads the fields of `LdXOp`. -/
def decodeLdXOp (w : Nat) : Option LdXOp :=
  fields (bits w 24 14 == 0 && bits w 51 4 == 0 && decide (bits w 41 3 < 6) && decide (bits w 44 3 < 5))
    { d := reg w 12, a := src w 17, guard := preg w 38, scope := Scope.ofCode (bits w 41 3),
      order := Order.ofCode (bits w 44 3), fmt := Fmt.ofCode (bits w 47 4), off := BitVec.ofNat 9 (w / 2 ^ 55) }

/-- The field bits of `LdXOp`. -/
def encodeLdXOp (o : LdXOp) : Nat :=
  o.d.val * 2 ^ 12 + o.a.code * 2 ^ 17 + o.guard.val * 2 ^ 38 + o.scope.code * 2 ^ 41 + o.order.code * 2 ^ 44 +
    o.fmt.code * 2 ^ 47 + o.off.toNat * 2 ^ 55

/-- Reads the fields of `StXOp`. -/
def decodeStXOp (w : Nat) : Option StXOp :=
  fields (bits w 12 5 == 0 && bits w 31 7 == 0 && bits w 51 4 == 0 && decide (bits w 41 3 < 6) &&
    decide (bits w 44 3 < 5))
    { a := src w 17, b := src w 24, guard := preg w 38, scope := Scope.ofCode (bits w 41 3),
      order := Order.ofCode (bits w 44 3), fmt := Fmt.ofCode (bits w 47 4), off := BitVec.ofNat 9 (w / 2 ^ 55) }

/-- The field bits of `StXOp`. -/
def encodeStXOp (o : StXOp) : Nat :=
  o.a.code * 2 ^ 17 + o.b.code * 2 ^ 24 + o.guard.val * 2 ^ 38 + o.scope.code * 2 ^ 41 + o.order.code * 2 ^ 44 +
    o.fmt.code * 2 ^ 47 + o.off.toNat * 2 ^ 55

/-- Reads the fields of `AmoOp`. -/
def decodeAmoOp (w : Nat) : Option AmoOp :=
  fields (bits w 31 7 == 0 && decide (bits w 41 3 < 6) && decide (bits w 44 3 < 5) && decide (bits w 51 4 < 11))
    { d := reg w 12, a := src w 17, b := src w 24, guard := preg w 38, scope := Scope.ofCode (bits w 41 3),
      order := Order.ofCode (bits w 44 3), fmt := Fmt.ofCode (bits w 47 4), op := AmoFn.ofCode (bits w 51 4),
      off := BitVec.ofNat 9 (w / 2 ^ 55) }

/-- The field bits of `AmoOp`. -/
def encodeAmoOp (o : AmoOp) : Nat :=
  o.d.val * 2 ^ 12 + o.a.code * 2 ^ 17 + o.b.code * 2 ^ 24 + o.guard.val * 2 ^ 38 + o.scope.code * 2 ^ 41 +
    o.order.code * 2 ^ 44 + o.fmt.code * 2 ^ 47 + o.op.code * 2 ^ 51 + o.off.toNat * 2 ^ 55

/-- Reads the fields of `CasOp`. -/
def decodeCasOp (w : Nat) : Option CasOp :=
  fields (bits w 51 4 == 0 && decide (bits w 41 3 < 6) && decide (bits w 44 3 < 5))
    { d := reg w 12, a := src w 17, b := src w 24, c := src w 31, guard := preg w 38,
      scope := Scope.ofCode (bits w 41 3), order := Order.ofCode (bits w 44 3), fmt := Fmt.ofCode (bits w 47 4),
      off := BitVec.ofNat 9 (w / 2 ^ 55) }

/-- The field bits of `CasOp`. -/
def encodeCasOp (o : CasOp) : Nat :=
  o.d.val * 2 ^ 12 + o.a.code * 2 ^ 17 + o.b.code * 2 ^ 24 + o.c.code * 2 ^ 31 + o.guard.val * 2 ^ 38 +
    o.scope.code * 2 ^ 41 + o.order.code * 2 ^ 44 + o.fmt.code * 2 ^ 47 + o.off.toNat * 2 ^ 55

/-- Reads the fields of `VldXOp`. -/
def decodeVldXOp (w : Nat) : Option VldXOp :=
  fields (bits w 24 14 == 0 && bits w 41 6 == 0 && bits w 51 4 == 0)
    { d := reg w 12, a := src w 17, guard := preg w 38, fmt := Fmt.ofCode (bits w 47 4),
      off := BitVec.ofNat 9 (w / 2 ^ 55) }

/-- The field bits of `VldXOp`. -/
def encodeVldXOp (o : VldXOp) : Nat :=
  o.d.val * 2 ^ 12 + o.a.code * 2 ^ 17 + o.guard.val * 2 ^ 38 + o.fmt.code * 2 ^ 47 + o.off.toNat * 2 ^ 55

/-- Reads the fields of `VstXOp`. -/
def decodeVstXOp (w : Nat) : Option VstXOp :=
  fields (bits w 12 5 == 0 && bits w 31 7 == 0 && bits w 41 6 == 0 && bits w 51 4 == 0)
    { a := src w 17, b := src w 24, guard := preg w 38, fmt := Fmt.ofCode (bits w 47 4),
      off := BitVec.ofNat 9 (w / 2 ^ 55) }

/-- The field bits of `VstXOp`. -/
def encodeVstXOp (o : VstXOp) : Nat :=
  o.a.code * 2 ^ 17 + o.b.code * 2 ^ 24 + o.guard.val * 2 ^ 38 + o.fmt.code * 2 ^ 47 + o.off.toNat * 2 ^ 55

/-- Reads the fields of `VgthXOp`. -/
def decodeVgthXOp (w : Nat) : Option VgthXOp :=
  fields (bits w 31 7 == 0 && bits w 41 6 == 0 && bits w 51 13 == 0)
    { d := reg w 12, a := src w 17, b := src w 24, guard := preg w 38, fmt := Fmt.ofCode (bits w 47 4) }

/-- The field bits of `VgthXOp`. -/
def encodeVgthXOp (o : VgthXOp) : Nat :=
  o.d.val * 2 ^ 12 + o.a.code * 2 ^ 17 + o.b.code * 2 ^ 24 + o.guard.val * 2 ^ 38 + o.fmt.code * 2 ^ 47

/-- Reads the fields of `VsctXOp`. -/
def decodeVsctXOp (w : Nat) : Option VsctXOp :=
  fields (bits w 12 5 == 0 && bits w 41 6 == 0 && bits w 51 13 == 0)
    { a := src w 17, b := src w 24, c := src w 31, guard := preg w 38, fmt := Fmt.ofCode (bits w 47 4) }

/-- The field bits of `VsctXOp`. -/
def encodeVsctXOp (o : VsctXOp) : Nat :=
  o.a.code * 2 ^ 17 + o.b.code * 2 ^ 24 + o.c.code * 2 ^ 31 + o.guard.val * 2 ^ 38 + o.fmt.code * 2 ^ 47

/-- Reads the fields of `VsctaXOp`. -/
def decodeVsctaXOp (w : Nat) : Option VsctaXOp :=
  fields (bits w 12 5 == 0 && bits w 44 3 == 0 && bits w 51 13 == 0 && decide (bits w 41 3 < 6))
    { a := src w 17, b := src w 24, c := src w 31, guard := preg w 38, scope := Scope.ofCode (bits w 41 3),
      fmt := Fmt.ofCode (bits w 47 4) }

/-- The field bits of `VsctaXOp`. -/
def encodeVsctaXOp (o : VsctaXOp) : Nat :=
  o.a.code * 2 ^ 17 + o.b.code * 2 ^ 24 + o.c.code * 2 ^ 31 + o.guard.val * 2 ^ 38 + o.scope.code * 2 ^ 41 +
    o.fmt.code * 2 ^ 47

/-- Reads the fields of `XcopyOp`. -/
def decodeXcopyOp (w : Nat) : Option XcopyOp :=
  fields (bits w 32 9 == 0 && bits w 48 4 == 0 && bits w 57 7 == 0 && decide (bits w 41 3 < 6))
    { xs := reg w 12, xc := reg w 17, xl := reg w 22, xb := reg w 27, scope := Scope.ofCode (bits w 41 3),
      nosb := bit w 44, buf := finOf 16 (bits w 52 4), sb := bit w 56 }

/-- The field bits of `XcopyOp`. -/
def encodeXcopyOp (o : XcopyOp) : Nat :=
  o.xs.val * 2 ^ 12 + o.xc.val * 2 ^ 17 + o.xl.val * 2 ^ 22 + o.xb.val * 2 ^ 27 + o.scope.code * 2 ^ 41 +
    o.nosb.toNat * 2 ^ 44 + o.buf.val * 2 ^ 52 + o.sb.toNat * 2 ^ 56

/-- Reads the fields of `XxOp`. -/
def decodeXxOp (w : Nat) : Option XxOp :=
  fields (bits w 22 5 == 0 && bits w 37 4 == 0 && bits w 48 16 == 0 && decide (bits w 41 3 < 6))
    { xs := reg w 12, xc := reg w 17, xn := reg w 32, xb := reg w 27, scope := Scope.ofCode (bits w 41 3),
      nosb := bit w 44 }

/-- The field bits of `XxOp`. -/
def encodeXxOp (o : XxOp) : Nat :=
  o.xs.val * 2 ^ 12 + o.xc.val * 2 ^ 17 + o.xn.val * 2 ^ 32 + o.xb.val * 2 ^ 27 + o.scope.code * 2 ^ 41 +
    o.nosb.toNat * 2 ^ 44

/-- Reads the fields of `XgatherOp`. -/
def decodeXgatherOp (w : Nat) : Option XgatherOp :=
  fields (bits w 37 4 == 0 && bits w 45 7 == 0 && decide (bits w 41 3 < 6))
    { xs := reg w 12, xc := reg w 17, xl := reg w 22, xn := reg w 32, xb := reg w 27,
      scope := Scope.ofCode (bits w 41 3), nosb := bit w 44, cnt := BitVec.ofNat 12 (w / 2 ^ 52) }

/-- The field bits of `XgatherOp`. -/
def encodeXgatherOp (o : XgatherOp) : Nat :=
  o.xs.val * 2 ^ 12 + o.xc.val * 2 ^ 17 + o.xl.val * 2 ^ 22 + o.xn.val * 2 ^ 32 + o.xb.val * 2 ^ 27 +
    o.scope.code * 2 ^ 41 + o.nosb.toNat * 2 ^ 44 + o.cnt.toNat * 2 ^ 52

/-- Reads the fields of `XredOp`. -/
def decodeXredOp (w : Nat) : Option XredOp :=
  fields (bits w 32 9 == 0 && bits w 57 7 == 0 && decide (bits w 45 3 < 6) && decide (bits w 41 3 < 6))
    { xs := reg w 12, xc := reg w 17, xl := reg w 22, xb := reg w 27, scope := Scope.ofCode (bits w 41 3),
      nosb := bit w 44, op := RedFn.ofCode (bits w 45 3), fmt := Fmt.ofCode (bits w 48 4),
      buf := finOf 16 (bits w 52 4), sb := bit w 56 }

/-- The field bits of `XredOp`. -/
def encodeXredOp (o : XredOp) : Nat :=
  o.xs.val * 2 ^ 12 + o.xc.val * 2 ^ 17 + o.xl.val * 2 ^ 22 + o.xb.val * 2 ^ 27 + o.scope.code * 2 ^ 41 +
    o.nosb.toNat * 2 ^ 44 + o.op.code * 2 ^ 45 + o.fmt.code * 2 ^ 48 + o.buf.val * 2 ^ 52 + o.sb.toNat * 2 ^ 56

/-- Reads the fields of `XfillOp`. -/
def decodeXfillOp (w : Nat) : Option XfillOp :=
  fields (bits w 22 5 == 0 && bits w 32 9 == 0 && bits w 45 19 == 0 && decide (bits w 41 3 < 6))
    { xs := reg w 12, xc := reg w 17, xb := reg w 27, scope := Scope.ofCode (bits w 41 3), nosb := bit w 44 }

/-- The field bits of `XfillOp`. -/
def encodeXfillOp (o : XfillOp) : Nat :=
  o.xs.val * 2 ^ 12 + o.xc.val * 2 ^ 17 + o.xb.val * 2 ^ 27 + o.scope.code * 2 ^ 41 + o.nosb.toNat * 2 ^ 44

/-- Reads the fields of `XblkOp`. -/
def decodeXblkOp (w : Nat) : Option XblkOp :=
  fields (bits w 17 5 == 0 && bits w 37 4 == 0 && bits w 48 4 == 0 && decide (bits w 41 3 < 6))
    { xs := reg w 12, xl := reg w 22, xn := reg w 32, xb := reg w 27, scope := Scope.ofCode (bits w 41 3),
      nosb := bit w 44, cnt := BitVec.ofNat 12 (w / 2 ^ 52) }

/-- The field bits of `XblkOp`. -/
def encodeXblkOp (o : XblkOp) : Nat :=
  o.xs.val * 2 ^ 12 + o.xl.val * 2 ^ 22 + o.xn.val * 2 ^ 32 + o.xb.val * 2 ^ 27 + o.scope.code * 2 ^ 41 +
    o.nosb.toNat * 2 ^ 44 + o.cnt.toNat * 2 ^ 52

/-- Reads the fields of `TxinitOp`. -/
def decodeTxinitOp (w : Nat) : Option TxinitOp :=
  fields (bits w 12 15 == 0 && bits w 37 15 == 0 && bits w 56 8 == 0)
    { xb := reg w 27, xn := reg w 32, ph := BitVec.ofNat 4 (w / 2 ^ 52) }

/-- The field bits of `TxinitOp`. -/
def encodeTxinitOp (o : TxinitOp) : Nat :=
  o.xb.val * 2 ^ 27 + o.xn.val * 2 ^ 32 + o.ph.toNat * 2 ^ 52

/-- Reads the fields of `TxarrOp`. -/
def decodeTxarrOp (w : Nat) : Option TxarrOp :=
  fields (bits w 12 15 == 0 && bits w 32 9 == 0 && bits w 44 8 == 0 && decide (bits w 41 3 < 6))
    { xb := reg w 27, scope := Scope.ofCode (bits w 41 3), n := BitVec.ofNat 12 (w / 2 ^ 52) }

/-- The field bits of `TxarrOp`. -/
def encodeTxarrOp (o : TxarrOp) : Nat :=
  o.xb.val * 2 ^ 27 + o.scope.code * 2 ^ 41 + o.n.toNat * 2 ^ 52

/-- Reads the fields of `TxexpOp`. -/
def decodeTxexpOp (w : Nat) : Option TxexpOp :=
  fields (bits w 12 15 == 0 && bits w 37 15 == 0)
    { xb := reg w 27, xn := reg w 32, n := BitVec.ofNat 12 (w / 2 ^ 52) }

/-- The field bits of `TxexpOp`. -/
def encodeTxexpOp (o : TxexpOp) : Nat :=
  o.xb.val * 2 ^ 27 + o.xn.val * 2 ^ 32 + o.n.toNat * 2 ^ 52

/-- Reads the fields of `TxwaitOp`. -/
def decodeTxwaitOp (w : Nat) : Option TxwaitOp :=
  fields (bits w 12 15 == 0 && bits w 32 9 == 0 && bits w 44 8 == 0 && bits w 56 8 == 0 &&
    decide (bits w 41 3 < 6))
    { xb := reg w 27, scope := Scope.ofCode (bits w 41 3), ph := BitVec.ofNat 4 (w / 2 ^ 52) }

/-- The field bits of `TxwaitOp`. -/
def encodeTxwaitOp (o : TxwaitOp) : Nat :=
  o.xb.val * 2 ^ 27 + o.scope.code * 2 ^ 41 + o.ph.toNat * 2 ^ 52

/-- Reads the fields of `TxtestOp`. -/
def decodeTxtestOp (w : Nat) : Option TxtestOp :=
  fields (bits w 12 15 == 0 && bits w 32 20 == 0 && bits w 60 4 == 0)
    { xb := reg w 27, ph := BitVec.ofNat 4 (w / 2 ^ 52), p := preg w 56 }

/-- The field bits of `TxtestOp`. -/
def encodeTxtestOp (o : TxtestOp) : Nat :=
  o.xb.val * 2 ^ 27 + o.ph.toNat * 2 ^ 52 + o.p.val * 2 ^ 56

/-- Reads the fields of `TxtestErrOp`. -/
def decodeTxtestErrOp (w : Nat) : Option TxtestErrOp :=
  fields (bits w 12 15 == 0 && bits w 32 24 == 0 && bits w 60 4 == 0)
    { xb := reg w 27, p := preg w 56 }

/-- The field bits of `TxtestErrOp`. -/
def encodeTxtestErrOp (o : TxtestErrOp) : Nat :=
  o.xb.val * 2 ^ 27 + o.p.val * 2 ^ 56

/-- Reads the fields of `Z64`. -/
def decodeZ64 (w : Nat) : Option Z64 :=
  fields (bits w 12 52 == 0)
    {}

/-- The field bits of `Z64`. -/
def encodeZ64 (_ : Z64) : Nat :=
  0

/-- Reads the fields of `ShpfOp`. -/
def decodeShpfOp (w : Nat) : Option ShpfOp :=
  fields (bits w 17 47 == 0)
    { xs := reg w 12 }

/-- The field bits of `ShpfOp`. -/
def encodeShpfOp (o : ShpfOp) : Nat :=
  o.xs.val * 2 ^ 12

/-- Reads the fields of `GetOp`. -/
def decodeGetOp (w : Nat) : Option GetOp :=
  fields (bits w 17 5 == 0 && bits w 37 4 == 0 && bits w 45 7 == 0 && decide (bits w 41 3 < 6))
    { xs := reg w 12, xl := reg w 22, xn := reg w 32, xb := reg w 27, scope := Scope.ofCode (bits w 41 3),
      nosb := bit w 44, n := BitVec.ofNat 12 (w / 2 ^ 52) }

/-- The field bits of `GetOp`. -/
def encodeGetOp (o : GetOp) : Nat :=
  o.xs.val * 2 ^ 12 + o.xl.val * 2 ^ 22 + o.xn.val * 2 ^ 32 + o.xb.val * 2 ^ 27 + o.scope.code * 2 ^ 41 +
    o.nosb.toNat * 2 ^ 44 + o.n.toNat * 2 ^ 52

/-- Reads the fields of `PutOp`. -/
def decodePutOp (w : Nat) : Option PutOp :=
  fields (bits w 17 5 == 0 && bits w 37 7 == 0 && bits w 45 7 == 0)
    { xs := reg w 12, xl := reg w 22, xn := reg w 32, xb := reg w 27, nosb := bit w 44,
      n := BitVec.ofNat 12 (w / 2 ^ 52) }

/-- The field bits of `PutOp`. -/
def encodePutOp (o : PutOp) : Nat :=
  o.xs.val * 2 ^ 12 + o.xl.val * 2 ^ 22 + o.xn.val * 2 ^ 32 + o.xb.val * 2 ^ 27 + o.nosb.toNat * 2 ^ 44 +
    o.n.toNat * 2 ^ 52

/-- Reads the fields of `RamoOp`. -/
def decodeRamoOp (w : Nat) : Option RamoOp :=
  fields (bits w 17 5 == 0 && bits w 37 7 == 0 && decide (bits w 45 3 < 6))
    { xs := reg w 12, xl := reg w 22, xn := reg w 32, xb := reg w 27, nosb := bit w 44,
      op := RedFn.ofCode (bits w 45 3), fmt := Fmt.ofCode (bits w 48 4), n := BitVec.ofNat 12 (w / 2 ^ 52) }

/-- The field bits of `RamoOp`. -/
def encodeRamoOp (o : RamoOp) : Nat :=
  o.xs.val * 2 ^ 12 + o.xl.val * 2 ^ 22 + o.xn.val * 2 ^ 32 + o.xb.val * 2 ^ 27 + o.nosb.toNat * 2 ^ 44 +
    o.op.code * 2 ^ 45 + o.fmt.code * 2 ^ 48 + o.n.toNat * 2 ^ 52

/-- Reads the fields of `CollOp`. -/
def decodeCollOp (w : Nat) : Option CollOp :=
  fields (bits w 17 10 == 0 && bits w 32 13 == 0 && bits w 55 9 == 0 && decide (bits w 52 3 < 6))
    { xs := reg w 12, xb := reg w 27, fmt := Fmt.ofCode (bits w 48 4), op := RedFn.ofCode (bits w 52 3) }

/-- The field bits of `CollOp`. -/
def encodeCollOp (o : CollOp) : Nat :=
  o.xs.val * 2 ^ 12 + o.xb.val * 2 ^ 27 + o.fmt.code * 2 ^ 48 + o.op.code * 2 ^ 52

/-- Reads the fields of `BopOp`. -/
def decodeBopOp (w : Nat) : Option BopOp :=
  fields (bits w 17 10 == 0 && bits w 37 8 == 0 && decide (bits w 45 3 < 7))
    { xs := reg w 12, xn := reg w 32, xb := reg w 27, fmt := Fmt.ofCode (bits w 48 4),
      op := BankFn.ofCode (bits w 45 3), n := BitVec.ofNat 12 (w / 2 ^ 52) }

/-- The field bits of `BopOp`. -/
def encodeBopOp (o : BopOp) : Nat :=
  o.xs.val * 2 ^ 12 + o.xn.val * 2 ^ 32 + o.xb.val * 2 ^ 27 + o.fmt.code * 2 ^ 48 + o.op.code * 2 ^ 45 +
    o.n.toNat * 2 ^ 52

/-- Reads the fields of `BredOp`. -/
def decodeBredOp (w : Nat) : Option BredOp :=
  fields (bits w 17 5 == 0 && bits w 32 12 == 0 && decide (bits w 45 3 < 6))
    { xs := reg w 12, xl := reg w 22, xb := reg w 27, nosb := bit w 44, op := RedFn.ofCode (bits w 45 3),
      fmt := Fmt.ofCode (bits w 48 4), n := BitVec.ofNat 12 (w / 2 ^ 52) }

/-- The field bits of `BredOp`. -/
def encodeBredOp (o : BredOp) : Nat :=
  o.xs.val * 2 ^ 12 + o.xl.val * 2 ^ 22 + o.xb.val * 2 ^ 27 + o.nosb.toNat * 2 ^ 44 + o.op.code * 2 ^ 45 +
    o.fmt.code * 2 ^ 48 + o.n.toNat * 2 ^ 52

/-- Reads the fields of `BvecOp`. -/
def decodeBvecOp (w : Nat) : Option BvecOp :=
  fields (bits w 17 10 == 0 && bits w 37 8 == 0 && decide (bits w 45 3 < 6))
    { xs := reg w 12, xn := reg w 32, xb := reg w 27, op := RedFn.ofCode (bits w 45 3),
      fmt := Fmt.ofCode (bits w 48 4), n := BitVec.ofNat 12 (w / 2 ^ 52) }

/-- The field bits of `BvecOp`. -/
def encodeBvecOp (o : BvecOp) : Nat :=
  o.xs.val * 2 ^ 12 + o.xn.val * 2 ^ 32 + o.xb.val * 2 ^ 27 + o.op.code * 2 ^ 45 + o.fmt.code * 2 ^ 48 +
    o.n.toNat * 2 ^ 52

/-- Reads the fields of `TcfgOp`. -/
def decodeTcfgOp (w : Nat) : Option TcfgOp :=
  fields (bits w 15 7 == 0 && bits w 36 28 == 0 && decide (bits w 12 3 < 4))
    { ta := finOf 4 (bits w 12 3), xa := reg w 22, xb := reg w 27, fmt := Fmt.ofCode (bits w 32 4) }

/-- The field bits of `TcfgOp`. -/
def encodeTcfgOp (o : TcfgOp) : Nat :=
  o.ta.val * 2 ^ 12 + o.xa.val * 2 ^ 22 + o.xb.val * 2 ^ 27 + o.fmt.code * 2 ^ 32

/-- Reads the fields of `TldOp`. -/
def decodeTldOp (w : Nat) : Option TldOp :=
  fields (bits w 15 7 == 0 && bits w 32 8 == 0 && bits w 41 23 == 0 && decide (bits w 12 3 < 4))
    { ta := finOf 4 (bits w 12 3), xa := reg w 22, xb := reg w 27, nosb := bit w 40 }

/-- The field bits of `TldOp`. -/
def encodeTldOp (o : TldOp) : Nat :=
  o.ta.val * 2 ^ 12 + o.xa.val * 2 ^ 22 + o.xb.val * 2 ^ 27 + o.nosb.toNat * 2 ^ 40

/-- Reads the fields of `TzeroOp`. -/
def decodeTzeroOp (w : Nat) : Option TzeroOp :=
  fields (bits w 15 25 == 0 && bits w 41 23 == 0 && decide (bits w 12 3 < 4))
    { ta := finOf 4 (bits w 12 3), nosb := bit w 40 }

/-- The field bits of `TzeroOp`. -/
def encodeTzeroOp (o : TzeroOp) : Nat :=
  o.ta.val * 2 ^ 12 + o.nosb.toNat * 2 ^ 40

/-- Reads the fields of `TrowOp`. -/
def decodeTrowOp (w : Nat) : Option TrowOp :=
  fields (bits w 15 7 == 0 && bits w 27 21 == 0 && bits w 53 11 == 0 && decide (bits w 12 3 < 4))
    { ta := finOf 4 (bits w 12 3), xa := reg w 22, vd := reg w 48 }

/-- The field bits of `TrowOp`. -/
def encodeTrowOp (o : TrowOp) : Nat :=
  o.ta.val * 2 ^ 12 + o.xa.val * 2 ^ 22 + o.vd.val * 2 ^ 48

/-- Reads the fields of `TsetrowOp`. -/
def decodeTsetrowOp (w : Nat) : Option TsetrowOp :=
  fields (bits w 15 7 == 0 && bits w 27 21 == 0 && bits w 55 9 == 0 && decide (bits w 12 3 < 4))
    { ta := finOf 4 (bits w 12 3), xa := reg w 22, vb := src w 48 }

/-- The field bits of `TsetrowOp`. -/
def encodeTsetrowOp (o : TsetrowOp) : Nat :=
  o.ta.val * 2 ^ 12 + o.xa.val * 2 ^ 22 + o.vb.code * 2 ^ 48

/-- Reads the fields of `MskOp`. -/
def decodeMskOp (w : Nat) : Option MskOp :=
  fields (bits w 12 10 == 0 && bits w 27 21 == 0 && bits w 50 14 == 0 && decide (bits w 48 2 < 3))
    { xa := reg w 22, mask := finOf 3 (bits w 48 2) }

/-- The field bits of `MskOp`. -/
def encodeMskOp (o : MskOp) : Nat :=
  o.xa.val * 2 ^ 22 + o.mask.val * 2 ^ 48

/-- Reads the fields of `GwldOp`. -/
def decodeGwldOp (w : Nat) : Option GwldOp :=
  fields (bits w 15 12 == 0 && bits w 36 4 == 0 && bits w 41 7 == 0 && bits w 51 13 == 0 &&
    decide (bits w 48 3 < 5) && decide (bits w 12 3 < 4))
    { ta := finOf 4 (bits w 12 3), xb := reg w 27, fmt := Fmt.ofCode (bits w 32 4), nosb := bit w 40,
      pat := finOf 5 (bits w 48 3) }

/-- The field bits of `GwldOp`. -/
def encodeGwldOp (o : GwldOp) : Nat :=
  o.ta.val * 2 ^ 12 + o.xb.val * 2 ^ 27 + o.fmt.code * 2 ^ 32 + o.nosb.toNat * 2 ^ 40 + o.pat.val * 2 ^ 48

/-- Reads the fields of `GmmaOp`. -/
def decodeGmmaOp (w : Nat) : Option GmmaOp :=
  fields (bits w 15 3 == 0 && bits w 36 4 == 0 && bits w 41 7 == 0 && bits w 49 15 == 0 &&
    decide (bits w 12 3 < 4))
    { ta := finOf 4 (bits w 12 3), acc := finOf 4 (bits w 18 2), feeder := finOf 4 (bits w 20 2),
      xa := reg w 22, xb := reg w 27, fmt := Fmt.ofCode (bits w 32 4), nosb := bit w 40, z := bit w 48 }

/-- The field bits of `GmmaOp`. -/
def encodeGmmaOp (o : GmmaOp) : Nat :=
  o.ta.val * 2 ^ 12 + o.acc.val * 2 ^ 18 + o.feeder.val * 2 ^ 20 + o.xa.val * 2 ^ 22 + o.xb.val * 2 ^ 27 +
    o.fmt.code * 2 ^ 32 + o.nosb.toNat * 2 ^ 40 + o.z.toNat * 2 ^ 48

/-- Reads the fields of `GmmagOp`. -/
def decodeGmmagOp (w : Nat) : Option GmmagOp :=
  fields (bits w 15 3 == 0 && bits w 36 4 == 0 && bits w 41 7 == 0 && bits w 53 11 == 0 &&
    decide (bits w 12 3 < 4))
    { ta := finOf 4 (bits w 12 3), acc := finOf 4 (bits w 18 2), feeder := finOf 4 (bits w 20 2),
      xa := reg w 22, xb := reg w 27, fmt := Fmt.ofCode (bits w 32 4), nosb := bit w 40,
      g := finOf 16 (bits w 48 4), z := bit w 52 }

/-- The field bits of `GmmagOp`. -/
def encodeGmmagOp (o : GmmagOp) : Nat :=
  o.ta.val * 2 ^ 12 + o.acc.val * 2 ^ 18 + o.feeder.val * 2 ^ 20 + o.xa.val * 2 ^ 22 + o.xb.val * 2 ^ 27 +
    o.fmt.code * 2 ^ 32 + o.nosb.toNat * 2 ^ 40 + o.g.val * 2 ^ 48 + o.z.toNat * 2 ^ 52

/-- Reads the fields of `GaccOp`. -/
def decodeGaccOp (w : Nat) : Option GaccOp :=
  fields (bits w 12 3 == 0 && bits w 20 2 == 0 && bits w 27 5 == 0 && bits w 41 23 == 0 &&
    decide (bits w 15 3 < 4) && decide (bits w 36 3 < 6))
    { tb := finOf 4 (bits w 15 3), acc := finOf 4 (bits w 18 2), xa := reg w 22,
      fmt := Fmt.ofCode (bits w 32 4), rnd := Round.ofCode (bits w 36 3), sat := bit w 39, nosb := bit w 40 }

/-- The field bits of `GaccOp`. -/
def encodeGaccOp (o : GaccOp) : Nat :=
  o.tb.val * 2 ^ 15 + o.acc.val * 2 ^ 18 + o.xa.val * 2 ^ 22 + o.fmt.code * 2 ^ 32 + o.rnd.code * 2 ^ 36 +
    o.sat.toNat * 2 ^ 39 + o.nosb.toNat * 2 ^ 40

/-- Reads the fields of `GacczOp`. -/
def decodeGacczOp (w : Nat) : Option GacczOp :=
  fields (bits w 12 28 == 0 && bits w 41 7 == 0 && bits w 52 12 == 0)
    { nosb := bit w 40, mask := BitVec.ofNat 4 (w / 2 ^ 48) }

/-- The field bits of `GacczOp`. -/
def encodeGacczOp (o : GacczOp) : Nat :=
  o.nosb.toNat * 2 ^ 40 + o.mask.toNat * 2 ^ 48

/-- Reads the fields of `EvcfgOp`. -/
def decodeEvcfgOp (w : Nat) : Option EvcfgOp :=
  fields (bits w 12 5 == 0 && bits w 24 23 == 0 && bits w 51 13 == 0)
    { a := src w 17, n := finOf 16 (bits w 47 4) }

/-- The field bits of `EvcfgOp`. -/
def encodeEvcfgOp (o : EvcfgOp) : Nat :=
  o.a.code * 2 ^ 17 + o.n.val * 2 ^ 47

/-- Reads the fields of `EvinjOp`. -/
def decodeEvinjOp (w : Nat) : Option EvinjOp :=
  fields (bits w 12 5 == 0 && bits w 38 26 == 0)
    { a := src w 17, b := src w 24, c := src w 31 }

/-- The field bits of `EvinjOp`. -/
def encodeEvinjOp (o : EvinjOp) : Nat :=
  o.a.code * 2 ^ 17 + o.b.code * 2 ^ 24 + o.c.code * 2 ^ 31

/-- Reads the fields of `EvrdOp`. -/
def decodeEvrdOp (w : Nat) : Option EvrdOp :=
  fields (bits w 24 40 == 0)
    { d := reg w 12, a := src w 17 }

/-- The field bits of `EvrdOp`. -/
def encodeEvrdOp (o : EvrdOp) : Nat :=
  o.d.val * 2 ^ 12 + o.a.code * 2 ^ 17

/-- Reads the fields of `EvwrOp`. -/
def decodeEvwrOp (w : Nat) : Option EvwrOp :=
  fields (bits w 12 5 == 0 && bits w 31 33 == 0)
    { a := src w 17, b := src w 24 }

/-- The field bits of `EvwrOp`. -/
def encodeEvwrOp (o : EvwrOp) : Nat :=
  o.a.code * 2 ^ 17 + o.b.code * 2 ^ 24

/-- Reads the fields of `EvfanOp`. -/
def decodeEvfanOp (w : Nat) : Option EvfanOp :=
  fields (bits w 12 5 == 0 && bits w 31 16 == 0 && bits w 49 15 == 0)
    { a := src w 17, b := src w 24, k := finOf 4 (bits w 47 2) }

/-- The field bits of `EvfanOp`. -/
def encodeEvfanOp (o : EvfanOp) : Nat :=
  o.a.code * 2 ^ 17 + o.b.code * 2 ^ 24 + o.k.val * 2 ^ 47

/-- Reads the fields of `EvstatOp`. -/
def decodeEvstatOp (w : Nat) : Option EvstatOp :=
  fields (bits w 24 23 == 0 && bits w 51 13 == 0)
    { d := reg w 12, a := src w 17, sel := BitVec.ofNat 4 (w / 2 ^ 47) }

/-- The field bits of `EvstatOp`. -/
def encodeEvstatOp (o : EvstatOp) : Nat :=
  o.d.val * 2 ^ 12 + o.a.code * 2 ^ 17 + o.sel.toNat * 2 ^ 47

/-- Reads the fields of `BarOp`. -/
def decodeBarOp (w : Nat) : Option BarOp :=
  fields (bits w 24 14 == 0 && bits w 41 6 == 0 && bits w 56 8 == 0 && decide (bits w 53 3 < 6))
    { d := reg w 12, a := src w 17, guard := preg w 38, id := BitVec.ofNat 6 (w / 2 ^ 47),
      scope := Scope.ofCode (bits w 53 3) }

/-- The field bits of `BarOp`. -/
def encodeBarOp (o : BarOp) : Nat :=
  o.d.val * 2 ^ 12 + o.a.code * 2 ^ 17 + o.guard.val * 2 ^ 38 + o.id.toNat * 2 ^ 47 + o.scope.code * 2 ^ 53

/-- Reads the fields of `FturnOp`. -/
def decodeFturnOp (w : Nat) : Option FturnOp :=
  fields (bits w 24 14 == 0 && bits w 41 6 == 0 && bits w 49 15 == 0 && decide (bits w 47 2 < 3))
    { d := reg w 12, a := src w 17, guard := preg w 38, sel := finOf 3 (bits w 47 2) }

/-- The field bits of `FturnOp`. -/
def encodeFturnOp (o : FturnOp) : Nat :=
  o.d.val * 2 ^ 12 + o.a.code * 2 ^ 17 + o.guard.val * 2 ^ 38 + o.sel.val * 2 ^ 47

/-- Reads the fields of `SysrOp`. -/
def decodeSysrOp (w : Nat) : Option SysrOp :=
  fields (bits w 17 21 == 0 && bits w 41 6 == 0 && bits w 59 5 == 0)
    { d := reg w 12, guard := preg w 38, num := BitVec.ofNat 12 (w / 2 ^ 47) }

/-- The field bits of `SysrOp`. -/
def encodeSysrOp (o : SysrOp) : Nat :=
  o.d.val * 2 ^ 12 + o.guard.val * 2 ^ 38 + o.num.toNat * 2 ^ 47

/-- Reads the fields of `SyswOp`. -/
def decodeSyswOp (w : Nat) : Option SyswOp :=
  fields (bits w 12 5 == 0 && bits w 24 14 == 0 && bits w 41 6 == 0 && bits w 59 5 == 0)
    { a := src w 17, guard := preg w 38, num := BitVec.ofNat 12 (w / 2 ^ 47) }

/-- The field bits of `SyswOp`. -/
def encodeSyswOp (o : SyswOp) : Nat :=
  o.a.code * 2 ^ 17 + o.guard.val * 2 ^ 38 + o.num.toNat * 2 ^ 47

/-- Reads the fields of `IcflushOp`. -/
def decodeIcflushOp (w : Nat) : Option IcflushOp :=
  fields (bits w 12 26 == 0 && bits w 41 6 == 0 && bits w 50 14 == 0)
    { guard := preg w 38, scope := BitVec.ofNat 3 (w / 2 ^ 47) }

/-- The field bits of `IcflushOp`. -/
def encodeIcflushOp (o : IcflushOp) : Nat :=
  o.guard.val * 2 ^ 38 + o.scope.toNat * 2 ^ 47

/-- Reads the fields of `EnrdOp`. -/
def decodeEnrdOp (w : Nat) : Option EnrdOp :=
  fields (bits w 17 21 == 0 && bits w 41 6 == 0 && bits w 49 15 == 0 && decide (bits w 47 2 < 3))
    { d := reg w 12, guard := preg w 38, sel := finOf 3 (bits w 47 2) }

/-- The field bits of `EnrdOp`. -/
def encodeEnrdOp (o : EnrdOp) : Nat :=
  o.d.val * 2 ^ 12 + o.guard.val * 2 ^ 38 + o.sel.val * 2 ^ 47

/-- Reads the fields of `LresumeOp`. -/
def decodeLresumeOp (w : Nat) : Option LresumeOp :=
  fields (bits w 24 14 == 0 && bits w 41 6 == 0 && bits w 48 16 == 0)
    { d := reg w 12, a := src w 17, guard := preg w 38, skip := bit w 47 }

/-- The field bits of `LresumeOp`. -/
def encodeLresumeOp (o : LresumeOp) : Nat :=
  o.d.val * 2 ^ 12 + o.a.code * 2 ^ 17 + o.guard.val * 2 ^ 38 + o.skip.toNat * 2 ^ 47

/-- Reads the fields of `LkillOp`. -/
def decodeLkillOp (w : Nat) : Option LkillOp :=
  fields (bits w 24 14 == 0 && bits w 41 23 == 0)
    { d := reg w 12, a := src w 17, guard := preg w 38 }

/-- The field bits of `LkillOp`. -/
def encodeLkillOp (o : LkillOp) : Nat :=
  o.d.val * 2 ^ 12 + o.a.code * 2 ^ 17 + o.guard.val * 2 ^ 38

/-- Reads the fields of `TlbiOp`. -/
def decodeTlbiOp (w : Nat) : Option TlbiOp :=
  fields (bits w 12 5 == 0 && bits w 31 7 == 0 && bits w 41 6 == 0 && bits w 49 15 == 0 &&
    decide (bits w 47 2 < 3))
    { a := src w 17, b := src w 24, guard := preg w 38, kind := finOf 3 (bits w 47 2) }

/-- The field bits of `TlbiOp`. -/
def encodeTlbiOp (o : TlbiOp) : Nat :=
  o.a.code * 2 ^ 17 + o.b.code * 2 ^ 24 + o.guard.val * 2 ^ 38 + o.kind.val * 2 ^ 47

/-- Reads the fields of `HintOp`. -/
def decodeHintOp (w : Nat) : Option HintOp :=
  fields true
    { op := BitVec.ofNat 6 (w / 2 ^ 2), rest := BitVec.ofNat 52 (w / 2 ^ 12) }

/-- The field bits of `HintOp`. -/
def encodeHintOp (o : HintOp) : Nat :=
  o.op.toNat * 2 ^ 2 + o.rest.toNat * 2 ^ 12

/-- An instruction read from its fields, or the rejection of R55. -/
def build {α : Type} (mk : α → Instr) (f : Option α) : Except DecodeError Instr :=
  match f with
  | some a => .ok (mk a)
  | none => .error .reserved

/-- Instructions of 16 bits with opcodes from 0x0 (R51, R53, R54). -/
def pickC0 (w op : Nat) : Except DecodeError Instr :=
  match op with
  | 0x0 => build .movC (decodeC2 w)
  | 0x1 => build .addC (decodeC2 w)
  | 0x2 => build .subC (decodeC2 w)
  | 0x3 => build .andC (decodeC2 w)
  | 0x4 => build .orC (decodeC2 w)
  | 0x5 => build .xorC (decodeC2 w)
  | 0x6 => build .shlC (decodeC2 w)
  | 0x7 => build .shrC (decodeC2 w)
  | 0x8 => build .sraC (decodeC2 w)
  | 0x9 => build .addiC (decodeCI w)
  | 0xA => build .ldiC (decodeCI w)
  | 0xB => build .shliC (decodeCI w)
  | 0xC => build .shriC (decodeCI w)
  | 0xD => build .sraiC (decodeCI w)
  | 0xE => build .andiC (decodeCI w)
  | 0xF => build .negC (decodeC2 w)
  | 0x10 => build .ldI64C (decodeC2 w)
  | 0x11 => build .stI64C (decodeC2 w)
  | 0x12 => build .ldI32C (decodeC2 w)
  | 0x13 => build .stI32C (decodeC2 w)
  | 0x14 => build .vaddC (decodeC2 w)
  | 0x15 => build .vmulC (decodeC2 w)
  | 0x16 => build .vsubC (decodeC2 w)
  | 0x17 => build .vldC (decodeC2 w)
  | 0x18 => build .vstC (decodeC2 w)
  | 0x19 => build .bzC (decodeCI w)
  | 0x1A => build .bnzC (decodeCI w)
  | 0x1B => build .jmprC (decodeC1 w)
  | 0x1C => build .retC (decodeC1 w)
  | 0x1D => build .doneC (decodeC0 w)
  | 0x1E => build .nopC (decodeC0 w)
  | 0x1F => build .brkC (decodeCCode w)
  | _ => .error .unassigned

/-- Instructions of 32 bits with opcodes from 0x0 (R51, R53, R54). -/
def pickW0 (w op : Nat) : Except DecodeError Instr :=
  match op with
  | 0x0 => build .add (decodeR3 w)
  | 0x1 => build .sub (decodeR3 w)
  | 0x2 => build .neg (decodeR2 w)
  | 0x3 => build .mul (decodeR3 w)
  | 0x4 => build .mulhi (decodeR3 w)
  | 0x5 => build .mulhiu (decodeR3 w)
  | 0x6 => build .div (decodeR3 w)
  | 0x7 => build .divu (decodeR3 w)
  | 0x8 => build .rem (decodeR3 w)
  | 0x9 => build .remu (decodeR3 w)
  | 0xA => build .and (decodeR3 w)
  | 0xB => build .or (decodeR3 w)
  | 0xC => build .xor (decodeR3 w)
  | 0xD => build .andn (decodeR3 w)
  | 0xE => build .shl (decodeR3 w)
  | 0xF => build .shr (decodeR3 w)
  | _ => .error .unassigned

/-- Instructions of 32 bits with opcodes from 0x10 (R51, R53, R54). -/
def pickW1 (w op : Nat) : Except DecodeError Instr :=
  match op with
  | 0x10 => build .sra (decodeR3 w)
  | 0x11 => build .rot (decodeR3 w)
  | 0x12 => build .min (decodeR3 w)
  | 0x13 => build .max (decodeR3 w)
  | 0x14 => build .minu (decodeR3 w)
  | 0x15 => build .maxu (decodeR3 w)
  | 0x16 => build .abs (decodeR2 w)
  | 0x17 => build .clz (decodeR2 w)
  | 0x18 => build .ctz (decodeR2 w)
  | 0x19 => build .popc (decodeR2 w)
  | 0x1A => build .brev (decodeR2 w)
  | 0x1B => build .bswap (decodeR2 w)
  | 0x1C => build .sext (decodeRW w)
  | 0x1D => build .zext (decodeRW w)
  | 0x1E => build .cmp (decodeRCmp w)
  | 0x1F => build .mov (decodeR2 w)
  | _ => .error .unassigned

/-- Instructions of 32 bits with opcodes from 0x20 (R51, R53, R54). -/
def pickW2 (w op : Nat) : Except DecodeError Instr :=
  match op with
  | 0x20 => build .addi (decodeRI w)
  | 0x21 => build .muli (decodeRI w)
  | 0x22 => build .andi (decodeRI w)
  | 0x23 => build .ori (decodeRI w)
  | 0x24 => build .xori (decodeRI w)
  | 0x25 => build .shli (decodeRSh w)
  | 0x26 => build .shri (decodeRSh w)
  | 0x27 => build .srai (decodeRSh w)
  | 0x28 => build .roti (decodeRSh w)
  | 0x29 => build .ldi (decodeDI w)
  | 0x2A => build .lea (decodeDI w)
  | _ => .error .unassigned

/-- Instructions of 32 bits with opcodes from 0x30 (R51, R53, R54). -/
def pickW3 (w op : Nat) : Except DecodeError Instr :=
  match op with
  | 0x30 => build .cmpi (decodeRICmp w)
  | 0x31 => build .cmpi (decodeRICmp w)
  | 0x32 => build .cmpi (decodeRICmp w)
  | 0x33 => build .cmpi (decodeRICmp w)
  | 0x34 => build .cmpi (decodeRICmp w)
  | 0x35 => build .cmpi (decodeRICmp w)
  | _ => .error .unassigned

/-- Instructions of 32 bits with opcodes from 0x40 (R51, R53, R54). -/
def pickW4 (w op : Nat) : Except DecodeError Instr :=
  match op with
  | 0x40 => build .br (decodeBr w)
  | 0x41 => build .br (decodeBr w)
  | 0x42 => build .br (decodeBr w)
  | 0x43 => build .br (decodeBr w)
  | 0x44 => build .br (decodeBr w)
  | 0x45 => build .br (decodeBr w)
  | 0x46 => build .bz (decodeBz w)
  | 0x47 => build .bnz (decodeBz w)
  | 0x48 => build .bpAny (decodeBp w)
  | 0x49 => build .bpAll (decodeBp w)
  | 0x4A => build .bpNone (decodeBp w)
  | 0x4B => build .jmp (decodeBOff w)
  | 0x4C => build .call (decodeBOff w)
  | 0x4D => build .jmpr (decodeA1 w)
  | 0x4E => build .callr (decodeR2 w)
  | 0x4F => build .ret (decodeA1 w)
  | _ => .error .unassigned

/-- Instructions of 32 bits with opcodes from 0x50 (R51, R53, R54). -/
def pickW5 (w op : Nat) : Except DecodeError Instr :=
  match op with
  | 0x50 => build .loop (decodeLoopOp w)
  | 0x51 => build .done (decodeZ32 w)
  | 0x52 => build .nop (decodeZ32 w)
  | 0x53 => build .trap (decodeCodeOp w)
  | 0x54 => build .brk (decodeCodeOp w)
  | _ => .error .unassigned

/-- Instructions of 32 bits with opcodes from 0x60 (R51, R53, R54). -/
def pickW6 (w op : Nat) : Except DecodeError Instr :=
  match op with
  | 0x60 => build .ld (decodeLdOp w)
  | 0x61 => build .ld (decodeLdOp w)
  | 0x62 => build .ld (decodeLdOp w)
  | 0x63 => build .ld (decodeLdOp w)
  | 0x64 => build .ld (decodeLdOp w)
  | 0x65 => build .ld (decodeLdOp w)
  | 0x66 => build .ld (decodeLdOp w)
  | 0x68 => build .st (decodeStOp w)
  | 0x69 => build .st (decodeStOp w)
  | 0x6A => build .st (decodeStOp w)
  | 0x6B => build .st (decodeStOp w)
  | 0x6C => build .vld (decodeRI w)
  | 0x6D => build .vst (decodeRI w)
  | 0x6E => build .ldx (decodeLdxOp w)
  | 0x6F => build .stx (decodeStxOp w)
  | _ => .error .unassigned

/-- Instructions of 32 bits with opcodes from 0x70 (R51, R53, R54). -/
def pickW7 (w op : Nat) : Except DecodeError Instr :=
  match op with
  | 0x70 => build .vlds (decodeV2 w)
  | 0x71 => build .vsts (decodeV2 w)
  | 0x72 => build .vgth (decodeV2 w)
  | 0x73 => build .vsct (decodeV2 w)
  | 0x74 => build .vscta (decodeV2 w)
  | 0x75 => build .pref (decodePrefOp w)
  | 0x76 => build .waitc (decodeWaitcOp w)
  | _ => .error .unassigned

/-- Instructions of 32 bits with opcodes from 0x80 (R51, R53, R54). -/
def pickW8 (w op : Nat) : Except DecodeError Instr :=
  match op with
  | 0x80 => build .vadd (decodeV2 w)
  | 0x81 => build .vsub (decodeV2 w)
  | 0x82 => build .vmul (decodeV2 w)
  | 0x83 => build .vfma (decodeV2 w)
  | 0x84 => build .vfms (decodeV2 w)
  | 0x85 => build .vfnma (decodeV2 w)
  | 0x86 => build .vneg (decodeV1 w)
  | 0x87 => build .vabs (decodeV1 w)
  | 0x88 => build .vmin (decodeV2 w)
  | 0x89 => build .vmax (decodeV2 w)
  | 0x8A => build .vminn (decodeV2 w)
  | 0x8B => build .vmaxn (decodeV2 w)
  | 0x8C => build .vrcp (decodeV1 w)
  | 0x8D => build .vrsq (decodeV1 w)
  | 0x8E => build .vsqrt (decodeV1 w)
  | 0x8F => build .vdiv (decodeV2 w)
  | _ => .error .unassigned

/-- Instructions of 32 bits with opcodes from 0x90 (R51, R53, R54). -/
def pickW9 (w op : Nat) : Except DecodeError Instr :=
  match op with
  | 0x90 => build .vexp2 (decodeV1 w)
  | 0x91 => build .vlog2 (decodeV1 w)
  | 0x92 => build .vand (decodeV2 w)
  | 0x93 => build .vor (decodeV2 w)
  | 0x94 => build .vxor (decodeV2 w)
  | 0x95 => build .vshl (decodeV2 w)
  | 0x96 => build .vshr (decodeV2 w)
  | 0x97 => build .vsra (decodeV2 w)
  | 0x98 => build .vperm (decodeV2 w)
  | 0x99 => build .vdot (decodeV2 w)
  | 0x9A => build .vlut (decodeR3 w)
  | 0x9B => build .vdistL2sq (decodeV2 w)
  | 0x9C => build .vdistIp (decodeV2 w)
  | 0x9D => build .vdistCos (decodeV2 w)
  | 0x9E => build .vnorm (decodeV1 w)
  | _ => .error .unassigned

/-- Instructions of 32 bits with opcodes from 0xC0 (R51, R53, R54). -/
def pickW12 (w op : Nat) : Except DecodeError Instr :=
  match op with
  | 0xC0 => build .pset (decodePsetOp w)
  | 0xC1 => build .pand (decodeP3 w)
  | 0xC2 => build .por (decodeP3 w)
  | 0xC3 => build .pxor (decodeP3 w)
  | 0xC4 => build .pandn (decodeP3 w)
  | 0xC5 => build .pnot (decodeP2 w)
  | 0xC6 =>
    match bits w 29 3 with
    | 0 => build .pcnt (decodeXP w)
    | _ => .error .reserved
  | 0xC7 =>
    match bits w 29 3 with
    | 0 => build .pfirst (decodeXP w)
    | _ => .error .reserved
  | 0xC8 =>
    match bits w 29 3 with
    | 0 => build .pmovxToP (decodePX w)
    | 1 => build .pmovxToX (decodeXP w)
    | _ => .error .reserved
  | 0xC9 => build .send (decodeS2 w)
  | 0xCA => build .sendv (decodeSendvOp w)
  | 0xCB => build .sendo (decodeSendoOp w)
  | 0xCC => build .spawn (decodeS1 w)
  | 0xCD => build .spawnc (decodeS2 w)
  | 0xCE => build .joinat (decodeS2 w)
  | 0xCF =>
    match bits w 29 3 with
    | 0 => build .tsrd (decodeD1 w)
    | _ => .error .reserved
  | _ => .error .unassigned

/-- Instructions of 32 bits with opcodes from 0xD0 (R51, R53, R54). -/
def pickW13 (w op : Nat) : Except DecodeError Instr :=
  match op with
  | 0xD0 =>
    match bits w 29 3 with
    | 0 => build .abortt (decodeD1 w)
    | 1 => build .aborttDrop (decodeD1 w)
    | _ => .error .reserved
  | 0xD1 => build .range (decodeRangeOp w)
  | 0xD2 => build .chunk (decodeChunkOp w)
  | 0xD3 => build .steal (decodeStealOp w)
  | 0xD4 => build .actor (decodeS2 w)
  | 0xD5 => build .sbcfg (decodeS2 w)
  | 0xD6 => build .push (decodeS2 w)
  | 0xD7 => build .pop (decodeR2 w)
  | 0xD8 => build .hvw (decodeS2 w)
  | _ => .error .unassigned

/-- Instructions of 64 bits with opcodes from 0x0 (R51, R53, R54). -/
noncomputable def pickX0 (w op : Nat) : Except DecodeError Instr :=
  match op with
  | 0x0 => build .vaddX (decodeVX2 w)
  | 0x1 => build .vsubX (decodeVX2 w)
  | 0x2 => build .vmulX (decodeVX2 w)
  | 0x3 => build .vfmaX (decodeVX3 w)
  | 0x4 => build .vfmsX (decodeVX3 w)
  | 0x5 => build .vfnmaX (decodeVX3 w)
  | 0x6 => build .vnegX (decodeVX1 w)
  | 0x7 => build .vabsX (decodeVX1 w)
  | 0x8 => build .vminX (decodeVX2 w)
  | 0x9 => build .vmaxX (decodeVX2 w)
  | 0xA => build .vminnX (decodeVX2 w)
  | 0xB => build .vmaxnX (decodeVX2 w)
  | 0xC => build .vrcpX (decodeVX1 w)
  | 0xD => build .vrsqX (decodeVX1 w)
  | 0xE => build .vsqrtX (decodeVX1 w)
  | 0xF => build .vdivX (decodeVX2 w)
  | 0x10 => build .vexp2X (decodeVX1 w)
  | 0x11 => build .vlog2X (decodeVX1 w)
  | 0x12 => build .vandX (decodeVX2 w)
  | 0x13 => build .vorX (decodeVX2 w)
  | 0x14 => build .vxorX (decodeVX2 w)
  | 0x15 => build .vshlX (decodeVX2 w)
  | 0x16 => build .vshrX (decodeVX2 w)
  | 0x17 => build .vsraX (decodeVX2 w)
  | 0x18 => build .vpermX (decodeVX2 w)
  | 0x19 => build .vdotX (decodeVX2 w)
  | 0x1A => build .vlutX (decodeVX2 w)
  | 0x1B => build .vdistL2sqX (decodeVX2 w)
  | 0x1C => build .vdistIpX (decodeVX2 w)
  | 0x1D => build .vdistCosX (decodeVX2 w)
  | 0x1E => build .vnormX (decodeVX1 w)
  | _ => .error .unassigned

/-- Instructions of 64 bits with opcodes from 0x20 (R51, R53, R54). -/
noncomputable def pickX1 (w op : Nat) : Except DecodeError Instr :=
  match op with
  | 0x20 => build .vcmp (decodeVcmpOp w)
  | 0x21 => build .vsel (decodeVselOp w)
  | 0x22 => build .vcvt (decodeVcvtOp w)
  | 0x23 => build .vround (decodeVX1 w)
  | 0x24 => build .vclamp (decodeVX3 w)
  | 0x25 => build .vsplat (decodeXX1 w)
  | 0x26 => build .vextr (decodeXX2 w)
  | 0x27 => build .vins (decodeXX2 w)
  | 0x28 => build .viota (decodeViotaOp w)
  | 0x29 => build .vslide (decodeVslideOp w)
  | 0x2A => build .vcomp (decodeVcompOp w)
  | 0x2B => build .vexpd (decodeVcompOp w)
  | 0x2C => build .vred (decodeVredOp w)
  | 0x2D => build .vscan (decodeVscanOp w)
  | 0x2E => build .topk (decodeTopkOp w)
  | 0x2F => build .topkm (decodeTopkOp w)
  | _ => .error .unassigned

/-- Instructions of 64 bits with opcodes from 0x40 (R51, R53, R54). -/
noncomputable def pickX2 (w op : Nat) : Except DecodeError Instr :=
  match op with
  | 0x40 => build .sel (decodeX3 w)
  | 0x41 => build .madd (decodeX3 w)
  | 0x42 => build .bfx (decodeBfxOp w)
  | 0x43 => build .bfxu (decodeBfxOp w)
  | 0x44 => build .bfi (decodeBfiOp w)
  | _ => .error .unassigned

/-- Instructions of 64 bits with opcodes from 0xE0 (R51, R53, R54). -/
noncomputable def pickX7 (w op : Nat) : Except DecodeError Instr :=
  match op with
  | 0xF8 => build .ldiL (decodeLImm w)
  | 0xF9 => build .ldih (decodeLImm w)
  | 0xFA => build .jmpL (decodeLJmp w)
  | 0xFB => build .callL (decodeLCall w)
  | _ => .error .unassigned

/-- Instructions of 64 bits with opcodes from 0x100 (R51, R53, R54). -/
noncomputable def pickX8 (w op : Nat) : Except DecodeError Instr :=
  match op with
  | 0x100 => build .ldX (decodeLdXOp w)
  | 0x101 => build .stX (decodeStXOp w)
  | 0x102 => build .amo (decodeAmoOp w)
  | 0x103 => build .cas (decodeCasOp w)
  | 0x104 => build .vldX (decodeVldXOp w)
  | 0x105 => build .vstX (decodeVstXOp w)
  | 0x106 => build .vgthX (decodeVgthXOp w)
  | 0x107 => build .vsctX (decodeVsctXOp w)
  | 0x108 => build .vsctaX (decodeVsctaXOp w)
  | _ => .error .unassigned

/-- Instructions of 64 bits with opcodes from 0x180 (R51, R53, R54). -/
noncomputable def pickX12 (w op : Nat) : Except DecodeError Instr :=
  match op with
  | 0x180 =>
    match bits w 45 3 with
    | 0 => build .xcopyIn (decodeXcopyOp w)
    | 1 => build .xcopyOut (decodeXcopyOp w)
    | 2 => build .xcopyXx (decodeXxOp w)
    | _ => .error .reserved
  | 0x181 => build .xgather (decodeXgatherOp w)
  | 0x182 => build .xscatter (decodeXgatherOp w)
  | 0x183 => build .xred (decodeXredOp w)
  | 0x184 => build .xfill (decodeXfillOp w)
  | 0x185 =>
    match bits w 45 3 with
    | 0 => build .xblkRd (decodeXblkOp w)
    | 1 => build .xblkWr (decodeXblkOp w)
    | 2 => build .xblkFlush (decodeXblkOp w)
    | _ => .error .reserved
  | 0x186 => build .txinit (decodeTxinitOp w)
  | 0x187 => build .txarr (decodeTxarrOp w)
  | 0x188 => build .txexp (decodeTxexpOp w)
  | 0x189 => build .txwait (decodeTxwaitOp w)
  | 0x18A =>
    match bits w 59 1 with
    | 0 => build .txtest (decodeTxtestOp w)
    | 1 => build .txtestErr (decodeTxtestErrOp w)
    | _ => .error .reserved
  | 0x18B => build .shfence (decodeZ64 w)
  | 0x18C => build .shpf (decodeShpfOp w)
  | _ => .error .unassigned

/-- Instructions of 64 bits with opcodes from 0x200 (R51, R53, R54). -/
noncomputable def pickX16 (w op : Nat) : Except DecodeError Instr :=
  match op with
  | 0x200 => build .tcfg (decodeTcfgOp w)
  | 0x201 => build .tld (decodeTldOp w)
  | 0x202 => build .tst (decodeTldOp w)
  | 0x203 => build .tzero (decodeTzeroOp w)
  | 0x204 => build .trow (decodeTrowOp w)
  | 0x205 => build .tsetrow (decodeTsetrowOp w)
  | 0x206 => build .msk (decodeMskOp w)
  | 0x207 => build .gwld (decodeGwldOp w)
  | 0x208 => build .gmma (decodeGmmaOp w)
  | 0x209 => build .gmmas (decodeGmmaOp w)
  | 0x20A => build .gmmag (decodeGmmagOp w)
  | 0x20B => build .gacc (decodeGaccOp w)
  | 0x20C => build .gaccz (decodeGacczOp w)
  | _ => .error .unassigned

/-- Instructions of 64 bits with opcodes from 0x280 (R51, R53, R54). -/
noncomputable def pickX20 (w op : Nat) : Except DecodeError Instr :=
  match op with
  | 0x280 => build .evcfg (decodeEvcfgOp w)
  | 0x281 => build .evinj (decodeEvinjOp w)
  | 0x282 => build .evrd (decodeEvrdOp w)
  | 0x283 => build .evwr (decodeEvwrOp w)
  | 0x284 => build .evfan (decodeEvfanOp w)
  | 0x285 => build .evstat (decodeEvstatOp w)
  | _ => .error .unassigned

/-- Instructions of 64 bits with opcodes from 0x2C0 (R51, R53, R54). -/
noncomputable def pickX22 (w op : Nat) : Except DecodeError Instr :=
  match op with
  | 0x2C0 => build .bar (decodeBarOp w)
  | 0x2C1 => build .bara (decodeBarOp w)
  | 0x2C2 => build .barw (decodeBarOp w)
  | 0x2C3 => build .fturn (decodeFturnOp w)
  | 0x2C4 => build .get (decodeGetOp w)
  | 0x2C5 => build .put (decodePutOp w)
  | 0x2C6 => build .ramo (decodeRamoOp w)
  | 0x2C7 =>
    match bits w 45 3 with
    | 0 => build .collAllred (decodeCollOp w)
    | 1 => build .collAllgth (decodeCollOp w)
    | 2 => build .collRedsct (decodeCollOp w)
    | 3 => build .collBar (decodeCollOp w)
    | _ => .error .reserved
  | 0x2C8 => build .bop (decodeBopOp w)
  | 0x2C9 => build .bred (decodeBredOp w)
  | 0x2CA => build .bvec (decodeBvecOp w)
  | _ => .error .unassigned

/-- Instructions of 64 bits with opcodes from 0x300 (R51, R53, R54). -/
noncomputable def pickX24 (w op : Nat) : Except DecodeError Instr :=
  match op with
  | 0x300 => build .sysr (decodeSysrOp w)
  | 0x301 => build .sysw (decodeSyswOp w)
  | 0x302 => build .icflush (decodeIcflushOp w)
  | 0x303 => build .enrd (decodeEnrdOp w)
  | 0x304 => build .lresume (decodeLresumeOp w)
  | 0x305 => build .lstep (decodeLresumeOp w)
  | 0x306 => build .lkill (decodeLkillOp w)
  | 0x307 => build .tlbi (decodeTlbiOp w)
  | _ => .error .unassigned

/-- Instructions of 16 bits (R51). -/
def decode16 (w : Nat) : Except DecodeError Instr := pickC0 w (bits w 1 5)

/-- Instructions of 32 bits (R53). -/
def decode32 (w : Nat) : Except DecodeError Instr :=
  match bits w 2 8 / 16 with
  | 0 => pickW0 w (bits w 2 8)
  | 1 => pickW1 w (bits w 2 8)
  | 2 => pickW2 w (bits w 2 8)
  | 3 => pickW3 w (bits w 2 8)
  | 4 => pickW4 w (bits w 2 8)
  | 5 => pickW5 w (bits w 2 8)
  | 6 => pickW6 w (bits w 2 8)
  | 7 => pickW7 w (bits w 2 8)
  | 8 => pickW8 w (bits w 2 8)
  | 9 => pickW9 w (bits w 2 8)
  | 12 => pickW12 w (bits w 2 8)
  | 13 => pickW13 w (bits w 2 8)
  | _ => .error .unassigned

/-- Instructions of 64 bits (R54). -/
noncomputable def decode64 (w : Nat) : Except DecodeError Instr :=
  match bits w 2 10 / 32 with
  | 0 => pickX0 w (bits w 2 10)
  | 1 => pickX1 w (bits w 2 10)
  | 2 => pickX2 w (bits w 2 10)
  | 7 => pickX7 w (bits w 2 10)
  | 8 => pickX8 w (bits w 2 10)
  | 12 => pickX12 w (bits w 2 10)
  | 16 => pickX16 w (bits w 2 10)
  | 20 => pickX20 w (bits w 2 10)
  | 22 => pickX22 w (bits w 2 10)
  | 24 => pickX24 w (bits w 2 10)
  | 30 => build .hintSpace (decodeHintOp w)
  | 31 => build .hintSpace (decodeHintOp w)
  | _ => .error .unassigned

/-- The length in bits of the instruction that begins with halfword `w` (R40). -/
def lengthOf (w : Nat) : Nat := if w % 2 == 0 then 16 else if w % 4 == 1 then 32 else 64

/-- The fields of a word of the given length, before the operand checks of `wf`. -/
noncomputable def decodeFields (nbits w : Nat) : Except DecodeError Instr :=
  match nbits with
  | 16 => decode16 w
  | 32 => decode32 w
  | _ => decode64 w

/-- The instruction of a word of the given length, or why it is none (R55) (DEDUCED, log entry 13; DEDUCED, log entry 14). -/
noncomputable def decodeWord (nbits w : Nat) : Except DecodeError Instr :=
  match decodeFields nbits w with
  | .ok i => if wf i then .ok i else .error .badCode
  | .error e => .error e

/-- The little-endian value of a list of bytes, the lowest address first (R9). -/
def leBytes : List Byte → Nat
  | [] => 0
  | b :: bs => b.toNat + 256 * leBytes bs

/-- The `n` little-endian bytes of a number (R9). -/
def bytesLE : Nat → Nat → List Byte
  | 0, _ => []
  | n + 1, w => BitVec.ofNat 8 w :: bytesLE n (w / 256)

/-- Decodes the instruction at the start of a list of bytes and answers its length in bytes (R40); `none` when the
bytes end before the instruction does. -/
noncomputable def decodeBytes (bs : List Byte) : Option (Nat × Except DecodeError Instr) :=
  let n := lengthOf (leBytes (bs.take 2))
  if bs.length < n / 8 || bs.length < 2 then none else some (n / 8, decodeWord n (leBytes (bs.take (n / 8))))

/-- The instruction of the table's word `w` of `nbits` bits; bits above `nbits` are zero. -/
noncomputable def decodeTableWord (nbits w : Nat) : Option Instr :=
  match decodeBytes (bytesLE 8 (w % 2 ^ nbits)) with
  | some (_, .ok i) => some i
  | _ => none


/-- The number of bits and the word of an instruction; event steps have none. `encode` follows the same tables as the
decoder (R42 to R54) (DEDUCED, log entry 13). -/
def encode : Instr → Option (Nat × Nat)
  | .movC o => some (16, 0x0 + encodeC2 o)
  | .addC o => some (16, 0x2 + encodeC2 o)
  | .subC o => some (16, 0x4 + encodeC2 o)
  | .andC o => some (16, 0x6 + encodeC2 o)
  | .orC o => some (16, 0x8 + encodeC2 o)
  | .xorC o => some (16, 0xA + encodeC2 o)
  | .shlC o => some (16, 0xC + encodeC2 o)
  | .shrC o => some (16, 0xE + encodeC2 o)
  | .sraC o => some (16, 0x10 + encodeC2 o)
  | .addiC o => some (16, 0x12 + encodeCI o)
  | .ldiC o => some (16, 0x14 + encodeCI o)
  | .shliC o => some (16, 0x16 + encodeCI o)
  | .shriC o => some (16, 0x18 + encodeCI o)
  | .sraiC o => some (16, 0x1A + encodeCI o)
  | .andiC o => some (16, 0x1C + encodeCI o)
  | .negC o => some (16, 0x1E + encodeC2 o)
  | .ldI64C o => some (16, 0x20 + encodeC2 o)
  | .stI64C o => some (16, 0x22 + encodeC2 o)
  | .ldI32C o => some (16, 0x24 + encodeC2 o)
  | .stI32C o => some (16, 0x26 + encodeC2 o)
  | .vaddC o => some (16, 0x28 + encodeC2 o)
  | .vmulC o => some (16, 0x2A + encodeC2 o)
  | .vsubC o => some (16, 0x2C + encodeC2 o)
  | .vldC o => some (16, 0x2E + encodeC2 o)
  | .vstC o => some (16, 0x30 + encodeC2 o)
  | .bzC o => some (16, 0x32 + encodeCI o)
  | .bnzC o => some (16, 0x34 + encodeCI o)
  | .jmprC o => some (16, 0x36 + encodeC1 o)
  | .retC o => some (16, 0x38 + encodeC1 o)
  | .doneC o => some (16, 0x3A + encodeC0 o)
  | .nopC o => some (16, 0x3C + encodeC0 o)
  | .brkC o => some (16, 0x3E + encodeCCode o)
  | .add o => some (32, 0x1 + encodeR3 o)
  | .sub o => some (32, 0x5 + encodeR3 o)
  | .neg o => some (32, 0x9 + encodeR2 o)
  | .mul o => some (32, 0xD + encodeR3 o)
  | .mulhi o => some (32, 0x11 + encodeR3 o)
  | .mulhiu o => some (32, 0x15 + encodeR3 o)
  | .div o => some (32, 0x19 + encodeR3 o)
  | .divu o => some (32, 0x1D + encodeR3 o)
  | .rem o => some (32, 0x21 + encodeR3 o)
  | .remu o => some (32, 0x25 + encodeR3 o)
  | .and o => some (32, 0x29 + encodeR3 o)
  | .or o => some (32, 0x2D + encodeR3 o)
  | .xor o => some (32, 0x31 + encodeR3 o)
  | .andn o => some (32, 0x35 + encodeR3 o)
  | .shl o => some (32, 0x39 + encodeR3 o)
  | .shr o => some (32, 0x3D + encodeR3 o)
  | .sra o => some (32, 0x41 + encodeR3 o)
  | .rot o => some (32, 0x45 + encodeR3 o)
  | .min o => some (32, 0x49 + encodeR3 o)
  | .max o => some (32, 0x4D + encodeR3 o)
  | .minu o => some (32, 0x51 + encodeR3 o)
  | .maxu o => some (32, 0x55 + encodeR3 o)
  | .abs o => some (32, 0x59 + encodeR2 o)
  | .clz o => some (32, 0x5D + encodeR2 o)
  | .ctz o => some (32, 0x61 + encodeR2 o)
  | .popc o => some (32, 0x65 + encodeR2 o)
  | .brev o => some (32, 0x69 + encodeR2 o)
  | .bswap o => some (32, 0x6D + encodeR2 o)
  | .sext o => some (32, 0x71 + encodeRW o)
  | .zext o => some (32, 0x75 + encodeRW o)
  | .cmp o => some (32, 0x79 + encodeRCmp o)
  | .mov o => some (32, 0x7D + encodeR2 o)
  | .addi o => some (32, 0x81 + encodeRI o)
  | .muli o => some (32, 0x85 + encodeRI o)
  | .andi o => some (32, 0x89 + encodeRI o)
  | .ori o => some (32, 0x8D + encodeRI o)
  | .xori o => some (32, 0x91 + encodeRI o)
  | .shli o => some (32, 0x95 + encodeRSh o)
  | .shri o => some (32, 0x99 + encodeRSh o)
  | .srai o => some (32, 0x9D + encodeRSh o)
  | .roti o => some (32, 0xA1 + encodeRSh o)
  | .ldi o => some (32, 0xA5 + encodeDI o)
  | .lea o => some (32, 0xA9 + encodeDI o)
  | .cmpi o => some (32, 0xC1 + encodeRICmp o)
  | .br o => some (32, 0x101 + encodeBr o)
  | .bz o => some (32, 0x119 + encodeBz o)
  | .bnz o => some (32, 0x11D + encodeBz o)
  | .bpAny o => some (32, 0x121 + encodeBp o)
  | .bpAll o => some (32, 0x125 + encodeBp o)
  | .bpNone o => some (32, 0x129 + encodeBp o)
  | .jmp o => some (32, 0x12D + encodeBOff o)
  | .call o => some (32, 0x131 + encodeBOff o)
  | .jmpr o => some (32, 0x135 + encodeA1 o)
  | .callr o => some (32, 0x139 + encodeR2 o)
  | .ret o => some (32, 0x13D + encodeA1 o)
  | .loop o => some (32, 0x141 + encodeLoopOp o)
  | .done o => some (32, 0x145 + encodeZ32 o)
  | .nop o => some (32, 0x149 + encodeZ32 o)
  | .trap o => some (32, 0x14D + encodeCodeOp o)
  | .brk o => some (32, 0x151 + encodeCodeOp o)
  | .ld o => some (32, 0x181 + encodeLdOp o)
  | .st o => some (32, 0x1A1 + encodeStOp o)
  | .vld o => some (32, 0x1B1 + encodeRI o)
  | .vst o => some (32, 0x1B5 + encodeRI o)
  | .ldx o => some (32, 0x1B9 + encodeLdxOp o)
  | .stx o => some (32, 0x1BD + encodeStxOp o)
  | .vlds o => some (32, 0x1C1 + encodeV2 o)
  | .vsts o => some (32, 0x1C5 + encodeV2 o)
  | .vgth o => some (32, 0x1C9 + encodeV2 o)
  | .vsct o => some (32, 0x1CD + encodeV2 o)
  | .vscta o => some (32, 0x1D1 + encodeV2 o)
  | .pref o => some (32, 0x1D5 + encodePrefOp o)
  | .waitc o => some (32, 0x1D9 + encodeWaitcOp o)
  | .vadd o => some (32, 0x201 + encodeV2 o)
  | .vsub o => some (32, 0x205 + encodeV2 o)
  | .vmul o => some (32, 0x209 + encodeV2 o)
  | .vfma o => some (32, 0x20D + encodeV2 o)
  | .vfms o => some (32, 0x211 + encodeV2 o)
  | .vfnma o => some (32, 0x215 + encodeV2 o)
  | .vneg o => some (32, 0x219 + encodeV1 o)
  | .vabs o => some (32, 0x21D + encodeV1 o)
  | .vmin o => some (32, 0x221 + encodeV2 o)
  | .vmax o => some (32, 0x225 + encodeV2 o)
  | .vminn o => some (32, 0x229 + encodeV2 o)
  | .vmaxn o => some (32, 0x22D + encodeV2 o)
  | .vrcp o => some (32, 0x231 + encodeV1 o)
  | .vrsq o => some (32, 0x235 + encodeV1 o)
  | .vsqrt o => some (32, 0x239 + encodeV1 o)
  | .vdiv o => some (32, 0x23D + encodeV2 o)
  | .vexp2 o => some (32, 0x241 + encodeV1 o)
  | .vlog2 o => some (32, 0x245 + encodeV1 o)
  | .vand o => some (32, 0x249 + encodeV2 o)
  | .vor o => some (32, 0x24D + encodeV2 o)
  | .vxor o => some (32, 0x251 + encodeV2 o)
  | .vshl o => some (32, 0x255 + encodeV2 o)
  | .vshr o => some (32, 0x259 + encodeV2 o)
  | .vsra o => some (32, 0x25D + encodeV2 o)
  | .vperm o => some (32, 0x261 + encodeV2 o)
  | .vdot o => some (32, 0x265 + encodeV2 o)
  | .vlut o => some (32, 0x269 + encodeR3 o)
  | .vdistL2sq o => some (32, 0x26D + encodeV2 o)
  | .vdistIp o => some (32, 0x271 + encodeV2 o)
  | .vdistCos o => some (32, 0x275 + encodeV2 o)
  | .vnorm o => some (32, 0x279 + encodeV1 o)
  | .pset o => some (32, 0x301 + encodePsetOp o)
  | .pand o => some (32, 0x305 + encodeP3 o)
  | .por o => some (32, 0x309 + encodeP3 o)
  | .pxor o => some (32, 0x30D + encodeP3 o)
  | .pandn o => some (32, 0x311 + encodeP3 o)
  | .pnot o => some (32, 0x315 + encodeP2 o)
  | .pcnt o => some (32, 0x319 + encodeXP o)
  | .pfirst o => some (32, 0x31D + encodeXP o)
  | .pmovxToP o => some (32, 0x321 + encodePX o)
  | .pmovxToX o => some (32, 0x20000321 + encodeXP o)
  | .send o => some (32, 0x325 + encodeS2 o)
  | .sendv o => some (32, 0x329 + encodeSendvOp o)
  | .sendo o => some (32, 0x32D + encodeSendoOp o)
  | .spawn o => some (32, 0x331 + encodeS1 o)
  | .spawnc o => some (32, 0x335 + encodeS2 o)
  | .joinat o => some (32, 0x339 + encodeS2 o)
  | .tsrd o => some (32, 0x33D + encodeD1 o)
  | .abortt o => some (32, 0x341 + encodeD1 o)
  | .aborttDrop o => some (32, 0x20000341 + encodeD1 o)
  | .range o => some (32, 0x345 + encodeRangeOp o)
  | .chunk o => some (32, 0x349 + encodeChunkOp o)
  | .steal o => some (32, 0x34D + encodeStealOp o)
  | .actor o => some (32, 0x351 + encodeS2 o)
  | .sbcfg o => some (32, 0x355 + encodeS2 o)
  | .push o => some (32, 0x359 + encodeS2 o)
  | .pop o => some (32, 0x35D + encodeR2 o)
  | .hvw o => some (32, 0x361 + encodeS2 o)
  | .vaddX o => some (64, 0x3 + encodeVX2 o)
  | .vsubX o => some (64, 0x7 + encodeVX2 o)
  | .vmulX o => some (64, 0xB + encodeVX2 o)
  | .vfmaX o => some (64, 0xF + encodeVX3 o)
  | .vfmsX o => some (64, 0x13 + encodeVX3 o)
  | .vfnmaX o => some (64, 0x17 + encodeVX3 o)
  | .vnegX o => some (64, 0x1B + encodeVX1 o)
  | .vabsX o => some (64, 0x1F + encodeVX1 o)
  | .vminX o => some (64, 0x23 + encodeVX2 o)
  | .vmaxX o => some (64, 0x27 + encodeVX2 o)
  | .vminnX o => some (64, 0x2B + encodeVX2 o)
  | .vmaxnX o => some (64, 0x2F + encodeVX2 o)
  | .vrcpX o => some (64, 0x33 + encodeVX1 o)
  | .vrsqX o => some (64, 0x37 + encodeVX1 o)
  | .vsqrtX o => some (64, 0x3B + encodeVX1 o)
  | .vdivX o => some (64, 0x3F + encodeVX2 o)
  | .vexp2X o => some (64, 0x43 + encodeVX1 o)
  | .vlog2X o => some (64, 0x47 + encodeVX1 o)
  | .vandX o => some (64, 0x4B + encodeVX2 o)
  | .vorX o => some (64, 0x4F + encodeVX2 o)
  | .vxorX o => some (64, 0x53 + encodeVX2 o)
  | .vshlX o => some (64, 0x57 + encodeVX2 o)
  | .vshrX o => some (64, 0x5B + encodeVX2 o)
  | .vsraX o => some (64, 0x5F + encodeVX2 o)
  | .vpermX o => some (64, 0x63 + encodeVX2 o)
  | .vdotX o => some (64, 0x67 + encodeVX2 o)
  | .vlutX o => some (64, 0x6B + encodeVX2 o)
  | .vdistL2sqX o => some (64, 0x6F + encodeVX2 o)
  | .vdistIpX o => some (64, 0x73 + encodeVX2 o)
  | .vdistCosX o => some (64, 0x77 + encodeVX2 o)
  | .vnormX o => some (64, 0x7B + encodeVX1 o)
  | .vcmp o => some (64, 0x83 + encodeVcmpOp o)
  | .vsel o => some (64, 0x87 + encodeVselOp o)
  | .vcvt o => some (64, 0x8B + encodeVcvtOp o)
  | .vround o => some (64, 0x8F + encodeVX1 o)
  | .vclamp o => some (64, 0x93 + encodeVX3 o)
  | .vsplat o => some (64, 0x97 + encodeXX1 o)
  | .vextr o => some (64, 0x9B + encodeXX2 o)
  | .vins o => some (64, 0x9F + encodeXX2 o)
  | .viota o => some (64, 0xA3 + encodeViotaOp o)
  | .vslide o => some (64, 0xA7 + encodeVslideOp o)
  | .vcomp o => some (64, 0xAB + encodeVcompOp o)
  | .vexpd o => some (64, 0xAF + encodeVcompOp o)
  | .vred o => some (64, 0xB3 + encodeVredOp o)
  | .vscan o => some (64, 0xB7 + encodeVscanOp o)
  | .topk o => some (64, 0xBB + encodeTopkOp o)
  | .topkm o => some (64, 0xBF + encodeTopkOp o)
  | .sel o => some (64, 0x103 + encodeX3 o)
  | .madd o => some (64, 0x107 + encodeX3 o)
  | .bfx o => some (64, 0x10B + encodeBfxOp o)
  | .bfxu o => some (64, 0x10F + encodeBfxOp o)
  | .bfi o => some (64, 0x113 + encodeBfiOp o)
  | .ldiL o => some (64, 0x3E3 + encodeLImm o)
  | .ldih o => some (64, 0x3E7 + encodeLImm o)
  | .jmpL o => some (64, 0x3EB + encodeLJmp o)
  | .callL o => some (64, 0x3EF + encodeLCall o)
  | .ldX o => some (64, 0x403 + encodeLdXOp o)
  | .stX o => some (64, 0x407 + encodeStXOp o)
  | .amo o => some (64, 0x40B + encodeAmoOp o)
  | .cas o => some (64, 0x40F + encodeCasOp o)
  | .vldX o => some (64, 0x413 + encodeVldXOp o)
  | .vstX o => some (64, 0x417 + encodeVstXOp o)
  | .vgthX o => some (64, 0x41B + encodeVgthXOp o)
  | .vsctX o => some (64, 0x41F + encodeVsctXOp o)
  | .vsctaX o => some (64, 0x423 + encodeVsctaXOp o)
  | .xcopyIn o => some (64, 0x603 + encodeXcopyOp o)
  | .xcopyOut o => some (64, 0x200000000603 + encodeXcopyOp o)
  | .xcopyXx o => some (64, 0x400000000603 + encodeXxOp o)
  | .xgather o => some (64, 0x607 + encodeXgatherOp o)
  | .xscatter o => some (64, 0x60B + encodeXgatherOp o)
  | .xred o => some (64, 0x60F + encodeXredOp o)
  | .xfill o => some (64, 0x613 + encodeXfillOp o)
  | .xblkRd o => some (64, 0x617 + encodeXblkOp o)
  | .xblkWr o => some (64, 0x200000000617 + encodeXblkOp o)
  | .xblkFlush o => some (64, 0x400000000617 + encodeXblkOp o)
  | .txinit o => some (64, 0x61B + encodeTxinitOp o)
  | .txarr o => some (64, 0x61F + encodeTxarrOp o)
  | .txexp o => some (64, 0x623 + encodeTxexpOp o)
  | .txwait o => some (64, 0x627 + encodeTxwaitOp o)
  | .txtest o => some (64, 0x62B + encodeTxtestOp o)
  | .txtestErr o => some (64, 0x80000000000062B + encodeTxtestErrOp o)
  | .shfence o => some (64, 0x62F + encodeZ64 o)
  | .shpf o => some (64, 0x633 + encodeShpfOp o)
  | .tcfg o => some (64, 0x803 + encodeTcfgOp o)
  | .tld o => some (64, 0x807 + encodeTldOp o)
  | .tst o => some (64, 0x80B + encodeTldOp o)
  | .tzero o => some (64, 0x80F + encodeTzeroOp o)
  | .trow o => some (64, 0x813 + encodeTrowOp o)
  | .tsetrow o => some (64, 0x817 + encodeTsetrowOp o)
  | .msk o => some (64, 0x81B + encodeMskOp o)
  | .gwld o => some (64, 0x81F + encodeGwldOp o)
  | .gmma o => some (64, 0x823 + encodeGmmaOp o)
  | .gmmas o => some (64, 0x827 + encodeGmmaOp o)
  | .gmmag o => some (64, 0x82B + encodeGmmagOp o)
  | .gacc o => some (64, 0x82F + encodeGaccOp o)
  | .gaccz o => some (64, 0x833 + encodeGacczOp o)
  | .evcfg o => some (64, 0xA03 + encodeEvcfgOp o)
  | .evinj o => some (64, 0xA07 + encodeEvinjOp o)
  | .evrd o => some (64, 0xA0B + encodeEvrdOp o)
  | .evwr o => some (64, 0xA0F + encodeEvwrOp o)
  | .evfan o => some (64, 0xA13 + encodeEvfanOp o)
  | .evstat o => some (64, 0xA17 + encodeEvstatOp o)
  | .bar o => some (64, 0xB03 + encodeBarOp o)
  | .bara o => some (64, 0xB07 + encodeBarOp o)
  | .barw o => some (64, 0xB0B + encodeBarOp o)
  | .fturn o => some (64, 0xB0F + encodeFturnOp o)
  | .get o => some (64, 0xB13 + encodeGetOp o)
  | .put o => some (64, 0xB17 + encodePutOp o)
  | .ramo o => some (64, 0xB1B + encodeRamoOp o)
  | .collAllred o => some (64, 0xB1F + encodeCollOp o)
  | .collAllgth o => some (64, 0x200000000B1F + encodeCollOp o)
  | .collRedsct o => some (64, 0x400000000B1F + encodeCollOp o)
  | .collBar o => some (64, 0x600000000B1F + encodeCollOp o)
  | .bop o => some (64, 0xB23 + encodeBopOp o)
  | .bred o => some (64, 0xB27 + encodeBredOp o)
  | .bvec o => some (64, 0xB2B + encodeBvecOp o)
  | .sysr o => some (64, 0xC03 + encodeSysrOp o)
  | .sysw o => some (64, 0xC07 + encodeSyswOp o)
  | .icflush o => some (64, 0xC0B + encodeIcflushOp o)
  | .enrd o => some (64, 0xC0F + encodeEnrdOp o)
  | .lresume o => some (64, 0xC13 + encodeLresumeOp o)
  | .lstep o => some (64, 0xC17 + encodeLresumeOp o)
  | .lkill o => some (64, 0xC1B + encodeLkillOp o)
  | .tlbi o => some (64, 0xC1F + encodeTlbiOp o)
  | .hintSpace o => some (64, 0xF03 + encodeHintOp o)
  | .dispatch _ => none
  | .laneAged _ _ => none
  | .laneUnblock _ _ => none
  | .resultArrival _ _ _ => none
  | .storePerformed _ _ => none
  | .faultFreeze _ _ => none
  | .faultRingWrite _ => none
  | .messageAccept _ _ => none
  | .sendQueueReoffer _ _ => none
  | .remotePushAccept _ _ => none
  | .taskAccept _ => none
  | .taskSpillReturn _ => none
  | .stealRequest _ _ => none
  | .stealAnswer _ _ => none
  | .eventAccept _ _ => none
  | .eventSpillReturn _ => none
  | .eventDelivery _ => none
  | .eventDiscard _ => none
  | .fanoutEmit _ => none
  | .fireMessagePost _ => none
  | .asyncOpStart _ _ _ => none
  | .gangForm _ _ => none
  | .gangTimeout _ _ => none
  | .gangPositionExpiry _ _ => none
  | .gangComplete _ => none
  | .tileOpComplete _ _ => none
  | .engineSectorComplete _ _ _ _ => none
  | .engctlReplay _ _ _ => none
  | .engctlFail _ _ _ => none
  | .txBarrierUpdate _ => none
  | .reduceSectorApply _ _ _ => none
  | .bankSectorApply _ _ _ => none
  | .pageWalkComplete _ _ _ => none
  | .transientRequest _ _ _ => none
  | .transientTimeout _ _ => none
  | .persistentRequest _ _ => none
  | .persistentDeactivate _ _ => none
  | .directoryRequest _ _ _ => none
  | .directoryRecall _ _ _ => none
  | .backInvalidate _ => none
  | .hostMemWrite _ _ _ => none
  | .hostMemRead _ _ => none
  | .spawnWindowStore _ _ _ => none
  | .launchCommand _ _ _ => none
  | .launchTake _ => none
  | .launchEnd _ _ => none
  | .lstatRead => none
  | .spwstatRead => none
  | .attdropRead => none
  | .attreq _ => none
  | .attestationReport => none
  | .cctlRcflush _ _ => none
  | .cctlFrzall _ _ => none
  | .cctlHold _ _ _ => none
  | .lctlFrzreq _ _ _ _ => none
  | .debugFrameWrite _ _ _ _ _ _ => none
  | .registerWrite _ _ _ _ => none
  | .domainCreate _ _ _ => none
  | .domainSuspend _ _ => none
  | .domainResume _ _ => none
  | .domainRetire _ _ => none
  | .hearthRoundStart => none
  | .hearthRootForm => none
  | .hearthValuesArrive _ => none
  | .taskAbort _ => none
  | .holdTimeout _ _ => none
  | .spatialPreempt _ _ => none
  | .preemptDeadline _ => none
  | .dmaSave _ _ => none
  | .dmaRestore _ _ => none
  | .dmaDone _ _ _ => none
  | .dieNormalReset _ _ => none
  | .dieAbruptReset _ _ => none
  | .dieResetEnter _ => none
  | .dieRejoin _ _ => none
  | .flcmdWrite _ _ _ => none
  | .flueTurnStart _ => none
  | .flueGroupTurned _ => none
  | .linkPacketReceive _ _ _ => none
  | .linkRetry _ _ => none
  | .flueDrowsy _ => none
  | .flueTrained _ => none
  | .flueWakeTimeout _ => none
  | .dieUnresponsive _ _ => none
  | .barrierForce _ _ _ _ => none
  | .podBarrierForce _ _ => none
  | .podBarrierArrival _ => none
  | .podBarrierRelease _ => none
  | .hornFlitReceive _ _ => none
  | .hornRetry _ => none
  | .hornRetrain _ => none
  | .podPacketReceive _ => none
  | .podOpTimeout _ _ => none
  | .collTimeout _ _ => none
  | .nvmeCompletion _ _ _ => none
  | .xblkTimeout _ _ => none
  | .energyCharge _ => none
  | .energyAccountWrite _ _ _ _ _ => none
  | .powerLimitThrottle _ => none
  | .freqChangeDone _ => none
  | .thermalThrottle _ => none
  | .thermalDieReset _ => none
  | .thermalShutdown => none
  | .packageReset _ => none
  | .functionReady _ => none
  | .functionFailed _ => none
  | .lmDoubleBitError _ _ => none
  | .hbmUncorrectableError _ => none
  | .thermalThrottleEnd _ => none
  | .dieRejoinComplete _ => none
  | .hornPortTrained _ => none

end Sys2Proof
end

