-- ==== Sys2Proof/Machine/Fetch.lean ====
section
/-! DEFINITION. Fetching instruction bytes: the loop buffer (R100), the L1I (R140) and translation for fetch (R264), and
the end of a LOOP body (R99). -/

namespace Sys2Proof.Machine

/-- Core `c`'s L1I with a line, of 256 sets of four: one of a full set leaves it (R140) (DESIGN CHOICE, log entry 39). -/
def l1iFill (s : State) (c line w : Nat) : State :=
  let held := ((coreOf s c).ctl.l1i.filter (fun e => l1Set 256 e.1 == l1Set 256 line)).map (·.1)
  let full := decide (4 ≤ held.length)
  let gone := victimOf s held
  onCore (if full then draw s else s) c (fun k => { k with ctl := { k.ctl with
    l1i := smSet (if full then smDel k.ctl.l1i gone else k.ctl.l1i) line w } })

/-- The 64-byte line of an instruction address in core `c`'s L1I, filled through the L2 when it is not held; a line that the L2 may not
hold is fetched from its memory each time (R140, R254, R358, R409) (DESIGN CHOICE, log entry 18). -/
def l1iLine (s : State) (c pa mt : Nat) : Except Stop (State × Nat) :=
  match smGet (coreOf s c).ctl.l1i (lineOf pa) with
  | some w => .ok (s, w)
  | none => do
    reach (pathPhys s (dieNo c) pa mt false) 0
    let w := memRead s.mem (lineOf pa) 64
    .ok (if cacheable pa mt then l1iFill (grantRead s (dieNo c) (lineOf pa)) c (lineOf pa) w else s, w)

/-- The halfword at an address in a lane's loop buffer, which holds any only while a LOOP is active (R100). -/
def bufferedHalf (l : Lane) (a : Nat) : Option Nat := if l.loop.len = 0 then none else smGet l.loop.buf a

/-- The halfword at an address for lane `l` of core `c`, or what stops its fetch: a fetch fault, or the way to it (R41, R98, R264,
R358, R367). -/
def fetchHalf (s : State) (c l a : Nat) : Except Stop (State × Nat) :=
  match bufferedHalf (laneOf s c l) a with
  | some h => .ok (s, h)
  | none =>
    if 2 ^ 48 ≤ a then trap .fetch
    else do
      let ctx := ctxOf s c (laneOf s c l)
      reach (transWay s c ctx a .fetch) 0
      match translate s c ctx a .fetch with
      | some (s, pa, mt, _) =>
        if pa < 2 ^ 41 then
          let (s, w) ← l1iLine s c pa mt
          .ok (s, w / 2 ^ (8 * (pa % 64)) % 2 ^ 16)
        else trap .fetch
      | none => trap .fetch

/-- The `k` halfwords from an address, as one little-endian value (R40). -/
def fetchHalves (s : State) (c l a : Nat) : Nat → Except Stop (State × Nat)
  | 0 => .ok (s, 0)
  | k + 1 => do
    let (s, h) ← fetchHalf s c l a
    let (s, w) ← fetchHalves s c l (a + 2) k
    .ok (s, h + 2 ^ 16 * w)

/-- The instruction at the lane's PC: its length in bits and its word (R40, R41). -/
def fetchInstr (s : State) (c l : Nat) : Except Stop (State × Nat × Nat) := do
  let a := (laneOf s c l).pc.toNat
  let (s, h) ← fetchHalf s c l a
  let n := lengthOf h
  let (s, w) ← fetchHalves s c l a (n / 16)
  .ok (s, n, w)

/-- The address after `k` instructions from `a`, by the length rule, or what stops the fetch of a first halfword (R99)
(DEDUCED, log entry 9). -/
def bodyEnd (s : State) (c l : Nat) : Nat → Nat → Except Stop Nat
  | a, 0 => .ok a
  | a, k + 1 => do
    let (s, h) ← fetchHalf s c l a
    bodyEnd s c l (a + lengthOf h / 8) k

/-- The halfword at an address as its fetch will find it: from the loop buffer, the L1I or memory, whether or not the way there is
open now; `none` for a fetch fault (R41, R99, R100) (DEDUCED, log entry 9). -/
def peekHalf (s : State) (c l a : Nat) : Option Nat :=
  match bufferedHalf (laneOf s c l) a with
  | some h => some h
  | none =>
    if 2 ^ 48 ≤ a then none
    else match translate s c (ctxOf s c (laneOf s c l)) a .fetch with
      | some (t, pa, _, _) =>
        if pa < 2 ^ 41 then
          some (match smGet (coreOf t c).ctl.l1i (lineOf pa) with
            | some w => w / 2 ^ (8 * (pa % 64)) % 2 ^ 16
            | none => memRead t.mem pa 2)
        else none
      | none => none

/-- The address after `k` instructions from `a`, as their fetches will find them (R99) (DEDUCED, log entry 9). -/
def peekEnd (s : State) (c l : Nat) : Nat → Nat → Option Nat
  | a, 0 => some a
  | a, k + 1 => (peekHalf s c l a).bind (fun h => peekEnd s c l (a + lengthOf h / 8) k)

/-- The lane with the end of its active LOOP body: no body has one whose instructions cannot be fetched (R99) (DEDUCED, log entry 9). -/
def withStop (s : State) (c l : Nat) (x : Lane) : Lane :=
  if x.loop.len = 0 then x
  else { x with loop := { x.loop with stop := (peekEnd s c l x.loop.pc.toNat x.loop.len).map (BitVec.ofNat 48) } }

/-- The halfwords of an issued instruction enter the loop buffer while a LOOP is active (R100). -/
def bufferHalves (b : SMap Nat) (a w : Nat) : Nat → SMap Nat
  | 0 => b
  | k + 1 => bufferHalves (smSet b a (w % 2 ^ 16)) (a + 2) (w / 2 ^ 16) k

end Sys2Proof.Machine
end

