-- ==== Sys2Proof/Machine/Scalar.lean ====
section
/-! DEFINITION. Scalar integer, immediate, bit-field and predicate instructions (R84 to R95, and their C forms of R51).
Each meaning is one line over the shared operation of its shape. -/

namespace Sys2Proof.Machine

/-! ### The shapes -/

/-- Two x sources and an x destination (R86): every read before the write, last-use sources dead (R27). -/
def alu2 (d : Reg) (a b : Src) (g : X → X → X) (l : Lane) : Except Stop Lane := do
  gate l [.x a, .x b] [.x d]
  .ok (putX (kill l [.x a, .x b]) d (g (getX l a.reg) (getX l b.reg)))

/-- One x source and an x destination (R86, R92). -/
def alu1 (d : Reg) (a : Src) (g : X → X) (l : Lane) : Except Stop Lane := do
  gate l [.x a] [.x d]
  .ok (putX (kill l [.x a]) d (g (getX l a.reg)))

/-- Three x sources and an x destination (R91, R94). -/
def alu3 (d : Reg) (a b c : Src) (g : X → X → X → X) (l : Lane) : Except Stop Lane := do
  gate l [.x a, .x b, .x c] [.x d]
  .ok (putX (kill l [.x a, .x b, .x c]) d (g (getX l a.reg) (getX l b.reg) (getX l c.reg)))

/-- No source (R92, R93). -/
def alu0 (d : Reg) (v : Lane → X) (l : Lane) : Except Stop Lane := do
  gate l [] [.x d]
  .ok (putX l d (v l))

/-- A long-latency producer without memory (R26): the destination is empty until the result arrives; one that writes x0
empties nothing (R44). -/
def longX (d : Reg) (a b : Src) (g : X → X → X) (s : State) : Except Stop State := do
  let l := cur s
  gate l [.x a, .x b] [.x d]
  let k := kill l [.x a, .x b]
  if d = 0 then .ok (setCur s k)
  else .ok (produce (setCur s k) ⟨.x d, (g (getX l a.reg) (getX l b.reg)).setWidth 1024, false, none, s.sched.bits, 0, siteOf s⟩)

/-- The sign-extended 10-bit immediate (R43, R92). -/
def simm (i : BitVec 10) : X := i.signExtend 64

/-! ### The operations -/

/-- Bits 127 to 64 of the signed product (R86, R89). -/
def mulhiX (a b : X) : X := BitVec.ofInt 64 (a.toInt * b.toInt / 2 ^ 64)

/-- Bits 127 to 64 of the unsigned product (R86, R89). -/
def mulhiuX (a b : X) : X := BitVec.ofNat 64 (a.toNat * b.toNat / 2 ^ 64)

/-- Signed quotient, rounded towards zero, with the cases of R87. -/
def divX (a b : X) : X := if b = 0 then BitVec.allOnes 64 else a.sdiv b

/-- Unsigned quotient, with the case of R87. -/
def divuX (a b : X) : X := if b = 0 then BitVec.allOnes 64 else a / b

/-- Signed remainder, with the sign of the dividend and the cases of R87. -/
def remX (a b : X) : X := if b = 0 then a else a.srem b

/-- Unsigned remainder, with the case of R87. -/
def remuX (a b : X) : X := if b = 0 then a else a % b

/-- Left shift by the low six bits of the count (R88). -/
def shlX (a b : X) : X := a <<< (b.toNat % 64)

/-- Right shift with zeros (R88). -/
def shrX (a b : X) : X := a >>> (b.toNat % 64)

/-- Right shift with copies of bit 63 (R88). -/
def sraX (a b : X) : X := a.sshiftRight (b.toNat % 64)

/-- Right rotation (R88). -/
def rotX (a b : X) : X := a.rotateRight (b.toNat % 64)

/-- Signed minimum (R86). -/
def minX (a b : X) : X := if a.sle b then a else b

/-- Signed maximum (R86). -/
def maxX (a b : X) : X := if a.sle b then b else a

/-- Unsigned minimum (R86). -/
def minuX (a b : X) : X := if a.ule b then a else b

/-- Unsigned maximum (R86). -/
def maxuX (a b : X) : X := if a.ule b then b else a

/-- Absolute value; that of -2^63 is -2^63 (R86). -/
def absX (a : X) : X := if a.slt 0 then 0 - a else a

/-- Leading zero bits among the `n` bits below bit `n` (R86). -/
def leadingZeros (a : Nat) : Nat → Nat
  | 0 => 0
  | n + 1 => if bit a n then 0 else 1 + leadingZeros a n

/-- Number of leading zero bits, 0 to 64 (R86). -/
def clzX (a : X) : X := BitVec.ofNat 64 (leadingZeros a.toNat 64)

/-- Number of trailing zero bits, 0 to 64 (R86). -/
def ctzX (a : X) : X := BitVec.ofNat 64 (firstOne a.toNat 0 64)

/-- Number of one bits (R86). -/
def popcX (a : X) : X := BitVec.ofNat 64 (popBelow a.toNat 64)

/-- The bits in reverse order (R86). -/
def brevX (a : X) : X := a.reverse

/-- The `n` low bytes of a number in reverse order. -/
def swapBytes (a : Nat) : Nat → Nat
  | 0 => 0
  | n + 1 => a % 256 * 256 ^ n + swapBytes (a / 256) n

/-- The bytes in reverse order (R86). -/
def bswapX (a : X) : X := BitVec.ofNat 64 (swapBytes a.toNat 8)

/-- The width that fn3 of SEXT and ZEXT encodes (R86). -/
def extWidth (w : Fin 3) : Nat := 8 * 2 ^ w.val

/-- Zero-extends the low `n` bits (R86). -/
def zext (n : Nat) (a : X) : X := BitVec.ofNat 64 (a.toNat % 2 ^ n)

/-- xa when xc is not 0, else xb (R91). -/
def selX (a b c : X) : X := if c ≠ 0 then a else b

/-- The `len`-bit field at `pos`, zero-extended (R94). -/
def bfxuX (pos len : Nat) (a : X) : X := BitVec.ofNat 64 (a.toNat / 2 ^ pos % 2 ^ len)

/-- The `len`-bit field at `pos`, sign-extended (R94). -/
def bfxX (pos len : Nat) (a : X) : X := sext len (bfxuX pos len a)

/-- xa with the `len`-bit field at `pos` replaced by the low bits of xb (R94). -/
def bfiX (pos len : Nat) (a b : X) : X := BitVec.ofNat 64 (putBits a.toNat pos len b.toNat)

/-! ### R format (R86) -/

/-- `ADD xd, xa, xb` (R86). -/
def execAdd (o : R3) : State → Host.Outcome State Fault Refusal :=
  laneOp 4 (alu2 o.d o.a o.b (fun a b => a + b))

/-- `SUB xd, xa, xb` (R86). -/
def execSub (o : R3) : State → Host.Outcome State Fault Refusal :=
  laneOp 4 (alu2 o.d o.a o.b (fun a b => a - b))

/-- `MUL xd, xa, xb` (R86). -/
def execMul (o : R3) : State → Host.Outcome State Fault Refusal :=
  laneOp 4 (alu2 o.d o.a o.b (fun a b => a * b))

/-- `MULHI xd, xa, xb` (R86). -/
def execMulhi (o : R3) : State → Host.Outcome State Fault Refusal :=
  laneOp 4 (alu2 o.d o.a o.b mulhiX)

/-- `MULHIU xd, xa, xb` (R86). -/
def execMulhiu (o : R3) : State → Host.Outcome State Fault Refusal :=
  laneOp 4 (alu2 o.d o.a o.b mulhiuX)

/-- `AND xd, xa, xb` (R86). -/
def execAnd (o : R3) : State → Host.Outcome State Fault Refusal :=
  laneOp 4 (alu2 o.d o.a o.b (fun a b => a &&& b))

/-- `OR xd, xa, xb` (R86). -/
def execOr (o : R3) : State → Host.Outcome State Fault Refusal :=
  laneOp 4 (alu2 o.d o.a o.b (fun a b => a ||| b))

/-- `XOR xd, xa, xb` (R86). -/
def execXor (o : R3) : State → Host.Outcome State Fault Refusal :=
  laneOp 4 (alu2 o.d o.a o.b (fun a b => a ^^^ b))

/-- `ANDN xd, xa, xb` (R86). -/
def execAndn (o : R3) : State → Host.Outcome State Fault Refusal :=
  laneOp 4 (alu2 o.d o.a o.b (fun a b => a &&& ~~~ b))

/-- `SHL xd, xa, xb` (R86). -/
def execShl (o : R3) : State → Host.Outcome State Fault Refusal :=
  laneOp 4 (alu2 o.d o.a o.b shlX)

/-- `SHR xd, xa, xb` (R86). -/
def execShr (o : R3) : State → Host.Outcome State Fault Refusal :=
  laneOp 4 (alu2 o.d o.a o.b shrX)

/-- `SRA xd, xa, xb` (R86). -/
def execSra (o : R3) : State → Host.Outcome State Fault Refusal :=
  laneOp 4 (alu2 o.d o.a o.b sraX)

/-- `ROT xd, xa, xb` (R86). -/
def execRot (o : R3) : State → Host.Outcome State Fault Refusal :=
  laneOp 4 (alu2 o.d o.a o.b rotX)

/-- `MIN xd, xa, xb` (R86). -/
def execMin (o : R3) : State → Host.Outcome State Fault Refusal :=
  laneOp 4 (alu2 o.d o.a o.b minX)

/-- `MAX xd, xa, xb` (R86). -/
def execMax (o : R3) : State → Host.Outcome State Fault Refusal :=
  laneOp 4 (alu2 o.d o.a o.b maxX)

/-- `MINU xd, xa, xb` (R86). -/
def execMinu (o : R3) : State → Host.Outcome State Fault Refusal :=
  laneOp 4 (alu2 o.d o.a o.b minuX)

/-- `MAXU xd, xa, xb` (R86). -/
def execMaxu (o : R3) : State → Host.Outcome State Fault Refusal :=
  laneOp 4 (alu2 o.d o.a o.b maxuX)

/-- `NEG xd, xa` (R86). -/
def execNeg (o : R2) : State → Host.Outcome State Fault Refusal :=
  laneOp 4 (alu1 o.d o.a (fun a => 0 - a))

/-- `ABS xd, xa` (R86). -/
def execAbs (o : R2) : State → Host.Outcome State Fault Refusal :=
  laneOp 4 (alu1 o.d o.a absX)

/-- `CLZ xd, xa` (R86). -/
def execClz (o : R2) : State → Host.Outcome State Fault Refusal :=
  laneOp 4 (alu1 o.d o.a clzX)

/-- `CTZ xd, xa` (R86). -/
def execCtz (o : R2) : State → Host.Outcome State Fault Refusal :=
  laneOp 4 (alu1 o.d o.a ctzX)

/-- `POPC xd, xa` (R86). -/
def execPopc (o : R2) : State → Host.Outcome State Fault Refusal :=
  laneOp 4 (alu1 o.d o.a popcX)

/-- `BREV xd, xa` (R86). -/
def execBrev (o : R2) : State → Host.Outcome State Fault Refusal :=
  laneOp 4 (alu1 o.d o.a brevX)

/-- `BSWAP xd, xa` (R86). -/
def execBswap (o : R2) : State → Host.Outcome State Fault Refusal :=
  laneOp 4 (alu1 o.d o.a bswapX)

/-- `MOV xd, xa` (R86). -/
def execMov (o : R2) : State → Host.Outcome State Fault Refusal :=
  laneOp 4 (alu1 o.d o.a id)

/-- `DIV xd, xa, xb`: a long-latency producer (R87). -/
def execDiv (o : R3) : State → Host.Outcome State Fault Refusal :=
  stateOp 4 (longX o.d o.a o.b divX)

/-- `DIVU xd, xa, xb`: a long-latency producer (R87). -/
def execDivu (o : R3) : State → Host.Outcome State Fault Refusal :=
  stateOp 4 (longX o.d o.a o.b divuX)

/-- `REM xd, xa, xb`: a long-latency producer (R87). -/
def execRem (o : R3) : State → Host.Outcome State Fault Refusal :=
  stateOp 4 (longX o.d o.a o.b remX)

/-- `REMU xd, xa, xb`: a long-latency producer (R87). -/
def execRemu (o : R3) : State → Host.Outcome State Fault Refusal :=
  stateOp 4 (longX o.d o.a o.b remuX)

/-- `SEXT xd, xa, #w` (R86). -/
def execSext (o : RW) : State → Host.Outcome State Fault Refusal :=
  laneOp 4 (alu1 o.d o.a (sext (extWidth o.w)))

/-- `ZEXT xd, xa, #w` (R86). -/
def execZext (o : RW) : State → Host.Outcome State Fault Refusal :=
  laneOp 4 (alu1 o.d o.a (zext (extWidth o.w)))

/-- `CMP.cond xd, xa, xb` (R90). -/
def execCmp (o : RCmp) : State → Host.Outcome State Fault Refusal :=
  laneOp 4 (alu2 o.d o.a o.b (condWord o.cond))

/-! ### I format (R92) -/

/-- `CMPI.cond xd, xa, #imm` (R90). -/
def execCmpi (o : RICmp) : State → Host.Outcome State Fault Refusal :=
  laneOp 4 (alu1 o.d o.a (fun a => condWord o.cond a (simm o.imm)))

/-- `ADDI xd, xa, #imm` (R92). -/
def execAddi (o : RI) : State → Host.Outcome State Fault Refusal :=
  laneOp 4 (alu1 o.d o.a (fun a => a + simm o.imm))

/-- `MULI xd, xa, #imm` (R92). -/
def execMuli (o : RI) : State → Host.Outcome State Fault Refusal :=
  laneOp 4 (alu1 o.d o.a (fun a => a * simm o.imm))

/-- `ANDI xd, xa, #imm` (R92). -/
def execAndi (o : RI) : State → Host.Outcome State Fault Refusal :=
  laneOp 4 (alu1 o.d o.a (fun a => a &&& simm o.imm))

/-- `ORI xd, xa, #imm` (R92). -/
def execOri (o : RI) : State → Host.Outcome State Fault Refusal :=
  laneOp 4 (alu1 o.d o.a (fun a => a ||| simm o.imm))

/-- `XORI xd, xa, #imm` (R92). -/
def execXori (o : RI) : State → Host.Outcome State Fault Refusal :=
  laneOp 4 (alu1 o.d o.a (fun a => a ^^^ simm o.imm))

/-- `SHLI xd, xa, #n` (R88). -/
def execShli (o : RSh) : State → Host.Outcome State Fault Refusal :=
  laneOp 4 (alu1 o.d o.a (fun a => shlX a (o.n.setWidth 64)))

/-- `SHRI xd, xa, #n` (R88). -/
def execShri (o : RSh) : State → Host.Outcome State Fault Refusal :=
  laneOp 4 (alu1 o.d o.a (fun a => shrX a (o.n.setWidth 64)))

/-- `SRAI xd, xa, #n` (R88). -/
def execSrai (o : RSh) : State → Host.Outcome State Fault Refusal :=
  laneOp 4 (alu1 o.d o.a (fun a => sraX a (o.n.setWidth 64)))

/-- `ROTI xd, xa, #n` (R88). -/
def execRoti (o : RSh) : State → Host.Outcome State Fault Refusal :=
  laneOp 4 (alu1 o.d o.a (fun a => rotX a (o.n.setWidth 64)))

/-- `LDI xd, #imm` (R92). -/
def execLdi (o : DI) : State → Host.Outcome State Fault Refusal :=
  laneOp 4 (alu0 o.d (fun _ => simm o.imm))

/-- `LEA xd, label`: the address of the `LEA` plus twice the immediate (R92). -/
def execLea (o : DI) : State → Host.Outcome State Fault Refusal :=
  laneOp 4 (alu0 o.d (fun l => l.pc.setWidth 64 + simm o.imm * 2))

/-! ### X and L formats (R91, R93, R94) -/

/-- `SEL xd, xa, xb, xc` reads all three sources (R91). -/
def execSel (o : X3) : State → Host.Outcome State Fault Refusal :=
  guardedLaneOp 8 o.guard (alu3 o.d o.a o.b o.c selX)

/-- `MADD xd, xa, xb, xc` (R94). -/
def execMadd (o : X3) : State → Host.Outcome State Fault Refusal :=
  guardedLaneOp 8 o.guard (alu3 o.d o.a o.b o.c (fun a b c => a * b + c))

/-- `BFX xd, xa, #pos, #len` (R94). -/
def execBfx (o : BfxOp) : State → Host.Outcome State Fault Refusal :=
  guardedLaneOp 8 o.guard (alu1 o.d o.a (bfxX o.pos.toNat o.len.toNat))

/-- `BFXU xd, xa, #pos, #len` (R94). -/
def execBfxu (o : BfxOp) : State → Host.Outcome State Fault Refusal :=
  guardedLaneOp 8 o.guard (alu1 o.d o.a (bfxuX o.pos.toNat o.len.toNat))

/-- `BFI xd, xa, xb, #pos, #len` (R94). -/
def execBfi (o : BfiOp) : State → Host.Outcome State Fault Refusal :=
  guardedLaneOp 8 o.guard (alu2 o.d o.a o.b (bfiX o.pos.toNat o.len.toNat))

/-- `LDI xd, #imm32` (R93). -/
def execLdiL (o : LImm) : State → Host.Outcome State Fault Refusal :=
  laneOp 8 (alu0 o.d (fun _ => o.imm.signExtend 64))

/-- `LDIH xd, #imm32` reads xd, then writes its high half (R93). -/
def execLdih (o : LImm) : State → Host.Outcome State Fault Refusal :=
  laneOp 8 (alu1 o.d (plain o.d) (fun a => a &&& 0xFFFFFFFF ||| o.imm.setWidth 64 <<< 32))

/-! ### C format (R51): the effect of the wider form, sources read with L = 0 and F = block (R42) -/

/-- C form of `ADD xa, xa, xb` (R51). -/
def execAddC (o : C2) : State → Host.Outcome State Fault Refusal :=
  laneOp 2 (alu2 o.a (plain o.a) (plain o.b) (fun a b => a + b))

/-- C form of `SUB xa, xa, xb` (R51). -/
def execSubC (o : C2) : State → Host.Outcome State Fault Refusal :=
  laneOp 2 (alu2 o.a (plain o.a) (plain o.b) (fun a b => a - b))

/-- C form of `AND xa, xa, xb` (R51). -/
def execAndC (o : C2) : State → Host.Outcome State Fault Refusal :=
  laneOp 2 (alu2 o.a (plain o.a) (plain o.b) (fun a b => a &&& b))

/-- C form of `OR xa, xa, xb` (R51). -/
def execOrC (o : C2) : State → Host.Outcome State Fault Refusal :=
  laneOp 2 (alu2 o.a (plain o.a) (plain o.b) (fun a b => a ||| b))

/-- C form of `XOR xa, xa, xb` (R51). -/
def execXorC (o : C2) : State → Host.Outcome State Fault Refusal :=
  laneOp 2 (alu2 o.a (plain o.a) (plain o.b) (fun a b => a ^^^ b))

/-- C form of `SHL xa, xa, xb` (R51). -/
def execShlC (o : C2) : State → Host.Outcome State Fault Refusal :=
  laneOp 2 (alu2 o.a (plain o.a) (plain o.b) shlX)

/-- C form of `SHR xa, xa, xb` (R51). -/
def execShrC (o : C2) : State → Host.Outcome State Fault Refusal :=
  laneOp 2 (alu2 o.a (plain o.a) (plain o.b) shrX)

/-- C form of `SRA xa, xa, xb` (R51). -/
def execSraC (o : C2) : State → Host.Outcome State Fault Refusal :=
  laneOp 2 (alu2 o.a (plain o.a) (plain o.b) sraX)

/-- C form of `MOV xa, xb` (R51). -/
def execMovC (o : C2) : State → Host.Outcome State Fault Refusal :=
  laneOp 2 (alu1 o.a (plain o.b) id)

/-- C form of `NEG xa, xb` (R51). -/
def execNegC (o : C2) : State → Host.Outcome State Fault Refusal :=
  laneOp 2 (alu1 o.a (plain o.b) (fun a => 0 - a))

/-- C form of `ADDI xa, xa, #b` (R51). -/
def execAddiC (o : CI) : State → Host.Outcome State Fault Refusal :=
  laneOp 2 (alu1 o.a (plain o.a) (fun a => a + o.imm.signExtend 64))

/-- C form of `ANDI xa, xa, #b` (R51). -/
def execAndiC (o : CI) : State → Host.Outcome State Fault Refusal :=
  laneOp 2 (alu1 o.a (plain o.a) (fun a => a &&& o.imm.signExtend 64))

/-- C form of `LDI xa, #b` (R51). -/
def execLdiC (o : CI) : State → Host.Outcome State Fault Refusal :=
  laneOp 2 (alu0 o.a (fun _ => o.imm.signExtend 64))

/-- C form of `SHLI xa, xa, #b`; the count is 0 to 31 (R51). -/
def execShliC (o : CI) : State → Host.Outcome State Fault Refusal :=
  laneOp 2 (alu1 o.a (plain o.a) (fun a => shlX a (o.imm.setWidth 64)))

/-- C form of `SHRI xa, xa, #b`; the count is 0 to 31 (R51). -/
def execShriC (o : CI) : State → Host.Outcome State Fault Refusal :=
  laneOp 2 (alu1 o.a (plain o.a) (fun a => shrX a (o.imm.setWidth 64)))

/-- C form of `SRAI xa, xa, #b`; the count is 0 to 31 (R51). -/
def execSraiC (o : CI) : State → Host.Outcome State Fault Refusal :=
  laneOp 2 (alu1 o.a (plain o.a) (fun a => sraX a (o.imm.setWidth 64)))

/-! ### Predicates (R95) -/

/-- Two p sources and a p destination. -/
def pred2 (d a b : PReg) (g : P → P → P) (l : Lane) : Except Stop Lane := .ok (putP l d (g (getP l a) (getP l b)))

/-- A p source and an x destination. -/
def predToX (d : Reg) (a : PReg) (g : P → X) (l : Lane) : Except Stop Lane := do
  gate l [] [.x d]
  .ok (putX l d (g (getP l a)))

/-- An x source and a p destination. -/
def xToPred (d : PReg) (a : Src) (g : X → P) (l : Lane) : Except Stop Lane := do
  gate l [.x a] []
  .ok (putP (kill l [.x a]) d (g (getX l a.reg)))

/-- `PSET pd, xa, #imm` (R95) (DEDUCED, log entry 12). -/
def execPset (o : PsetOp) : State → Host.Outcome State Fault Refusal :=
  laneOp 4 (xToPred o.d o.a (fun a => psetMask a o.imm))

/-- `PAND pd, pa, pb` (R95). -/
def execPand (o : P3) : State → Host.Outcome State Fault Refusal :=
  laneOp 4 (pred2 o.d o.a.reg o.b.reg (fun a b => a &&& b))

/-- `POR pd, pa, pb` (R95). -/
def execPor (o : P3) : State → Host.Outcome State Fault Refusal :=
  laneOp 4 (pred2 o.d o.a.reg o.b.reg (fun a b => a ||| b))

/-- `PXOR pd, pa, pb` (R95). -/
def execPxor (o : P3) : State → Host.Outcome State Fault Refusal :=
  laneOp 4 (pred2 o.d o.a.reg o.b.reg (fun a b => a ^^^ b))

/-- `PANDN pd, pa, pb` (R95). -/
def execPandn (o : P3) : State → Host.Outcome State Fault Refusal :=
  laneOp 4 (pred2 o.d o.a.reg o.b.reg (fun a b => a &&& ~~~ b))

/-- `PNOT pd, pa` (R95). -/
def execPnot (o : P2) : State → Host.Outcome State Fault Refusal :=
  laneOp 4 (pred2 o.d o.a.reg o.a.reg (fun a _ => ~~~ a))

/-- `PCNT xd, pa` (R95). -/
def execPcnt (o : XP) : State → Host.Outcome State Fault Refusal :=
  laneOp 4 (predToX o.d o.a.reg (fun p => BitVec.ofNat 64 (pcount p)))

/-- `PFIRST xd, pa` (R95). -/
def execPfirst (o : XP) : State → Host.Outcome State Fault Refusal :=
  laneOp 4 (predToX o.d o.a.reg (fun p => BitVec.ofNat 64 (pfirstIx p)))

/-- `PMOVX pd, xa` (R95). -/
def execPmovxToP (o : PX) : State → Host.Outcome State Fault Refusal :=
  laneOp 4 (xToPred o.d o.a (fun a => a.setWidth 32))

/-- `PMOVX xd, pa` (R95). -/
def execPmovxToX (o : XP) : State → Host.Outcome State Fault Refusal :=
  laneOp 4 (predToX o.d o.a.reg (fun p => p.setWidth 64))

end Sys2Proof.Machine
end

