-- ==== Sys2Proof/Machine/Control.lean ====
section
/-! DEFINITION. Branches, transfers, LOOP, and the instructions that end, trap, break or do nothing (R96 to R104, and
their C forms of R51). -/

namespace Sys2Proof.Machine

/-- No transfer inside a LOOP body (R101). -/
def noLoop (l : Lane) : Except Stop Unit := need (l.loop.len == 0) .loopBody

/-- The PC of a transfer's target: an instruction-address fault above 2^48, then an alignment fault when odd (R98). -/
def transferPc (t : X) : Except Stop (BitVec 48) := do
  need (decide (t.toNat < 2 ^ 48)) .instrAddr
  need (!(t.getLsbD 0)) .instrAlign
  .ok (t.setWidth 48)

/-- The address of the instruction plus an offset in halfwords (R43, R50). -/
def relTarget (l : Lane) (off : X) : X := l.pc.setWidth 64 + off * 2

/-- A conditional branch of `n` bytes (R96). -/
def branch (n : Nat) (srcs : List Opnd) (taken : Lane → Bool) (off : X) (s : State) : Host.Outcome State Fault Refusal :=
  finish s (do
    let l := cur s
    noLoop l
    gate l srcs []
    if taken l then
      let t ← transferPc (relTarget l off)
      .ok (setCur s (retireTo t l))
    else .ok (setCur s (retire n l)))

/-- The return-address stack after a call (R97). -/
def pushRas (l : Lane) (a : BitVec 48) : Lane := { l with ras := (a :: l.ras).take 8 }

/-- The stack after a return: RET drops its top, which has no effect beyond timing (R97). -/
def popRas (l : Lane) : Lane := { l with ras := l.ras.tail }

/-- An unconditional transfer of `n` bytes, with the register that receives the link of a call (R97) and what it does
to the return-address stack. -/
def jump (n : Nat) (srcs : List Opnd) (link : Option Reg) (target : Lane → X) (after : Lane → Lane) (s : State) :
    Host.Outcome State Fault Refusal :=
  finish s (do
    let l := cur s
    noLoop l
    gate l srcs (link.toList.map Dst.x)
    let t ← transferPc (target l)
    let k := kill l srcs
    let k := match link with
      | some r => pushRas (putX k r ((l.pc + BitVec.ofNat 48 n).setWidth 64)) (l.pc + BitVec.ofNat 48 n)
      | none => k
    .ok (setCur s (retireTo t (after k))))

/-- `BR.cond xa, xb, label` (R96). -/
def execBr (o : Br) : State → Host.Outcome State Fault Refusal :=
  branch 4 [.x (plain o.a), .x (plain o.b)] (fun l => condHolds o.cond (getX l o.a) (getX l o.b)) (o.off.signExtend 64)

/-- `BZ xa, label` (R96). -/
def execBz (o : Bz) : State → Host.Outcome State Fault Refusal :=
  branch 4 [.x (plain o.a)] (fun l => getX l o.a == 0) (o.off.signExtend 64)

/-- `BNZ xa, label` (R96). -/
def execBnz (o : Bz) : State → Host.Outcome State Fault Refusal :=
  branch 4 [.x (plain o.a)] (fun l => getX l o.a != 0) (o.off.signExtend 64)

/-- C form of `BZ` (R51). -/
def execBzC (o : CI) : State → Host.Outcome State Fault Refusal :=
  branch 2 [.x (plain o.a)] (fun l => getX l o.a == 0) (o.imm.signExtend 64)

/-- C form of `BNZ` (R51). -/
def execBnzC (o : CI) : State → Host.Outcome State Fault Refusal :=
  branch 2 [.x (plain o.a)] (fun l => getX l o.a != 0) (o.imm.signExtend 64)

/-- `BP.any pN, label` (R96). -/
def execBpAny (o : Bp) : State → Host.Outcome State Fault Refusal :=
  branch 4 [] (fun l => getP l o.p != 0) (o.off.signExtend 64)

/-- `BP.all pN, label` (R96). -/
def execBpAll (o : Bp) : State → Host.Outcome State Fault Refusal :=
  branch 4 [] (fun l => getP l o.p == BitVec.allOnes 32) (o.off.signExtend 64)

/-- `BP.none pN, label` (R96). -/
def execBpNone (o : Bp) : State → Host.Outcome State Fault Refusal :=
  branch 4 [] (fun l => getP l o.p == 0) (o.off.signExtend 64)

/-- B-format `JMP label` (R97). -/
def execJmp (o : BOff) : State → Host.Outcome State Fault Refusal :=
  jump 4 [] none (fun l => relTarget l (o.off.signExtend 64)) id

/-- B-format `CALL label`: the link goes to x31 (R97). -/
def execCall (o : BOff) : State → Host.Outcome State Fault Refusal :=
  jump 4 [] (some 31) (fun l => relTarget l (o.off.signExtend 64)) id

/-- L-format `JMP label` (R97). -/
def execJmpL (o : LJmp) : State → Host.Outcome State Fault Refusal :=
  jump 8 [] none (fun l => relTarget l (o.off.signExtend 64)) id

/-- L-format `CALL xd, label` (R97). -/
def execCallL (o : LCall) : State → Host.Outcome State Fault Refusal :=
  jump 8 [] (some o.d) (fun l => relTarget l (o.off.signExtend 64)) id

/-- `JMPR xa` (R97). -/
def execJmpr (o : A1) : State → Host.Outcome State Fault Refusal := jump 4 [.x o.a] none (fun l => getX l o.a.reg) id

/-- `CALLR xd, xa`: xa is read before xd is written (R97). -/
def execCallr (o : R2) : State → Host.Outcome State Fault Refusal := jump 4 [.x o.a] (some o.d) (fun l => getX l o.a.reg) id

/-- `RET xa` has the effect of `JMPR` (R97). -/
def execRet (o : A1) (s : State) : Host.Outcome State Fault Refusal :=
  jump 4 [.x o.a] none (fun l => getX l o.a.reg) popRas s

/-- C form of `JMPR` (R51). -/
def execJmprC (o : C1) : State → Host.Outcome State Fault Refusal := jump 2 [.x (plain o.a)] none (fun l => getX l o.a) id

/-- C form of `RET` (R51). -/
def execRetC (o : C1) (s : State) : Host.Outcome State Fault Refusal :=
  jump 2 [.x (plain o.a)] none (fun l => getX l o.a) popRas s

/-- `LOOP xa, #len` (R99): a count of 0 skips the body, whose length is read from its halfwords. -/
def execLoop (o : LoopOp) (s : State) : Host.Outcome State Fault Refusal :=
  finish s (do
    let l := cur s
    noLoop l
    gate l [.x o.a] []
    let n := getX l o.a.reg
    let k := kill l [.x o.a]
    if n = 0 then
      let e ← bodyEnd s s.sched.core s.sched.lane (l.pc.toNat + 4) o.len.toNat
      .ok (setCur s (retireTo (BitVec.ofNat 48 e) k))
    else
      .ok (setCur s (retire 4 { k with loop := ⟨o.len.toNat, n, l.pc + 4, none, [], false⟩ })))

/-- DONE of `n` bytes ends the firing (R102); a stepped DONE sends its packet (R220) (DEDUCED, log entry 26). -/
def doneOp (n : Nat) (s : State) : Host.Outcome State Fault Refusal :=
  let c := s.sched.core
  let i := s.sched.lane
  let l := cur s
  let s' := doneFiring (setCur s (retire n l)) c i
  .next (if l.frz.step then sendPacket s' c false
      { packetFor s c i .singleStep 0 0 with ended := true, nofrz := true }
    else s')

/-- `DONE` (R102). -/
def execDone (_ : Z32) : State → Host.Outcome State Fault Refusal := doneOp 4

/-- C form of `DONE` (R51). -/
def execDoneC (_ : C0) : State → Host.Outcome State Fault Refusal := doneOp 2

/-- `NOP` has no effect (R102). -/
def execNop (_ : Z32) : State → Host.Outcome State Fault Refusal := laneOp 4 .ok

/-- C form of `NOP` (R51). -/
def execNopC (_ : C0) : State → Host.Outcome State Fault Refusal := laneOp 2 .ok

/-- `TRAP #code` completes, then freezes the lane with the software-trap code (R103); in a speculative task it is
deferred (R331). -/
def execTrap (o : CodeOp) (s : State) : Host.Outcome State Fault Refusal :=
  if (cur s).firing.spec then .next (takeFault s .softTrap 0)
  else
    let p := packetFor s s.sched.core s.sched.lane .softTrap 0 (o.code.setWidth 64)
    .next (freeze (setCur s (retire 4 (cur s))) s.sched.core s.sched.lane p)

/-- `BRK #code` freezes the lane at the instruction (R104). -/
def execBrk (_ : CodeOp) : State → Host.Outcome State Fault Refusal := fun s => .next (takeFault s .breakpoint 0)

/-- C form of `BRK` (R51). -/
def execBrkC (_ : CCode) : State → Host.Outcome State Fault Refusal := fun s => .next (takeFault s .breakpoint 0)

/-- Hint space executes as a no-op (R56). -/
def execHintSpace (_ : HintOp) : State → Host.Outcome State Fault Refusal := laneOp 8 .ok

end Sys2Proof.Machine
end

