-- ==== Sys2Proof/Machine/Messages.lean ====
section
/-! DEFINITION. Messages and their acceptance (R159 to R165), task spawns (R167 to R175), handler vectors (R190), and the
event steps of these queues. -/

namespace Sys2Proof.Machine

/-! ### Sending (R161 to R164) -/

/-- The core that a virtual core number names on die `d` (R161, R253). -/
def virtCore (s : State) (d : Nat) (x : Launch) (v : Nat) : Option Nat :=
  let e := smGetD (smGetD (dieOf s d).vmaps (smGetD x.vmap d 0) []) v 0
  if e.getLsbD 15 && (smGet x.vmap d).isSome then some (e.toNat % 4096) else none

/-- The owner of an address in a launch's owner map on die `d` (R163). -/
def ownerCore (s : State) (d : Nat) (x : Launch) (a : X) : Option Nat :=
  match smGet x.omap d with
  | none => none
  | some i =>
    let m := smGetD (dieOf s d).owners i OwnerMap.reset
    if !m.en || a.ult m.base || m.limit.ult a then none
    else
      let e := smGetD m.entries ((a - m.base).toNat / 2 ^ m.shift % 4096) 0
      if e.getLsbD 15 then some (e.toNat % 4096) else none

/-- The destination of a send, with the launch and virtual core number it was named by (R162): a fault when the descriptor or its
target is refused. -/
def sendDest (s : State) (desc : Nat) (owner : Option X) : Except Stop (Nat × Option (Nat × Nat)) := do
  need (bits desc 32 32 == 0 && bits desc 14 2 == 0) .message
  let c := s.sched.core
  let launch := launchOf s c (cur s)
  let x := launch.map (·.2)
  let dest ← match owner with
    | some a => do
      need (bits desc 0 13 == 0) .message
      match x.bind (fun x => ownerCore s (dieNo c) x a) with
      | some d => .ok d
      | none => trap .message
    | none =>
      if bit desc 12 then
        match x.bind (fun x => virtCore s (dieNo c) x (bits desc 0 12)) with
        | some d => .ok d
        | none => trap .message
      else .ok (bits desc 0 12)
  need (namesCore dest) .message
  .ok (dest, if bit desc 12 then launch.map (fun x => (x.1, bits desc 0 12)) else none)

/-- Room in the send queue of core `c` (R164). -/
def sendRoom (s : State) (c : Nat) : Bool := decide ((coreOf s c).msg.sendQ.length < 32)

/-- Puts an item in core `c`'s send queue, bound for core `dst`. -/
def enqueueItem (s : State) (c dst : Nat) (i : SendItem) : State :=
  let s := onCore s c (fun k => { k with msg := { k.msg with sendQ := k.msg.sendQ ++ [i] } })
  dueEvent s (match i with
    | .msg m => if m.push.isSome then .remotePushAccept c dst else .messageAccept c dst
    | .ev _ _ => .eventAccept c dst)

/-- Forms a message with the next sequence number and queues it (R160, R162). -/
def enqueueMessage (s : State) (c lane dst type flags : Nat) (rel : Bool) (push : Option Nat) (pay : List V)
    (virt : Option (Nat × Nat)) : State :=
  let k := coreOf s c
  let m : Message := ⟨dst, type, flags, rel, k.msg.sendSeq, c, lane, (dieOf s (dieNo c)).inc, push, pay, virt, none, (launchOf s c (laneOf s c lane)).map (·.1)⟩
  enqueueItem (onCore s c (fun k => { k with msg := { k.msg with sendSeq := k.msg.sendSeq + 1 } })) c dst (.msg m)

/-- The v operands of a run of `n` payload registers (R162). -/
def payloadRun (b : Src) (n : Nat) : List Opnd :=
  (List.range n).map (fun i => .v ⟨⟨(b.reg.val + i) % 32, Nat.mod_lt _ (by decide)⟩, b.last, b.trap⟩)

/-- The value of a v operand. -/
def opndV (l : Lane) : Opnd → V
  | .v s => getV l s
  | .x s => (getX l s.reg).setWidth 1024

/-- A send of the given payload operands (R162). -/
def sendOp (a : Src) (owner : Option Reg) (pay : List Opnd) (s : State) : Except Stop State := do
  let l := cur s
  irrevocable l
  let srcs := .x a :: pay ++ (owner.map (fun r => Opnd.x (plain r))).toList
  gate l srcs []
  let desc := (getX l a.reg).toNat
  let (dst, virt) ← sendDest s desc (owner.map (getX l))
  await (sendRoom s s.sched.core) .sendQueue
  .ok (enqueueMessage (setCur s (kill l srcs)) s.sched.core s.sched.lane dst (bits desc 16 8) (bits desc 24 8) (bit desc 13)
    none (pay.map (opndV l)) virt)

/-- `SEND xa, xb`: one payload vector that holds xb in bytes 0 to 7 (R162). -/
def execSend (o : S2) : State → Host.Outcome State Fault Refusal := stateOp 4 (sendOp o.a none [.x o.b])

/-- `SENDV xa, vb, #n` (R162). -/
def execSendv (o : SendvOp) : State → Host.Outcome State Fault Refusal :=
  stateOp 4 (sendOp o.a none (payloadRun o.b o.n.val))

/-- `SENDO xa, xd, vb, #n`: the destination owns the address in xd (R162, R163). -/
def execSendo (o : SendoOp) : State → Host.Outcome State Fault Refusal :=
  stateOp 4 (sendOp o.a (some o.d) (payloadRun o.b o.n.val))

/-! ### Acceptance (R164, R165, R185) -/

/-- The destination of a send-queue item. -/
def itemDest : SendItem → Nat
  | .msg m => m.dest
  | .ev e _ => e.core

/-- Messages and pushes to a core form one ordered channel, events another (R164, R197). -/
def itemIsEvent : SendItem → Bool
  | .msg _ => false
  | .ev _ _ => true

/-- The oldest item of a channel from `src` to `dst`, with its place in the queue. -/
def channelHead (s : State) (src dst : Nat) (event : Bool) : Option (Nat × SendItem) :=
  (((coreOf s src).msg.sendQ.zipIdx).find? (fun e => itemDest e.1 == dst && itemIsEvent e.1 == event)).map
    (fun e => (e.2, e.1))

/-- Takes an item out of a send queue: its packet has crossed the flues to its destination's die (R362). -/
def dequeueItem (s : State) (src ix : Nat) : State :=
  let s := match (coreOf s src).msg.sendQ[ix]? with
    | some i => packetSent s (dieNo src) (dieNo (itemDest i))
    | none => s
  onCore s src (fun k => { k with msg := { k.msg with sendQ := k.msg.sendQ.eraseIdx ix } })

/-- Payload vectors that the running handler firings of a core keep in its arrival buffer (R27, R451). -/
def payloadKept (k : Core) : Nat :=
  ((k.lanes.toList.filter (fun l => l.status != .free && l.status != .draining)).map (fun l => l.firing.carried)).sum

/-- Room in an arrival buffer for a message: 64 headers and 128 payload vectors (R164). -/
def arrivalRoom (k : Core) (m : Message) : Bool :=
  decide (k.msg.arrival.length < 64) &&
    decide ((k.msg.arrival.map (fun x => x.payload.length)).sum + payloadKept k + m.payload.length ≤ 128)

/-- The die of core `c` is in operation (R374). -/
def dieUp (s : State) (c : Nat) : Bool := decide ((dieOf s (dieNo c)).rst = 0)

/-- A message, push or event sent to a die in reset fails at its source (R214, R373). -/
def sendFailed (s : State) (src ix : Nat) : State :=
  sendPacket (dequeueItem s src ix) src false (packetNone src 0 .dieUnresponsive 0 0)

/-- A refused item of the channel from `src` to `dst` will be offered again (R164). -/
def reoffer (s : State) (src dst : Nat) : State :=
  let waits := s.sched.agenda.any (fun t => match t with
    | .due (.sendQueueReoffer a b) => a == src && b == dst
    | _ => false)
  if waits then s else dueEvent s (.sendQueueReoffer src dst)

/-- The destination cannot take anything: its quad is being switched, or a flue on the way is not Active, which the packet wakes
(R293, R366). -/
def cannotArrive (s : State) (src dst : Nat) : Bool :=
  switching s (quadNo dst) || !ringOpen s (dieNo src) (dieNo dst)

/-- A refused item is offered again later; a Drowsy flue on its way wakes (R164, R366). -/
def refuse (s : State) (src dst : Nat) : State := reoffer (wakeRing s (dieNo src) (dieNo dst)) src dst

/-- A message addressed with VIRT names a core whose contents its launch has in the Cellar: it waits for the restored core (R293)
(DEDUCED, log entry 33). -/
def isOut (s : State) (m : Message) : Bool :=
  m.virt.any (fun v => (smGet s.pkg.launches v.1).any (fun x => x.parked.any (fun h => (List.range 4).any (fun j =>
    (smGet s.pkg.cellar (h + j)).any (fun y => y.live && y.home == m.dest)))))

/-- The destination cannot take a message or push now (R293, R366). -/
def turnedAway (s : State) (src : Nat) (m : Message) : Bool := cannotArrive s src m.dest || isOut s m

/-- The handler message at the head of a channel is refused, discarded or accepted (R21, R164). -/
def acceptMessage (s : State) (src ix : Nat) (m : Message) : State :=
  if m.inc ≠ (dieOf s (dieNo m.src)).inc then dequeueItem s src ix
  else if !dieUp s m.dest then sendFailed s src ix
  else if turnedAway s src m || !arrivalRoom (coreOf s m.dest) m then refuse s src m.dest
  else if !handlerOk (handlerEntry s m.dest m.type).1 then
    let s := onCore (dequeueItem s src ix) m.dest (fun k => { k with msg := { k.msg with arrival := m :: k.msg.arrival } })
    discardMessage s m.dest 0 m
  else onCore (dequeueItem s src ix) m.dest (fun k => { k with msg := { k.msg with arrival := k.msg.arrival ++ [m] } })

/-- The LM granules of an element of `n` bytes at offset `o`. -/
def elemGranules (o n : Nat) : List Nat := (List.range (granule (o + n - 1) + 1 - granule o)).map (· + granule o)

/-- What waits for a stream buffer of core `c` looks at it again: actors and held engine operations (R188, R189). -/
def bufferChanged (s : State) (c : Nat) : State := kick (evalActors s c) c

/-- A remote push is appended, refused or discarded (R185); its element write is checked against the destination's
scoreboard (R142). -/
def acceptPush (s : State) (src ix b : Nat) (m : Message) : State :=
  let q := streamGet s m.dest b
  if m.inc ≠ (dieOf s (dieNo m.src)).inc then dequeueItem s src ix
  else if !dieUp s m.dest then sendFailed s src ix
  else if turnedAway s src m then refuse s src m.dest
  else if q.size = 0 then
    sendPacket (dequeueItem s src ix) m.dest false (packetNone m.dest 0 .stream 0 0)
  else
    let o := elemAt q q.tail
    let gs := elemGranules o (esize q)
    if streamRoom q = 0 || (coreOf s m.dest).eng.sb.any (fun e => entryBlocks gs 0 true e.2) then
      refuse s src m.dest
    else
      let s := storeKey (dequeueItem s src ix) (lmKey m.dest o) (esize q) ((m.payload.head?).getD 0).toNat
      bufferChanged (streamSet s m.dest b { q with tail := (q.tail + 1) % 2 ^ 32 }) m.dest

/-- The oldest message or push from `src` to `dst` is offered to its destination (R164). -/
def offerMessage (s : State) (src dst : Nat) : State :=
  match channelHead s src dst false with
  | some (ix, .msg m) =>
    match m.push with
    | some b => acceptPush s src ix b m
    | none => acceptMessage s src ix m
  | _ => s

/-- MESSAGE_ACCEPT (R164). -/
def execMessageAccept (src dst : Nat) (s : State) : Host.Outcome State Fault Refusal := .next (offerMessage s src dst)

/-- REMOTE_PUSH_ACCEPT (R185). -/
def execRemotePushAccept (src dst : Nat) (s : State) : Host.Outcome State Fault Refusal := .next (offerMessage s src dst)

/-! ### Spawning (R167 to R175) -/

/-- The record of a spawn by the issuing lane (R167 to R169). -/
def spawnRec (s : State) (r : Nat) (outside : Bool) : Spawn :=
  let l := cur s
  let c := s.sched.core
  { record := r, core := c, lane := s.sched.lane, parent := if l.firing.spec && !outside then l.firing.task else none,
    origin := if outside then none else l.firing.task, domain := l.firing.domain, tstamp := l.firing.tstamp,
    launch := (launchOf s c l).map (·.1), host := false }

/-- Room in the spawn queue (R167). -/
def spawnRoom (s : State) : Bool := decide ((curCore s).msg.spawnQ.length < 16)

/-- Queues a record at the issuing core (R167). -/
def pushSpawn (s : State) (q : Spawn) : State :=
  dueEvent (onCurCore s (fun k => { k with msg := { k.msg with spawnQ := k.msg.spawnQ ++ [q] } })) (.taskAccept s.sched.core)

/-- `SPAWN vb` (R167, R168). -/
def execSpawn (o : S1) : State → Host.Outcome State Fault Refusal := stateOp 4 (fun s => do
  let l := cur s
  gate l [.v o.b] []
  let r := (getV l o.b).toNat % 2 ^ 512
  need (recordOk r) .spawn
  await (spawnRoom s) .spawnQueue
  .ok (pushSpawn (setCur s (kill l [.v o.b])) (spawnRec s r false)))

/-- The join counter at an address: global memory of type 00 or Larder shared space, 8-byte aligned (R170). -/
def joinPlace (s : State) (a : X) : Except Stop (State × Nat) := do
  let c := s.sched.core
  match classOf s c a with
  | .ownLm _ => trapAt .address a
  | _ => do
    let (s, p) ← resolve s c (ctxOf s c (cur s)) .atomic true a 8
    let s ← domainCheck (accessorOf (cur s)) true s p
    .ok (s, placeKey c p)

/-- `SPAWNC vb, xa` counts the child in its join counter (R170). -/
def execSpawnc (o : S2) : State → Host.Outcome State Fault Refusal := stateOp 4 (fun s => do
  let l := cur s
  irrevocable l
  gate l [.x o.a, .v o.b] []
  let r := (getV l o.b).toNat % 2 ^ 512
  need (recordOk r) .spawn
  let (s, key) ← joinPlace s (getX l o.a.reg)
  await (spawnRoom s) .spawnQueue
  let s := joinAdd (setCur s (kill (cur s) [.x o.a, .v o.b])) (dieNo s.sched.core) key 1
  .ok (pushSpawn s (spawnRec s (putBits (putBits r 384 64 (getX l o.a.reg).toNat) 468 1 1) false)))

/-- `JOINAT vb, xa` registers a continuation, which spawns at once when the counter is zero (R172). -/
def execJoinat (o : S2) : State → Host.Outcome State Fault Refusal := stateOp 4 (fun s => do
  let l := cur s
  irrevocable l
  gate l [.x o.a, .v o.b] []
  let r := (getV l o.b).toNat % 2 ^ 512
  need (recordOk r) .spawn
  let (s, key) ← joinPlace s (getX l o.a.reg)
  await (decide (s.pkg.joins.length < 8192)) .joinTable
  let s := setCur s (kill (cur s) [.x o.a, .v o.b])
  let j : JoinReg := ⟨key, spawnRec s r true⟩
  .ok (if memRead s.mem key 8 = 0 then spawnReg s j else onPkg s (fun p => { p with joins := p.joins ++ [j] })))

/-- `TSRD xd` (R174). -/
def execTsrd (o : D1) : State → Host.Outcome State Fault Refusal := laneOp 4 (alu0 o.d (fun l => l.firing.tstamp))

/-- Ends a speculative ordered task without effect, or writes 0 and goes on (R175): the earliest task is never aborted, and acts
as one whose SPEC is 0 even before the round's values have promoted it (R38, R326). -/
def abortOp (d : Reg) (drop : Bool) (s : State) : Host.Outcome State Fault Refusal :=
  let l := cur s
  match l.firing.spec, l.firing.task with
  | true, some n =>
    if (taskOf s n).any (isEarliest s) then laneOp 4 (alu0 d (fun _ => 0)) s else .next (abortStep s n drop)
  | _, _ => laneOp 4 (alu0 d (fun _ => 0)) s

/-- `ABORTT xd` (R175). -/
def execAbortt (o : D1) : State → Host.Outcome State Fault Refusal := abortOp o.d false

/-- `ABORTT.drop xd` (R175). -/
def execAborttDrop (o : D1) : State → Host.Outcome State Fault Refusal := abortOp o.d true

/-- TASK_ACCEPT (R19): the oldest record of a core's spawn queue, or of the host link's for core 0xFFF, reaches its quad. One that must wait at its source for
a full spill region keeps its place and is offered again (R320). -/
def execTaskAccept (core : Nat) (s : State) : Host.Outcome State Fault Refusal :=
  let queue := fun (s : State) => if core = 0xFFF then s.pkg.host.spawnQ else (coreOf s core).msg.spawnQ
  let rest := fun (s : State) =>
    if core = 0xFFF then onPkg s (fun p => { p with host := { p.host with spawnQ := p.host.spawnQ.tail } })
    else onCore s core (fun k => { k with msg := { k.msg with spawnQ := k.msg.spawnQ.tail } })
  match queue s with
  | [] => .next s
  | q :: _ =>
    let (s', done) := acceptSpawn s q
    .next (refreshSpillf (if done then rest s' else dueEvent s' (.taskAccept core)))

/-- The least spilled record of a quad among the domains that are not suspended (R320, R342). -/
def nextSpilled (s : State) (quad : Nat) : Option (Nat × Task × Nat × Domain) :=
  (bestBy (fun (a b : (Nat × Task) × Nat × Domain) => decide (recordRank a.1 < recordRank b.1))
    (s.hearth.tasks.filterMap (fun e =>
      if e.2.quad == quad && e.2.state == .queued && e.2.spilled then
        ((domainOf s e.2.domain).filter (fun d => !d.2.susp)).map (fun d => (e, d))
      else none))).map (fun r => (r.1.1, r.1.2, r.2.1, r.2.2))

/-- Spilled records return to a quad's queue while it has room and a way to them, at most `n` of them; the domain's region has room again
(R320, R341, R358). -/
def unspill (quad : Nat) : Nat → State → State
  | 0, s => s
  | n + 1, s =>
    if 2048 ≤ queuedAt s quad false then s
    else match nextSpilled s quad with
      | none => s
      | some (i, t, slot, d) =>
        match spillWay s d quad t.slot with
        | .opened =>
          unspill quad n (onHearth (unspillTask s d i t) (fun h => { h with domains := smSet h.domains slot { d with spillf := false } }))
        | p => dueEvent (wakePath s p) (.taskSpillReturn quad)

/-- TASK_SPILL_RETURN (R320, R342): the spilled records of a quad's domains that are not suspended return in key order
while its queue has room. -/
def execTaskSpillReturn (quad : Nat) (s : State) : Host.Outcome State Fault Refusal := .next (unspill quad s.hearth.tasks.length s)

/-- DISPATCH (R16). -/
def execDispatch (core : Nat) (s : State) : Host.Outcome State Fault Refusal := .next (dispatchCore s core)

/-- `HVW xa, vb` writes a handler vector entry as given (R190). -/
def execHvw (o : S2) : State → Host.Outcome State Fault Refusal := stateOp 4 (fun s => do
  let l := cur s
  irrevocable l
  gate l [.x o.a, .v o.b] []
  let n := (getX l o.a.reg).toNat
  need (decide (n < 256)) .message
  .ok (onMem (setCur s (kill l [.x o.a, .v o.b]))
    (fun m => memWrite m (lmKey s.sched.core (handlerBase + 16 * n)) 16 ((getV l o.b).toNat % 2 ^ 128))))

end Sys2Proof.Machine
end

