-- ==== Sys2Proof/Machine/Ranges.lean ====
section
/-! DEFINITION. Range registers and stealing (R176 to R181), stream buffers and actors (R182 to R188). -/

namespace Sys2Proof.Machine

/-! ### Ranges (R177, R178) -/

/-- Waits while a STEAL of another lane into register `k` is outstanding (R179). -/
def notStealing (s : State) (k : Nat) : Except Stop Unit :=
  await (!(rangeGet s s.sched.core k).stealing) (.stealing k)

/-- `RANGE #k, xa, xb` (R177). -/
def execRange (o : RangeOp) : State → Host.Outcome State Fault Refusal := stateOp 4 (fun s => do
  let l := cur s
  irrevocable l
  gate l [.x o.a, .x o.b] []
  notStealing s o.k.val
  let a := getX l o.a.reg
  let b := getX l o.b.reg
  let r := rangeGet s s.sched.core o.k.val
  .ok (rangeSet (setCur s (kill l [.x o.a, .x o.b])) s.sched.core o.k.val
    { r with next := a, stop := if a.ult b then b else a, grain := 1, domain := l.firing.domain, valid := true }))

/-- `CHUNK xd, xa, #k` writes xd and x(d + 1) (R178). -/
def execChunk (o : ChunkOp) : State → Host.Outcome State Fault Refusal := stateOp 4 (fun s => do
  let l := cur s
  irrevocable l
  let d2 : Reg := o.d + 1
  gate l [.x o.a] [.x o.d, .x d2]
  notStealing s o.k.val
  let n : X := if getX l o.a.reg = 0 then 1 else getX l o.a.reg
  let r := rangeGet s s.sched.core o.k.val
  let k := kill l [.x o.a]
  if !r.valid || r.domain ≠ l.firing.domain then .ok (setCur s (putX (putX k o.d 0) d2 0))
  else
    let c := minuX n (r.stop - r.next)
    .ok (rangeSet (setCur s (putX (putX k o.d r.next) d2 c)) s.sched.core o.k.val
      { r with next := r.next + c, grain := if n.ult 0xFFFFFFFF then n.setWidth 32 else 0xFFFFFFFF }))

/-! ### Stealing (R179, R180) -/

/-- A victim that stands for the die agent's held ranges (R179). -/
def agentVictim : Nat := 8192

/-- The victims of a thief, in order: the other cores of its quad, the die agent when it holds ranges, then up to 8 quads
of its domain on its die, as 4096 + quad number (R179). -/
def stealVictims (s : State) (c dom : Nat) : List Nat :=
  let own := (List.range 3).map (fun i => c / 4 * 4 + (inQuad c + i + 1) % 4)
  if dom = 0 then own
  else
    let agent := if (dieOf s (dieNo c)).heldRanges.any (fun r => r.1 == dom) then [agentVictim] else []
    let member := match domainOf s dom with
      | some (_, d) => seenQuads s d (dieNo c)
      | none => []
    let q := quadNo c
    let ring := ((List.range 79).map (fun i => q / 80 * 80 + (q % 80 + i + 1) % 80)).filter member.contains
    own ++ agent ++ (ring.take 8).map (· + 4096)

/-- Elements left in a range. -/
def rangeLeft (r : RangeReg) : Nat := (r.stop - r.next).toNat

/-- The largest eligible range of a core for a domain, the lowest register on ties (R180). -/
def eligibleRange (s : State) (c dom : Nat) : Option (Nat × RangeReg) :=
  bestBy (fun (a b : Nat × RangeReg) => decide (rangeLeft b.2 < rangeLeft a.2))
    (((List.range 4).map (fun k => (k, rangeGet s c k))).filter (fun e => e.2.valid && e.2.domain == dom))

/-- The core that answers for a victim (R179): a quad's agent forwards to its core with the largest eligible range. -/
def victimCore (s : State) (dom v : Nat) : Nat :=
  if v < 4096 then v
  else
    let cs := (List.range 4).map (quadCore (v - 4096))
    (bestBy (fun a b => decide ((eligibleRange s b dom).elim 0 (fun e => rangeLeft e.2)
      < (eligibleRange s a dom).elim 0 (fun e => rangeLeft e.2))) cs).getD (quadCore (v - 4096) 0)

/-- A victim core's answer: the upper half of its range, or a refusal (R180). -/
def victimAnswer (s : State) (v dom : Nat) : State × Option (X × X × BitVec 32) :=
  match eligibleRange s v dom with
  | none => (s, none)
  | some (k, r) =>
    let n := rangeLeft r
    if n < 2 || n < 2 * r.grain.toNat || (quadOf s (quadNo v)).vacating then (s, none)
    else
      let mid := r.next + BitVec.ofNat 64 ((n + 1) / 2)
      (rangeSet s v k { r with stop := mid, lent := satInc r.lent }, some (mid, r.stop, r.grain))

/-- The die agent's answer from the ranges it holds (R294). How much of a range it gives is open: the upper half as a victim does
(R180), or the whole of one that a victim would refuse to divide (DESIGN CHOICE, log entry 44). -/
def agentAnswer (s : State) (d dom : Nat) : State × Option (X × X × BitVec 32) :=
  match (dieOf s d).heldRanges.find? (fun r => r.1 == dom) with
  | none => (s, none)
  | some (_, a, b, g) =>
    let n := (b - a).toNat
    let rest := (dieOf s d).heldRanges.filter (fun r => !(r.1 == dom && r.2.1 == a))
    if n < 2 || n < 2 * g.toNat then (onDie s d (fun x => { x with heldRanges := rest }), some (a, b, g))
    else
      let mid := a + BitVec.ofNat 64 ((n + 1) / 2)
      (onDie s d (fun x => { x with heldRanges := rest ++ [(dom, a, mid, g)] }), some (mid, b, g))

/-- `STEAL xd, #k` (R179): a register that holds elements answers at once; otherwise STEALING is set, the lane waits and
the first victim is asked. -/
def execSteal (o : StealOp) (s : State) : Host.Outcome State Fault Refusal :=
  let k := o.k.val
  finish s (do
    let l := cur s
    irrevocable l
    gate l [] [.x o.d]
    notStealing s k
    let r := rangeGet s s.sched.core k
    if r.next.ult r.stop then .ok (setCur s (retire 4 (putX l o.d (r.stop - r.next))))
    else
      let c := s.sched.core
      let q : StealReq := ⟨s.sched.lane, k, l.firing.domain, stealVictims s c l.firing.domain, none⟩
      let s := rangeSet s c k { r with stealing := true }
      let s := onCurCore s (fun x => { x with msg := { x.msg with steals := x.msg.steals ++ [q] } })
      .ok (dueEvent (setCur s (blocked (cur s) (.stealAnswer k o.d))) (.stealRequest c s.sched.lane)))

/-- The outstanding steal of a lane. -/
def stealOf (s : State) (c l : Nat) : Option StealReq := (coreOf s c).msg.steals.find? (fun q => q.lane == l)

/-- Replaces or removes an outstanding steal. -/
def setSteal (s : State) (c : Nat) (old : StealReq) (q : Option StealReq) : State :=
  onCore s c (fun k => { k with msg := { k.msg with
    steals := k.msg.steals.filter (fun x => !(x.lane == old.lane && x.k == old.k)) ++ q.toList } })

/-- STEAL_REQUEST (R180): the next victim answers; its answer is in flight. -/
def execStealRequest (core lane : Nat) (s : State) : Host.Outcome State Fault Refusal :=
  match stealOf s core lane with
  | none => .next s
  | some q =>
    if q.answer.isSome then .next s
    else
      let dom := q.domain
      match q.victims with
      | [] => .next (dueEvent (setSteal s core q (some { q with answer := some none })) (.stealAnswer core lane))
      | v :: t =>
        let (s, a) := if v = agentVictim then agentAnswer s (dieNo core) dom else victimAnswer s (victimCore s dom v) dom
        .next (dueEvent (setSteal s core q (some { q with victims := t, answer := some a })) (.stealAnswer core lane))

/-- STEAL_ANSWER (R179): a grant fills the register and completes the STEAL; a refusal asks the next victim, and after
the last the register is unchanged and xd is 0. -/
def execStealAnswer (core lane : Nat) (s : State) : Host.Outcome State Fault Refusal :=
  match stealOf s core lane with
  | none => .next s
  | some q =>
    match q.answer with
    | none => .next s
    | some none =>
      if q.victims.isEmpty then .next (done s q 0)
      else .next (dueEvent (setSteal s core q (some { q with answer := none })) (.stealRequest core lane))
    | some (some (a, b, g)) =>
      let r := rangeGet s core q.k
      let s := rangeSet s core q.k { r with
        next := a, stop := b, grain := g, domain := q.domain, valid := true,
        steals := satInc r.steals }
      .next (done s q (b - a))
where
  /-- STEALING clears and the waiting lane's STEAL completes. -/
  done (s : State) (q : StealReq) (n : X) : State :=
    let r := rangeGet s core q.k
    let s := setSteal (rangeSet s core q.k { r with stealing := false }) core q none
    let l := laneOf s core lane
    match l.status, l.wait with
    | .blocked, some (.stealAnswer _ d) =>
      setLane s core lane (retire 4 { putX l d n with status := .ready, wait := none })
    | _, _ => s

/-- The steals of a lane whose firing is killed end: a range already granted stays in its register, and STEALING clears (R179) (DESIGN
CHOICE, log entry 58). -/
def endSteals (s : State) (c l : Nat) : State :=
  ((coreOf s c).msg.steals.filter (fun q => q.lane == l)).foldl (fun s q =>
    let r := rangeGet s c q.k
    let r := match q.answer with
      | some (some (a, b, g)) =>
        { r with next := a, stop := b, grain := g, domain := q.domain, valid := true, steals := satInc r.steals }
      | _ => r
    setSteal (rangeSet s c q.k { r with stealing := false }) c q none) s

/-! ### Stream buffers (R183 to R185) -/

/-- `SBCFG xa, xb` (R183). -/
def execSbcfg (o : S2) : State → Host.Outcome State Fault Refusal := stateOp 4 (fun s => do
  let l := cur s
  irrevocable l
  gate l [.x o.a, .x o.b] []
  let a := (getX l o.a.reg).toNat
  let b := (getX l o.b.reg).toNat
  let q : StreamBuf := ⟨0, 0, bits b 32 16, bits b 0 19, bits b 19 3⟩
  need (decide (a < 16) && bits b 22 10 == 0 && bits b 48 16 == 0 && decide (q.esz < 6) && q.base % esize q == 0
    && decide (q.base + q.size * esize q ≤ atticBase)) .stream
  .ok (bufferChanged (streamSet (setCur s (kill l [.x o.a, .x o.b])) s.sched.core a q) s.sched.core))

/-- A push into an own buffer (R184). -/
def pushLocal (s : State) (b : Nat) (v : V) : Except Stop State := do
  let c := s.sched.core
  let q := streamGet s c b
  need (decide (q.size ≠ 0)) .stream
  await (decide (streamCount q < q.size)) (.streamRoom b)
  let at' := elemAt q q.tail
  sbGate s (elemGranules at' (esize q)) 0 true
  let s := storeKey s (lmKey c at') (esize q) v.toNat
  .ok (bufferChanged (streamSet s c b { q with tail := (q.tail + 1) % 2 ^ 32 }) c)

/-- `PUSH xa, vb`: into an own buffer, or as a message to another core's (R184, R185). -/
def execPush (o : S2) : State → Host.Outcome State Fault Refusal := stateOp 4 (fun s => do
  let l := cur s
  irrevocable l
  gate l [.x o.a, .v o.b] []
  let a := (getX l o.a.reg).toNat
  need (bits a 29 35 == 0 && bits a 4 12 == 0 && (bit a 28 || bits a 16 12 == 0)) .stream
  let v := getV l o.b
  let s' := setCur s (kill l [.x o.a, .v o.b])
  if bit a 28 then
    need (namesCore (bits a 16 12)) .message
    await (sendRoom s s.sched.core) .sendQueue
    .ok (enqueueMessage s' s.sched.core s.sched.lane (bits a 16 12) 0 0 false (some (bits a 0 4)) [v] none)
  else pushLocal s' (bits a 0 4) v)

/-- `POP vd, xa` (R184). -/
def execPop (o : R2) : State → Host.Outcome State Fault Refusal := stateOp 4 (fun s => do
  let l := cur s
  irrevocable l
  gate l [.x o.a] [.v o.d]
  let a := (getX l o.a.reg).toNat
  need (decide (a < 16)) .stream
  let c := s.sched.core
  let q := streamGet s c a
  need (decide (q.size ≠ 0)) .stream
  await (decide (0 < streamCount q)) (.streamItem a)
  let at' := elemAt q q.head
  sbGate s (elemGranules at' (esize q)) 0 false
  if poisoned s (lmKey c at') (esize q) then trapAt .poisoned (BitVec.ofNat 64 (0xFF80 * 2 ^ 48 + at'))
  else
    let v := BitVec.ofNat 1024 (memRead s.mem (lmKey c at') (esize q))
    let s := setCur s (putV (kill l [.x o.a]) o.d v)
    .ok (bufferChanged (streamSet s c a { q with head := (q.head + 1) % 2 ^ 32 }) c))

/-- The checks of a registration with Enable 1 (R187). -/
def actorOk (s : State) (c a r : Nat) : Bool :=
  let slots := actorSlots r
  let buf := fun (e : Nat × Bool × Nat) => streamGet s c e.1
  decide (a < 16) && bits r 53 11 == 0 && bits r 256 256 == 0 && bits r 48 2 != 3 && !bit r 0
    && (List.range 8).all (fun i => bits r (128 + 16 * i + 5) 3 == 0)
    && slots.all (fun e => !e.2.1 || (decide (e.2.2 ≠ 0) && decide ((buf e).size ≠ 0) && decide (e.2.2 ≤ (buf e).size)))
    && slots.any (fun e => e.2.1)

/-- `ACTOR xa, vb` (R187). -/
def execActor (o : S2) : State → Host.Outcome State Fault Refusal := stateOp 4 (fun s => do
  let l := cur s
  irrevocable l
  gate l [.x o.a, .v o.b] []
  let a := (getX l o.a.reg).toNat
  let r := (getV l o.b).toNat % 2 ^ 512
  let c := s.sched.core
  need (!bit r 52 || actorOk s c a r) .stream
  let s := setCur s (kill l [.x o.a, .v o.b])
  .ok (evalActors (onMem s (fun m => memWrite m (lmKey c (0x7F400 + 64 * (a % 16))) 64 r)) c))

end Sys2Proof.Machine
end

