-- ==== Sys2Proof/Machine/Debug.lean ====
section
/-! DEFINITION. Results, stores and freezes of lanes (R26, R149, R153, R213), the packet ring (R214 to R216), core and lane
control with the lanes' frames (R217, R218), and the instructions of the supervisor's lanes (R220, R221, R250, R266). -/

namespace Sys2Proof.Machine

/-! ### Results and stores (R26, R149, R153) -/

/-- A poisoned result's packet of a firing that has ended (R153). -/
def endedPoison (s : State) (c l : Nat) (a : X) (instr : X) : State :=
  sendPacket s c false { packetFor s c l .poisoned a instr with ended := true, nofrz := true }

/-- RESULT_ARRIVAL (R26, R153, R213): the register is written and set full. A poisoned result is zero, and freezes the
lane before its next issue; in the wait of a fault it marks the packet that is due (DESIGN CHOICE, log entry 16). -/
def execResultArrival (core lane idx : Nat) (s : State) : Host.Outcome State Fault Refusal :=
  let l := laneOf s core lane
  .next (match l.results[idx]? with
    | none => s
    | some r =>
      let l := fillDest { l with results := l.results.eraseIdx idx, lcnt := if r.counted then l.lcnt - 1 else l.lcnt } r.dest
        (if r.poisonAt.isSome then 0 else r.value)
      let s := setLane s core lane l
      let s := match r.poisonAt with
        | none => s
        | some a =>
          if l.status == .draining then endedPoison s core lane a r.instr
          else match l.frz.pending with
            | some p => setLane s core lane { l with frz := { l.frz with pending := some { p with poison := true } } }
            | none => setLane s core lane { l with frz := { l.frz with poisoned := some (l.frz.poisoned.getD (a, r.instr)) } }
      drain (if l.results.isEmpty && l.frz.pending.isSome then dueEvent s (.faultFreeze core lane) else s) core lane)

/-- The oldest store of a lane has performed: those of ended firings come first, and count in no scnt (R14, R149). -/
def storeDone (l : Lane) : Lane :=
  if l.oldStores = 0 then { l with scnt := l.scnt - 1 } else { l with oldStores := l.oldStores - 1 }

/-- STORE_PERFORMED (R149): a store has become visible at die scope (DESIGN CHOICE, log entry 16). -/
def execStorePerformed (core lane : Nat) (s : State) : Host.Outcome State Fault Refusal := .next (onLaneAt s core lane storeDone)

/-- LANE_AGED (R32): the lane has waited 64 cycles while it could have issued. -/
def execLaneAged (core lane : Nat) (s : State) : Host.Outcome State Fault Refusal :=
  .next (onLaneAt s core lane (fun l =>
    if l.status == .ready then { l with aged := true, waitCount := max l.waitCount 64 } else l))

/-! ### Freezing (R213, R218) -/

/-- The freeze of a freeze request (R218) (DEDUCED, log entry 36). -/
def requestFreeze (s : State) (c l : Nat) : State :=
  let s := onLaneAt s c l (fun x => { x with frz := { x.frz with frzreq := false } })
  freeze s c l { packetFor s c l .comparator 0 0 with aux := 0xFF }

/-- FAULT_FREEZE (R213, R218): a faulting lane whose results have all arrived enters Frozen and sends its packet; a Ready
or Blocked lane with a freeze request freezes. -/
def execFaultFreeze (core lane : Nat) (s : State) : Host.Outcome State Fault Refusal :=
  let l := laneOf s core lane
  .next (match l.frz.pending with
    | some p => if l.results.isEmpty && l.status != .frozen then sendPacket (setLane s core lane (frozen l)) core false p else s
    | none => if l.frz.frzreq && (l.status == .ready || l.status == .blocked) then requestFreeze s core lane else s)

/-! ### The packet ring (R214, R216) -/

/-- The 64 bytes of a fault packet (R214). -/
def packetBytes (p : Packet) : Nat :=
  faultNumber p.code + (p.lane % 16 + p.ended.toNat * 16 + p.nofrz.toNat * 32 + p.poison.toNat * 64 + p.gang.toNat * 128) * 2 ^ 16
    + p.seq.toNat * 2 ^ 32 + p.pc.toNat * 2 ^ 64 + p.addr.toNat * 2 ^ 128 + p.instr.toNat * 2 ^ 192
    + p.engop.toNat * 2 ^ 256 + (p.src % 4096 + p.inc % 16 * 4096) * 2 ^ 288 + p.group.toNat * 2 ^ 304
    + p.gtime.toNat * 2 ^ 320 + p.aux.toNat * 2 ^ 384

/-- Supervisor core `k` of die `d` (R4). -/
def supCore (d k : Nat) : Nat := d * 512 + 480 + 4 * k

/-- FAULT_RING_WRITE (R216): the oldest waiting packet enters the ring in the LM of the die's supervisor core 0, when the
ring has room (DEDUCED, log entry 34). A slot that runs past the end of LM wraps to its beginning (DESIGN CHOICE, log entry 59). -/
def execFaultRingWrite (die : Nat) (s : State) : Host.Outcome State Fault Refusal :=
  let d := dieOf s die
  .next (match d.fpqWait with
    | [] => s
    | p :: t =>
      if d.fpqSize = 0 || decide (d.fpqSize ≤ (d.fpqTail + 2 ^ 32 - d.fpqHead) % 2 ^ 32) then s
      else
        let at' := (d.fpqBase.toNat + 64 * (d.fpqTail % d.fpqSize)) % 2 ^ 19
        let s := storeKey s (lmKey (supCore die 0) at') 64 (packetBytes p)
        let s := onDie s die (fun d => { d with fpqWait := t, fpqTail := (d.fpqTail + 1) % 2 ^ 32 })
        if t.isEmpty then s else dueEvent s (.faultRingWrite die))

/-! ### Core and lane control (R217, R218) -/

/-- A supervisor core reaches the debug window of a core of its die (R217). -/
def reachesCore (who c : Nat) : Bool := namesCore c && ownSup who (dieNo c)

/-- The lane-control word of a lane (R218). -/
def lctlWord (l : Lane) : Nat := l.frz.frzreq.toNat + l.frz.suppr.toNat * 2 + l.frz.step.toNat * 4 + statusCode l.status * 8

/-- RCFLUSH (R139, R218): every lane's frame is brought up to date: a Free lane's holds what its last firing left. A Frozen lane's is
current, with the supervisor's edits (R217) (DEDUCED, log entry 36). -/
def flushCore (k : Core) : Core :=
  { k with lanes := k.lanes.map (fun l => if l.status == .frozen then l else writeBack l) }

/-- Sets or clears FRZREQ of a lane (R218): a Free or Draining lane ignores it. -/
def setFrzreq (s : State) (c l : Nat) (req : Bool) : State :=
  let x := laneOf s c l
  if x.status == .free || x.status == .draining then setLane s c l { x with frz := { x.frz with frzreq := false } }
  else
    let s := setLane s c l { x with frz := { x.frz with frzreq := req } }
    if req then dueEvent s (.faultFreeze c l) else s

/-- CCTL.FRZALL (R218). -/
def freezeAll (s : State) (c : Nat) : State := (List.range 16).foldl (fun s l => setFrzreq s c l true) s

/-- CCTL.HOLD (R218). -/
def setHold (s : State) (c : Nat) (h : Bool) : State := onCore s c (fun k => { k with ctl := { k.ctl with hold := h } })

/-- CCTL_RCFLUSH (R218). -/
def execCctlRcflush (who core : Nat) (s : State) : Host.Outcome State Fault Refusal :=
  .next (if reachesCore who core then onCore s core flushCore else s)

/-- CCTL_FRZALL (R218). -/
def execCctlFrzall (who core : Nat) (s : State) : Host.Outcome State Fault Refusal :=
  .next (if reachesCore who core then freezeAll s core else s)

/-- CCTL_HOLD (R218). -/
def execCctlHold (who core : Nat) (hold : Bool) (s : State) : Host.Outcome State Fault Refusal :=
  .next (if reachesCore who core then setHold s core hold else s)

/-- LCTL_FRZREQ (R218). -/
def execLctlFrzreq (who core lane : Nat) (req : Bool) (s : State) : Host.Outcome State Fault Refusal :=
  .next (if reachesCore who core && decide (lane < 16) then setFrzreq s core lane req else s)

/-! ### Lane frames (R22, R23, R217) -/

/-- Doubleword `j` of a frame (R22). -/
def frameDword (f : Frame) (j : Nat) : Nat :=
  if j = 0 then 0
  else if j < 32 then (f.regs.x[j]?.getD 0).toNat
  else if j < 544 then bits (f.regs.v[(j - 32) / 16]?.getD 0).toNat (64 * ((j - 32) % 16)) 64
  else if j < 548 then
    (f.regs.p[2 * (j - 544)]?.getD 0).toNat + 2 ^ 32 * (f.regs.p[2 * (j - 544) + 1]?.getD 0).toNat
  else if j < 556 then bits f.st.toNat (64 * (j - 548)) 64 else 0

/-- The fields of lane-state doubleword `k` that the supervisor may write, from the written value `w` and the held one
(R23). -/
def stateDword (k old w : Nat) : Nat :=
  match k with
  | 0 => putBits old 1 47 (w / 2)
  | 2 => w - w % 2
  | 3 =>
    let w' := if 32 < bits w 18 6 then putBits w 18 6 (bits old 18 6) else w
    putBits (putBits old 32 32 (bits w 32 32)) 18 6 (bits w' 18 6)
  | 4 => w
  | 5 => putBits (putBits old 0 16 w) 32 32 (srWrite (BitVec.ofNat 32 (bits w 32 32))).toNat
  | _ => old

/-- A frame with doubleword `j` written (R22, R23, R217): the slots of x0 and p0 are ignored. -/
def setFrameDword (f : Frame) (j w : Nat) : Frame :=
  if j = 0 then f
  else if j < 32 then { f with regs := { f.regs with x := f.regs.x.setIfInBounds j (BitVec.ofNat 64 w) } }
  else if j < 544 then
    let v := (f.regs.v[(j - 32) / 16]?.getD 0).toNat
    let v' : V := BitVec.ofNat 1024 (putBits v (64 * ((j - 32) % 16)) 64 w)
    { f with regs := { f.regs with v := f.regs.v.setIfInBounds ((j - 32) / 16) v' } }
  else if j < 548 then
    let p := if j = 544 then f.regs.p else f.regs.p.setIfInBounds (2 * (j - 544)) (BitVec.ofNat 32 w)
    let p := p.setIfInBounds (2 * (j - 544) + 1) (BitVec.ofNat 32 (w / 2 ^ 32))
    { f with regs := { f.regs with p := p } }
  else if j < 556 then
    let lo := 64 * (j - 548)
    { f with st := BitVec.ofNat 512 (putBits f.st.toNat lo 64 (stateDword (j - 548) (bits f.st.toNat lo 64) w)) }
  else f

/-- A doubleword with the `n` bytes at byte `o` of it replaced. -/
def mergeBytes (old o n v : Nat) : Nat := putBits old (8 * o) (8 * n) v

/-- A write of `n` bytes at offset `off` of a frame that touches PC, LOOPLEN, LOOPREM or LOOPPC invalidates the loop buffer at
LRESUME (R23). -/
def frameMoved (off n : Nat) (f : Frame) : Frame :=
  let meets := fun (lo hi : Nat) => decide (off < 4384 + hi ∧ 4384 + lo < off + n)
  if meets 0 6 || meets 26 27 || meets 28 42 then { f with moved := true } else f

/-- A window write of `n` bytes at offset `off` of a lane's frame: honoured while the lane is Frozen (R217). -/
def frameWrite (s : State) (c l off n v : Nat) : State :=
  let x := laneOf s c l
  if x.status == .frozen && decide (off % 8 + n ≤ 8) then
    setLane s c l { x with frame := frameMoved off n <| setFrameDword x.frame (off / 8) (mergeBytes (frameDword x.frame (off / 8)) (off % 8) n v) }
  else s

/-- DEBUG_FRAME_WRITE (R217). -/
def execDebugFrameWrite (who core lane off n : Nat) (value : X) (s : State) : Host.Outcome State Fault Refusal :=
  .next (if reachesCore who core && decide (lane < 16) then frameWrite s core lane off n value.toNat else s)

/-! ### LRESUME, LSTEP and LKILL (R220, R250) -/

/-- The instruction is legal only on a supervisor core (R220, R266) (DEDUCED, log entry 34). -/
def supervisorOnly (s : State) : Except Stop Unit := need (isSup s.sched.core) .illegal

/-- The length in bytes of the instruction at a lane's PC, when its first halfword can be fetched; its fetch may have to wait for its way
(R220, R367). -/
def lengthAt (s : State) (c l : Nat) : Except Stop (State × Nat) := do
  let (s, h) ← fetchHalf s c l (laneOf s c l).pc.toNat
  .ok (s, lengthOf h / 8)

/-- A Frozen lane becomes Ready (R220, R250): a member whose instance is held releases it, or withdraws it with `skip`;
with `skip`, another lane completes its instruction as a no-op. -/
def resumeLane (step skip : Bool) (s : State) (t : Nat × Nat) : State :=
  let (c, l) := t
  let x := laneOf s c l
  let held := match x.group with
    | some g => (heldOf s c l g).isSome
    | none => false
  let s' := match x.group with
    | some g => if skip then withdrawHeld s c l g else releaseHeld s c l g
    | none => s
  if held then
    onLaneAt s' c l (fun x => let y := resume x step none
                              { y with frz := { y.frz with suppr := !skip, stepped := step && skip } })
  else if skip then
    match lengthAt (onLaneAt s' c l loadFrame) c l with
    | .ok (s'', n) => setLane s'' c l (resume x step (some (n, (withStop s'' c l (loadFrame x)).loop.stop)))
    | .error _ => onLaneAt s' c l (fun x => resume x step none)
  else onLaneAt s' c l (fun x => resume x step none)

/-- The lanes that an instruction on a lane acts on: the Frozen members of its gang fault group, or itself (R250). -/
def actedOn (s : State) (c l : Nat) : List (Nat × Nat) :=
  let x := laneOf s c l
  match x.group, x.status with
  | some g, .frozen => groupLanes s (quadNo c) g
  | _, _ => [(c, l)]

/-- The target of a lane instruction, and status 3, 2 or 1 (R220). -/
def laneTarget (s : State) (a : Nat) (ok : LaneStatus → Bool) : Except Nat (Nat × Nat) :=
  let c := bits a 0 12
  let l := bits a 12 4
  if bits a 16 48 ≠ 0 then .error 3
  else if !(namesCore c && dieNo c == dieNo s.sched.core) then .error 2
  else if (c = s.sched.core ∧ l = s.sched.lane) ∨ !ok (laneOf s c l).status then .error 1
  else .ok (c, l)

/-- LRESUME and LSTEP (R220, R250): a fetch that `skip` needs and that must wait for its way holds the issuing lane (R367). -/
def resumeOp (step : Bool) (o : LresumeOp) (s : State) : Host.Outcome State Fault Refusal :=
  match supervisorOnly s with
  | .error e => takeStop s e
  | .ok () => guardedStateOp 8 o.guard (fun s => do
    let l := cur s
    gate l [.x o.a] [.x o.d]
    let answer := fun (s : State) (st : Nat) => setCur s (putX (kill (cur s) [.x o.a]) o.d (BitVec.ofNat 64 st))
    match laneTarget s (getX l o.a.reg).toNat (· == .frozen) with
    | .error st => .ok (answer s st)
    | .ok (c, i) =>
      let x := laneOf s c i
      let held := x.group.any (fun g => (heldOf s c i g).isSome)
      let done := answer ((actedOn s c i).foldl (resumeLane step o.skip) s) 0
      if o.skip && !held then
        match lengthAt (onLaneAt s c i loadFrame) c i with
        | .error (.wait w) => waitFor w
        | .error _ => .ok (answer s 4)
        | .ok _ => .ok done
      else .ok done) s

/-- `LRESUME xd, xa` (R220). -/
def execLresume (o : LresumeOp) : State → Host.Outcome State Fault Refusal := resumeOp false o

/-- `LSTEP xd, xa` (R220). -/
def execLstep (o : LresumeOp) : State → Host.Outcome State Fault Refusal := resumeOp true o

/-- LKILL of one lane (R14, R171, R220): a speculative task ends with no effect, a promoted one, and one that no abort reaches (R38), is
finished with its writes kept, and the join counter of a Draining lane is decremented. A steal of the lane ends. -/
def killLane (s : State) (t : Nat × Nat) : State :=
  let (c, l) := t
  let x := laneOf s c l
  match x.firing.task.filter (fun n => x.firing.spec && !(taskOf s n).any (spared s n)) with
  | some n => abortStep s n true
  | none =>
    let s := match x.group with
      | some g => withdrawHeld s c l g
      | none => s
    let s := match x.firing.task with
      | some n => onTask s n (fun t => { t with state := .finished })
      | none => s
    let s := match x.status, x.firing.join with
      | .draining, some a => joinDec s c ⟨ctxOf s c x, none, none⟩ a
      | _, _ => s
    let s := endFiring (endSteals s c l) c l
    setLane s c l (freed (laneOf s c l))

/-- `LKILL xd, xa` (R220). -/
def execLkill (o : LkillOp) (s : State) : Host.Outcome State Fault Refusal :=
  match supervisorOnly s with
  | .error e => takeStop s e
  | .ok () => guardedStateOp 8 o.guard (fun s => do
    let l := cur s
    gate l [.x o.a] [.x o.d]
    let answer := fun (s : State) (st : Nat) => setCur s (putX (kill (cur s) [.x o.a]) o.d (BitVec.ofNat 64 st))
    match laneTarget s (getX l o.a.reg).toNat (· != .free) with
    | .error st => .ok (answer s st)
    | .ok (c, i) => .ok (answer ((actedOn s c i).foldl killLane s) 0)) s

/-! ### ICFLUSH and TLBI (R221, R266) -/

/-- The L1I and every loop buffer of a core are invalidated, and every later repeat of a body is fetched from memory (R221). -/
def flushFetch (k : Core) : Core :=
  { k with ctl := { k.ctl with l1i := [] }, 
           lanes := k.lanes.map (fun l => { l with loop := { l.loop with buf := [], flushed := l.loop.len != 0 } }) }

/-- Applies a function to every core of a die. -/
def onDieCores (s : State) (d : Nat) (f : Core → Core) : State :=
  { s with cores := s.cores.map (fun e => if dieNo e.1 = d then (e.1, f e.2) else e) }

/-- `ICFLUSH.core` and `ICFLUSH.die` (R221). -/
def execIcflush (o : IcflushOp) : State → Host.Outcome State Fault Refusal := guardedStateOp 8 o.guard (fun s => do
  irrevocable (cur s)
  await (decide ((cur s).scnt = 0)) (.counters 63 0)
  .ok (if o.scope = 3 then onDieCores s (dieNo s.sched.core) flushFetch else onCurCore s flushFetch))

/-- A TLB entry stays after TLBI of a kind (R266). -/
def tlbStays (kind : Nat) (va ctx : Nat) (e : TlbEntry) : Bool :=
  if kind = 0 then false
  else if kind = 1 then e.ctx != ctx else !tlbHit ctx va e

/-- An operation has sectors in flight that have used a translation: reducing sectors applied and not yet counted, or a running
storage operation, whose pages were translated at its start (R266, R285). -/
def inFlight (s : State) (c slot : Nat) (op : EngOp) : Bool :=
  match wayOf op.kind, op.kind with
  | .reduce, _ => (smGetD s.pkg.applied (opId c slot op) []).any (fun q => !op.counted.contains q)
  | _, .blkRd _ => op.state == .running
  | _, .blkWr _ => op.state == .running
  | _, _ => false

/-- The operations of a die, by core, slot and sequence, whose sectors in flight may have used an entry of these contexts (R266). -/
def tlbUsers (s : State) (d : Nat) (ctx : Option Nat) : List (Nat × Nat × Nat) :=
  s.cores.flatMap (fun k => if dieNo k.1 ≠ d then [] else
    (k.2.eng.queue.filter (fun e => inFlight s k.1 e.1 e.2 && (ctx.isNone || e.2.ctx == ctx))).map (fun e => (k.1, e.1, e.2.seq)))

/-- TLBI's entries leave the core and quad TLBs of a die (R266). -/
def tlbDrop (s : State) (d : Nat) (keep : TlbEntry → Bool) : State :=
  let s := onDieCores s d (fun k => { k with ctl := { k.ctl with tlb := k.ctl.tlb.filter keep } })
  { s with quads := s.quads.map (fun e => if e.1 < 640 ∧ e.1 / 80 = d then (e.1, { e.2 with tlb := e.2.tlb.filter keep }) else e) }

/-- The lane waits at a TLBI whose entries are invalidated already (R266). -/
def tlbiWaits (l : Lane) : Bool :=
  match l.firstTry with
  | some (.sectors _) => true
  | _ => false

/-- `TLBI xa, xb, #kind` (R266): the die's core and quad TLBs; the lane is Blocked until the engine sectors that used an invalidated
entry have completed. -/
def execTlbi (o : TlbiOp) (s : State) : Host.Outcome State Fault Refusal :=
  match supervisorOnly s with
  | .error e => takeStop s e
  | .ok () =>
    let l := cur s
    let ctx := (getX l o.b.reg).toNat % 256
    let d := dieNo s.sched.core
    let users := if tlbiWaits l then [] else tlbUsers s d (if o.kind.val = 0 then none else some ctx)
    let dropped := tlbDrop s d (tlbStays o.kind.val (getX l o.a.reg).toNat ctx)
    if guardOn l o.guard && (gate l [.x o.a, .x o.b] []).isOk && !users.isEmpty then takeStop dropped (.wait (.sectors users))
    else guardedStateOp 8 o.guard (fun s => do
      let l := cur s
      gate l [.x o.a, .x o.b] []
      let s := if tlbiWaits l then s else tlbDrop s d (tlbStays o.kind.val (getX l o.a.reg).toNat ctx)
      .ok (setCur s (kill (cur s) [.x o.a, .x o.b]))) s

end Sys2Proof.Machine
end

