-- ==== Sys2Proof/Machine/Shake.lean ====
section
/-! DEFINITION. SHAKE256 (R297, R447). The manual names the function; its rounds are those of the
public standard (PRESUMED, log entry 21). -/

namespace Sys2Proof.Machine

/-- A 64-bit lane rotated left by `n`. -/
def rotLane (w n : Nat) : Nat := (w * 2 ^ n % 2 ^ 64) ||| (w / 2 ^ (64 - n))

/-- Lane `i` of a Keccak state of 25 lanes. -/
def kLane (a : List Nat) (i : Nat) : Nat := (a[i]?).getD 0

/-- Rotation of each lane, by x + 5y. -/
def kRotations : List Nat :=
  [0, 1, 62, 28, 27, 36, 44, 6, 55, 20, 3, 10, 43, 25, 39, 41, 45, 15, 21, 8, 18, 2, 61, 56, 14]

/-- The constants of the 24 rounds. -/
def kRounds : List Nat :=
  [0x0000000000000001, 0x0000000000008082, 0x800000000000808A, 0x8000000080008000, 0x000000000000808B,
   0x0000000080000001, 0x8000000080008081, 0x8000000000008009, 0x000000000000008A, 0x0000000000000088,
   0x0000000080008009, 0x000000008000000A] ++
  [0x000000008000808B, 0x800000000000008B, 0x8000000000008089, 0x8000000000008003, 0x8000000000008002,
   0x8000000000000080, 0x000000000000800A, 0x800000008000000A, 0x8000000080008081, 0x8000000000008080,
   0x0000000080000001, 0x8000000080008008]

/-- One round of the permutation. -/
def kRound (a : List Nat) (rc : Nat) : List Nat :=
  let col := (List.range 5).map (fun x => (List.range 5).foldl (fun h y => h ^^^ kLane a (x + 5 * y)) 0)
  let a := (List.range 25).map (fun i =>
    kLane a i ^^^ kLane col ((i % 5 + 4) % 5) ^^^ rotLane (kLane col ((i % 5 + 1) % 5)) 1)
  -- lane (y, 2x + 3y) takes lane (x, y) rotated: the source of (X, Y) is x = X + 3Y, y = X
  let b := (List.range 25).map (fun i =>
    let src := (i % 5 + 3 * (i / 5)) % 5 + 5 * (i % 5)
    rotLane (kLane a src) (kLane kRotations src))
  (List.range 25).map (fun i =>
    let next := fun k => kLane b ((i % 5 + k) % 5 + 5 * (i / 5))
    kLane b i ^^^ ((2 ^ 64 - 1 - next 1) &&& next 2) ^^^ (if i = 0 then rc else 0))

/-- The permutation (PRESUMED, log entry 21). -/
def keccak (a : List Nat) : List Nat := kRounds.foldl kRound a

/-- A message as one number, little-endian by bytes, split into blocks of 136 bytes: each is absorbed in turn (PRESUMED, log entry 21). -/
def absorb (a : List Nat) (m : Nat) : Nat → List Nat
  | 0 => a
  | n + 1 => absorb (keccak ((List.range 25).map (fun i => kLane a i ^^^ (if i < 17 then bits m (64 * i) 64 else 0))))
      (m / 2 ^ 1088) n

/-- The first 136 bytes of SHAKE256 of the `n` bytes of a number, little-endian (PRESUMED, log entry 21). -/
def shakeBlock (m n : Nat) : Nat :=
  let blocks := n / 136 + 1
  let padded := m % 2 ^ (8 * n) + 0x1F * 2 ^ (8 * n) + 2 ^ (1088 * blocks - 1)
  let a := absorb (List.replicate 25 0) padded blocks
  (List.range 17).foldl (fun h i => h + kLane a i * 2 ^ (64 * i)) 0

/-- SHAKE256 of the `n` bytes of a number, little-endian, with 64 bytes of output (PRESUMED, log entry 21). -/
def shake256 (m n : Nat) : BitVec 512 := BitVec.ofNat 512 (shakeBlock m n)

/-- The number whose little-endian bytes are a list. -/
def bytesNat (l : List Byte) : Nat := l.foldr (fun b h => b.toNat + 256 * h) 0

end Sys2Proof.Machine
end

