-- ==== Sys2Proof/Machine/Ed448.lean ====
section
/-! DEFINITION. Ed448 (R446, R448, R449). The manual names the signature scheme; its curve, its encodings and its two algorithms are
those of the public standard, with an empty context (PRESUMED, log entry 21). -/

namespace Sys2Proof.Machine

/-- The prime of the field (PRESUMED, log entry 21). -/
def edP : Nat := 2 ^ 448 - 2 ^ 224 - 1

/-- The order of the base point (PRESUMED, log entry 21). -/
def edL : Nat := 2 ^ 446 - 0x8335dc163bb124b65129c96fde933d8d723a70aadc873d6d54a7bb0d

/-- A point of the curve x² + y² = 1 - 39081x²y², as (X/Z, Y/Z). -/
structure EdPoint where
  x : Nat
  y : Nat
  z : Nat
  deriving DecidableEq, Repr

/-- A difference in the field. -/
def edSub (a b : Nat) : Nat := (a % edP + edP - b % edP) % edP

/-- A power in the field, by the low `n` bits of the exponent. -/
def edPow (b : Nat) : Nat → Nat → Nat
  | 0, _ => 1
  | n + 1, e => let h := edPow b n (e / 2); if e % 2 = 1 then h * h % edP * b % edP else h * h % edP

/-- The sum of two points (PRESUMED, log entry 21). -/
def edAdd (p q : EdPoint) : EdPoint :=
  let a := p.z * q.z % edP
  let b := a * a % edP
  let c := p.x * q.x % edP
  let d := p.y * q.y % edP
  let e := 39081 * c * d % edP
  let f := (b + e) % edP
  let g := edSub b e
  let h := (p.x + p.y) * (q.x + q.y) % edP
  ⟨a * f % edP * edSub (edSub h c) d % edP, a * g % edP * edSub d c % edP, f * g % edP⟩

/-- A point times the low `n` bits of a number. -/
def edMul (p : EdPoint) : Nat → Nat → EdPoint
  | 0, _ => ⟨0, 1, 1⟩
  | n + 1, k => let h := edMul p n (k / 2); if k % 2 = 1 then edAdd (edAdd h h) p else edAdd h h

/-- A point in 57 bytes: y, and the lowest bit of x at the top. -/
def edEncode (p : EdPoint) : Nat :=
  let i := edPow p.z 448 (edP - 2)
  p.y * i % edP + p.x * i % edP % 2 * 2 ^ 455

/-- The point that 57 bytes encode, if any (PRESUMED, log entry 21). -/
def edDecode (w : Nat) : Option EdPoint :=
  let y := w % 2 ^ 455
  let u := edSub (y * y) 1
  let v := edSub (edP - 39081 * y % edP * y % edP) 1
  let x := u * u % edP * u % edP * v % edP * edPow (u * u % edP * u % edP * u % edP * u % edP * (v * v % edP * v % edP) % edP) 448 ((edP - 3) / 4) % edP
  if edP ≤ y ∨ v * x % edP * x % edP ≠ u ∨ (x = 0 ∧ bit w 455) then none
  else some ⟨if x % 2 = bits w 455 1 then x else edP - x, y, 1⟩

/-- The base point (PRESUMED, log entry 21). -/
def edBase : EdPoint :=
  ⟨0x4f1970c66bed0ded221d15a622bf36da9e146570470f1767ea6de324a3d3a46412ae1af72ab66511433b80e18b00938e2626a82bc70cc05e,
   0x693f46716eb6bc248876203756c9c7624bea73736ca3984087789c1e05a0c2d73ad3ff1ce67c39c4fdbd132c4ed7c8ad9808795bf230fa14, 1⟩

/-- The hash of `n` bytes after the scheme's prefix, "SigEd448" and two zero bytes, with 114 bytes of output. -/
def edHash (m n : Nat) : Nat := shakeBlock (0x3834346445676953 + m * 2 ^ 80) (n + 10) % 2 ^ 912

/-- The secret scalar of a key and the prefix of its signatures (PRESUMED, log entry 21). -/
def edSecret (key : BitVec 456) : Nat × Nat :=
  let h := shakeBlock key.toNat 57 % 2 ^ 912
  (bits h 2 445 * 4 + 2 ^ 447, h / 2 ^ 456)

/-- The public key of a secret key (R448) (PRESUMED, log entry 21). -/
def ed448Public (key : BitVec 456) : BitVec 456 := BitVec.ofNat 456 (edEncode (edMul edBase 448 (edSecret key).1))

/-- The signature of a 64-byte digest by a secret key (R448, R449) (PRESUMED, log entry 21). -/
def ed448Sign (key : BitVec 456) (digest : BitVec 512) : BitVec 912 :=
  let (s, pre) := edSecret key
  let r := edHash (pre + digest.toNat * 2 ^ 456) 121 % edL
  let big := edEncode (edMul edBase 446 r)
  let k := edHash (big + (ed448Public key).toNat * 2 ^ 456 + digest.toNat * 2 ^ 912) 178 % edL
  BitVec.ofNat 912 (big + (r + k * s) % edL * 2 ^ 456)

/-- A signature of a 64-byte digest verifies under a public key (R446) (PRESUMED, log entry 21). -/
def ed448Verifies (pub : BitVec 456) (digest : BitVec 512) (sig : BitVec 912) : Bool :=
  let s := sig.toNat / 2 ^ 456
  let k := edHash (sig.toNat % 2 ^ 456 + pub.toNat * 2 ^ 456 + digest.toNat * 2 ^ 912) 178 % edL
  match edDecode pub.toNat, edDecode (sig.toNat % 2 ^ 456) with
  | some a, some r => decide (s < edL) && edEncode (edMul (edMul edBase 446 s) 3 4) == edEncode (edMul (edAdd r (edMul a 446 k)) 3 4)
  | _, _ => false

end Sys2Proof.Machine
end

