-- ==== Sys2Proof/Machine/Neurons.lean ====
section
/-! DEFINITION. Neuron banks: states, parameter sets, bank controls, the event queue with its spill, delivery, fanout and
fire messages, and the instructions (R193 to R209). -/

namespace Sys2Proof.Machine

/-! ### Neuron states and parameter sets (R193 to R195) -/

/-- A bank index. -/
def bankIx (k : Nat) : Fin 4 := ⟨k % 4, Nat.mod_lt _ (by decide)⟩

/-- Address of the state of neuron `j` of bank `k` of core `c`. -/
def neuronKey (c k j : Nat) : Nat := bankKey c (k * 0x8000 + j * 16)

/-- A neuron state. -/
structure Neuron where
  fires : Nat
  rf : Bool
  pset : Nat
  refru : Nat
  tlast : Nat
  v : Int
  deriving DecidableEq, Repr

/-- The state of neuron `j` of bank `k` of core `c`. -/
def neuronGet (s : State) (c k j : Nat) : Neuron :=
  let w := memRead s.mem (neuronKey c k j) 16
  ⟨bits w 96 32, bit w 88, bits w 80 8, bits w 64 16, bits w 32 32, sgn 32 w⟩

/-- Writes the state of neuron `j` of bank `k` of core `c`. -/
def neuronSet (s : State) (c k j : Nat) (n : Neuron) : State :=
  onMem s (fun m => memWrite m (neuronKey c k j) 16
    (n.fires % 2 ^ 32 * 2 ^ 96 + n.rf.toNat * 2 ^ 88 + n.pset % 256 * 2 ^ 80 + n.refru % 2 ^ 16 * 2 ^ 64
      + n.tlast % 2 ^ 32 * 2 ^ 32 + wrap 32 n.v))

/-- LM offset of parameter set `n` (R194). -/
def paramAt (n : Nat) : Nat := 0x7F800 + 32 * n

/-- Parameter set `n` of core `c` as a 32-byte number (R194). -/
def paramGet (s : State) (c n : Nat) : Nat := memRead s.mem (lmKey c (paramAt n)) 32

/-- The cores of the package, those of which an image is the only copy among them (R291). -/
def everyCore (s : State) : List Core := s.cores.map (·.2) ++ (s.pkg.cellar.filter (fun e => e.2.live)).map (fun e => e.2.core)

/-- The control register of a bank (R195). -/
def bankCtl (s : State) (c k : Nat) : Nat := (coreOf s c).ev.bankCtl[bankIx k].toNat

/-- The domain that a bank is bound to (R195). -/
def bankDomain (s : State) (c k : Nat) : Nat := bits (bankCtl s c k) 48 16

/-- The safe time that a core has received for a domain (R198, R209). -/
def safeOf (s : State) (c dom : Nat) : Nat := (smGetD (quadOf s (quadNo c)).safes dom 0).toNat

/-- Applies a function to the neuron-bank state of core `c`. -/
def onEv (s : State) (c : Nat) (f : CoreEv → CoreEv) : State := onCore s c (fun k => { k with ev := f k.ev })

/-! ### The event queue (R196 to R199) -/

/-- The order of events: time, sequence, source (R197). -/
def eventKey (e : Event) : Nat := e.time * 2 ^ 28 + e.seq % 2 ^ 16 * 2 ^ 12 + e.src % 2 ^ 12

/-- A list in event-key order with an element put in its place, after its equals; `f` gives an element's event. -/
def eventInsert {α : Type} (f : α → Event) (q : List α) (e : α) : List α :=
  q.takeWhile (fun x => eventKey (f x) ≤ eventKey (f e)) ++ [e] ++ q.dropWhile (fun x => eventKey (f x) ≤ eventKey (f e))

/-- An event in 16 bytes (R196). -/
def eventWord (e : Event) : Nat :=
  e.time % 2 ^ 32 + e.weight.toNat * 2 ^ 32 + e.neuron % 2 ^ 11 * 2 ^ 64 + e.bank % 4 * 2 ^ 75 + e.core % 2 ^ 12 * 2 ^ 77
    + e.seq % 2 ^ 16 * 2 ^ 96 + e.src % 2 ^ 12 * 2 ^ 112 + e.inc % 16 * 2 ^ 124

/-- A queue or spill entry of 32 bytes (R196). -/
def eventEntry (e : Event) : Nat := eventWord e + e.domain % 2 ^ 16 * 2 ^ 128

/-- The event of a 32-byte entry (R196). -/
def eventOf (w : Nat) : Event :=
  ⟨bits w 124 4, bits w 112 12, bits w 96 16, bits w 77 12, bits w 75 2, bits w 64 11, BitVec.ofNat 32 (bits w 32 32), bits w 0 32,
    bits w 128 16⟩

/-- The entries of a domain's event spill region that a core uses. -/
def spillEntries (k : Core) (dom : Nat) : List Nat := (k.ev.spill.filter (fun e => e.1.domain == dom)).map (·.2)

/-- The entry for one more spilled event of core `c` (R197): a free one of a block of 128 that the core holds, else the first of
the lowest block that no core holds. A core holds a block while a spilled event of it lies there (DEDUCED, log entry 25). -/
def spillEntry (s : State) (c : Nat) (d : Domain) : Option Nat :=
  let mine := spillEntries (coreOf s c) d.id
  let held := (everyCore s).flatMap (fun k => (spillEntries k d.id).map (· / 128))
  let own := ((mine.map (· / 128)).flatMap (fun b => (List.range 128).map (128 * b + ·))).find? (fun i => !mine.contains i)
  if d.espill = 0 then none
  else match own with
    | some i => some i
    | none => ((List.range (d.essize.toNat / 4096)).find? (fun b => !held.contains b)).map (128 * ·)

/-- Where an entry of a domain's event spill region lies, while the domain lives. -/
def spillAddr (s : State) (dom i : Nat) : Option Nat := (domainOf s dom).map (fun d => d.2.espill.toNat + 32 * i)

/-- Spilled events return to core `c`'s queue in key order while it has room and a way to them, as the spill region holds them, as events
of core `c` (R197, R198, R358). -/
def refill (c : Nat) : Nat → State → State
  | 0, s => s
  | n + 1, s =>
    match (coreOf s c).ev.spill with
    | [] => s
    | (e, i) :: t =>
      if 1024 ≤ (coreOf s c).ev.queue.length then s
      else
        match (spillAddr s e.domain i).elim .opened (stackWay s (dieNo c)) with
        | .opened =>
          let e := (spillAddr s e.domain i).elim e (fun a => { eventOf (memRead s.mem a 32) with core := e.core })
          refill c n (onEv s c (fun v => { v with queue := v.queue ++ [e], spill := t }))
        | p => wakePath s p

/-- An event goes to its domain's spill region, when the core has a way to it (R197, R358). -/
def spillEvent (s : State) (c : Nat) (e : Event) : Option State :=
  (domainOf s e.domain).bind (fun d => ((spillEntry s c d.2).filter (fun i => stackWay s (dieNo c) (d.2.espill.toNat + 32 * i) == .opened)).map (fun i =>
    storeKey (onEv s c (fun v => { v with spill := eventInsert (·.1) v.spill (e, i) })) (d.2.espill.toNat + 32 * i) 32 (eventEntry e)))

/-- Puts an event in the queue, or in the spill behind it; `none` when the spill that this needs is full (R197) (DEDUCED, log
entry 25). Each event is tested against its own domain's region, so that a region that is full refuses no event of another
domain (DESIGN CHOICE, log entry 60). -/
def storeEvent (s : State) (c : Nat) (e : Event) : Option State :=
  let s := refill c 1024 s
  let k := coreOf s c
  let behind := match k.ev.spill.head? with
    | some h => decide (eventKey h.1 ≤ eventKey e)
    | none => false
  let q := if behind then k.ev.queue else eventInsert id k.ev.queue e
  let spills := if behind then some e else if q.length ≤ 1024 then none else q.getLast?
  match spills with
  | none => some (onEv s c (fun v => { v with queue := q, overflowed := false }))
  | some x => spillEvent (onEv s c (fun v => { v with queue := q.take 1024, overflowed := false })) c x

/-- The core's spill has become full: it sends its packet once (R197, R214). While the flue of its die is not Active, it only waits for
it (R358, R366). -/
def overflow (s : State) (c : Nat) : State :=
  if flueOpen s (dieNo c) .opened != .opened then wakePath s (flueOpen s (dieNo c) .opened)
  else if (coreOf s c).ev.overflowed then s
  else sendPacket (onEv s c (fun v => { v with overflowed := true })) c false (packetNone c 0 .eventOverflow 0 0)

/-- The head event meets a discard condition (R198). -/
def headDrops (s : State) (c : Nat) (e : Event) : Bool :=
  !bit (bankCtl s c e.bank) 19 || bankDomain s c e.bank != e.domain || e.core != c

/-- What the delivery engine does next is due: discard or deliver the head, or take events back from the spill. -/
def evKick (s : State) (c : Nat) : State :=
  let k := coreOf s c
  let s := if k.ev.spill.isEmpty || decide (1024 ≤ k.ev.queue.length) then s else dueEvent s (.eventSpillReturn c)
  if k.ev.delivering.isSome then s
  else match k.ev.queue.head? with
    | none => s
    | some e =>
      if headDrops s c e then dueEvent s (.eventDiscard c)
      else if e.time ≤ safeOf s c (bankDomain s c e.bank) then dueEvent s (.eventDelivery c) else s

/-- An event that is late takes the time after the safe time, and is counted (R199). A fanout event to a bank bound to another
domain than its own is taken as late by that bank's safe time, though R199 calls no fanout event late (DESIGN CHOICE, log entry
47). -/
def lateFix (s : State) (c : Nat) (e : Event) : State × Event :=
  let safe := safeOf s c (bankDomain s c e.bank)
  if (domainOf s (bankDomain s c e.bank)).isSome && decide (e.time ≤ safe) then
    (onEv s c (fun v => { v with late := satInc v.late }), { e with time := safe + 1 })
  else (s, e)

/-- An event is accepted at its core, or refused (R197, R199). An injected one takes the domain of its bank. -/
def acceptEvent (s : State) (c : Nat) (e : Event) (injected : Bool) : Option State :=
  let e := if injected then { e with domain := bankDomain s c e.bank } else e
  let (s', e') := lateFix s c e
  (storeEvent s' c e').map (fun s => evKick s c)

/-- The oldest event from `src` to `dst` is offered to its core (R197). -/
def offerEvent (s : State) (src dst : Nat) : State :=
  match channelHead s src dst true with
  | some (ix, .ev e inj) =>
    if e.inc ≠ (dieOf s (dieNo src)).inc then dequeueItem s src ix
    else if !dieUp s dst then sendFailed s src ix
    else if cannotArrive s src dst then refuse s src dst
    else match acceptEvent s dst e inj with
      | some s => dequeueItem s src ix
      | none => reoffer (overflow s dst) src dst
  | _ => s

/-- EVENT_ACCEPT (R197). -/
def execEventAccept (src dst : Nat) (s : State) : Host.Outcome State Fault Refusal := .next (offerEvent s src dst)

/-- SEND_QUEUE_REOFFER (R164, R185, R197): the refused items from one core to another are offered again, and those
behind them in turn. -/
def execSendQueueReoffer (src dst : Nat) (s : State) : Host.Outcome State Fault Refusal :=
  let s := offerEvent (offerMessage s src dst) src dst
  .next (if (channelHead s src dst false).isSome || (channelHead s src dst true).isSome then reoffer s src dst else s)

/-- EVENT_SPILL_RETURN (R197): spilled events return in key order while the queue has room. -/
def execEventSpillReturn (core : Nat) (s : State) : Host.Outcome State Fault Refusal :=
  .next (evKick (refill core 1024 s) core)

/-- EVENT_DISCARD (R198): a head that meets a discard condition is dropped and counted. -/
def execEventDiscard (core : Nat) (s : State) : Host.Outcome State Fault Refusal :=
  let k := coreOf s core
  .next (match k.ev.delivering, k.ev.queue with
    | none, e :: t =>
      if headDrops s core e then evKick (onEv s core (fun v => { v with queue := t, drop := satInc v.drop })) core else s
    | _, _ => s)

/-! ### Delivery (R200 to R203) -/

/-- The greatest `y` below 2^n with `y` to the power 256 at most `m`. -/
def root256 (m : Nat) : Nat → Nat → Nat
  | 0, acc => acc
  | n + 1, acc => root256 m n (if (acc + 2 ^ n) ^ 256 ≤ m then acc + 2 ^ n else acc)

/-- ROM[f], the rounded value of 65,536 × 2^(−f/256) (R200). -/
def leakRom (f : Nat) : Nat := (root256 (2 ^ (17 * 256 - f % 256)) 18 0 + 1) / 2

/-- The nearest integer to v / 2^n, ties to even. -/
def rneShift (v : Int) (n : Nat) : Int :=
  let q := v / (2 ^ n : Nat)
  let r := v % (2 ^ n : Nat)
  let half : Int := ((2 ^ n / 2 : Nat) : Int)
  if r < half then q else if half < r then q + 1 else if q % 2 = 0 then q else q + 1

/-- Saturation to a signed word (R200). -/
def sat32 (v : Int) : Int := if v < -(2 ^ 31 : Nat) then -(2 ^ 31 : Nat) else if v ≤ (2 ^ 31 - 1 : Nat) then v else (2 ^ 31 - 1 : Nat)

/-- A potential after `dt` ticks of leak (R200). -/
def leaked (v : Int) (dt leak : Nat) : Int :=
  let e := dt * leak
  let w := rneShift (v * leakRom (e % 256)) 16
  if 32 ≤ e / 256 then (if w < 0 then -1 else 0) else w / (2 ^ (e / 256) : Nat)

/-- One delivery (R200): the neuron's state after it, with the potential at which it fired. -/
def deliver (st : Neuron) (p : Nat) (time : Nat) (weight : BitVec 32) : Neuron × Option Int :=
  let dt := if st.tlast ≤ time then time - st.tlast else 0
  let rf := st.rf && decide (dt < 32768)
  let v := sat32 (leaked st.v dt (bits p 64 16) + weight.toInt)
  let d := (st.refru + 2 ^ 16 - time % 2 ^ 16) % 2 ^ 16
  let refr := rf && decide (1 ≤ d) && decide (d ≤ 32767)
  let st := { st with rf := rf && refr, tlast := max st.tlast time }
  if sgn 32 p ≤ v && !refr then
    let st := if bits p 80 15 = 0 then st else { st with rf := true, refru := (time + bits p 80 15) % 2 ^ 16 }
    ({ st with v := sgn 32 (bits p 32 32), fires := min (st.fires + 1) (2 ^ 32 - 1) }, some v)
  else ({ st with v := v }, none)

/-- The next part of a delivery is due, or the delivery ends (R201 to R203). -/
def deliveryNext (s : State) (c : Nat) (d : Delivery) : State :=
  if d.left ≠ 0 then dueEvent (onEv s c (fun v => { v with delivering := some d })) (.fanoutEmit c)
  else if d.post.isSome then dueEvent (onEv s c (fun v => { v with delivering := some d })) (.fireMessagePost c)
  else evKick (onEv s c (fun v => { v with delivering := none })) c

/-- EVENT_DELIVERY (R200): the head event, when its time is safe, is delivered in one step; a fire starts its fanout. -/
def execEventDelivery (core : Nat) (s : State) : Host.Outcome State Fault Refusal :=
  let k := coreOf s core
  .next (match k.ev.delivering, k.ev.queue with
    | none, e :: t =>
      if headDrops s core e || decide (safeOf s core (bankDomain s core e.bank) < e.time) then s
      else
        let st := neuronGet s core e.bank e.neuron
        let p := paramGet s core (st.pset % 16)
        let ctl := bankCtl s core e.bank
        let (st', fire) := deliver st p e.time e.weight
        let s := neuronSet s core e.bank e.neuron st'
        let n : BitVec 32 := if fire.isSome then 1 else 0
        let s := onEv s core (fun v => { v with queue := t, deliv := v.deliv + 1, fired := v.fired + n })
        let dir := memRead s.mem (lmKey core (bits ctl 0 19 + 4 * e.neuron)) 4
        deliveryNext s core
          { bank := e.bank, neuron := e.neuron, time := e.time, domain := bits ctl 48 16, next := bits dir 0 19,
            left := if fire.isSome && bit p 104 then bits dir 19 13 else 0,
            post := if bit p 105 then fire.map (fun v => (bits p 96 8, BitVec.ofInt 32 v)) else none }
    | _, _ => s)

/-- A fanout record is skipped (R201). -/
def recordSkips (at' r time : Nat) : Bool :=
  decide (atticBase ≤ at') || bits r 57 7 != 0 || bits r 80 48 != 0 || bits r 64 16 == 0
    || decide (2 ^ 32 ≤ time + bits r 64 16) || !namesCore (bits r 45 12)

/-- Emits an event with the core's next sequence number (R196): into its own queue, or into the send queue. `none` when
it must wait for room. -/
def emitEvent (s : State) (c : Nat) (target : Nat) (weight : BitVec 32) (time dom : Nat) (injected : Bool) : Option State :=
  let k := coreOf s c
  let e : Event := ⟨(dieOf s (dieNo c)).inc, c, k.ev.evSeq, bits target 13 12, bits target 11 2, bits target 0 11, weight,
    time, dom⟩
  let s' := onEv s c (fun v => { v with evSeq := (v.evSeq + 1) % 2 ^ 16 })
  if e.core = c && !injected then
    if (channelHead s c c true).isSome then none else acceptEvent s' c e false
  else if sendRoom s c then some (enqueueItem s' c e.core (.ev e injected)) else none

/-- FANOUT_EMIT (R201): the next fanout record is emitted or skipped; without room it waits. The records begin at the directory
word's OFFSET as it stands, be it a multiple of 16 or not (DESIGN CHOICE, log entry 60). -/
def execFanoutEmit (core : Nat) (s : State) : Host.Outcome State Fault Refusal :=
  .next (match (coreOf s core).ev.delivering with
    | none => s
    | some d =>
      if d.left = 0 then s
      else
        let r := memRead s.mem (lmKey core d.next) 16
        let d' := { d with next := d.next + 16, left := d.left - 1 }
        if recordSkips d.next r d.time then deliveryNext (onEv s core (fun v => { v with fanerr := satInc v.fanerr })) core d'
        else match emitEvent s core (bits r 32 25) (BitVec.ofNat 32 r) (d.time + bits r 64 16) d.domain false with
          | some s => deliveryNext s core d'
          | none =>
            let own := bits r 45 12 == core && (channelHead s core core true).isNone
            dueEvent (if own then overflow s core else s) (.fanoutEmit core))

/-- The payload of a fire message (R202). -/
def firePayload (d : Delivery) (v : BitVec 32) : V :=
  BitVec.ofNat 1024 (d.time + v.toNat * 2 ^ 32 + (d.neuron + d.bank * 2 ^ 11) * 2 ^ 64)

/-- FIRE_MESSAGE_POST (R202): the fire message enters the own core's arrival buffer, or waits for room there and for the
core's earlier messages to itself (DEDUCED, log entry 25). -/
def execFireMessagePost (core : Nat) (s : State) : Host.Outcome State Fault Refusal :=
  .next (match (coreOf s core).ev.delivering with
    | none => s
    | some d =>
      match d.left, d.post with
      | 0, some (ty, v) =>
        let k := coreOf s core
        let m : Message := ⟨core, ty, 0x80, false, k.msg.sendSeq, core, 0, (dieOf s (dieNo core)).inc, none,
          [firePayload d v], none, some (d.domain * 2 ^ 32 + d.time), (domainOf s d.domain).map (·.2.launch)⟩
        let ok := handlerOk (handlerEntry s core ty).1
        if (channelHead s core core false).isSome || (ok && !arrivalRoom k m) then dueEvent s (.fireMessagePost core)
        else
          let s := onCore s core (fun k => { k with msg := { k.msg with
            sendSeq := k.msg.sendSeq + 1, arrival := if ok then k.msg.arrival ++ [m] else m :: k.msg.arrival } })
          deliveryNext (if ok then s else discardMessage s core 0 m) core { d with post := none }
      | _, _ => s)

/-! ### Instructions (R204 to R209) -/

/-- The instructions are legal only in firings of slot class 2 (R204). -/
def classTwo (l : Lane) : Except Stop Unit := need (l.firing.cls == 2) .illegal

/-- `EVCFG #n, va` (R205). -/
def execEvcfg (o : EvcfgOp) : State → Host.Outcome State Fault Refusal := stateOp 8 (fun s => do
  let l := cur s
  classTwo l
  irrevocable l
  gate l [.v o.a] []
  let p := (getV l o.a).toNat % 2 ^ 256
  need (bits p 106 150 == 0 && !bit p 95) .eventOperand
  .ok (onMem (setCur s (kill l [.v o.a])) (fun m => memWrite m (lmKey s.sched.core (paramAt o.n.val)) 32 p)))

/-- `EVINJ xa, xb, xc` (R207). -/
def execEvinj (o : EvinjOp) : State → Host.Outcome State Fault Refusal := stateOp 8 (fun s => do
  let l := cur s
  classTwo l
  irrevocable l
  let srcs : List Opnd := [.x o.a, .x o.b, .x o.c]
  gate l srcs []
  let a := (getX l o.a.reg).toNat
  let b := (getX l o.b.reg).toNat
  need (bits a 25 39 == 0 && bits b 32 32 == 0 && namesCore (bits a 13 12)) .eventOperand
  await (sendRoom s s.sched.core) .sendQueue
  match emitEvent (setCur s (kill l srcs)) s.sched.core a ((getX l o.c.reg).setWidth 32) b 0 true with
  | some s => .ok s
  | none => waitFor .sendQueue)

/-- The address of a neuron operand, waiting while the neuron is mid-delivery (R203, R208). -/
def neuronOf (s : State) (a : X) : Except Stop (Nat × Nat) := do
  let n := a.toNat
  need (bits n 13 51 == 0) .eventOperand
  await (!((coreOf s s.sched.core).ev.delivering.any (fun d => d.bank == bits n 11 2 && d.neuron == bits n 0 11)))
    (.delivery (bits n 11 2) (bits n 0 11))
  .ok (bits n 11 2, bits n 0 11)

/-- `EVRD vd, xa` (R208). -/
def execEvrd (o : EvrdOp) : State → Host.Outcome State Fault Refusal := stateOp 8 (fun s => do
  let l := cur s
  classTwo l
  gate l [.x o.a] [.v o.d]
  let (k, j) ← neuronOf s (getX l o.a.reg)
  .ok (setCur s (putV (kill l [.x o.a]) o.d (BitVec.ofNat 1024 (memRead s.mem (neuronKey s.sched.core k j) 16)))))

/-- `EVWR xa, vb` (R208). -/
def execEvwr (o : EvwrOp) : State → Host.Outcome State Fault Refusal := stateOp 8 (fun s => do
  let l := cur s
  classTwo l
  irrevocable l
  gate l [.x o.a, .v o.b] []
  let w := (getV l o.b).toNat % 2 ^ 128
  need (bits (getX l o.a.reg).toNat 13 51 == 0 && bits w 89 7 == 0 && decide (bits w 80 8 ≤ 15)) .eventOperand
  let (k, j) ← neuronOf s (getX l o.a.reg)
  .ok (onMem (setCur s (kill l [.x o.a, .v o.b])) (fun m => memWrite m (neuronKey s.sched.core k j) 16 w)))

/-- Binding a bank is allowed: a whole aligned directory in the program area, and a live ordered domain of the firing's
launch with an event spill region (R206). -/
def bindOk (s : State) (a b : Nat) : Bool :=
  a % 4 == 0 && decide (a + 0x2000 ≤ atticBase) && (match domainOf s (bits b 0 16) with
    | some (_, d) => d.ordered && d.espill != 0 && (launchOf s s.sched.core (cur s)).map (·.1) == some d.launch
    | none => false)

/-- `EVFAN #k, xa, xb` (R206): it takes effect between deliveries, so a lane that finds one in progress waits (R203) (DEDUCED, log
entry 25). -/
def execEvfan (o : EvfanOp) : State → Host.Outcome State Fault Refusal := stateOp 8 (fun s => do
  let l := cur s
  classTwo l
  irrevocable l
  gate l [.x o.a, .x o.b] []
  let a := (getX l o.a.reg).toNat
  let b := (getX l o.b.reg).toNat
  need (bits a 19 45 == 0 && bits b 17 47 == 0 && (!bit b 16 || bindOk s a b)) .eventOperand
  if let some d := (curCore s).ev.delivering then waitFor (.delivery d.bank d.neuron)
  let s := setCur s (kill l [.x o.a, .x o.b])
  let w := BitVec.ofNat 64 (bits a 0 19 + bits b 16 1 * 2 ^ 19 + bits b 0 16 * 2 ^ 48)
  .ok (evKick (onEv s s.sched.core (fun v => { v with bankCtl := v.bankCtl.set o.k w })) s.sched.core))

/-- The figure that EVSTAT reads (R209). NEXT of an empty queue has bit 32 set and zero below (DESIGN CHOICE, log entry 60). -/
def evFigure (s : State) (c sel bank : Nat) : Nat :=
  let v := (coreOf s c).ev
  let all := v.queue ++ v.spill.map (·.1)
  match sel with
  | 0 => all.length
  | 1 => match all.head? with
    | some e => e.time
    | none => 2 ^ 32
  | 2 => safeOf s c (bankDomain s c bank)
  | 3 => v.deliv.toNat
  | 4 => v.fired.toNat
  | 5 => v.late.toNat
  | 6 => v.drop.toNat
  | 7 => v.fanerr.toNat
  | _ => bankCtl s c bank

/-- `EVSTAT xd, xa, #sel` (R209). -/
def execEvstat (o : EvstatOp) : State → Host.Outcome State Fault Refusal := stateOp 8 (fun s => do
  let l := cur s
  classTwo l
  gate l [.x o.a] [.x o.d]
  let a := (getX l o.a.reg).toNat
  need (bits a 2 62 == 0 && decide (o.sel.toNat ≤ 8)) .eventOperand
  .ok (setCur s (putX (kill l [.x o.a]) o.d (BitVec.ofNat 64 (evFigure s s.sched.core o.sel.toNat (bits a 0 2))))))

end Sys2Proof.Machine
end

