-- ==== Sys2Proof/Machine/Rounds.lean ====
section
/-! DEFINITION. The Hearth's rounds: reports, GVT keys, safe times, floors, promotion and commits (R317, R330, R334 to R337);
aborts and hold timeouts (R327, R333); domains (R339 to R342). -/

namespace Sys2Proof.Machine

/-! ### Reports (R317, R335, R337) -/

/-- An operation reads global memory as its task (R322, R335): the source of a copy inwards or between records, the rows or
the index list of a gather, the local source of PUT and RAMO, the data that storage takes, and a collective's source. -/
def readsGlobal (op : EngOp) : Bool :=
  let base := fun (o : Nat) => decide (bits op.recA (8 * o) 64 < 2 ^ 56)
  let source := decide (op.xl.toNat < 2 ^ 56)
  match op.kind with
  | .copyIn _ => base 0 || (base 112 && bits op.recA (8 * 112) 64 != 0)
  | .copyXx _ => base 0
  | .gather _ => base 0 || base 120
  | .scatter _ => base 120
  | .put _ => source
  | .ramo _ => source
  | .blkWr _ => source
  | .allred _ => base 0
  | .allgth _ => base 0
  | .redsct _ => base 0
  | _ => false

/-- A finished task still has engine operations that read global memory to complete (R322, R335). -/
def opsPending (s : State) (n : Nat) : Bool := (everyCore s).any (fun k => k.eng.queue.any (fun o => o.2.task == some n && readsGlobal o.2))

/-- The timestamp that a record not yet accepted will have at least, as a key (R167, R335). -/
def spawnKey (q : Spawn) : Nat :=
  let ts := recField q.record 0 0 64
  (if q.origin.isSome && q.domain == recField q.record 56 0 16 then max ts q.tstamp.toNat else ts) * 2 ^ 32

/-- The cores that a quad's agent speaks for: its own, and those it gave to the Cellar, which no quad has taken back (R293). -/
def agentCores (s : State) (q : Nat) : List Core :=
  (List.range 4).map (fun i => coreOf s (quadCore q i))
    ++ (s.pkg.cellar.filter (fun e => e.2.live && quadNo e.2.home == q)).map (fun e => e.2.core)

/-- The least unfinished key of a domain on a quad (R335). -/
def reportLeast (s : State) (q dom : Nat) : Option Nat :=
  let tasks := (s.hearth.tasks.filter (fun e => e.2.ordered && e.2.domain == dom && e.2.quad == q
    && (e.2.state != .finished || opsPending s e.1))).map (fun e => taskKey e.2)
  let sent := (agentCores s q).flatMap (fun k =>
    (k.msg.spawnQ.filter (fun r => recField r.record 56 0 16 == dom)).map spawnKey)
  least (tasks ++ sent)

/-- The greatest finished key of a domain on a quad (R335). -/
def reportFinished (s : State) (q dom : Nat) : Option Nat :=
  greatest ((s.hearth.tasks.filter (fun e => e.2.ordered && e.2.domain == dom && e.2.quad == q && e.2.state == .finished
    && !opsPending s e.1)).map (fun e => taskKey e.2))

/-- Times of the events of a domain that are not yet delivered, and of its fire messages and fire firings (R337). -/
def aheadTimes (s : State) (dom : Nat) : List Nat :=
  (everyCore s).flatMap (fun k =>
    let ours := fun (f : Option Nat) => match f with
      | some x => if x / 2 ^ 32 = dom then [x % 2 ^ 32] else []
      | none => []
    (((k.ev.queue ++ k.ev.spill.map (·.1)).filter (fun v => v.domain == dom)).map (·.time))
      ++ (k.msg.sendQ.flatMap (fun i => match i with
          | .ev v inj => if (if inj then bankDomain s v.core v.bank else v.domain) = dom then [v.time] else []
          | .msg m => ours m.fired))
      ++ (match k.ev.delivering with
          | some d => if d.domain = dom then [d.time] else []
          | none => [])
      ++ (k.msg.arrival.flatMap (fun m => ours m.fired)) ++ (k.lanes.toList.flatMap (fun l => ours l.firing.fire)))

/-- The live ordered domains that take part in rounds: those not suspended (R335, R342). -/
def roundDomains (s : State) : List Nat :=
  (s.hearth.domains.filter (fun e => e.2.live && e.2.ordered && !e.2.susp)).map (fun e => e.2.id)

/-- A quad's report of a domain sets its floor, with which the domain is no longer silent there, or leaves it silent until the
round's values arrive (R317). -/
def noteReport (s : State) (r : Nat × Nat × Option Nat × Option Nat) : State :=
  let (q, dom, k, _) := r
  match k with
  | some k => onQuad s q (fun x => { x with
      floors := smSet x.floors dom (BitVec.ofNat 64 (k / 2 ^ 32), BitVec.ofNat 32 (k % 2 ^ 32)),
      silent := x.silent.filter (· ≠ dom) })
  | none => onQuad s q (fun x => { x with silent := insertNat x.silent dom })

/-- HEARTH_ROUND_START (R334): rounds do not overlap; every quad's report is taken, of the domains that live then. -/
def execHearthRoundStart (s : State) : Host.Outcome State Fault Refusal :=
  .next (if s.hearth.phase != .idle then s
    else
      let doms := roundDomains s
      let reports := (List.range 640).flatMap (fun q => doms.map (fun d => (q, d, reportLeast s q d, reportFinished s q d)))
      let ahead := doms.foldl (fun m d => match least (aheadTimes s d) with
        | some t => smSet m d t
        | none => m) []
      let sealed := (s.hearth.tasks.filter (fun e => e.2.ordered && doms.contains e.2.domain && e.2.state == .finished
        && !opsPending s e.1)).map (·.1)
      let s := reports.foldl noteReport s
      dueEvent (onHearth s (fun h => { h with
        phase := .reported, reports := reports, ahead := ahead, doms := doms, sealed := sealed })) .hearthRootForm)

/-! ### The root (R335, R337) -/

/-- Some bank of the package is bound to a domain (R195). -/
def bankBound (s : State) (dom : Nat) : Bool :=
  (everyCore s).any (fun k => k.ev.bankCtl.toList.any (fun w => bit w.toNat 19 && bits w.toNat 48 16 == dom))

/-- The new safe time of a domain (R337): `unfinished` says that it has an uncommitted task. -/
def newSafe (old : Nat) (ahead : Option Nat) (unfinished : Bool) (gvt : Nat) : Nat :=
  let g := if unfinished then gvt - 1 else 2 ^ 64
  max old (min (min (ahead.getD (2 ^ 64)) g) 0xFFFFFFFE)

/-- The root's values for one domain of the round (R334, R335). -/
def formDomain (s : State) (h : Hearth) (d : Domain) : Domain :=
  if !(d.live && d.ordered) || d.susp || !h.doms.contains d.id then d
  else
    let rs := h.reports.filter (fun r => r.2.1 == d.id)
    let k := roundKey h d.id
    let fin := rs.filterMap (fun r => r.2.2.2)
    let top := (greatest (fin.filter (fun f => decide (f < k)))).getD 0
    let open' := rs.any (fun r => r.2.2.1.isSome || r.2.2.2.isSome)
    let safe := if bankBound s d.id then newSafe d.safe.toNat (smGet h.ahead d.id) open' (k / 2 ^ 32) else d.safe.toNat
    { d with gvt := BitVec.ofNat 64 (k / 2 ^ 32), gvttb := BitVec.ofNat 32 k, top := top, safe := BitVec.ofNat 32 safe }

/-- HEARTH_ROOT_FORM (R334, R335, R337): each live domain's GVT key, safe time and greatest committed key are formed and
sent down. -/
def execHearthRootForm (s : State) : Host.Outcome State Fault Refusal :=
  .next (if s.hearth.phase != .reported then s
    else
      let s := onHearth s (fun h => { h with
        domains := h.domains.map (fun e => (e.1, formDomain s h e.2)), phase := .formed, pendingQuads := List.range 640 })
      (List.range 640).foldl (fun s q => dueEvent s (.hearthValuesArrive q)) s)

/-! ### The agents (R317, R330, R336) -/

/-- A record held until its quad's floor is known takes its key above it (R317). -/
def fixTask (s : State) (floor : X × BitVec 32) (n : Nat) (t : Task) : State :=
  let low := floor.1.toNat * 2 ^ 32 + floor.2.toNat
  let ts := max t.ts.toNat floor.1.toNat
  let key := if ts = floor.1.toNat then newKey s t.domain ts low else ts * 2 ^ 32 + t.tb.toNat
  let t := { t with
    ts := BitVec.ofNat 64 (key / 2 ^ 32), tb := BitVec.ofNat 32 key, unfixed := false, record := putBits t.record 0 64 (key / 2 ^ 32) }
  settleQueue (setTask (draw s) n t) t.quad t.domain

/-- The floor of a quad that reported nothing for a domain (R317). -/
def silentFloor (s : State) (q : Nat) (d : Domain) : State :=
  if !(quadOf s q).silent.contains d.id then s
  else
    let old := smGetD (quadOf s q).floors d.id (0, 0)
    let k := if gvtKey d ≠ noKey then gvtKey d else max d.top (old.1.toNat * 2 ^ 32 + old.2.toNat)
    let floor : X × BitVec 32 := (BitVec.ofNat 64 (k / 2 ^ 32), BitVec.ofNat 32 k)
    let s := onQuad s q (fun x => { x with floors := smSet x.floors d.id floor, silent := x.silent.filter (· ≠ d.id) })
    (s.hearth.tasks.filter (fun e => e.2.domain == d.id && e.2.quad == q && e.2.unfixed)).foldl
      (fun s e => fixTask s floor e.1 e.2) s

/-- A lane's firing is promoted: SPEC reads 0, in a Frozen lane's frame too (R23, R330). -/
def promotedLane (x : Lane) : Lane :=
  { x with firing := { x.firing with spec := false }
           frame := if x.status == .frozen then { x.frame with st := BitVec.ofNat 512 (putBits x.frame.st.toNat 55 1 0) } else x.frame }

/-- A promoted lane, also where its core lies in an image of the Cellar, under number 4096 + handle (R293, R330). -/
def promoteLane (s : State) (c l : Nat) : State :=
  if c < 4096 then onLaneAt s c l promotedLane
  else onPkg s (fun p => { p with cellar := match smGet p.cellar (c - 4096) with
    | some e => smSet p.cellar (c - 4096) { e with core := setLaneC e.core l (promotedLane e.core.lanes[laneIx l]) }
    | none => p.cellar })

/-- Promotion (R330): the task is no longer speculative, and the accesses that it held perform. Its marks and signatures stay, against
which later tasks of its domain are still checked (R325); nothing holds accesses from outside any more (R333) (DEDUCED, log entry 26). -/
def promoteTask (s : State) (n : Nat) (t : Task) : State :=
  let s := setTask s n { t with spec := false, undo := [], deps := [] }
  hostReleased (if t.state == .running then promoteLane s t.core t.lane else s)

/-- The task of a quad that is reported as unfinished and whose key is the domain's GVT key is promoted: a running one, or a
finished one with engine operations to complete (R322, R330). -/
def promoteAt (s : State) (q : Nat) (d : Domain) : State :=
  match s.hearth.tasks.find? (fun e => e.2.ordered && e.2.domain == d.id && e.2.quad == q && e.2.state != .queued
      && e.2.spec && taskKey e.2 == gvtKey d) with
  | some e => promoteTask s e.1 e.2
  | none => s

/-- The round's values for one domain arrive at a quad: its floor is set, its task promoted, its safe time received (R317, R330, R337). -/
def takeValues (s : State) (q : Nat) (d : Domain) : State :=
  onQuad (promoteAt (silentFloor s q d) q d) q (fun x => { x with safes := smSet x.safes d.id d.safe })

/-- The finished tasks that the round commits, in key order (R336): those that its reports held, below the GVT key. -/
def committable (s : State) : List Nat :=
  let ok := fun (e : Nat × Task) => e.2.ordered && e.2.state == .finished && s.hearth.sealed.contains e.1
    && (domainOf s e.2.domain).any (fun d => !d.2.susp && s.hearth.doms.contains d.2.id && decide (taskKey e.2 < gvtKey d.2))
  (sortDesc s.hearth.tasks ((s.hearth.tasks.filter ok).map (·.1))).reverse

/-- Commits take effect in key order: those before the first whose quad still waits for the values (R336). -/
def commitArrived (s : State) : State :=
  ((committable s).takeWhile (fun n => (taskOf s n).any (fun t => !s.hearth.pendingQuads.contains t.quad))).foldl commitTask s

/-- HEARTH_VALUES_ARRIVE (R317, R330, R334, R336): the quad sets its floors, promotes and commits, and receives the safe
times; the round is complete when the last quad has its values. -/
def execHearthValuesArrive (quad : Nat) (s : State) : Host.Outcome State Fault Refusal :=
  .next (if s.hearth.phase != .formed || !s.hearth.pendingQuads.contains quad then s
    else
      let s := onHearth s (fun h => { h with pendingQuads := h.pendingQuads.filter (· ≠ quad) })
      let doms := (s.hearth.domains.filter (fun e => e.2.live && e.2.ordered && !e.2.susp && s.hearth.doms.contains e.2.id)).map (·.2)
      let s := spillDue (commitArrived (doms.foldl (fun s d => takeValues s quad d) s)) quad
      let s := ((List.range 4).map (quadCore quad)).foldl evKick s
      if s.hearth.pendingQuads.isEmpty then
        onHearth s (fun h => { h with phase := .idle, reports := [], ahead := [], rounds := h.rounds + 1 })
      else s)

/-! ### Aborts and holds (R326, R327, R333) -/

/-- A held access: the domain it is not outside of, its virtual address if it has one, its line and whether it writes (R333). -/
structure HeldAccess where
  dom : Nat
  va : Option Nat
  line : Nat
  write : Bool
  deriving DecidableEq, Repr

/-- The domain an access is made in: that of its task, or of the task that left it running (R332). -/
def accessDomain (s : State) (task : Option Nat) (past : Option (Nat × Nat)) : Nat :=
  (task.bind (taskOf s)).elim (past.elim 0 (·.1)) (fun t => t.domain)

/-- What a barrier or join update on its way waits for (R171, R274). -/
def updateWait (s : State) (c : Nat) (u : TxUpdate) : Option Wait :=
  match txTry s c u with
  | .error (.wait w) => some w
  | _ => none

/-- The held access of lane `l` of core `c`, of the operation in slot `l - 16` of its engine queue, or, from slot 48 on,
of a barrier or join update on its way; for core 0xFFF, the `l`-th of the host and the other packages (R333) (DEDUCED, log entry
26). -/
def heldAccess (s : State) (c l : Nat) : Option HeldAccess :=
  if c = 0xFFF then
    ((s.sched.agenda.filterMap (fun t => match t with
      | .due (.hostMemRead pa _) => some (⟨0, none, lineOf pa, false⟩ : HeldAccess)
      | .due (.hostMemWrite pa _ _) => some ⟨0, none, lineOf pa, true⟩
      | .due (.podPacketReceive p line w) => some ⟨0, some p.addr.toNat, line, w⟩
      | _ => none))[l]?)
  else if l < 16 then
    match (laneOf s c l).wait with
    | some (.held va line w) => some ⟨accessDomain s (laneOf s c l).firing.task none, some va, line, w⟩
    | _ => none
  else if l < 48 then
    (smGet (coreOf s c).eng.queue (l - 16)).bind (fun op =>
      op.heldAt.map (fun h => ⟨accessDomain s op.task op.owner, some h.1, h.2.1, h.2.2⟩))
  else
    ((coreOf s c).eng.tx[l - 48]?).bind (fun u =>
      match updateWait s c u with
      | some (.held va line w) => some ⟨accessDomain s u.src.task u.src.owner, some va, line, w⟩
      | _ => none)

/-- Every held access of the machine. -/
def heldAccesses (s : State) : List HeldAccess :=
  (0xFFF :: s.cores.map (·.1)).flatMap (fun c =>
    (List.range (max (48 + (coreOf s c).eng.tx.length) s.sched.agenda.length)).filterMap (heldAccess s c))

/-- The speculative tasks that hold an access and that an abort may reach, one after another (R326, R333). -/
def abortHolders (h : HeldAccess) : Nat → State → State
  | 0, s => s
  | n + 1, s =>
    let vas := h.va.elim (virtualsOf s h.line) (fun a => [a])
    match s.hearth.tasks.find? (fun e => holdsLine h.dom vas h.line h.write e.2 && !spared s e.1 e.2) with
    | some e => abortHolders h n (abortStep s e.1 false)
    | none => s

/-- HOLD_TIMEOUT (R333): the speculative tasks that still hold a waiting access are aborted. -/
def execHoldTimeout (core lane : Nat) (s : State) : Host.Outcome State Fault Refusal :=
  .next (match heldAccess s core lane with
    | some h => abortHolders h (s.hearth.tasks.length + 1) s
    | none => s)

/-- A standing cause of an abort reaches a task (R326): commit-queue pressure, an access that it holds, or its quad being
vacated. A conflict, a dependence, ABORTT, LKILL and a suspension abort in the step in which they arise. -/
def abortCause (s : State) (n : Nat) (t : Task) : Bool :=
  pressed s t.quad == some n || (quadOf s t.quad).vacating
    || (heldAccesses s).any (fun h => holdsLine h.dom (h.va.elim (virtualsOf s h.line) (fun a => [a])) h.line h.write t)

/-- TASK_ABORT (R326, R327): one abort step, for a standing cause, of a task that an abort may reach. -/
def execTaskAbort (task : Nat) (s : State) : Host.Outcome State Fault Refusal :=
  .next (match taskOf s task with
    | none => s
    | some t => if t.ordered && t.spec && t.state != .queued && !spared s task t && abortCause s task t then abortStep s task false else s)

/-! ### Domains (R340 to R342) -/

/-- Domain slot `i` (R340). -/
def slotOf' (s : State) (i : Nat) : Domain := smGetD s.hearth.domains i Domain.reset

/-- Replaces domain slot `i`. -/
def setSlot (s : State) (i : Nat) (d : Domain) : State := onHearth s (fun h => { h with domains := smSet h.domains i d })

/-- What a write that sets V needs (R340). -/
def descriptorOk (s : State) (slot : Nat) (d : Domain) (resv : Nat) : Bool :=
  let m := memRead s.mem d.qmap.toNat 128
  d.id != 0 && d.id != 0xFFFF && !(s.hearth.domains.any (fun e => e.1 != slot && e.2.live && e.2.id == d.id))
    && resv == 0 && d.rest == 0 && (d.ordered || d.undo == 0)
    && d.qmap.toNat % 128 == 0 && d.tspill.toNat % 2 ^ 16 == 0 && d.tssize != 0 && d.tssize.toNat % 2 ^ 16 == 0
    && d.undo.toNat % 2 ^ 20 == 0 && d.espill.toNat % 2 ^ 16 == 0 && d.essize.toNat % 2 ^ 16 == 0
    && m / 2 ^ 640 == 0 && m % 2 ^ 640 != 0

/-- A domain takes no part in the round in progress. -/
def leaveRound (s : State) (id : Nat) : State := onHearth s (fun h => { h with doms := h.doms.filter (· ≠ id) })

/-- Quads forget the floors and safe times of a domain ID, and the round in progress leaves it out. -/
def forgetDomain (s : State) (id : Nat) : State :=
  let s := leaveRound s id
  { s with quads := s.quads.map (fun e => (e.1, { e.2 with
      floors := smDel e.2.floors id, safes := smDel e.2.safes id, silent := e.2.silent.filter (· ≠ id) })) }

/-- The banks bound to a domain have EN cleared, and their cores look at their heads again (R195, R342). A control register that lies
in a Cellar image keeps EN: what becomes of it is open (DESIGN CHOICE, log entry 48). -/
def unbindBanks (s : State) (id : Nat) : State :=
  s.cores.foldl (fun s e => evKick (onEv s e.1 (fun v => { v with
    bankCtl := v.bankCtl.map (fun w => if bits w.toNat 48 16 = id ∧ bit w.toNat 19 then w - 0x80000 else w) })) e.1) s

/-- The speculative tasks of a list that an abort may reach are aborted, the latest first (R326, R327). -/
def abortAll (s : State) (l : List Nat) : State :=
  (sortDesc s.hearth.tasks l).foldl (fun s n =>
    if (taskOf s n).any (fun t => t.ordered && t.spec && t.state != .queued && !spared s n t) then abortStep s n false else s) s

/-- No quad waits for a round's values of a domain any more (R317). -/
def forgetSilent (s : State) (id : Nat) : State :=
  { s with quads := s.quads.map (fun e => (e.1, { e.2 with silent := e.2.silent.filter (· ≠ id) })) }

/-- What a round in progress gives a domain before it leaves that round (R317, R330, R336): the values of a formed round reach every quad that
waits for them and its tasks commit; of a round whose reports alone are taken nothing does, and the quads that reported nothing keep
their floors, against which their held records' keys are fixed (DEDUCED, log entry 34). -/
def endRound (s : State) (d : Domain) : State :=
  if s.hearth.phase == .formed && s.hearth.doms.contains d.id then
    let s := (committable s).foldl (fun s n => if (taskOf s n).any (fun t => t.domain == d.id) then commitTask s n else s) s
    leaveRound (s.hearth.pendingQuads.foldl (fun s q => takeValues s q d) s) d.id
  else
    let s := forgetSilent (leaveRound s d.id) d.id
    (s.hearth.tasks.filter (fun e => e.2.domain == d.id && e.2.unfixed)).foldl
      (fun s e => fixTask s (smGetD (quadOf s e.2.quad).floors d.id (0, 0)) e.1 e.2) s

/-- A domain is suspended (R342): it leaves the round in progress, its speculative tasks are aborted, and its queued records move to the
spill region (DEDUCED, log entry 34). -/
def suspendDomain (s : State) (slot : Nat) : State :=
  let d := slotOf' s slot
  let s := endRound s d
  let s := abortAll s ((domainTasks s d.id).map (·.1))
  let s := (s.hearth.tasks.filter (fun e => e.2.domain == d.id && e.2.state == .queued && !e.2.spilled)).foldl
    (fun s e => spillTask s d e.1 e.2) s
  setSlot s slot { slotOf' s slot with susp := true }

/-- A queued record whose quad is not one of its domain's is placed again under R36 (R342). -/
def placeAgain (qs : List Nat) (d : Domain) (s : State) (n : Nat) : State :=
  onTask s n (fun t =>
    if qs.contains t.quad then t
    else match placeQuad s d none (recField t.record 16 0 64) with
      | some q => { t with quad := q, core := placeCore s q }
      | none => t)

/-- A domain is resumed (R342): its spilled records return, placed again when its quads have changed. -/
def resumeDomain (s : State) (slot : Nat) : State :=
  let d := { slotOf' s slot with susp := false }
  let s := setSlot s slot d
  let qs := domainQuads s d
  let queued := (s.hearth.tasks.filter (fun e => e.2.domain == d.id && e.2.state == .queued)).map (·.1)
  let s := queued.foldl (placeAgain qs d) s
  qs.foldl (fun s q => spillDue (settleQueue s q d.id) q) s

/-- A domain is retired (R342). -/
def retireDomain (s : State) (slot : Nat) : State :=
  let d := slotOf' s slot
  unbindBanks (forgetDomain (setSlot s slot { d with live := false, susp := false }) d.id) d.id

/-- A write of a descriptor's first doubleword (R340): fields of a slot that is not live, setting V, SUSP and clearing V (DEDUCED, log entry 34). -/
def writeDescriptor (s : State) (slot w : Nat) : State :=
  let d := slotOf' s slot
  if d.live then
    if !bit w 16 then retireDomain s slot
    else if bit w 18 && !d.susp then suspendDomain s slot
    else if !bit w 18 && d.susp then resumeDomain s slot
    else s
  else
    let x := { d with id := bits w 0 16, ordered := bit w 17, susp := bit w 18, launch := bits w 32 32 }
    if !bit w 16 then setSlot s slot x
    else if descriptorOk s slot x (bits w 19 13) then
      forgetDomain (setSlot s slot { x with live := true, spillf := false, aborts := 0, commits := 0, safe := 0, gvttb := 0,
                                            gvt := 0, top := 0 }) x.id
    else setSlot s slot { d with derr := true }

/-- DOMAIN_CREATE (R340): a supervisor writes a descriptor's first doubleword. -/
def execDomainCreate (who slot : Nat) (value : X) (s : State) : Host.Outcome State Fault Refusal :=
  .next (if isSup who && decide (slot < 4096) then writeDescriptor s slot value.toNat else s)

/-- DOMAIN_SUSPEND (R342). -/
def execDomainSuspend (who slot : Nat) (s : State) : Host.Outcome State Fault Refusal :=
  let d := slotOf' s slot
  .next (if isSup who && decide (slot < 4096) && d.live && !d.susp then suspendDomain s slot else s)

/-- DOMAIN_RESUME (R342). -/
def execDomainResume (who slot : Nat) (s : State) : Host.Outcome State Fault Refusal :=
  let d := slotOf' s slot
  .next (if isSup who && decide (slot < 4096) && d.live && d.susp then resumeDomain s slot else s)

/-- DOMAIN_RETIRE (R342). -/
def execDomainRetire (who slot : Nat) (s : State) : Host.Outcome State Fault Refusal :=
  .next (if isSup who && decide (slot < 4096) && (slotOf' s slot).live then retireDomain s slot else s)

end Sys2Proof.Machine
end

