-- ==== Sys2Proof/Machine/Reset.lean ====
section
/-! DEFINITION. Die and package reset and rejoin (R373 to R377, R446, R447), readiness (R437, R438), soft errors (R136, R360),
energy, power and temperature (R441 to R445). -/

namespace Sys2Proof.Machine

/-! ### The ready map (R437, R438) -/

/-- An index of the ready map that names a function (R437) (DEDUCED, log entry 31). -/
def readyNamed (i : Nat) : Bool := decide (i < 640 ∨ (1024 ≤ i ∧ i < 2432))

/-- Sets bit `i` of a map. -/
def setMapBit (m i : Nat) : Nat := putBits m i 1 1

/-- FUNCTION_READY (R437, R438): a function passes its self-test. Every bit stays 0 until the boot ROM has accepted a firmware image
(R446), of which the device identity key is the trace (R448) (DEDUCED, log entry 31). -/
def execFunctionReady (idx : Nat) (s : State) : Host.Outcome State Fault Refusal :=
  .next (if readyNamed idx && !bit s.pkg.failed idx && s.pkg.identity.isSome then
    onPkg s (fun p => { p with ready := setMapBit p.ready idx }) else s)

/-- FUNCTION_FAILED (R437, R438): a function fails its self-test. -/
def execFunctionFailed (idx : Nat) (s : State) : Host.Outcome State Fault Refusal :=
  .next (if readyNamed idx && !bit s.pkg.ready idx then onPkg s (fun p => { p with failed := setMapBit p.failed idx }) else s)

/-- The ready bits of a die's quads, slices and supervisor cores clear (R438). -/
def clearReady (d m : Nat) : Nat := putBits (putBits (putBits m (80 * d) 80 0) (1024 + 32 * d) 32 0) (2336 + 4 * d) 4 0

/-! ### Poison (R136, R360) -/

/-- LM_DOUBLE_BIT_ERROR (R136): two bits of an LM word are struck, and the word becomes poisoned. -/
def execLmDoubleBitError (core word : Nat) (s : State) : Host.Outcome State Fault Refusal :=
  .next (if namesCore core && decide (word < 2 ^ 17) then poisonAt s (lmKey core (4 * word)) else s)

/-- HBM_UNCORRECTABLE_ERROR (R359, R360): a line, or the four lines of its block when the block is stored 2:1 or 4:1. No line is
stored of an all-zero block, and nothing is poisoned (DEDUCED, log entry 38). -/
def execHbmUncorrectableError (line : Nat) (s : State) : Host.Outcome State Fault Refusal :=
  .next (if 2 ^ 40 ≤ line then s
    else match blockOf s (line / 256) with
      | .raw => poisonAt s (lineOf line)
      | .half | .quarter => (List.range 4).foldl (fun s i => poisonAt s (line / 256 * 256 + 64 * i)) s
      | .zero => s)

/-! ### Resets of a die (R373 to R375) -/

/-- The flues that end at a die (R361). -/
def dieFlues (d : Nat) : List Nat := [d, 8 + d, 8 + (d + 7) % 8]

/-- The keys of a table that belong to a die. -/
def keysOfDie {α : Type} (m : SMap α) (die : Nat → Nat) (d : Nat) : List Nat := (m.map (·.1)).filter (fun k => die k == d)

/-- Die of a quad number (R340). -/
def quadDie (q : Nat) : Nat := if q < 640 then q / 80 else (q - 640) / 4

/-- Every operation of a die that has not completed ends with ECODE 5 (R373, R284). -/
def endOps (s : State) (d : Nat) : State :=
  (keysOfDie s.cores dieNo d).foldl (fun s c =>
    (((coreOf s c).eng.queue).map (·.1)).foldl (fun s k => endError s c k 5 0 false) s) s

/-- The die's tasks are discarded; what a speculative one wrote is undone first (R327, R373). -/
def endTasks (s : State) (d : Nat) : State :=
  let mine := fun (e : Nat × Task) => e.2.quad / 80 == d
  let spec := ((s.hearth.tasks.filter mine).filter (fun e => e.2.ordered && e.2.spec && e.2.state != .queued)).map (·.1)
  let s := (sortDesc s.hearth.tasks spec).foldl (fun s n =>
    if (taskOf s n).any (fun t => t.spec && t.state != .queued) then abortStep s n false else s) s
  let gone := (s.hearth.tasks.filter mine).map (·.1)
  onHearth s (fun h => { h with tasks := (h.tasks.filter (fun e => !gone.contains e.1)).map (fun e =>
    (e.1, { e.2 with parent := e.2.parent.filter (fun p => !gone.contains p),
                     deps := e.2.deps.filter (fun p => !gone.contains p) })) })

/-- The die gives up every line it was granted (R375). -/
def dropLines (s : State) (d : Nat) : State :=
  (((dieOf s d).tokens).map (·.1)).foldl (fun s line =>
    setDirectory s line (dirWithout (directoryOf s line) d)) s

/-- The lines of which the die holds the only dirty copy are poisoned, their blocks decompressed to raw (R375). -/
def poisonDirty (s : State) (d : Nat) : State :=
  (((dieOf s d).tokens.filter (fun e => e.2.granted && e.2.dirty)).map (·.1)).foldl (fun s a => poisonAt (rawBlocks s a 64) a) s

/-- The die whose unit does what is due, for the units that a die reset clears; record 0xFFF is the host's. -/
def dueDie : Due → Option Nat
  | .dispatch c | .laneUnblock c _ | .resultArrival c _ _ | .storePerformed c _ | .faultFreeze c _ | .messageAccept c _
  | .sendQueueReoffer c _ | .remotePushAccept c _ | .stealRequest c _ | .stealAnswer c _ | .eventAccept c _ | .eventSpillReturn c
  | .eventDelivery c | .eventDiscard c | .fanoutEmit c | .fireMessagePost c | .asyncOpStart c _ _ | .tileOpComplete c _
  | .sectorComplete c _ _ | .txBarrierUpdate c | .reduceSectorApply c _ _ | .bankSectorApply c _ _ | .transientRequest c _ _ =>
    some (dieNo c)
  | .taskAccept c => if c = 0xFFF then none else some (dieNo c)
  | .taskSpillReturn q | .gangForm q _ | .gangComplete q | .freqChangeDone q => some (q / 80)
  | .faultRingWrite d | .dmaDone d _ _ | .persistentDeactivate d _ | .directoryRequest d _ _ | .directoryRecall d _ _ => some d
  | _ => none

/-- What the die's own units were about to do is gone: a request or a sector of its old incarnation does nothing later (R376, R377) (DEDUCED, log entry 31). -/
def dropDues (s : State) (d : Nat) : State :=
  { s with sched := { s.sched with agenda := s.sched.agenda.filter (fun t => match t with
    | .due u => dueDie u != some d
    | _ => true) } }

/-- The die resets (R373): its operations and tasks end, its flues go Down, and everything it holds returns to its reset
value but its incarnation (DEDUCED, log entry 31). -/
def resetDie (s : State) (d : Nat) : State :=
  let s := dropLines (endTasks (endOps s d) d) d
  let s := (dieFlues d).foldl flueDown (dropDues s d)
  let clear := fun (m : Memory) =>
    memClear (memClear (memClear (memClear m (lmKey (512 * d) 0) (512 * 2 ^ 19)) (bankKey (512 * d) 0) (512 * 2 ^ 17))
      (tileKey (512 * d) 0 0) (512 * 2 ^ 16)) (accKey (512 * d) 0 0) (512 * 2 ^ 15)
  let mine := fun p => decide (lmKey (512 * d) 0 ≤ p ∧ p < lmKey (512 * d) 0 + 512 * 2 ^ 19)
  let die := { Die.reset with inc := (dieOf s d).inc, rst := 2 }
  { s with mem := clear s.mem, poison := s.poison.filter (fun p => !mine p),
           cores := s.cores.filter (fun e => dieNo e.1 ≠ d), quads := s.quads.filter (fun e => quadDie e.1 ≠ d),
           dies := smSet s.dies d die, pkg := { s.pkg with ready := clearReady d s.pkg.ready } }

/-- CMD 1 of DIERST (R374, R375): the die drains before it resets (DEDUCED, log entry 31). -/
def dieNormal (s : State) (d : Nat) : State :=
  if (dieOf s d).rst = 0 then dueEvent (onDie s d (fun x => { x with rst := 1 })) (.dieResetEnter d) else s

/-- CMD 2 of DIERST (R374, R375): the die resets at once (DEDUCED, log entry 31). -/
def dieAbrupt (s : State) (d : Nat) : State := if (dieOf s d).rst = 0 then resetDie (poisonDirty s d) d else s

/-- CMD 3 of DIERST (R374, R377): the die takes its next incarnation and its flues begin to wake (DEDUCED, log entry 31). -/
def dieRejoin (s : State) (d : Nat) : State :=
  if (dieOf s d).rst ≠ 2 then s
  else
    let s := onDie s d (fun x => { x with inc := (x.inc + 1) % 16, rst := 3 })
    let s := (dieFlues d).foldl (fun s f =>
      if (flueOf s f).pwr = 3 then dueEvent (setFlue s f { flueOf s f with pwr := 2 }) (.flueTrained f) else s) s
    dueEvent s (.dieRejoinComplete d)

/-- DIE_NORMAL_RESET (R374, R375). -/
def execDieNormalReset (who die : Nat) (s : State) : Host.Outcome State Fault Refusal :=
  .next (if isSup who && decide (die < 8) then dieNormal s die else s)

/-- DIE_ABRUPT_RESET (R374, R375). -/
def execDieAbruptReset (who die : Nat) (s : State) : Host.Outcome State Fault Refusal :=
  .next (if isSup who && decide (die < 8) then dieAbrupt s die else s)

/-- DIE_RESET_ENTER (R373, R375): the die has written its dirty lines back, and resets. -/
def execDieResetEnter (die : Nat) (s : State) : Host.Outcome State Fault Refusal :=
  .next (if (dieOf s die).rst = 1 then resetDie s die else s)

/-- DIE_REJOIN (R377). -/
def execDieRejoin (who die : Nat) (s : State) : Host.Outcome State Fault Refusal :=
  .next (if isSup who && decide (die < 8) then dieRejoin s die else s)

/-- DIE_REJOIN_COMPLETE (R374): STAT goes from 3 to 0. -/
def execDieRejoinComplete (die : Nat) (s : State) : Host.Outcome State Fault Refusal :=
  .next (if (dieOf s die).rst = 3 then onDie s die (fun x => { x with rst := 0 }) else s)

/-! ### Package reset (R446, R447) -/

/-- A measurement register after its extension by a stage with a digest (R447). -/
def extended512 (m digest : BitVec 512) : BitVec 512 := shake256 (m.toNat + digest.toNat * 2 ^ 512) 128

/-- Measurement register `i` is extended by the `n` bytes of a stage (R447). -/
def measure (s : State) (i : Fin 4) (stage n : Nat) : State :=
  onPkg s (fun p => { p with measure := p.measure.set i (extended512 p.measure[i] (shake256 stage n)) })

/-- The boot ROM derives the device identity key from the fused secret and measurement register 0, and certifies its public key
(R448). -/
def deriveIdentity (s : State) : State :=
  let key := Config.deriveKey Config.fusedSecret s.pkg.measure[(0 : Fin 4)]
  let pub := ed448Public key
  onPkg s (fun p => { p with identity := some ⟨key, pub, ed448Sign Config.certifyKey (Config.certified pub)⟩ })

/-- A measurement of something whose bytes the manual does not give: its digest is open (R447, DESIGN CHOICE, log entry 4) (DESIGN CHOICE, log entry 30). -/
def measureOpen (s : State) (i : Fin 4) : State :=
  let g : BitVec 512 := (Config.freeV s.sched.freeCtr).setWidth 512
  onPkg (draw s) (fun p => { p with measure := p.measure.set i (extended512 p.measure[i] g) })

/-- `n` bytes at offset `o` of the firmware image (R446). -/
def imageField (o n : Nat) : Nat := bytesNat ((Config.flash.drop o).take n)

/-- The body of the firmware image (R446). -/
def firmwareBody : List Byte := (Config.flash.drop 256).take (imageField 8 8)

/-- The boot ROM's verdict on the firmware image (R446): 3 for one that it cannot read, 1 for a bad signature, 2 for a version below the
fused one, else 0. An image without its magic number, its zero bytes or its whole body cannot be read (DEDUCED, log entry 31). -/
def bootVerdict (readable : Bool) : Nat :=
  let len := imageField 8 8
  let key := imageField 16 57
  if !readable || imageField 0 4 != 0x4A4B5334 || imageField 187 69 != 0 || decide (Config.flash.length < 256 + len) then 3
  else if shake256 key 57 != Config.vendorDigest
      || !ed448Verifies (BitVec.ofNat 456 key) (shake256 (bytesNat firmwareBody) len) (BitVec.ofNat 912 (imageField 73 114)) then 1
  else if imageField 4 4 < Config.minVersion then 2
  else 0

/-- What an accepted image leads to (R447, R448): the boot ROM measures its body and derives the identity key; the firmware measures
the Larder split and its own configuration (DEDUCED, log entry 31). -/
def bootAccepted (s : State) : State :=
  measureOpen (deriveIdentity (measure s 0 (bytesNat firmwareBody) firmwareBody.length)) 1

/-- PACKAGE_RESET (R446 to R448): everything but HBM, host memory and the time base returns to its reset value; BOOTSTAT holds
the verdict on the firmware image, which with `verdict` 3 cannot be read. The package takes its next incarnation and its flues
begin to wake (R366, R376) (DEDUCED, log entry 31). -/
def execPackageReset (verdict : Fin 4) (s : State) : Host.Outcome State Fault Refusal :=
  let outside := s.sched.agenda.filter (fun t => match t with
    | .event _ => true
    | _ => false)
  let stat := bootVerdict (verdict != 3)
  let t : State := { State.reset with
    mem := s.mem.filter (fun c => c.1 < 2 ^ 41), poison := s.poison.filter (· < 2 ^ 41),
    pkg := { Pkg.reset with inc := (s.pkg.inc + 1) % 16, host := { Pkg.reset.host with bootstat := BitVec.ofNat 64 stat } },
    sched := { s.sched with agenda := outside, flip := false } }
  let t := (List.range 16).foldl (fun t f => dueEvent (setFlue t f { flueOf t f with pwr := 2 }) (.flueTrained f)) t
  .next (if stat = 0 then bootAccepted t else t)

/-! ### Records (R440) -/

/-- A record of core `src` joins the others: in the order of their times, and at equal times of their sources (R440, R215). -/
def logRecord (s : State) (src : Nat) (text : RecordText) : State :=
  let s := sampleTime s
  let g := s.sched.gtime
  let before := fun (r : LogRecord) => decide (r.gtime.toNat < g.toNat ∨ (r.gtime = g ∧ r.src ≤ src))
  onPkg s (fun p => { p with records := p.records.takeWhile before
    ++ [⟨src, (p.records.filter (fun r => r.src == src)).length, g, text⟩] ++ p.records.dropWhile before })

/-! ### Power and temperature (R445) -/

/-- Frequency of a quad island in MHz. -/
def quadFreq (s : State) (q : Nat) : Nat := (coreOf s (quadCore q 0)).ctl.freq

/-- A frequency change of a quad island begins (R445) (DEDUCED, log entry 32). -/
def startFreq (s : State) (q f : Nat) : State :=
  dueEvent (onQuad s q (fun x => { x with target := some f })) (.freqChangeDone q)

/-- The frequency that a quad island has or is on its way to. -/
def nextFreq (s : State) (q : Nat) : Nat := (quadOf s q).target.getD (quadFreq s q)

/-- The firmware starts with the islands whose launches are over their caps (R445): another island's turn comes when those have no
lower step (DEDUCED, log entry 32). -/
def throttleTurn (s : State) (q : Nat) : Bool :=
  overCap s (quadCore q 0) || (s.pkg.launches.flatMap (fun e => e.2.quads)).all (fun k =>
    !overCap s (quadCore k 0) || decide (nextFreq s k ≤ 600))

/-- POWER_LIMIT_THROTTLE (R445): one step of 50 MHz down, no lower than 600 MHz. -/
def execPowerLimitThrottle (quad : Nat) (s : State) : Host.Outcome State Fault Refusal :=
  .next (if decide (quad < 640) && throttleTurn s quad then startFreq s quad (max 600 (nextFreq s quad - 50)) else s)

/-- FREQ_CHANGE_DONE (R445). -/
def execFreqChangeDone (quad : Nat) (s : State) : Host.Outcome State Fault Refusal :=
  .next (match (quadOf s quad).target with
    | none => s
    | some f =>
      let s := onQuad s quad (fun x => { x with target := none })
      (List.range 4).foldl (fun s j => onCore s (quadCore quad j) (fun k => { k with ctl := { k.ctl with freq := f } })) s)

/-- THERMAL_THROTTLE (R445): an island at 105 °C runs at 600 MHz. -/
def execThermalThrottle (quad : Nat) (s : State) : Host.Outcome State Fault Refusal :=
  .next (if quad < 640 then startFreq (onQuad s quad (fun x => { x with hot := true })) quad 600 else s)

/-- THERMAL_THROTTLE_END (R445): below 100 °C the island runs at full speed again (DEDUCED, log entry 32). -/
def execThermalThrottleEnd (quad : Nat) (s : State) : Host.Outcome State Fault Refusal :=
  .next (if (quadOf s quad).hot then startFreq (onQuad s quad (fun x => { x with hot := false })) quad 1700 else s)

/-- THERMAL_DIE_RESET (R445): at 115 °C the die takes a normal reset. -/
def execThermalDieReset (die : Nat) (s : State) : Host.Outcome State Fault Refusal :=
  .next (if die < 8 then dieNormal s die else s)

/-- THERMAL_SHUTDOWN (R445): at 125 °C every die takes an abrupt reset, one that drains or rejoins too, and the package powers
down (DEDUCED, log entry 31). -/
def execThermalShutdown (s : State) : Host.Outcome State Fault Refusal :=
  .next (onPkg ((List.range 8).foldl (fun s d => resetDie (poisonDirty s d) d) s) (fun p => { p with down := true }))

/-! ### Energy accounts (R441 to R443) -/

/-- The account of index `a`. -/
def accountOf (s : State) (a : Nat) : Account := smGetD s.pkg.accounts a Account.reset

/-- Replaces account `a`. -/
def setAccount (s : State) (a : Nat) (x : Account) : State := onPkg s (fun p => { p with accounts := smSet p.accounts a x })

/-- The lowest die of a launch's quad set. -/
def lowestDie (x : Launch) : Nat := ((least x.quads).getD 0) / 80

/-- An account in use whose allowance is exhausted pauses its launch, and the supervisor receives an energy record: a message
of type 0xFE with flags 0x80 (R443) (DEDUCED, log entry 32). -/
def pauseSpent (s : State) (a : Nat) : State :=
  let x := accountOf s a
  if x.v && !x.paused && x.allow != 0 && decide (x.allow.toNat * 1000 ≤ x.charged.toNat) then
    let s := setAccount s a { x with paused := true }
    match s.pkg.launches.find? (fun e => e.2.account == a) with
    | some (_, l) =>
      let c := supCore (lowestDie l) 0
      let s := logRecord s c (.energy x.launch.toNat x.charged.toNat)
      enqueueMessage s c 0 c 0xFE 0x80 false none [BitVec.ofNat 1024 (x.launch.toNat + x.charged.toNat * 2 ^ 64)] none
    | none => s
  else s

/-- Charges `e` microjoules to account `a` (DEDUCED, log entry 32). -/
def charge (s : State) (a e : Nat) : State :=
  let x := accountOf s a
  if x.v then setAccount s a { x with charged := x.charged + BitVec.ofNat 64 e } else s

/-- The 32-byte sectors that launch `n` moved through island `k` in the interval of a charge (R441): the entry of key 1,024 + 1,024n + k
(DEDUCED, log entry 32). -/
def movedSectors (charges : List (Nat × Nat × Nat)) (n k : Nat) : Nat :=
  ((charges.filter (fun g => g.1 == 1024 + 1024 * n + k)).map (fun g => g.2.1)).sum

/-- A share of energy, `n` parts of `d` in µJ, with what earlier divisions left over: the whole µJ that it comes to and what is left of
the next one (R441). -/
def shareOut (rest : Nat × Nat) (n d : Nat) : Nat × (Nat × Nat) :=
  let num := rest.1 * d + n * rest.2
  let den := rest.2 * d
  let left := num % den
  (num / den, (left / Nat.gcd left den, den / Nat.gcd left den))

/-- Charges a share of a shared island's energy to account `a`: no part of a µJ is lost (R441) (DEDUCED, log entry 32). -/
def chargeShare (s : State) (a n d : Nat) : State :=
  let x := accountOf s a
  if x.v && d != 0 then
    let (e, rest) := shareOut x.rest n d
    setAccount s a { x with charged := x.charged + BitVec.ofNat 64 e, rest := rest }
  else s

/-- One island's meter (R441): a quad island's energy in µJ and its power, charged to the launch that holds the quad; the energy of a
shared island, divided among the live launches by the sectors that each moved through it (DEDUCED, log entry 32). -/
def chargeEntry (charges : List (Nat × Nat × Nat)) (s : State) (g : Nat × Nat × Nat) : State :=
  let (k, e, p) := g
  if k < 640 then
    let s := onQuad s k (fun q => { q with energy := q.energy + BitVec.ofNat 64 e, power := BitVec.ofNat 64 p })
    match s.pkg.launches.find? (fun l => l.2.quads.contains k) with
    | some (_, l) => charge s l.account e
    | none => s
  else if k < 1024 then
    let meter := smGetD s.pkg.islands k (0, 0)
    let s := onPkg s (fun x => { x with islands := smSet x.islands k (meter.1 + BitVec.ofNat 64 e, BitVec.ofNat 64 p) })
    let total := (s.pkg.launches.map (fun l => movedSectors charges l.1 k)).sum
    s.pkg.launches.foldl (fun s l => chargeShare s l.2.account (e * movedSectors charges l.1 k) total) s
  else s

/-- PWR of an account after a charge: the mean over its latest 64 intervals, in mW (R442) (DEDUCED, log entry 32). A CAP that has been
written takes effect (R443). -/
def meterAccount (before s : State) (a : Nat) : State :=
  let x := { accountOf s a with capNow := (accountOf s a).cap }
  if x.v then
    let r := ((x.charged - (accountOf before a).charged).toNat :: x.recent).take 64
    setAccount s a { x with recent := r, pwr := BitVec.ofNat 32 (min (r.sum * 1000 / 64) (2 ^ 32 - 1)) }
  else setAccount s a x

/-- ENERGY_CHARGE (R441 to R443): the meters' readings of 1 µs. -/
def execEnergyCharge (charges : List (Nat × Nat × Nat)) (s : State) : Host.Outcome State Fault Refusal :=
  let t := charges.foldl (chargeEntry charges) s
  let t := (t.pkg.accounts.map (·.1)).foldl (meterAccount s) t
  .next ((t.pkg.accounts.map (·.1)).foldl pauseSpent t)

/-- Doubleword `j` of an account (R442). -/
def accountDword (x : Account) (j : Nat) : Nat :=
  match j with
  | 0 => x.charged.toNat
  | 1 => x.allow.toNat
  | 2 => x.pwr.toNat + x.cap.toNat * 2 ^ 32
  | _ => x.v.toNat + x.paused.toNat * 2 + x.launch.toNat * 2 ^ 32

/-- A write of doubleword `j` of account `a` (R442, R443): setting V clears CHARGED and PAUSED; raising ALLOW above what is
charged clears PAUSED (DEDUCED, log entry 32). -/
def writeAccount (s : State) (a j w : Nat) : State :=
  let x := accountOf s a
  match j with
  | 1 =>
    let up := decide (x.allow.toNat < w ∧ x.charged.toNat < w * 1000)
    pauseSpent (setAccount s a { x with allow := BitVec.ofNat 64 w, paused := x.paused && !up }) a
  | 2 => setAccount s a { x with cap := BitVec.ofNat 32 (w / 2 ^ 32) }
  | 3 =>
    let on := bit w 0
    let fresh := on && !x.v
    let x := { x with v := on, launch := BitVec.ofNat 32 (w / 2 ^ 32) }
    setAccount s a (if fresh then { x with charged := 0, paused := false, recent := [], rest := (0, 1) } else x)
  | _ => s

/-- The doublewords that `n` bytes from offset `off` touch, with each byte's value merged into what is read there. -/
def splitDwords (read : Nat → Nat) (off n v : Nat) : List (Nat × Nat) :=
  (List.range ((off % 8 + n + 7) / 8)).map (fun i =>
    let j := off / 8 + i
    let lo := max off (8 * j)
    let hi := min (off + n) (8 * j + 8)
    (j, mergeBytes (read j) (lo - 8 * j) (hi - lo) (v / 2 ^ (8 * (lo - off)))))

/-- A write of `n` bytes at offset `off` of account `a`, its fourth doubleword last. -/
def accountStore (s : State) (a off n v : Nat) : State :=
  (splitDwords (accountDword (accountOf s a)) off n v).foldl (fun s e => if e.1 < 4 then writeAccount s a e.1 e.2 else s) s

/-- ENERGY_ACCOUNT_WRITE (R442, R443): a supervisor writes `n` bytes at offset `off` of an account. -/
def execEnergyAccountWrite (who acct off n : Nat) (value : BitVec 256) (s : State) : Host.Outcome State Fault Refusal :=
  .next (if isSup who && decide (acct < 256 ∧ off + n ≤ 32) then accountStore s acct off n value.toNat else s)

end Sys2Proof.Machine
end

