-- ==== Sys2Proof/Machine/Preempt.lean ====
section
/-! DEFINITION. Images of cores in the Cellar and the per-row DMA (R291 to R293), and spatial pre-emption (R294). -/

namespace Sys2Proof.Machine

/-! ### Images (R291) -/

/-- Address of the image of virtual core number `v` (R291). -/
def imageAt (cellar v : Nat) : Nat := cellar + v * 2 ^ 20

/-- LM offsets whose reset value is not zero (R136, R176). -/
def grainBytes : List Nat := [0x7F00C, 0x7F02C, 0x7F04C, 0x7F06C]

/-- The memory with LM copied between `src` and `dst`. -/
def copyLm (m : Memory) (src dst : Nat) : Memory :=
  grainBytes.foldl (fun m o => memSet m (dst + o) (memGet m (src + o))) (memCopy m src dst (2 ^ 19))

/-- The memory with the frames of a core's lanes, as they stand, written into the Attic area of its image (R135, R291). -/
def putFrames (m : Memory) (k : Core) (image : Nat) : Memory :=
  (List.range 16).foldl (fun m l => (List.range 576).foldl (fun m j =>
    memWrite m (image + atticBase + l * 0x1200 + 8 * j) 8 (frameDword k.lanes[laneIx l].frame j)) m) m

/-- Addresses of the blocks of event spill regions that a core holds (R197). -/
def spillPointers (s : State) (k : Core) : List Nat :=
  (k.ev.spill.filterMap (fun e => spillAddr s e.1.domain (e.2 / 128 * 128))).foldl insertNat []

/-- The memory with the bank control registers, the event counter and the event queue of a core in its image, with the queue's length
and the count and addresses of its spill blocks (R196, R291) (DESIGN CHOICE, log entry 43). -/
def putEvents (m : Memory) (k : Core) (pointers : List Nat) (image : Nat) : Memory :=
  let m := (List.range 4).foldl (fun m i => memWrite m (image + 0xA0000 + 8 * i) 8 (k.ev.bankCtl[bankIx i]).toNat) m
  let m := memWrite m (image + 0xA0020) 8 k.ev.evSeq
  let m := (k.ev.queue.take 1024).zipIdx.foldl (fun m e => memWrite m (image + 0xA1000 + 32 * e.2) 32 (eventEntry e.1)) m
  let m := memWrite (memWrite m (image + 0xA9000) 8 k.ev.queue.length) (image + 0xA9008) 8 pointers.length
  (pointers.take 3582).zipIdx.foldl (fun m e => memWrite m (image + 0xA9010 + 8 * e.2) 8 e.1) m

/-- A tile configuration in 8 bytes (R291) (DESIGN CHOICE, log entry 43). -/
def cfgWord (g : TileCfg) : Nat := g.fmt.code + g.rows % 256 * 2 ^ 8 + g.cols % 2 ^ 16 * 2 ^ 16

/-- The tile configuration of 8 bytes, in the ranges that TCFG keeps (R228, R291). -/
def cfgOfWord (w : Nat) : TileCfg :=
  let f := Fmt.ofCode (bits w 0 4)
  ⟨f, min (max (bits w 8 8) 1) 64, min (max (bits w 16 16) 1) (maxCols f)⟩

/-- The memory with the tile configurations of a core in its image (R291). -/
def putCfgs (m : Memory) (k : Core) (image : Nat) : Memory :=
  (List.range 8).foldl (fun m t => memWrite m (image + 0xC0000 + 8 * t) 8 (cfgWord (cfgOf k t))) m

/-- The numbers of a list written as the next `n`-byte words from an address. -/
def putWords (m : Memory) (a n : Nat) (l : List Nat) : Memory := l.zipIdx.foldl (fun m e => memWrite m (a + n * e.2) n e.1) m

/-- Where the image holds the weight set of a seat (R291) (DESIGN CHOICE, log entry 43). -/
def weightsAt (image i : Nat) : Nat := image + 0xD8000 + 0x2000 * i

/-- The memory with a weight set in an image: its format, pattern and count of scales, the scales, the weights (R224, R291). -/
def putWeights (m : Memory) (a : Nat) (w : WeightSet) : Memory :=
  let m := memWrite m a 8 (w.fmt.elim 0 (fun f => 2 ^ 31 + f.code) + w.pattern % 2 ^ 8 * 2 ^ 8 + w.scales.length * 2 ^ 32)
  putWords (putWords m (a + 0x100) 1 w.scales) (a + 0x1000) 128 w.cells

/-- The weight set that an image holds. -/
def getWeights (m : Memory) (a : Nat) : WeightSet :=
  let h := memRead m a 8
  let pat := bits h 8 8
  let rows := if bit h 31 then (if pat = 0 then 16 else 32) else 0
  ⟨if bit h 31 then some (Fmt.ofCode (bits h 0 4)) else none, pat, (List.range rows).map (fun r => memRead m (a + 0x1000 + 128 * r) 128),
    (List.range (min (bits h 32 32) 0xF00)).map (fun i => memRead m (a + 0x100 + i) 1)⟩

/-- Code of an accumulator's kind in an image (DESIGN CHOICE, log entry 43). -/
def accCode : AccKind → Nat
  | .none => 0 | .fp64 => 1 | .fp32 => 2 | .fixi => 3 | .fixl => 4

/-- The kind of a code. -/
def accOfCode : Nat → AccKind
  | 1 => .fp64 | 2 => .fp32 | 3 => .fixi | 4 => .fixl | _ => .none

/-- The memory with a core's Stove slice in its image beyond the accumulators' cells: weight sets, kinds, masks and seat queues (R291)
(DESIGN CHOICE, log entry 43). -/
def putStove (m : Memory) (k : Core) (image : Nat) : Memory :=
  let v := k.stove
  let m := v.weights.toList.zipIdx.foldl (fun m w => putWeights m (weightsAt image w.2) w.1) m
  let m := putWords m (image + 0xDC000) 1 (v.acc.toList.map accCode)
  let m := putWords m (image + 0xDC100) 8 (v.masks.toList.flatMap (fun q => [q.row.toNat, q.col.toNat, q.k.toNat]))
  let m := putWords m (image + 0xDC200) 8 (v.seats.toList.map (·.length))
  v.seats.toList.zipIdx.foldl (fun m q => (q.1.take 16).zipIdx.foldl (fun m e =>
    let p := e.1
    putWords m (image + 0xDD000 + 0x800 * q.2 + 0x80 * e.2) 8 [p.bits.toNat, p.pc.toNat, p.xa.toNat, p.xb.toNat, p.masks.row.toNat,
      p.masks.col.toNat, p.masks.k.toNat, p.lane % 16 + p.started.toNat * 2 ^ 4 + p.ended.toNat * 2 ^ 5]) m) m

/-- A message, push or event of a queue in 576 bytes of an image: a message's header and payload (R159), or an event's entry (R196)
(DESIGN CHOICE, log entry 43). -/
def putItem (m : Memory) (a : Nat) : SendItem → Memory
  | .msg x => putWords (memWrite m a 16 (headerWord x)) (a + 16) 128 (x.payload.map (·.toNat))
  | .ev e inj => memWrite (memWrite m a 32 (eventEntry e)) (a + 0x230) 8 (1 + inj.toNat * 2)

/-- A barrier in 8 bytes (R291) (DESIGN CHOICE, log entry 43). -/
def imageBar (b : Barrier) : Nat := b.phase % 16 + b.count % 2 ^ 16 * 2 ^ 16 + b.expect % 2 ^ 16 * 2 ^ 32

/-- The barrier of 8 bytes. -/
def barOfImage (w : Nat) : Barrier := ⟨bits w 0 4, bits w 16 16, bits w 32 16⟩

/-- The memory with the rest of a core in its image: counters, barriers, lane control, scoreboard, engine queue, send queue and arrival
buffer (R291) (DESIGN CHOICE, log entry 43). -/
def putControl (m : Memory) (k : Core) (bars : Vector Barrier 8) (image : Nat) : Memory :=
  let m := putWords m (image + 0xE0008) 4 [k.msg.sendSeq.toNat, k.ctl.faultSeq.toNat, k.eng.faultSeq.toNat, k.eng.seq]
  let m := putWords m (image + 0xE0018) 4 [k.msg.sendQ.length, k.msg.arrival.length]
  let m := putWords m (image + 0xE0040) 8 ((k.ctl.bars.toList ++ bars.toList).map imageBar)
  let m := putWords m (image + 0xE0100) 8 (k.lanes.toList.map lctlWord)
  let m := putWords m (image + 0xE0200) 16 ((List.range 48).map (sbWord k))
  let m := k.eng.queue.foldl (fun m e => putWords m (image + 0xE0800 + 64 * (e.1 % 32)) 8
    [2 ^ 63 + opStateCode e.2.state * 2 ^ 32 + e.2.seq % 2 ^ 15, e.2.xs.toNat, e.2.xl.toNat, e.2.xn.toNat, e.2.xb.toNat]) m
  let m := (k.msg.sendQ.take 32).zipIdx.foldl (fun m e => putItem m (image + 0xE1000 + 0x240 * e.2) e.1) m
  (k.msg.arrival.take 64).zipIdx.foldl (fun m e => putItem m (image + 0xE6000 + 0x240 * e.2) (.msg e.1)) m

/-- The core's areas copied to its image, which is zero where the layout leaves nothing (R291). The handle names what the image
holds beyond those bytes (DESIGN CHOICE, log entry 43). -/
def putImage (m : Memory) (k : Core) (bars : Vector Barrier 8) (c image handle : Nat) (pointers : List Nat) : Memory :=
  let m := memClear m image 0xF0000
  let m := putFrames (copyLm m (lmKey c 0) image) k image
  let m := putCfgs (putEvents (memCopy m (bankKey c 0) (image + 0x80000) (2 ^ 17)) k pointers image) k image
  let m := memCopy (memCopy m (tileKey c 0 0) (image + 0xB0000) (2 ^ 16)) (accKey c 0 0) (image + 0xD0000) (2 ^ 15)
  memWrite (putControl (putStove m k image) k bars image) (image + 0xE0000) 8 handle

/-- The reserved bits of the registers in core `c`'s core-state block and of its neurons read as zero, whatever an image holds there
(R11, R193). -/
def clearReserved (m : Memory) (c : Nat) : Memory :=
  let m := ((List.range 128).map (8 * · + 0x7F000) ++ (List.range 64).map (8 * · + 0x7F800)).foldl (fun m o =>
    memWrite m (lmKey c o) 8 (memRead m (lmKey c o) 8 &&& lmHeld o)) m
  (m.filter (fun e => bankKey c 0 ≤ e.1 ∧ e.1 < bankKey c 0 + 2 ^ 17 ∧ (e.1 - bankKey c 0) % 16 = 11)).foldl
    (fun m e => memSet m e.1 (e.2 &&& 1)) m

/-- The core's areas copied from its image (R291): the frames are the lanes' own. -/
def getImage (m : Memory) (c image : Nat) : Memory :=
  let m := memCopy (copyLm m image (lmKey c 0)) (image + 0x80000) (bankKey c 0) (2 ^ 17)
  let m := clearReserved (memClear m (lmKey c atticBase) (16 * 0x1200)) c
  memCopy (memCopy m (image + 0xB0000) (tileKey c 0 0) (2 ^ 16)) (image + 0xD0000) (accKey c 0 0) (2 ^ 15)

/-- The core's areas returned to their reset contents. -/
def clearCore (m : Memory) (c : Nat) : Memory :=
  memClear (memClear (memClear (memClear m (lmKey c 0) (2 ^ 19)) (bankKey c 0) (2 ^ 17)) (tileKey c 0 0) (2 ^ 16)) (accKey c 0 0) (2 ^ 15)

/-- The lane state that a 64-byte block stands for (R11, R23, R75): reserved bits and bit 0 of PC and XDEAD read as zero, bit 0 of XFULL as
one, LOOPLEN never holds more than 32, and SRSTATE is never 0. -/
def heldState (w : Nat) : Nat :=
  let w := [(432, 16), (336, 16), (216, 8), (204, 6), (128, 1), (60, 4), (0, 1)].foldl (fun w r => putBits w r.1 r.2 0) w
  let w := putBits (if 32 < bits w 210 6 then putBits w 210 6 0 else w) 64 1 1
  putBits w 352 32 (srWrite (BitVec.ofNat 32 (bits w 352 32))).toNat

/-- A frame of an image; x0 and p0 have no slot (R22). -/
def getFrame (m : Memory) (at' : Nat) : Frame :=
  { regs := ⟨Vector.ofFn (fun (i : Fin 32) => if i = 0 then 0 else BitVec.ofNat 64 (memRead m (at' + 8 * i.val) 8)),
             Vector.ofFn (fun (i : Fin 32) => BitVec.ofNat 1024 (memRead m (at' + 256 + 128 * i.val) 128)),
             Vector.ofFn (fun (i : Fin 8) => if i = 0 then BitVec.allOnes 32 else BitVec.ofNat 32 (memRead m (at' + 4352 + 4 * i.val) 4))⟩,
    st := BitVec.ofNat 512 (heldState (memRead m (at' + 4384) 64)), moved := false }

/-- A wait that another core can go on with: its arrival or its request is counted already (R179, R368). -/
def waitCarried : Wait → Bool
  | .barrier _ _ _ _ _ => true
  | .barrierForced _ _ _ _ => true
  | .stealAnswer _ _ => true
  | _ => false

/-- A lane as an image gives it back: registers and writable state from its frame; a Blocked lane looks at its condition again (R14,
R23, R24) (DEDUCED, log entry 33). -/
def restoredLane (l : Lane) (f : Frame) : Lane :=
  let f := { f with st := BitVec.ofNat 512 (putBits f.st.toNat 55 1 l.firing.spec.toNat) }
  let l := { l with frame := f, loop := { l.loop with buf := [] }, firstTry := none }
  if l.status == .frozen then l
  else
    let l := loadFrame l
    if l.status == .blocked && l.frz.pending.isNone && !l.wait.any waitCarried then { l with status := .ready, wait := none } else l

/-- The core that an image gives: what R291 lays out from its bytes, the rest from what its handle names. It is core `c` now, with that
core's clock (DESIGN CHOICE, log entry 43). -/
def imageCore (m : Memory) (image : Nat) (x : Saved) (c : Nat) (here : Core) : Core :=
  let k := x.core
  let base := fun (a : Nat) => if lmKey x.home 0 ≤ a ∧ a < lmKey x.home 0 + 2 ^ 19 then a - lmKey x.home 0 + lmKey c 0 else a
  let n := min (memRead m (image + 0xA9000) 8) 1024
  { k with
    lanes := Vector.ofFn (fun (i : Fin 16) => restoredLane k.lanes[i] (getFrame m (image + atticBase + i.val * 0x1200)))
    ctl := { k.ctl with
      faultSeq := BitVec.ofNat 32 (memRead m (image + 0xE000C) 4)
      bars := Vector.ofFn (fun (i : Fin 8) => barOfImage (memRead m (image + 0xE0040 + 8 * i.val) 8))
      cycles := here.ctl.cycles, freq := here.ctl.freq, tlb := [], l1i := [], records := [] }
    ev := { k.ev with
      bankCtl := Vector.ofFn (fun (i : Fin 4) => BitVec.ofNat 64 (putBits (memRead m (image + 0xA0000 + 8 * i.val) 8) 20 28 0))
      evSeq := memRead m (image + 0xA0020) 2
      queue := (List.range n).map (fun i => { eventOf (memRead m (image + 0xA1000 + 32 * i) 32) with core := c })
      spill := k.ev.spill.map (fun e => ({ e.1 with core := c }, e.2)) }
    eng := { k.eng with faultSeq := BitVec.ofNat 32 (memRead m (image + 0xE0010) 4), queue := k.eng.queue.map (fun e => (e.1, { e.2 with bar := e.2.bar.map base })) }
    msg := { k.msg with sendSeq := BitVec.ofNat 32 (memRead m (image + 0xE0008) 4), spawnQ := k.msg.spawnQ.map (fun q => { q with core := c }) }
    stove := { k.stove with
      cfg := Vector.ofFn (fun (i : Fin 8) => cfgOfWord (memRead m (image + 0xC0000 + 8 * i.val) 8))
      weights := Vector.ofFn (fun (i : Fin 2) => getWeights m (weightsAt image i.val))
      acc := Vector.ofFn (fun (i : Fin 4) => accOfCode (memRead m (image + 0xDC000 + i.val) 1))
      masks := Vector.ofFn (fun (i : Fin 2) =>
        let w := fun (j : Nat) => BitVec.ofNat 64 (memRead m (image + 0xDC100 + 24 * i.val + 8 * j) 8)
        ⟨w 0, w 1, w 2⟩) } }

/-- What stands for the core of a running task while its image is in the Cellar. -/
def savedCore (handle : Nat) : Nat := 4096 + handle

/-- SRSTATE of a lane, which a Frozen lane's frame holds (R75, R217). -/
def srOf (l : Lane) : BitVec 32 := srWrite (if l.status == .frozen then BitVec.ofNat 32 (bits l.frame.st.toNat 352 32) else l.sr)

/-- What a core keeps when its contents leave it: its clock, its dispatch hold, its instruction cache, and each lane's generator, which
stays between firings (R17, R75). -/
def emptied (k : Core) : Core :=
  { Core.reset with lanes := k.lanes.map (fun l => { Lane.reset with sr := srOf l }), ctl := { Core.reset.ctl with hold := k.ctl.hold, cycles := k.ctl.cycles, freq := k.ctl.freq, l1i := k.ctl.l1i } }

/-- The handle of the next image (DESIGN CHOICE, log entry 43). -/
def nextHandle (s : State) : Nat := (greatest (s.pkg.cellar.map (·.1))).getD 0 + 1

/-- `n` bytes of HBM from `a` have been written: no die or host holds a copy, no line is poisoned, and the blocks are raw. -/
def overwritten (s : State) (a n : Nat) : State :=
  let inside := fun (p : Nat) => decide (a ≤ p ∧ p < a + n)
  let s := rawBlocks { s with poison := s.poison.filter (fun p => !inside p) } a n
  ((s.pkg.directory.map (·.1)).filter inside).foldl (fun s line =>
    setDirectory (recallOthers s none line) line { directoryOf s line with dies := [], host := false, owner := none }) s

/-- Core `c` is saved as virtual core number `v` (R14, R291): its lanes become Free and its queues empty; poisoned words
leave poisoned lines in the image (DEDUCED, log entry 33). -/
def saveCore (s : State) (bars : Vector Barrier 8) (cellar v c : Nat) : State :=
  let image := imageAt cellar v
  let h := nextHandle s
  let k := coreOf s c
  let mine := fun p => decide (lmKey c 0 ≤ p ∧ p < lmKey c 0 + 2 ^ 19)
  let pointers := spillPointers s k
  let s := overwritten (onMem s (fun m => clearCore (putImage m k bars c image h pointers) c)) image 0xF0000
  let lines := (s.poison.filter mine).map (fun p => lineOf (p - lmKey c 0 + image))
  let s := lines.foldl poisonAt { s with poison := s.poison.filter (fun p => !mine p) }
  let s := onPkg s (fun p => { p with cellar := smSet p.cellar h ⟨k, c, true⟩ })
  let s := onHearth s (fun g => { g with tasks := g.tasks.map (fun e =>
    if e.2.core == c && e.2.state == .running then (e.1, { e.2 with core := savedCore h }) else e) })
  onCore s c emptied

/-- The handle that an image holds. -/
def handleAt (s : State) (image : Nat) : Nat := memRead s.mem (image + 0xE0000) 8

/-- Core `c` takes the image of virtual core number `v` (R291, R293) (DEDUCED, log entry 33). -/
def restoreCore (s : State) (cellar v c : Nat) : State :=
  let image := imageAt cellar v
  let h := handleAt s image
  let x := smGetD s.pkg.cellar h ⟨Core.reset, c, false⟩
  let k := imageCore s.mem image x c (coreOf s c)
  let s := onMem s (fun m => getImage (clearCore m c) c image)
  let s := onPkg (setCore s c k) (fun p => { p with
    cellar := if (smGet p.cellar h).isSome then smSet p.cellar h { x with live := false } else p.cellar })
  onHearth s (fun g => { g with tasks := g.tasks.map (fun e =>
    if e.2.core == savedCore h then (e.1, { e.2 with core := c, quad := quadNo c }) else e) })

/-- `n` copies of an event are due. -/
def dueTimes (s : State) (d : Due) (n : Nat) : State := (List.range n).foldl (fun s _ => dueEvent s d) s

/-- What a restored lane waits for is due again: its results, its stores, its freeze (R14, R24). -/
def repostLane (s : State) (c l : Nat) : State :=
  let x := laneOf s c l
  let s := dueTimes (dueTimes s (.resultArrival c l 0) x.results.length) (.storePerformed c l) (x.scnt + x.oldStores)
  if x.frz.frzreq || x.frz.pending.isSome then dueEvent s (.faultFreeze c l) else s

/-- What waits in a restored core's queues is due again. -/
def repost (s : State) (c : Nat) : State :=
  let k := coreOf s c
  let s := (List.range 16).foldl (fun s l => repostLane s c l) s
  let s := k.msg.sendQ.foldl (fun s i => reoffer s c (itemDest i)) s
  let s := dueTimes (dueTimes s (.taskAccept c) k.msg.spawnQ.length) (.txBarrierUpdate c) k.eng.tx.length
  let s := k.msg.steals.foldl (fun s q => dueEvent s (if q.answer.isSome then .stealAnswer c q.lane else .stealRequest c q.lane)) s
  let s := match k.ev.delivering with
    | some d => deliveryNext s c d
    | none => s
  let s := (List.range 2).foldl (fun s i => dueEvent s (.gangForm (quadNo c) i)) (kick s c)
  evalActors (evKick s c) c

/-! ### The DMA engine (R292, R293) -/

/-- Command block of a row. -/
def dmaOf (s : State) (d r : Nat) : DmaBlock := smGetD (dieOf s d).dma r DmaBlock.reset

/-- Replaces the command block of a row. -/
def setDma (s : State) (d r : Nat) (b : DmaBlock) : State := onDie s d (fun x => { x with dma := smSet x.dma r b })

/-- GO (R292): the row's engine starts on its operation unless it is busy. With an OP other than 1 and 2, which the spec does not
describe, nothing starts and STAT stays (DESIGN CHOICE, log entry 54). -/
def dmaGo (s : State) (d r : Nat) : State :=
  let b := dmaOf s d r
  if b.stat ≠ 1 ∧ (b.op = 1 ∨ b.op = 2) then dueEvent (setDma s d r { b with stat := 1 }) (.dmaDone d r true) else s

/-- A write of OP and GO by a supervisor of the die (DEDUCED, log entry 33). -/
def dmaStart (who row op : Nat) (s : State) : State :=
  let d := dieNo who
  if isSup who && decide (row < 10) && decide ((dmaOf s d row).stat ≠ 1) then dmaGo (setDma s d row { dmaOf s d row with op := op }) d row
  else s

/-- DMA_SAVE (R292). -/
def execDmaSave (who row : Nat) (s : State) : Host.Outcome State Fault Refusal := .next (dmaStart who row 1 s)

/-- DMA_RESTORE (R292). -/
def execDmaRestore (who row : Nat) (s : State) : Host.Outcome State Fault Refusal := .next (dmaStart who row 2 s)

/-- The launch whose quad set holds a quad. -/
def holderOf (s : State) (q : Nat) : Option Nat := (s.pkg.launches.find? (fun e => e.2.quads.contains q)).map (·.1)

/-- The quad is saved under the four virtual core numbers; launch `n`, which held it, no longer does and finds it by the handle of core
0's image (R293, R294) (DEDUCED, log entry 33). -/
def saveQuad (s : State) (cellar : Nat) (vc : List Nat) (q : Nat) (n : Option Nat) : State :=
  let h := nextHandle s
  let s := onPkg s (fun p => { p with
    cellarBars := smSet p.cellarBars h (quadOf s q).bars,
    launches := p.launches.map (fun e =>
      if n = some e.1 then (e.1, { e.2 with quads := e.2.quads.filter (· ≠ q), parked := e.2.parked ++ [h] }) else e) })
  let s := vc.zipIdx.foldl (fun s e => saveCore s (quadOf s q).bars cellar e.1 (quadCore q e.2)) s
  onQuad s q (fun x => { x with bars := Quad.reset.bars, forming := [] })

/-- A launch's virtual-core map on the die of a core (R253). -/
def vmapAt (s : State) (x : Launch) (c : Nat) : SMap (BitVec 16) := smGetD (dieOf s (dieNo c)).vmaps (smGetD x.vmap (dieNo c) 0) []

/-- The virtual core numbers that name some of these cores in a launch's map on their dies. -/
def numbersOf (s : State) (x : Launch) (cores : List Nat) : List Nat :=
  cores.flatMap (fun c => ((vmapAt s x c).filter (fun e => e.2.getLsbD 15 && e.2.toNat % 4096 == c)).map (·.1))

/-- The virtual core number of a core itself in a launch's map (R253): not one of a parked quad that the core answers to meanwhile (R294). A
core without a number takes one that no map entry and no parked image has (DESIGN CHOICE, log entry 33). -/
def virtOf (s : State) (x : Launch) (c : Nat) : Nat :=
  match (numbersOf s x [c]).find? (fun v => !x.moved.contains v) with
  | some v => v
  | none =>
    let taken := ((vmapAt s x c).filter (fun e => e.2.getLsbD 15)).map (·.1)
    (((List.range 4096).filter (fun v => !taken.contains v))[c % 4 + 4 * x.parked.length]?).getD (c % 4)

/-- The numbers of a parked quad name the cores that it is restored on again, in the launch's map on every die (R294). -/
def mapBack (s : State) (x : Launch) (pairs : List (Nat × Nat)) : State :=
  x.vmap.foldl (fun s e => onDie s e.1 (fun d =>
    let m := pairs.foldl (fun m p => smSet m p.1 (BitVec.ofNat 16 (2 ^ 15 + p.2))) (smGetD d.vmaps e.2 [])
    { d with vmaps := smSet d.vmaps e.2 m })) s

/-- A message or push that was sent to a virtual core number and is not accepted yet follows the map (R294). -/
def followItem (s : State) (src : Nat) : SendItem → SendItem
  | .msg m =>
    match m.virt.bind (fun v => (smGet s.pkg.launches v.1).bind (fun x => virtCore s (dieNo src) x v.2)) with
    | some d => .msg { m with dest := d }
    | none => .msg m
  | i => i

/-- The send queues follow the virtual-core maps (R294). -/
def follow (s : State) : State :=
  s.cores.foldl (fun s e =>
    let q := e.2.msg.sendQ.map (followItem s e.1)
    if q = e.2.msg.sendQ then s
    else q.foldl (fun s i => reoffer s e.1 (itemDest i)) (onCore s e.1 (fun k => { k with msg := { k.msg with sendQ := q } }))) s

/-- The quad takes the images of the four virtual core numbers, and the launch whose quad they hold has it again, with the virtual
core numbers that survivors took over when it was parked (R293, R294) (DEDUCED, log entry 33). -/
def restoreQuad (s : State) (cellar : Nat) (vc : List Nat) (q : Nat) : State :=
  let h := handleAt s (imageAt cellar (vc.headD 0))
  let bars := smGetD s.pkg.cellarBars h Quad.reset.bars
  let s := vc.zipIdx.foldl (fun s e => restoreCore s cellar e.1 (quadCore q e.2)) s
  let s := onQuad s q (fun x => { x with bars := bars })
  let owner := s.pkg.launches.find? (fun e => e.2.parked.contains h)
  let s := onPkg s (fun p => { p with launches := p.launches.map (fun e =>
      if e.2.parked.contains h then (e.1, { e.2 with quads := insertNat e.2.quads q, parked := e.2.parked.filter (· ≠ h), moved := e.2.moved.filter (fun v => !vc.contains v) }) else e) })
  let s := match owner with
    | some (_, x) => follow (mapBack s x ((vc.zipIdx.filter (fun e => x.moved.contains e.1)).map (fun e => (e.1, quadCore q e.2))))
    | none => s
  (List.range 4).foldl (fun s j => repost s (quadCore q j)) s

/-- Every formed gang of a quad has completed, and every operation of its cores that runs (R252, R293). -/
def quadQuiet (s : State) (q : Nat) : Bool :=
  (quadOf s q).formed.isEmpty && ((List.range 4).map (fun j => coreOf s (quadCore q j))).all (fun k =>
    k.eng.queue.all (fun e => e.2.state != .running)
      && k.stove.seats.toList.all (fun l => l.all (fun p => !p.started || isGang p.kind)))

/-- Some line of a Cellar image is poisoned (DEDUCED, log entry 33). -/
def imagePoisoned (s : State) (cellar v : Nat) : Bool :=
  s.poison.any (fun p => decide (imageAt cellar v ≤ p ∧ p < imageAt cellar v + 2 ^ 20))

/-- The way of a row's DMA engine to the Cellar, whose lines lie in every stack (R358, R367, R438) (DEDUCED, log entry 33). -/
def dmaWay (s : State) (d : Nat) : Path := flueOpen s d (functionsOpen s ((List.range 16).map (2304 + ·)))

/-- DMA_DONE (R252, R292): the quad is saved or restored and STAT reads done, or error. A save waits for what runs on the quad, and both
wait for their way to HBM; without one the access has failed (R358) (DEDUCED, log entry 33). -/
def execDmaDone (die row : Nat) (ok : Bool) (s : State) : Host.Outcome State Fault Refusal :=
  let b := dmaOf s die row
  let vc := b.vc.toList
  let q := die * 80 + row * 8 + b.col
  .next (if b.stat ≠ 1 then s
    else if ok && b.op == 1 && !quadQuiet s q then dueEvent s (.dmaDone die row ok)
    else match ok, dmaWay s die with
      | true, .opened =>
        if b.op == 2 && vc.any (imagePoisoned s b.cellBase.toNat) then setDma s die row { b with stat := 3 }
        else
          let s := setDma s die row { b with stat := 2 }
          if b.op = 1 then saveQuad s b.cellBase.toNat vc q (holderOf s q) else restoreQuad s b.cellBase.toNat vc q
      | true, .waking f => dueEvent (wakeFlue s f) (.dmaDone die row ok)
      | true, .notReady _ => dueEvent s (.dmaDone die row ok)
      | _, _ => setDma s die row { b with stat := 3 })

/-! ### Spatial pre-emption (R294) -/

/-- Uncommitted tasks on a list of quads that an abort may reach are aborted and requeued (R294, R327, R343). -/
def abortOn (s : State) (qs : List Nat) : State := abortAll s ((s.hearth.tasks.filter (fun e => qs.contains e.2.quad)).map (·.1))

/-- SPATIAL_PREEMPT (R294): the firmware names quads of an elastic launch to vacate, and some survive; dispatch stops,
steals are refused, and uncommitted tasks are aborted and requeued. -/
def execSpatialPreempt (launch : Nat) (quads : List Nat) (s : State) : Host.Outcome State Fault Refusal :=
  .next (match smGet s.pkg.launches launch with
    | none => s
    | some x =>
      if x.elastic && x.vacate.isEmpty && !quads.isEmpty && quads.all x.quads.contains && x.quads.any (fun q => !quads.contains q) then
        let s := quads.foldl (fun s q => onQuad s q (fun y => { y with vacating := true })) s
        let s := onPkg s (fun p => { p with launches := smSet p.launches launch { x with vacate := quads } })
        abortOn s quads
      else s)

/-- A quad that is parked instead of released (R294): a firing still runs, an actor is enabled, a bank has EN = 1, a
stream buffer holds elements, or its seat queues hold gang operations. -/
def parks (s : State) (q : Nat) : Bool :=
  ((List.range 4).map (quadCore q)).any (fun c =>
    let k := coreOf s c
    k.lanes.toList.any (fun l => l.status != .free && l.status != .draining) || (List.range 16).any (fun n => bit (actorReg s c n) 52)
      || (List.range 4).any (fun b => bit (bankCtl s c b) 19) || (List.range 16).any (fun b => streamCount (streamGet s c b) != 0)
      || k.stove.seats.toList.any (fun l => l.any (fun p => isGang p.kind)))

/-- The valid ranges of a core of a vacated quad move to register `k` of the survivor of lowest ID that is free, or to
the die agent (R294). -/
def moveRanges (survivors : List Nat) (s : State) (c : Nat) : State :=
  (List.range 4).foldl (fun s k =>
    let r := rangeGet s c k
    if r.valid && r.next.ult r.stop then
      let s := rangeSet s c k { r with valid := false }
      match survivors.find? (fun t => !(rangeGet s t k).valid) with
      | some t =>
        let o := rangeGet s t k
        rangeSet s t k { o with next := r.next, stop := r.stop, grain := r.grain, domain := r.domain, valid := true }
      | none => onDie s (dieNo c) (fun x => { x with heldRanges := x.heldRanges ++ [(r.domain, r.next, r.stop, r.grain)] })
    else s) s

/-- The virtual core numbers that name cores of vacated quads are mapped to the survivors, round robin in ascending core
ID (R294), in one die's map. -/
def remapped (gone survivors : List Nat) (m : SMap (BitVec 16)) : SMap (BitVec 16) :=
  (m.foldl (fun (r : SMap (BitVec 16) × Nat) e =>
    if e.2.getLsbD 15 && gone.contains (e.2.toNat % 4096) then
      (r.1 ++ [(e.1, BitVec.ofNat 16 (2 ^ 15 + (survivors[r.2 % survivors.length]?).getD 0))], r.2 + 1)
    else (r.1 ++ [e], r.2)) ([], 0)).1

/-- Queued tasks of a vacated quad, spilled ones too, are placed again over the surviving quads of their domain, or over the survivors
`stay` where the domain has none of them (R36, R294, R320) (DEDUCED, log entry 33). -/
def replaceTasks (stay : List Nat) (s : State) (q : Nat) : State :=
  s.hearth.tasks.foldl (fun s e =>
    if e.2.quad == q && e.2.state == .queued then
      match domainOf s e.2.domain with
      | some (_, d) =>
        let hint := recField e.2.record 16 0 64
        match (placeQuad s d (some (q / 80)) hint).or (placeAmong s stay (some (q / 80)) hint) with
        | some t =>
          let n := placeCore s t
          spillDue (settleQueue (onTask s e.1 (fun u => { u with quad := t, core := n })) t e.2.domain) t
        | none => s
      | none => s
    else s) s

/-- A quad that is parked: its frames are flushed and it is saved (R293, R294). -/
def parkQuad (s : State) (n cellar : Nat) (vc : List Nat) (q : Nat) : State :=
  saveQuad ((List.range 4).foldl (fun s j => onCore s (quadCore q j) flushCore) s) cellar vc q (some n)

/-- PREEMPT_DEADLINE (R294): tasks and ranges migrate, the map is updated, and each vacated quad is released or parked. While a
finished task of a vacated quad has yet to commit, an operation runs on a quad to park, or a quad to park has no way to HBM, nothing
happens (R293, R343, R358) (DEDUCED, log entry 33). -/
def execPreemptDeadline (launch : Nat) (s : State) : Host.Outcome State Fault Refusal :=
  .next (match smGet s.pkg.launches launch with
    | none => s
    | some x =>
      let s := abortOn s x.vacate
      let parked := x.vacate.filter (parks s)
      if x.vacate.isEmpty || s.hearth.tasks.any (fun e => x.vacate.contains e.2.quad && e.2.ordered && e.2.state == .finished)
        || !parked.all (quadQuiet s) then s
      else if !parked.all (fun q => dmaWay s (q / 80) == .opened) then parked.foldl (fun s q => wakePath s (dmaWay s (q / 80))) s
      else
        let stay := x.quads.filter (fun q => !x.vacate.contains q)
        let survivors := stay.flatMap (fun q => (List.range 4).map (quadCore q))
        let gone := x.vacate.flatMap (fun q => (List.range 4).map (quadCore q))
        let vcs := x.vacate.map (fun q => (q, (List.range 4).map (fun j => virtOf s x (quadCore q j))))
        let moved := (numbersOf s x gone).foldl insertNat x.moved
        let s := onPkg s (fun p => { p with launches := smSet p.launches launch { x with quads := stay, vacate := [], moved := moved } })
        let s := x.vacate.foldl (replaceTasks stay) s
        let s := gone.foldl (moveRanges survivors) s
        let s := x.vmap.foldl (fun s e => onDie s e.1 (fun d =>
          let m := remapped gone survivors (smGetD d.vmaps e.2 [])
          { d with vmaps := smSet d.vmaps e.2 m })) s
        let s := (vcs.filter (fun e => parked.contains e.1)).foldl (fun s e => parkQuad s launch x.cellar.toNat e.2 e.1) s
        follow (x.vacate.foldl (fun s q => onQuad s q (fun z => { z with vacating := false })) s))

end Sys2Proof.Machine
end

