-- ==== Sys2Proof/Machine/Host.lean ====
section
/-! DEFINITION. The host: its accesses of HBM and host memory (R396, R409, R410), spawn windows (R411, R415), launch commands,
launches and their ends (R34, R297, R412 to R414), status reads and attestation (R412, R449). -/

namespace Sys2Proof.Machine

/-! ### Memory (R396, R409, R410) -/

/-- A host access of an address: it performs, or it is held while a speculative task holds the line against it, while a die's active
request must perform first, or while its way is not open, and is then due again (R257, R333, R367, R438); with no way to the line it
comes to the state `lost` (DESIGN CHOICE, log entry 29). -/
def hostAccess (s : State) (pa : Nat) (write : Bool) (again : Due) (done lost : State) : State :=
  match hostWay s pa write with
  | .opened =>
    if hostOpen s pa write then done
    else dueEvent ((recallWaits s none (lineOf pa) write).foldl (fun s d => askBack s d (lineOf pa) write) s) again
  | .waking f => dueEvent (wakeFlue s f) again
  | .notReady _ => dueEvent s again
  | _ => lost

/-- HOST_MEM_WRITE (R396, R409): a CXL.mem write, or a write of the host's own memory; with no way to the line it is lost (DESIGN CHOICE,
log entry 29). -/
def execHostMemWrite (pa n : Nat) (value : BitVec 512) (s : State) : Host.Outcome State Fault Refusal :=
  .next (if hostReach pa n then hostAccess s pa true (.hostMemWrite pa n value) (hostWrite s pa n value) s else s)

/-- HOST_MEM_READ (R396, R410): a copy that a die wrote is written back, and the host holds the line; with no way to the line it is
answered with an open value (DESIGN CHOICE, log entry 29). -/
def execHostMemRead (pa n : Nat) (s : State) : Host.Outcome State Fault Refusal :=
  .next (if hostReach pa n then hostAccess s pa false (.hostMemRead pa n) (hostRead s pa n) (answeredOpen s n) else s)

/-- BACK_INVALIDATE (R410): the host gives up its copy of a line. -/
def execBackInvalidate (line : Nat) (s : State) : Host.Outcome State Fault Refusal :=
  .next (if (directoryOf s (lineOf line)).host then hostHolds s (lineOf line) false else s)

/-! ### Spawn windows (R415) -/

/-- A spawn-window write that is discarded (R415). -/
def spawnBad (s : State) : State :=
  onPkg s (fun p => { p with host := { p.host with
    spwstat := if bits p.host.spwstat.toNat 0 32 = 2 ^ 32 - 1 then p.host.spwstat else p.host.spwstat + 1 } })

/-- SPAWN_WINDOW_STORE (R411, R415): a store of `n` bytes at an offset of BAR 2 (DEDUCED, log entry 29). -/
def execSpawnWindowStore (off n : Nat) (value : BitVec 512) (s : State) : Host.Outcome State Fault Refusal :=
  let id := off / 64
  let r := value.toNat
  .next (if n ≠ 64 ∨ off % 64 ≠ 0 ∨ 2 ^ 22 ≤ off ∨ id = 0 ∨ id = 0xFFFF then spawnBad s
    else if recField r 56 0 16 ≠ id || !recordOk r || (domainOf s id).isNone then rejectHost s r
    else
      let q : Spawn := ⟨putBits r 480 32 0, 0xFFF, 0, none, none, 0, 0, none, true⟩
      dueEvent (onPkg s (fun p => { p with host := { p.host with spawnQ := p.host.spawnQ ++ [q] } })) (.taskAccept 0xFFF))

/-! ### Launch commands (R412, R413) -/

/-- A command that is discarded is counted in LDROP; what it reads beyond 65,535 is open (DESIGN CHOICE, log entry 4). -/
def dropCommand (s : State) : State :=
  let h := s.pkg.host
  if h.ldrop = BitVec.allOnes 16 then
    onPkg (draw s) (fun p => { p with host := { p.host with ldrop := (Config.freeV s.sched.freeCtr).setWidth 16 } })
  else onPkg s (fun p => { p with host := { p.host with ldrop := h.ldrop + 1 } })

/-- LAUNCH_COMMAND (R412, R413): a store of `n` bytes at an offset of the launch window; one past its 64 bytes writes nothing. -/
def execLaunchCommand (off n : Nat) (value : BitVec 512) (s : State) : Host.Outcome State Fault Refusal :=
  let req := value.toNat % 2 ^ 64
  let good := decide (off = 0 ∧ n = 64 ∧ value.toNat / 2 ^ 96 = 0 ∧ req % 512 = 0 ∧ req + 512 ≤ 2 ^ 40) && !s.pkg.host.busy
  .next (if good then
    onPkg s (fun p => { p with host := { p.host with
      busy := true, command := some (BitVec.ofNat 64 req, BitVec.ofNat 32 (value.toNat / 2 ^ 64)) } })
  else if 64 ≤ off then s else dropCommand s)

/-! ### Taking a command (R34, R414) -/

/-- Bits `[lo+n-1:lo]` at byte offset `o` of a launch request (R413). -/
def reqField (r o lo n : Nat) : Nat := bits r (8 * o + lo) n

/-- The quads that a quad map at an address names (R340). -/
def mapQuads (s : State) (a : Nat) : List Nat := (List.range 640).filter (bit (memRead s.mem a 128))

/-- The dies of a list of quads. -/
def quadDies (qs : List Nat) : List Nat := (List.range 8).filter (fun d => qs.any (fun q => q / 80 == d))

/-- The cores of a list of quads, in ascending core ID. -/
def quadCores (qs : List Nat) : List Nat := qs.flatMap (fun q => (List.range 4).map (quadCore q))

/-- Entry `v` of the virtual-core map of a request (R413). -/
def vcEntry (s : State) (vcmap : Nat) (cores : List Nat) (v : Nat) : Nat :=
  if vcmap = 0 then match cores[v]? with
    | some c => 2 ^ 15 + c
    | none => 0
  else memRead s.mem (vcmap + 2 * v) 2

/-- The whole map of a request, without its zero entries; bits 14:12 of an entry are reserved (R11, R253). -/
def requestMap (s : State) (vcmap : Nat) (cores : List Nat) : SMap (BitVec 16) :=
  ((List.range 4096).map (fun v => (v, BitVec.ofNat 16 (putBits (vcEntry s vcmap cores v) 12 3 0)))).filter (fun e => e.2 != 0)

/-- Reason 1 of R414: a nonzero field that is marked zero, a bad quad map or virtual-core map; and a paired launch whose quads lie on
one die, which can have no two copies (DESIGN CHOICE, log entry 22). -/
def requestBad (s : State) (r : Nat) : Bool :=
  let q := reqField r 8 0 64
  let v := reqField r 48 0 64
  let qs := mapQuads s q
  reqField r 16 20 44 != 0 || reqField r 56 17 15 != 0 || reqField r 60 14 18 != 0 || reqField r 72 14 50 != 0
    || reqField r 88 16 304 != 0 || reqField r 128 (8 * 56) 16 != 0
    || q % 128 != 0 || decide (2 ^ 40 < q + 128) || memRead s.mem q 128 % 2 ^ 640 == 0 || memRead s.mem q 128 / 2 ^ 640 != 0
    || v % 64 != 0 || decide (2 ^ 40 < v + 8192)
    || (v != 0 && (requestMap s v (quadCores qs)).any (fun e => e.2.getLsbD 15
          && !(quadCores qs).contains (e.2.toNat % 4096)))
    || (reqField r 16 1 1 == 1 && decide ((quadDies qs).length < 2))

/-- A quad is free (R414, R438). -/
def quadFree (s : State) (q : Nat) : Bool :=
  bit s.pkg.ready q && !(s.pkg.launches.any (fun e => e.2.quads.contains q || e.2.vacate.contains q)) && !(quadOf s q).vacating

/-- Contexts of a die in use (R262). -/
def ctxUsed (s : State) (d c : Nat) : Bool := (ctxRoot s d c).isSome

/-- A virtual-core map of a die is held by a launch (R253). -/
def vmapUsed (s : State) (d m : Nat) : Bool := s.pkg.launches.any (fun e => smGet e.2.vmap d == some m)

/-- An owner map of a die is held by a launch (R163). -/
def omapUsed (s : State) (d m : Nat) : Bool := s.pkg.launches.any (fun e => smGet e.2.omap d == some m)

/-- The package barrier IDs a request asks for. -/
def requestBars (r : Nat) : List Nat := (List.range 64).filter (bit (reqField r 80 0 64))

/-- Descriptor slots that hold no live domain. -/
def freeSlots (s : State) : Nat := 4096 - (s.hearth.domains.filter (fun e => e.2.live)).length

/-- The reason to refuse a request, the first in table order (R414) (DEDUCED, log entry 22). -/
def refusal (s : State) (r : Nat) (p : LaunchPlan) : Option Nat :=
  let qs := mapQuads s (reqField r 8 0 64)
  let dies := quadDies qs
  let copies := if reqField r 16 1 1 = 1 then 2 else 1
  let has := fun (used : Nat → Bool) (total need : Nat) => decide (need ≤ ((List.range total).filter (fun i => !used i)).length)
  if requestBad s r then some 1
  else if qs.any (fun q => !quadFree s q) then some 2
  else if !recordOk (reqField r 128 0 512) then some 3
  else if (requestBars r).any (fun i => (netBarrier s .pkg 0 i).v || reqField r (384 + 2 * i) 0 16 == 0) then some 4
  else if dies.any (fun d => !has (ctxUsed s d) 256 copies) then some 5
  else if dies.any (fun d => !has (vmapUsed s d) 8 1) then some 6
  else if !has (fun a => (accountOf s a).v) 256 1 then some 7
  else if freeSlots s < copies then some 8
  else if p.noRoom then some 9
  else none

/-- The pages below a table, each with its address, the bits of its size and its entry (R261, R263). -/
def tableLeaves (m : Memory) : Nat → Nat → Nat → Nat → List (Nat × Nat × Nat)
  | 0, _, _, _ => []
  | fuel + 1, level, base, va =>
    let shift := if level = 1 then 46 else pageShift level
    (List.range (if level = 1 then 2048 else 1024)).flatMap (fun i =>
      let p := memRead m (base + 8 * i) 8
      if !bit p 0 then []
      else if bit p 1 then [(va + i * 2 ^ shift, shift, p)]
      else if level = 4 then [] else tableLeaves m fuel (level + 1) (bits p 16 36 * 2 ^ 16) (va + i * 2 ^ shift))

/-- Where an address lies by a list of pages: the physical address, permissions, C, DE and MT. -/
def frameOf (leaves : List (Nat × Nat × Nat)) (va : Nat) : Option (Nat × Nat × Nat) :=
  (leaves.find? (fun l => decide (l.1 ≤ va ∧ va < l.1 + 2 ^ l.2.1))).map (fun l =>
    (bits l.2.2 16 36 * 2 ^ 16 + (va - l.1), bits l.2.2 2 3, bits l.2.2 7 5))

/-- The mirror offset of the output region that the smallest page at an address meets, 0 outside all of them (R296). -/
def mirrorOf (outs : List (Nat × Nat × Nat)) (va : Nat) : Nat :=
  ((outs.find? (fun o => decide (o.1 < va + 2 ^ 16 ∧ va < o.1 + o.2.1))).map (fun o => o.2.2)).getD 0

/-- A root table maps every page as the root table of copy A does, an output page at `k` times its mirror offset (R296, R297). -/
def mirrorsRoot (s : State) (root copy : X) (outs : List (Nat × Nat × Nat)) (k : Nat) : Bool :=
  let table := fun (r : X) => tableLeaves s.mem 4 1 (bits r.toNat 14 38 * 2 ^ 14) 0
  let a := table root
  let b := table copy
  ((a ++ b).flatMap (fun l => (List.range (2 ^ (l.2.1 - 16))).map (fun i => l.1 + i * 2 ^ 16))).all (fun va =>
    frameOf b va == (frameOf a va).map (fun f => (f.1 + k * mirrorOf outs va, f.2)))

/-- The output regions of a request, at most 8 and of a paired launch only: base, length and mirror offset (R296, R413). -/
def requestOuts (r : Nat) : List (Nat × Nat × Nat) :=
  (List.range (if reqField r 16 1 1 = 1 then min (reqField r 16 16 4) 8 else 0)).map (fun i =>
    (reqField r (192 + 24 * i) 0 64, reqField r (200 + 24 * i) 0 64, reqField r (208 + 24 * i) 0 64))

/-- A descriptor slot holds no live domain. -/
def slotFree (s : State) (i : Nat) : Bool := decide (i < 4096) && !(slotOf' s i).live

/-- No live domain has an ID (R33). -/
def idFree (s : State) (i : Nat) : Bool := decide (0 < i ∧ i < 0xFFFF) && (domainOf s i).isNone

/-- The owner maps of a plan by die (R414). -/
def planOmaps (p : LaunchPlan) : SMap Nat := p.omaps.foldl (fun m e => smSet m e.1 e.2) []

/-- A plan names a free owner map of a die where one is free, and none where none is (R414). -/
def omapOk (s : State) (p : LaunchPlan) (d : Nat) : Bool :=
  match smGet (planOmaps p) d with
  | some m => decide (m < 8) && !omapUsed s d m
  | none => (List.range 8).all (omapUsed s d)

/-- A plan names a free virtual-core map of a die (R253). -/
def mapFree (s : State) (p : LaunchPlan) (d : Nat) : Bool := (smGet p.vmaps d).any (fun m => decide (m < 8) && !vmapUsed s d m)

/-- The firmware's choices for the copies of a paired launch (R296): each copy has quads of one die, on two different dies, and context
B mirrors A (DESIGN CHOICE, log entry 30). -/
def pairOk (s : State) (r : Nat) (p : LaunchPlan) : Bool :=
  let qs := mapQuads s (reqField r 8 0 64)
  let a := mapQuads s p.qmapA.toNat
  let b := mapQuads s p.qmapB.toNat
  (a ++ b).all qs.contains && (quadDies a).length == 1 && (quadDies b).length == 1 && quadDies a != quadDies b
    && decide (p.ctxB < 256) && p.ctxB != p.ctx && (quadDies qs).all (fun d => !ctxUsed s d p.ctxB)
    && slotFree s p.slotB && p.slotB != p.slot && idFree s p.domainB && p.domainB != p.domain
    && mirrorsRoot s p.root p.rootB (requestOuts r) 1

/-- The firmware's choices are free ones (R34, R253, R262, R340, R442) (DESIGN CHOICE, log entry 30). -/
def planOk (s : State) (r : Nat) (p : LaunchPlan) : Bool :=
  let dies := quadDies (mapQuads s (reqField r 8 0 64))
  p.launch != 0 && decide (p.launch < 2 ^ 32) && (smGet s.pkg.launches p.launch).isNone
    && decide (p.ctx < 256 ∧ p.account < 256) && !(accountOf s p.account).v
    && dies.all (fun d => !ctxUsed s d p.ctx) && slotFree s p.slot && idFree s p.domain
    && dies.all (mapFree s p)
    && dies.all (omapOk s p) && (planOmaps p).all (fun e => dies.contains e.1)
    && (reqField r 16 1 1 != 1 || pairOk s r p)

/-- A translation context is written on the launch's dies (R262). -/
def writeCtx (s : State) (dies : List Nat) (ctx : Nat) (root : X) : State :=
  dies.foldl (fun s d => onDie s d (fun x =>
    { x with ctxs := smSet x.ctxs ctx (BitVec.ofNat 64 (2 ^ 63 + bits root.toNat 14 38 * 2 ^ 14)) })) s

/-- The root domain of a launch, or of one copy of a paired launch, in a slot whose DERR stays (R34, R340, R341). With ESPILL 0 it has no
event spill region (R413). -/
def rootDomain (s : State) (r slot id launch : Nat) (qmap tspill tssize undo espill : X) : State :=
  let d : Domain := { Domain.reset with
    derr := (slotOf' s slot).derr, id := id, live := true, ordered := reqField r 16 0 1 == 1, launch := launch, qmap := qmap, tspill := tspill,
    tssize := tssize, undo := undo, espill := if reqField r 88 0 16 = 0 then 0 else espill, essize := BitVec.ofNat 64 (reqField r 88 0 16 * 2 ^ 16) }
  forgetDomain (setSlot s slot d) id

/-- The root task enters the root domain as the launch firing (R34). -/
def rootTask (s : State) (r id : Nat) : State :=
  let n := s.hearth.nextTask
  let q : Spawn := ⟨putBits (putBits (reqField r 128 0 512) 448 16 id) 480 32 0, 0xFFF, 0, none, none, 0, 0, none, true⟩
  onTask (acceptSpawn s q).1 n (fun t => { t with launchTask := true })

/-- The handler table image is installed on a core (R20, R413). -/
def installHandlers (h : Nat) (s : State) (c : Nat) : State := onMem s (fun m => memCopy m h (lmKey c handlerBase) 4096)

/-- The status words of a request (R413, R414). -/
def writeStatus (s : State) (req : Nat) (status : Nat) : State := storeKey s req 4 status

/-- The contexts of the copies of a paired launch, by the die on which each runs (R296). -/
def copyContexts (s : State) (p : LaunchPlan) : SMap Nat :=
  let on := fun (q : X) (c : Nat) (m : SMap Nat) => (quadDies (mapQuads s q.toNat)).foldl (fun m d => smSet m d c) m
  on p.qmapB p.ctxB (on p.qmapA p.ctx [])

/-- The launch of an accepted request (R34, R414): the root domain's ID is written into ROOT, for a paired launch copy A's (DESIGN CHOICE,
log entry 30). -/
def createLaunch (s : State) (req : Nat) (tag : BitVec 32) (r : Nat) (p : LaunchPlan) : State :=
  let qmap := reqField r 8 0 64
  let qs := mapQuads s qmap
  let dies := quadDies qs
  let pair := reqField r 16 1 1 == 1
  let vmap := requestMap s (reqField r 48 0 64) (quadCores qs)
  let s := writeCtx s dies p.ctx p.root
  let s := if pair then writeCtx s dies p.ctxB p.rootB else s
  let vmaps := dies.map (fun d => (d, smGetD p.vmaps d 0))
  let s := vmaps.foldl (fun s e => onDie s e.1 (fun x => { x with vmaps := smSet x.vmaps e.2 vmap })) s
  let s := setAccount s p.account ⟨BitVec.ofNat 32 p.launch, false, true, BitVec.ofNat 32 (reqField r 32 0 32), 0, 0,
    BitVec.ofNat 64 (reqField r 24 0 64), 0, (0, 1), []⟩
  let s := (requestBars r).foldl (fun s i =>
    let b := netBarrier s .pkg 0 i
    let b := { b with v := true, launch := p.launch, bar := { b.bar with count := 0, expect := reqField r (384 + 2 * i) 0 16 } }
    setNetBarrier s .pkg 0 i b) s
  let h := reqField r 40 0 64
  let s := if h = 0 then s
    else measure ((quadCores qs).foldl (installHandlers h) s) 2 (memRead s.mem h 4096) 4096
  let s := measureOpen (measureOpen s 2) 3
  let x : Launch :=
    { tag := tag.setWidth 64, request := BitVec.ofNat 64 req, quads := qs, ctx := p.ctx,
      ctxB := if pair then some p.ctxB else none, copies := if pair then copyContexts s p else [], third := false, root := p.domain, vmap := vmaps, omap := planOmaps p, account := p.account,
      flues := reqField r 16 8 8, elastic := reqField r 16 2 1 == 1, paired := pair, gv := reqField r 56 16 1 == 1,
      group := reqField r 56 0 16, rank := reqField r 60 0 14, mtab := reqField r 64 0 64, mcnt := reqField r 72 0 14 + 1,
      outs := requestOuts r, cellar := BitVec.ofNat 64 p.cellar.toNat, moved := [], vacate := [], parked := [] }
  let s := onPkg s (fun k => { k with launches := smSet k.launches p.launch x, nextLaunch := max k.nextLaunch (p.launch + 1) })
  let qa := if pair then p.qmapA else BitVec.ofNat 64 qmap
  let s := rootTask (rootDomain s r p.slot p.domain p.launch qa p.tspill p.tssize p.undo p.espill) r p.domain
  let s := if pair then
      rootTask (rootDomain s r p.slotB p.domainB p.launch p.qmapB p.tspillB p.tssize p.undoB p.espillB) r p.domainB
    else s
  let s := storeKey (storeKey (storeKey s (req + 184) 2 p.domain) (req + 4) 4 p.launch) (req + 36) 4 tag.toNat
  writeStatus s req 1

/-- LAUNCH_TAKE (R34, R414): the firmware takes the waiting command and refuses its request or creates the launch, with the
choices of `plan`. -/
def execLaunchTake (plan : LaunchPlan) (s : State) : Host.Outcome State Fault Refusal :=
  .next (match s.pkg.host.command with
    | none => s
    | some (req, tag) =>
      let r := memRead s.mem req.toNat 512
      let taken := fun (s : State) => onPkg s (fun p => { p with host := { p.host with
        busy := false, command := none, taken := p.host.taken + 1 } })
      match refusal s r plan with
      | some why => taken (writeStatus (storeKey s (req.toNat + 36) 4 tag.toNat) req.toNat (3 + why * 256))
      | none => if planOk s r plan then createLaunch (taken s) req.toNat tag r plan else s)

/-! ### The end of a launch (R34, R297, R414) -/

/-- Domain IDs of a launch's live domains. -/
def launchDomains (s : State) (n : Nat) : List Nat :=
  (s.hearth.domains.filter (fun e => e.2.live && e.2.launch == n)).map (fun e => e.2.id)

/-- A record held anywhere at its source names one of these domains. -/
def recordsHeld (s : State) (doms : List Nat) : Bool :=
  let names := fun (q : Spawn) => doms.contains (recField q.record 56 0 16)
  s.cores.any (fun e => e.2.msg.spawnQ.any names) || s.pkg.host.spawnQ.any names
    || s.hearth.tasks.any (fun e => e.2.held.any names)

/-- An item of a send queue is of launch `n`, whose domains these are: what one of its firings sent, or an event of a domain. -/
def itemOf (s : State) (n : Nat) (doms : List Nat) : SendItem → Bool
  | .msg m => m.launch == some n
  | .ev e inj => doms.contains (if inj then bankDomain s e.core e.bank else e.domain)

/-- A core of the quad set, or its image, holds nothing of launch `n`: no firing, operation, record or event, and no message in its
arrival buffer (R34). -/
def coreDone (s : State) (n : Nat) (doms : List Nat) (k : Core) : Bool :=
  k.lanes.toList.all (fun l => l.status == .free || (launchOf s 0 l).map (·.1) != some n)
    && k.eng.queue.all (fun o => o.2.launch != some n) && k.stove.seats.toList.all (fun q => q.all (fun p => p.launch != some n))
    && !(k.msg.sendQ.any (itemOf s n doms)) && k.msg.spawnQ.all (fun q => q.launch != some n) && k.msg.arrival.isEmpty

/-- The cores of a parked quad, by the handle of core 0's image (R291, R294). -/
def parkedCores (s : State) (h : Nat) : List Core :=
  (List.range 4).filterMap (fun j => (smGet s.pkg.cellar (h + j)).map (fun x => x.core))

/-- A launch has drained (R34): no task, firing, operation, message or event of it is left. -/
def drained (s : State) (n : Nat) (x : Launch) : Bool :=
  let doms := launchDomains s n
  let ours := fun (e : Event) => doms.contains e.domain
  !(s.hearth.tasks.any (fun e => doms.contains e.2.domain)) && !recordsHeld s doms
    && ((quadCores x.quads).map (coreOf s) ++ x.parked.flatMap (parkedCores s)).all (coreDone s n doms)
    && (everyCore s).all (fun k => !(k.ev.queue.any ours) && !(k.ev.spill.any (fun p => ours p.1))
        && k.eng.queue.all (fun o => o.2.launch != some n))

/-- The physical addresses that an output region has under a context of a die, in address order (R296): those bytes that
translate. -/
def regionPlaces (s : State) (die ctx base len : Nat) : List Nat :=
  match ctxRoot s die ctx with
  | none => []
  | some root => (List.range len).filterMap (fun i =>
      (walkFrom s.mem (base + i) .load 4 1 root).map (fun l => bits l.2.2 16 36 * 2 ^ 16 + (base + i) % 2 ^ pageShift l.1))

/-- A region's bytes in copy A, B or C: at 0, 1 or 2 times its mirror offset (R296, R297). -/
def copyBytes (s : State) (pas : List Nat) (mirror k : Nat) : List Byte := pas.map (fun p => memGet s.mem (p + k * mirror))

/-- The die that runs copy A of a paired launch (R296). -/
def dieOfA (x : Launch) : Nat := ((x.copies.find? (fun e => e.2 == x.ctx)).map (·.1)).getD (lowestDie x)

/-- The places of each output region with its mirror offset. -/
def outPlaces (s : State) (x : Launch) : List (List Nat × Nat) :=
  x.outs.map (fun o => (regionPlaces s (dieOfA x) x.ctx o.1 o.2.1, o.2.2))

/-- SHAKE256 over the output regions of a copy (R297). -/
def copyDigest (s : State) (outs : List (List Nat × Nat)) (k : Nat) : BitVec 512 :=
  let bs := outs.flatMap (fun o => copyBytes s o.1 o.2 k)
  shake256 (bytesNat bs) bs.length

/-- The vote on one region after a third copy has run (R297): an outvoted copy is logged, A's region takes the majority's
contents, and a region without one is unresolved (DESIGN CHOICE, log entry 30). -/
def voteRegion (n src : Nat) (r : State × Bool) (o : List Nat × Nat) : State × Bool :=
  let (s, bad) := r
  let a := copyBytes s o.1 o.2 0
  let b := copyBytes s o.1 o.2 1
  let c := copyBytes s o.1 o.2 2
  let log := fun (s : State) (who : Nat) => logRecord s src (.outvoted n who)
  if a = b then (if a = c then s else log s 2, bad)
  else if a = c then (log s 1, bad)
  else if b = c then (log ((o.1.zip b).foldl (fun s e => storeKey s e.1 1 e.2.toNat) s) 0, bad)
  else (s, true)

/-- The STATUS with which a launch ends, and the state after its digests are compared, or its third copy's outputs are (R297);
`none` while the third copy has yet to run (DESIGN CHOICE, log entry 30). -/
def endStatus (s : State) (n : Nat) (x : Launch) (verdict : Nat) : Option (State × Nat) :=
  if verdict = 2 then some (s, 5)
  else if !x.paired then some (s, 2)
  else
    let outs := outPlaces s x
    if x.third then
      if verdict = 1 then
        let (s, bad) := outs.foldl (voteRegion n (supCore (lowestDie x) 0)) (s, false)
        some (s, if bad then 4 else 2)
      else none
    else if copyDigest s outs 0 = copyDigest s outs 1 then some (s, 2) else none

/-- The firmware's choices for the third copy (R297), in the plan's fields of copy B: free quads of a third die, a context of that die
which maps the outputs at twice the mirror offset, a virtual-core map and a domain (DESIGN CHOICE, log entry 30). -/
def thirdOk (s : State) (x : Launch) (p : LaunchPlan) : Bool :=
  let qs := mapQuads s p.qmapB.toNat
  let dies := quadDies qs
  dies.length == 1 && qs.all (quadFree s) && dies.all (fun d => !(quadDies x.quads).contains d && !ctxUsed s d p.ctxB && mapFree s p d
      && (ctxRoot s (dieOfA x) x.ctx).any (fun a => mirrorsRoot s (BitVec.ofNat 64 a) p.rootB x.outs 2))
    && decide (p.ctxB < 256) && slotFree s p.slotB && idFree s p.domainB

/-- The third copy starts (R297): its quads join the launch, whose account they charge, with a context, the default virtual-core map of
their cores and a root domain of their own; what it installs is measured (R447) (DESIGN CHOICE, log entry 30). -/
def startThird (s : State) (n : Nat) (x : Launch) (p : LaunchPlan) : State :=
  let qs := mapQuads s p.qmapB.toNat
  let dies := quadDies qs
  let r := memRead s.mem x.request.toNat 512
  let h := reqField r 40 0 64
  let s := writeCtx s dies p.ctxB p.rootB
  let s := dies.foldl (fun s d => onDie s d (fun y =>
    { y with vmaps := smSet y.vmaps (smGetD p.vmaps d 0) (requestMap s 0 (quadCores qs)) })) s
  let s := if h = 0 then s else measure ((quadCores qs).foldl (installHandlers h) s) 2 (memRead s.mem h 4096) 4096
  let s := measureOpen s 2
  let s := onPkg s (fun k => { k with launches := smSet k.launches n { x with
    quads := qs.foldl insertNat x.quads
    vmap := dies.foldl (fun m d => smSet m d (smGetD p.vmaps d 0)) x.vmap
    copies := dies.foldl (fun m d => smSet m d p.ctxB) x.copies
    third := true } })
  rootTask (rootDomain s r p.slotB p.domainB n p.qmapB p.tspillB p.tssize p.undoB p.espillB) r p.domainB

/-- The launch gives back what it held (R34): domains, barrier IDs, contexts with their cached translations, maps, account (DEDUCED, log entry 27; DESIGN CHOICE, log entry 30). -/
def freeLaunch (s : State) (n : Nat) (x : Launch) : State :=
  let slots := (s.hearth.domains.filter (fun e => e.2.live && e.2.launch == n)).map (·.1)
  let s := slots.foldl retireDomain s
  let freeBars := fun (m : SMap NetBarrier) => m.map (fun e => if e.2.launch = n then (e.1, { e.2 with v := false }) else e)
  let s := onPkg s (fun p => { p with bars := freeBars p.bars, podBars := freeBars p.podBars, launches := smDel p.launches n })
  let ctxs := x.ctx :: (x.ctxB.toList ++ x.copies.map (·.2))
  let here := fun (d : Nat) => x.vmap.any (fun e => e.1 == d)
  let freed := fun (d : Die) => { d with ctxs := d.ctxs.filter (fun e => !ctxs.contains e.1) }
  let dropped := fun (i : Nat) (d : Die) => let d := { d with bars := freeBars d.bars }; if here i then freed d else d
  let keep := fun (d : Nat) (t : List TlbEntry) => if here d then t.filter (fun e => !ctxs.contains e.ctx) else t
  let s := { s with
    dies := s.dies.map (fun e => (e.1, dropped e.1 e.2)),
    quads := s.quads.map (fun e => (e.1, { e.2 with tlb := keep (e.1 / 80) e.2.tlb })),
    cores := s.cores.map (fun e => (e.1, { e.2 with ctl := { e.2.ctl with tlb := keep (dieNo e.1) e.2.ctl.tlb } })) }
  setAccount s x.account { accountOf s x.account with v := false }

/-- LAUNCH_END (R34, R297, R414): a launch that has drained ends; `verdict` 0 compares the digests of a paired launch and starts the
third copy with the firmware's next choices when they differ, 1 votes after that copy has run, 2 says that the supervisor ends the
launch. -/
def execLaunchEnd (launch : Nat) (verdict : Fin 3) (s : State) : Host.Outcome State Fault Refusal :=
  .next (match smGet s.pkg.launches launch with
    | none => s
    | some x =>
      if !drained s launch x then s
      else match endStatus s launch x verdict.val with
        | none => match s.sched.plans with
          | plan :: rest =>
            if verdict.val = 0 && !x.third && thirdOk s x plan then
              startThird { s with sched := { s.sched with plans := rest } } launch x plan
            else s
          | [] => s
        | some (s, status) => writeStatus (freeLaunch s launch x) x.request.toNat status)

/-! ### The host's reads of its windows and attestation (R412, R415, R437, R446, R449) -/

/-- LSTAT (R412). -/
def lstatWord (h : HostLink) : Nat := h.busy.toNat + h.ldrop.toNat * 2 ^ 16 + h.taken.toNat * 2 ^ 32

/-- The doubleword at offset `off` of BAR 0 (R412, R437, R446, R449): LSTAT, SPWSTAT, SPWLAST, the ready map, the failed map, BOOTSTAT and
ATTDROP; every other offset, the launch window and ATTREQ among them, reads as zero. -/
def controlDword (s : State) (off : Nat) : Nat :=
  let h := s.pkg.host
  if off = 0x40 then lstatWord h
  else if off = 0x1000 then h.spwstat.toNat
  else if 0x1040 ≤ off ∧ off < 0x1080 then bits h.spwlast.toNat (8 * (off - 0x1040)) 64
  else if 0x2000 ≤ off ∧ off < 0x2130 then bits s.pkg.ready (8 * (off - 0x2000)) 64
  else if 0x2180 ≤ off ∧ off < 0x22B0 then bits s.pkg.failed (8 * (off - 0x2180)) 64
  else if off = 0x2300 then h.bootstat.toNat
  else if off = 0x2440 then h.attdrop.toNat
  else 0

/-- What the host's read of the doubleword at offset `off` of a BAR returns: the spawn windows of BAR 2 read as zero (R409, R412,
R415). -/
def hostDword (s : State) (bar off : Nat) : Nat := if bar = 0 then controlDword s (off / 8 * 8) else 0

/-- What it clears: LDROP, both fields of SPWSTAT, and ATTDROP (R412, R449). -/
def hostCleared (h : HostLink) (bar off : Nat) : HostLink :=
  if bar ≠ 0 then h
  else if off / 8 * 8 = 0x40 then { h with ldrop := 0 }
  else if off / 8 * 8 = 0x1000 then { h with spwstat := 0 }
  else if off / 8 * 8 = 0x2440 then { h with attdrop := 0 }
  else h

/-- The host reads a doubleword of a BAR (R412). -/
def barRead (s : State) (bar off : Nat) : State :=
  answered (onPkg s (fun p => { p with host := hostCleared p.host bar off })) (BitVec.ofNat 512 (hostDword s bar off))

/-- LSTAT_READ (R412): LDROP clears when it is read. -/
def execLstatRead (s : State) : Host.Outcome State Fault Refusal := .next (barRead s 0 0x40)

/-- SPWSTAT_READ (R412): both fields clear when they are read. -/
def execSpwstatRead (s : State) : Host.Outcome State Fault Refusal := .next (barRead s 0 0x1000)

/-- ATTDROP_READ (R449). -/
def execAttdropRead (s : State) : Host.Outcome State Fault Refusal := .next (barRead s 0 0x2440)

/-- ATTREQ (R449): a command with a nonzero field marked zero, or while one is in progress, is discarded; so is one whose result is
misaligned or not in HBM (DESIGN CHOICE, log entry 62). -/
def execAttreq (value : BitVec 512) (s : State) : Host.Outcome State Fault Refusal :=
  let a := value.toNat % 2 ^ 64
  .next (if s.pkg.host.attest.isSome ∨ value.toNat / 2 ^ 320 ≠ 0 ∨ a % 512 ≠ 0 ∨ 2 ^ 40 ≤ a then
    onPkg s (fun p => { p with host := { p.host with attdrop := p.host.attdrop + 1 } })
  else
    dueEvent (onPkg s (fun p => { p with host := { p.host with
      attest := some (BitVec.ofNat 64 a, BitVec.ofNat 256 (value.toNat / 2 ^ 64)) } })) .attestationReport)

/-- Bytes 4 to 303 of a report (R449). -/
def reportBody (s : State) (nonce : BitVec 256) : Nat :=
  imageField 4 4 + s.pkg.pkgId % 2 ^ 16 * 2 ^ 32 + s.pkg.inc % 256 * 2 ^ 48 + nonce.toNat * 2 ^ 96
    + (List.range 4).foldl (fun h i => h + (s.pkg.measure[i]?.getD 0).toNat * 2 ^ (352 + 512 * i)) 0

/-- ATTESTATION_REPORT (R448, R449): the report is written, signed by the identity key, STATUS last. -/
def execAttestationReport (s : State) : Host.Outcome State Fault Refusal :=
  .next (match s.pkg.host.attest, s.pkg.identity with
    | none, _ => s
    | _, none => s
    | some (a, nonce), some key =>
      let body := reportBody s nonce
      let sig := (ed448Sign key.secretKey (shake256 body 300)).toNat
      let chunks := body + sig * 2 ^ 2400
      let s := (List.range 127).foldl (fun s i => storeKey s (a.toNat + 4 + 4 * i) 4 (bits chunks (32 * i) 32)) s
      let s := storeKey s a.toNat 4 1
      onPkg s (fun p => { p with host := { p.host with attest := none } }))

end Sys2Proof.Machine
end

