-- ==== Sys2Proof/Machine/Pod.lean ====
section
/-! DEFINITION. GET, PUT, RAMO and collectives (R418 to R426), storage commands (R416, R417), and the start of queued
operations. -/

namespace Sys2Proof.Machine

/-! ### Pod groups (R419) -/

/-- Entry `r` of a launch's member table, in HBM (R419) (DEDUCED, log entry 24). -/
def memberEntry (s : State) (x : Launch) (r : Nat) : Nat := memRead s.mem (x.mtab + 4 * r) 4

/-- Rank `r` names a member (R421). -/
def memberOk (s : State) (x : Launch) (r : Nat) : Bool := decide (r < x.mcnt) && bit (memberEntry s x r) 31

/-- The package that rank `r` is (R419). -/
def memberPackage (s : State) (x : Launch) (r : Nat) : Nat := memberEntry s x r % 2 ^ 14

/-- The launch of the issuing firing, in a pod group; otherwise a message fault (R420). -/
def podLaunch (s : State) : Except Stop Launch :=
  match launchOf s s.sched.core (cur s) with
  | some (_, x) => if x.gv then .ok x else trap .message
  | none => trap .message

/-- The Active ports that reach package `k` and have reported ready, in ascending order (R418, R437). -/
def routePorts (s : State) (k : Nat) : List Nat :=
  (List.range 64).filter (fun p => (smGetD s.pkg.routes k 0).getLsbD p && (portOf s p).state == 0 && bit s.pkg.ready (2368 + p))

/-- The port by which sector `q` of operation `id` leaves for package `k` (R418). -/
def sectorPort (s : State) (k id q : Nat) : Option Nat :=
  let l := routePorts s k
  l[(id + q) % l.length]?

/-- The operation moves sectors to or from another package. -/
def isPod : EngKind → Bool
  | .get _ => true
  | .put _ => true
  | .ramo _ => true
  | _ => false

/-- The operation is a collective. -/
def isColl : EngKind → Bool
  | .allred _ => true
  | .allgth _ => true
  | .redsct _ => true
  | .cbar _ => true
  | _ => false

/-- The sectors that leave for one of an operation's packages: all of a pod operation's, and for each other member of a collective those
that hold the part of the own source which it takes (R418, R424) (DEDUCED, log entry 37). -/
def outSectors (op : EngOp) : Nat :=
  match op.kind with
  | .allgth o => ceilDiv (collElems op.recA false * fmtWidth o.fmt) 256
  | _ => opSectors op

/-- All the sectors that leave for an operation's packages. -/
def allSent (op : EngOp) : Nat := op.peers.length * outSectors op

/-- The sectors of an operation leave for its packages, one after another and in order, while their ports' windows have room; a sector
that no port reaches fails as a link failure (R418, R421) (DEDUCED, log entry 37). -/
def sendSectors (c slot : Nat) : Nat → State → EngOp → State
  | 0, s, op => setEngOp s c slot op
  | n + 1, s, op =>
    let q := op.sent % outSectors op
    match op.peers[op.sent / outSectors op]? with
    | none => setEngOp s c slot op
    | some k => match sectorPort s k (opId c slot op) q with
      | none => endError (setEngOp s c slot op) c slot 5 (op.xs.toNat + (if isPod op.kind then 32 * q else 0)) true
      | some p => match sendFlit s p with
        | some s => sendSectors c slot n s { op with sent := op.sent + 1 }
        | none => setEngOp s c slot op

/-- What is left of an operation's sectors is sent on (R418). -/
def sendOn (s : State) (c slot : Nat) (op : EngOp) : State := sendSectors c slot (allSent op) s op

/-- Running operations with sectors still to send look at their ports again. -/
def sendersDue (s : State) : State :=
  s.cores.foldl (fun s k => k.2.eng.queue.foldl (fun s e =>
    if e.2.state == .running && decide (e.2.sent < allSent e.2) then dueEvent s (.asyncOpStart k.1 0 e.1) else s) s) s

/-- HORN_FLIT_RECEIVE (R418): the flit in sequence is delivered, any other is dropped. It acknowledges what the port has sent
(DEDUCED, log entry 37). -/
def execHornFlitReceive (port : Nat) (seq : BitVec 16) (s : State) : Host.Outcome State Fault Refusal :=
  let x := portOf s port
  .next (if x.state = 0 ∧ seq = x.recvSeq then
    sendersDue (setPort s port { x with recvSeq := seq + 1, ackSeq := x.sendSeq, fails := 0 })
  else s)

/-! ### GET, PUT and RAMO at issue (R420) -/

/-- The local end of `n` sectors (R420): one class that engines reach, below 0x6_C000 in own LM, and alignment. -/
def localEnd (s : State) (a : X) (n : Nat) : Except Stop Unit :=
  match classOf s s.sched.core a with
  | .ownLm _ => do let _ ← lmRange s a n
  | .otherLm id o =>
    if atticBase ≤ o then trapAt .lmProtection a
    else if classOf s s.sched.core (a + BitVec.ofNat 64 (32 * n - 1)) != .otherLm id (o + 32 * n - 1) then trapAt .address a
    else if atticBase < o + 32 * n then trapAt .lmProtection a
    else if o % 32 ≠ 0 then trapAt .misaligned a else .ok ()
  | .shared _ => do let _ ← sharedRange s a n
  | .global =>
    if 2 ^ 56 < a.toNat + 32 * n then trapAt .address a
    else if a.toNat % 32 ≠ 0 then trapAt .misaligned a else .ok ()
  | .unmapped => trapAt .address a

/-- A global address that is a multiple of `align` (R420). -/
def remoteEnd (s : State) (a : X) (align : Nat) : Except Stop Unit :=
  match classOf s s.sched.core a with
  | .global => if a.toNat % align ≠ 0 then trapAt .misaligned a else .ok ()
  | _ => trapAt .address a

/-- A pod operation's start is due, or it ends at acceptance with ECODE 3 (R421). -/
def podAccepted (ok : Bool) (addr : Nat) (s : State) (c slot : Nat) : State :=
  if ok then dueStart s c slot else endError s c slot 3 addr false

/-- GET, PUT and RAMO at issue and acceptance (R420, R421). -/
def podOp (kind : EngKind) (xl xs xn xb : Reg) (n : Nat) (nosb inward : Bool) (s : State) : Except Stop State := do
  let l := cur s
  irrevocable l
  gate l [.x (plain xs), .x (plain xl), .x (plain xb), .x (plain xn)] []
  let x ← podLaunch s
  let r := (getX l xn).toNat
  need (decide (r < 2 ^ 14)) .message
  localEnd s (getX l xl) n
  remoteEnd s (getX l xs) 32
  let (s, bar) ← barPlace s (getX l xb)
  let op := { newOp s kind (getX l xs) (getX l xl) (getX l xn) (getX l xb) [] 0 0 bar with peers := [memberPackage s x r] }
  let e := sbEmpty s.sched.lane
  let entries := match classOf s s.sched.core (getX l xl) with
    | .ownLm o =>
      let sp := spanOf o (o + 32 * n - 1)
      [if inward then { e with wr := sp } else { e with rda := sp }]
    | _ => [e]
  acceptOp s op (if nosb then [] else entries) (podAccepted (memberOk s x r) (getX l xs).toNat)

/-- `GET xl, xs, xn, xb, #n` (R420). -/
def execGet (o : GetOp) : State → Host.Outcome State Fault Refusal :=
  stateOp 8 (podOp (.get o) o.xl o.xs o.xn o.xb (o.n.toNat + 1) o.nosb true)

/-- `PUT xl, xs, xn, xb, #n` (R420). -/
def execPut (o : PutOp) : State → Host.Outcome State Fault Refusal :=
  stateOp 8 (podOp (.put o) o.xl o.xs o.xn o.xb (o.n.toNat + 1) o.nosb false)

/-- `RAMO.op.fmt xl, xs, xn, xb, #n` (R420). -/
def execRamo (o : RamoOp) : State → Host.Outcome State Fault Refusal :=
  stateOp 8 (podOp (.ramo o) o.xl o.xs o.xn o.xb (o.n.toNat + 1) o.nosb false)

/-! ### Collectives (R423 to R425) -/

/-- Fields of a collective descriptor (R423). -/
def collTag (d : Nat) : Nat := bits d 160 32

/-- The descriptor is valid but for its own list entry, which `own` gives (R423, R424). -/
def collValid (d : Nat) (isBar : Bool) (own rank : Nat) : Bool :=
  let count := bits d 128 32
  let m := bits d 256 16
  bits d 288 224 == 0 && decide (1 ≤ m ∧ m ≤ 16384) && decide (bits d 272 16 < m) && own == rank
    && (if isBar then bits d 0 128 == 0 && count == 0 else decide (1 ≤ count ∧ count ≤ 2 ^ 24))

/-- The collectives of a launch's package that are in flight, with where they are queued (R425). -/
def collsInFlight (s : State) (launch : Option Nat) : List (Nat × Nat × EngOp) :=
  s.cores.flatMap (fun k => (k.2.eng.queue.filter (fun e => isColl e.2.kind && e.2.launch == launch)).map
    (fun e => (k.1, e.1, e.2)))

/-- The bytes of a place under the checks of a load by the issuing lane (R138). -/
def loadBytes (s : State) (a : X) (n align : Nat) : Except Stop (State × Nat) := do
  let (s, p) ← resolve s s.sched.core (ctxOf s s.sched.core (cur s)) .load false a align
  let s ← domainCheck (accessorOf (cur s)) false s p
  let k := placeKey s.sched.core p
  if poisoned s k n then trapAt .poisoned a else .ok (s, memRead s.mem k n)

/-- The two-byte ranks of a collective's list from an address on (R423) (DEDUCED, log entry 24). -/
def readRanks : Nat → State → Nat → Except Stop (State × List Nat)
  | 0, s, _ => .ok (s, [])
  | n + 1, s, a => do
    let (s, r) ← loadBytes s (BitVec.ofNat 64 a) 2 1
    let (s, l) ← readRanks n s (a + 2)
    .ok (s, r :: l)

/-- How many ranks a collective's descriptor lists, when it can be valid (R423). -/
def listLength (d : Nat) : Nat := if bits d 272 16 < bits d 256 16 ∧ bits d 256 16 ≤ 16384 then bits d 256 16 else 0

/-- The packages of the other members of a collective, in list order; a rank that names no member has none, and the collective then ends
by its timeout (R419, R423, R425) (DEDUCED, log entry 24). -/
def otherPackages (s : State) (x : Launch) (ranks : List Nat) (pos : Nat) : List Nat :=
  (ranks.zipIdx.filter (fun e => e.2 != pos && memberOk s x e.1)).map (fun e => memberPackage s x e.1)

/-- COLL at issue and acceptance (R420, R423, R425): ECODE 1 for an invalid descriptor, ECODE 3 for a TAG that is
already in flight (DEDUCED, log entry 24). -/
def collOp (mk : CollOp → EngKind) (isBar : Bool) (o : CollOp) (s : State) : Except Stop State := do
  let l := cur s
  irrevocable l
  gate l [.x (plain o.xs), .x (plain o.xb)] []
  let x ← podLaunch s
  let a := getX l o.xs
  remoteEnd s a 64
  let (s, bar) ← barPlace s (getX l o.xb)
  let (s, d) ← loadBytes s a 64 64
  let pos := bits d 272 16
  let (s, ranks) ← readRanks (listLength d) s (bits d 192 64)
  let op := { newOp s (mk o) a 0 0 (getX l o.xb) [] d 0 bar with peers := otherPackages s x ranks pos }
  if !collValid d isBar ((ranks[pos]?).getD 0) x.rank then acceptOp s op [] (fun s c slot => endInvalid s c slot a.toNat)
  else
    let again := (collsInFlight s op.launch).any (fun e => collTag e.2.2.recA == collTag d)
    acceptOp s op [] (podAccepted (!again) a.toNat)

/-- `COLL.allred.op.fmt xs, xb` (R424). -/
def execCollAllred (o : CollOp) : State → Host.Outcome State Fault Refusal := stateOp 8 (collOp .allred false o)

/-- `COLL.allgth.fmt xs, xb` (R424). -/
def execCollAllgth (o : CollOp) : State → Host.Outcome State Fault Refusal := stateOp 8 (collOp .allgth false o)

/-- `COLL.redsct.op.fmt xs, xb` (R424). -/
def execCollRedsct (o : CollOp) : State → Host.Outcome State Fault Refusal := stateOp 8 (collOp .redsct false o)

/-- `COLL.bar xs, xb` (R424). -/
def execCollBar (o : CollOp) : State → Host.Outcome State Fault Refusal := stateOp 8 (collOp .cbar true o)

/-! ### Storage (R416, R417) -/

/-- The queue descriptor is valid (R416). -/
def blkDescOk (d : Nat) : Bool :=
  let size := bits d (8 * 36) 16
  let lbas := bits d (8 * 38) 4
  let mdts := bits d (8 * 40) 32
  decide (2 ≤ size ∧ size ≤ 4096) && (lbas == 9 || lbas == 12) && bits d (8 * 38 + 4) 4 == 0 && bits d (8 * 39 + 3) 5 == 0
    && mdts != 0 && mdts % 2 ^ lbas == 0 && decide (mdts ≤ 2 ^ 21) && bits d (8 * 44) 160 == 0

/-- The storage queue of a die with a descriptor's submission queue; the phase starts at 1 (PRESUMED, log entry 20). -/
def blkQueue (s : State) (d desc : Nat) : BlkQueue := smGetD (dieOf s d).blk (bits desc 0 64) ⟨0, 0, true, []⟩

/-- Replaces a storage queue. -/
def setBlkQueue (s : State) (d desc : Nat) (q : BlkQueue) : State :=
  onDie s d (fun x => { x with blk := smSet x.blk (bits desc 0 64) q })

/-- Blocks and commands of a storage operation (R417) (PRESUMED, log entry 20). -/
def blkCommands (op : EngOp) : Nat :=
  match op.kind with
  | .blkFlush _ => 1
  | _ => ceilDiv (32 * opSectors op) (bits op.recA (8 * 40) 32)

/-- Sectors of one command; the last may have fewer. -/
def commandSectors (op : EngOp) : Nat :=
  match op.kind with
  | .blkFlush _ => 1
  | _ => bits op.recA (8 * 40) 32 / 32

/-- Commands of an operation in flight. -/
def blkInFlight (q : BlkQueue) (c slot : Nat) : Nat := (q.inflight.filter (fun e => e.2 == (c, slot))).length

/-- The submission-queue entry of command `k` of an operation, in the slot `cid` (R417; the layout is NVMe's, log entry
20; the data pointers name bus addresses, which are open) (PRESUMED, log entry 20). -/
def sqEntry (s : State) (op : EngOp) (cid k : Nat) : Nat :=
  let d := op.recA
  let opcode := match op.kind with
    | .blkRd _ => 2
    | .blkWr _ => 1
    | _ => 0
  let bs := blkSize d
  let per := bits d (8 * 40) 32 / bs
  let total := 32 * opSectors op / bs
  let n := min per (total - k * per)
  let base := opcode + cid * 2 ^ 16 + bits d (8 * 32) 32 * 2 ^ 32
  if opcode = 0 then base
  else base + (Config.freeV s.sched.freeCtr).toNat % 2 ^ 128 * 2 ^ 192
    + (op.xn.toNat + k * per) % 2 ^ 64 * 2 ^ 320 + (n - 1) * 2 ^ 384

/-- Commands are issued while slots are free (R417) (PRESUMED, log entry 20). -/
def issueCommands (s : State) (c slot : Nat) (op : EngOp) : Nat → State
  | 0 => s
  | fuel + 1 =>
    let d := dieNo c
    let q := blkQueue s d op.recA
    let size := bits op.recA (8 * 36) 16
    let k := ceilDiv op.counted.length (commandSectors op) + blkInFlight q c slot
    if blkCommands op ≤ k ∨ size ≤ q.inflight.length + 1 ∨ (smGet q.inflight q.tail).isSome then s
    else
      let s := draw (storeKey s (bits op.recA 0 64 + 64 * q.tail) 64 (sqEntry s op q.tail k))
      let s := setBlkQueue s d op.recA { q with tail := (q.tail + 1) % size, inflight := smSet q.inflight q.tail (c, slot) }
      issueCommands s c slot op fuel

/-- The pages of a storage transfer translate; otherwise where they do not (R285). -/
def blkPages (s : State) (c : Nat) (op : EngOp) (acc : Access) : Except SectorStop State :=
  let n := ceilDiv (op.xl.toNat % 65536 + 32 * opSectors op) 65536
  let first := op.xl.toNat / 65536 * 65536
  let rec go (s : State) : Nat → Except SectorStop State
    | 0 => .ok s
    | k + 1 => do
      let s ← go s k
      let (s, _, _) ← enginePlace s c op acc (max op.xl.toNat (first + 65536 * k))
      .ok s
  go s n

/-- XBLK at issue and acceptance (R278, R416, R417). -/
def blkOp (kind : EngKind) (o : XblkOp) (flush : Bool) (s : State) : Except Stop State := do
  let l := cur s
  let c := s.sched.core
  irrevocable l
  gate l ([.x (plain o.xs)] ++ (if flush then [] else [.x (plain o.xl)]) ++ [.x (plain o.xb)]
    ++ (if flush then [] else [.x (plain o.xn)])) []
  let protectedLm := match classOf s c (getX l o.xl) with
    | .ownLm a => decide (atticBase ≤ a)
    | .otherLm _ a => decide (atticBase ≤ a)
    | _ => false
  if !flush && classOf s c (getX l o.xl) == .unmapped then trapAt .address (getX l o.xl)
  else if !flush && protectedLm then trapAt .lmProtection (getX l o.xl)
  else
    recordAddr s (getX l o.xs)
    let (s, bar) ← barPlace s (getX l o.xb)
    let (s, k) ← recordPlace s c l (getX l o.xs)
    let d := memRead s.mem k 64
    let a := (getX l o.xl).toNat
    let op := newOp s kind (getX l o.xs) (if flush then 0 else getX l o.xl) (if flush then 0 else getX l o.xn)
      (getX l o.xb) [] d 0 bar
    let bad := !blkDescOk d || bits d (8 * 39) 3 != dieNo c || (!flush && (a % 4 != 0
      || classOf s c (getX l o.xl) != .global
      || (match translate s c op.ctx a .load with
          | some (_, _, mt, _) => mt != 0
          | none => false)))
    acceptOp s op (if o.nosb then [] else [sbEmpty s.sched.lane]) (podAccepted (!bad) a)

/-- `XBLK.rd xl, xs, xn, xb, #cnt` (R277). -/
def execXblkRd (o : XblkOp) : State → Host.Outcome State Fault Refusal := stateOp 8 (blkOp (.blkRd o) o false)

/-- `XBLK.wr xl, xs, xn, xb, #cnt` (R277). -/
def execXblkWr (o : XblkOp) : State → Host.Outcome State Fault Refusal := stateOp 8 (blkOp (.blkWr o) o false)

/-- `XBLK.flush xs, xb` (R277, R417). -/
def execXblkFlush (o : XblkOp) : State → Host.Outcome State Fault Refusal := stateOp 8 (blkOp (.blkFlush o) o true)

/-! ### Starting operations (R142, R189, R282, R417, R418) -/

/-- A storage operation that cannot reach its pages: it waits in its queue again, or stops (R285, R333, R367). -/
def blkStopped (s : State) (c slot : Nat) (op : EngOp) (e : SectorStop) : State :=
  let again := fun (s : State) => dueStart (setEngOp s c slot { op with state := .queued }) c slot
  match e with
  | .hold => again s
  | .held _ _ _ => again s
  | .wake f => again (wakeFlue s f)
  | e => sectorStopped s c slot op 0 e

/-- What else an operation's start does: a storage operation issues its commands, a pod operation or a collective sends its sectors. -/
def startKind (s : State) (c slot : Nat) (op : EngOp) : State :=
  let blk := fun (acc : Access) =>
    match blkPages s c op acc with
    | .ok s => issueCommands s c slot op (blkCommands op)
    | .error e => blkStopped s c slot op e
  match op.kind with
  | .get _ => sendOn s c slot op
  | .put _ => sendOn s c slot op
  | .ramo _ => sendOn s c slot op
  | .blkRd _ => blk .store
  | .blkWr _ => blk .load
  | .blkFlush _ => issueCommands s c slot op 1
  | k => if isColl k then sendOn s c slot op else s

/-- What else an operation waits for in its queue: a free submission-queue slot (R417), fewer than 16 collectives in
flight (R425). -/
def startRoom (s : State) (c : Nat) (op : EngOp) : Bool :=
  let slot := fun (_ : XblkOp) =>
    let q := blkQueue s (dieNo c) op.recA
    decide (q.inflight.length + 1 < bits op.recA (8 * 36) 16) && (smGet q.inflight q.tail).isNone
  match op.kind with
  | .blkRd o => slot o
  | .blkWr o => slot o
  | .blkFlush o => slot o
  | k => !isColl k || decide (((collsInFlight s op.launch).filter (fun e => e.2.2.state != .queued)).length < 16)

/-- A queued operation starts when it may; a started pod operation or collective sends on. -/
def startEngine (s : State) (c slot : Nat) : State :=
  match engOp s c slot with
  | none => s
  | some op =>
    if op.state == .queued && mayStart (coreOf s c) op.sb && streamOk s c op && !streamBusy s c slot op && startRoom s c op then
      let op := { op with state := .running, sbase := streamStart s c op.kind }
      startKind (postSector (setEngOp s c slot op) c slot op) c slot op
    else if op.state == .running && decide (op.sent < allSent op) then sendOn s c slot op
    else s

/-- A replay: the operation resumes from its checkpoint (R285). A storage operation has stopped before its first command. -/
def replayOp (s : State) (c slot : Nat) : State :=
  match engOp s c slot with
  | some op =>
    if op.state == .suspended then
      let op := { op with state := .running, faulted := none, faultAt := 0 }
      let s := postSector (setEngOp s c slot op) c slot op
      match op.kind with
      | .blkRd _ => startKind s c slot op
      | .blkWr _ => startKind s c slot op
      | _ => s
    else s
  | none => s

/-- ENGCTL_REPLAY (R285). -/
def execEngctlReplay (who core slot : Nat) (s : State) : Host.Outcome State Fault Refusal :=
  .next (if ownSup who (dieNo core) then replayOp s core slot else s)

/-- ASYNC_OP_START: the operation in an engine-queue slot (queue 0), or the next of a seat queue (queues 1 and 2),
starts if it may (R142, R143, R233). -/
def execAsyncOpStart (core queue slot : Nat) (s : State) : Host.Outcome State Fault Refusal :=
  .next (if queue = 0 then startEngine s core slot else startSeatOp s core (seatIx (queue - 1)))

/-! ### Sectors that complete (R283) -/

/-- The 32 bytes that a sector from outside writes at its local end, or what stops it (R421, R424). -/
def writeOutside (s : State) (c : Nat) (op : EngOp) (a n : Nat) (data : BitVec 256) : Except SectorStop State := do
  let (s, ks, us) ← engineBytes c op .store s a n
  .ok (settle (storeBytes s (ks.zipIdx.map (fun e => (e.1, bits data.toNat (8 * e.2) 8)))) (dieNo c) us)

/-- A local sector read by PUT or RAMO: the address of its first poisoned byte (R284). -/
def readOutside (s : State) (c : Nat) (op : EngOp) (q : Nat) : Except SectorStop (State × Option Nat) := do
  let a := op.xl.toNat + 32 * q
  let (s, ks, _) ← engineBytes c op .load s a 32
  .ok (s, (ks.zipIdx.find? (fun k => poisoned s k.1 1)).map (fun k => a + k.2))

/-- Its data was poisoned: a sector is counted with ECODE 4 (R284). -/
def poisonedSector (s : State) (c slot : Nat) (op : EngOp) (q a : Nat) : State :=
  countSectors (opPacket s c slot op .engineError a 4) c slot op [q] [q] (some 4)

/-- A sector that PUT or RAMO has sent is counted, with poisoned data marked (R284, R421). -/
def sentSector (s : State) (c slot : Nat) (op : EngOp) (q : Nat) : State :=
  match readOutside s c op q with
  | .ok (s, some a) => poisonedSector s c slot op q a
  | .ok (s, none) => countSectors s c slot op [q] [] none
  | .error e => sectorStopped s c slot op q e

/-- Bytes of the destination sector `q` of a collective (R424). -/
def collBytes (op : EngOp) (gather : Bool) (f : Fmt) (q : Nat) : Nat :=
  min 32 (ceilDiv (collElems op.recA gather * fmtWidth f) 8 - 32 * q)

/-- A sector whose data come from another package (R421, R424): written at the local end and counted. -/
def arriveSector (s : State) (c slot : Nat) (op : EngOp) (q a n : Nat) (data : BitVec 256) : State :=
  match writeOutside s c op a n data with
  | .ok s => countSectors s c slot op [q] [] none
  | .error e => sectorStopped s c slot op q e

/-- A span of a collective's buffer is global (R423). -/
def collGlobal (a n : Nat) : Except SectorStop Unit := if 2 ^ 56 < a + n then .error (.err 3 a) else .ok ()

/-- `n` bits of the member's own source from bit `b` on, with the address of the first poisoned byte among them (R423, R424). -/
def ownBits (s : State) (c : Nat) (op : EngOp) (b n : Nat) : Except SectorStop (State × Nat × Option Nat) := do
  let a := bits op.recA 0 64 + b / 8
  let len := ceilDiv (b % 8 + n) 8
  collGlobal a len
  let (s, ks, _) ← engineBytes c op .load s a len
  .ok (s, bits (ks.foldr (fun k v => (memGet s.mem k).toNat + 256 * v) 0) (b % 8) n,
    (ks.zipIdx.find? (fun k => poisoned s k.1 1)).map (fun k => a + k.2))

/-- What is combined with a member's own elements (R425): what arrives of the others'. The order of a floating-point sum is open, and
with three members or more its later parts come after the own elements: they are free, one for each further member (DESIGN CHOICE, log
entry 4). -/
def otherParts (s : State) (op : EngOp) (f : Fmt) (r : RedFn) (data : Nat) : List Nat :=
  let m := bits op.recA 256 16
  match fmtKind f, r with
  | .flt _, .add => data :: (List.range (m - 2)).map (fun i => (Config.freeV (s.sched.freeCtr + i)).toNat % 2 ^ 256)
  | _, _ => [data]

/-- What a reducing collective makes of the member's own elements and of what the other members' come to, each combination rounded under
R288 (R424, R425). -/
def reduced (s : State) (op : EngOp) (f : Fmt) (r : RedFn) (own data : Nat) : Nat :=
  if bits op.recA 256 16 = 1 then own else (otherParts s op f r data).foldl (redSector r f) own

/-- The data of sector `q` of a collective's destination, of `n` bytes: the member's own part, and what `data` brings of the others
(R424). -/
def collData (s : State) (c : Nat) (op : EngOp) (f : Fmt) (q n data : Nat) : Except SectorStop (State × Nat × Option Nat) :=
  let len := bits op.recA 128 32 * fmtWidth f
  let at' := bits op.recA 272 16 * len
  let red := fun (r : RedFn) (from' : Nat) => do
    let (s, v, bad) ← ownBits s c op (from' + 256 * q) (min 256 (len - 256 * q))
    .ok (s, reduced s op f r v data, bad)
  match op.kind with
  | .allred o => red o.op 0
  | .redsct o => red o.op at'
  | _ =>
    let lo := max (256 * q) at'
    let hi := min (256 * q + 8 * n) (at' + len)
    if hi ≤ lo then .ok (s, data, none)
    else do
      let (s, v, bad) ← ownBits s c op (lo - at') (hi - lo)
      .ok (s, putBits data (lo - 256 * q) (hi - lo) v, bad)

/-- A sector of a collective is formed and written (R424, R425). What is written for a poisoned source is open (DESIGN CHOICE, log
entry 4). -/
def collSector (s : State) (c slot : Nat) (op : EngOp) (f : Fmt) (gather : Bool) (q : Nat) (data : BitVec 256) : State :=
  let a := bits op.recA 64 64 + 32 * q
  let n := collBytes op gather f q
  let go := do
    collGlobal a n
    let (s, v, bad) ← collData s c op f q n data.toNat
    let v := if bad.isSome then (Config.freeV s.sched.freeCtr).toNat else v
    let s ← writeOutside { s with sched := { s.sched with freeCtr := s.sched.freeCtr + bits op.recA 256 16 } } c op a n (BitVec.ofNat 256 v)
    .ok (s, bad)
  match go with
  | .ok (s, some p) => poisonedSector s c slot op q p
  | .ok (s, none) => countSectors s c slot op [q] [] none
  | .error e => sectorStopped s c slot op q e

/-- ENGINE_SECTOR_COMPLETE (R283): a sector's writes perform and it is counted. `data` are the bytes that another
package sends for GET, and what the other members' elements come to for a collective. -/
def execEngineSectorComplete (core slot sector : Nat) (data : BitVec 256) (s : State) : Host.Outcome State Fault Refusal :=
  match runningOp s core slot sector with
  | none => .next s
  | some op =>
    .next (match wayOf op.kind with
      | .engine => copySector s core slot op sector
      | .reduce => if sectorApplied s core slot op sector then countSectors s core slot op [sector] [] none else s
      | .bank => if sectorApplied s core slot op sector then countSectors s core slot op [sector] [] none else s
      | .outside =>
        match op.kind with
        | .get _ => if sector < op.sent then arriveSector s core slot op sector (op.xl.toNat + 32 * sector) 32 data else s
        | .put _ => if sector < op.sent then sentSector s core slot op sector else s
        | .ramo _ => if sector < op.sent then sentSector s core slot op sector else s
        | .allred o => collSector s core slot op o.fmt false sector data
        | .allgth o => collSector s core slot op o.fmt true sector data
        | .redsct o => collSector s core slot op o.fmt false sector data
        | .cbar _ => countSectors s core slot op [sector] [] none
        | _ => s)

/-- NVME_COMPLETION (R417): the completion entry of an operation's oldest command arrives; its slot is free again (PRESUMED, log entry 20). -/
def execNvmeCompletion (core slot status : Nat) (s : State) : Host.Outcome State Fault Refusal :=
  match engOp s core slot with
  | none => .next s
  | some op =>
    let d := dieNo core
    let q := blkQueue s d op.recA
    match q.inflight.find? (fun e => e.2 == (core, slot)) with
    | none => .next s
    | some (cid, _) =>
      let size := bits op.recA (8 * 36) 16
      let q' := { q with inflight := smDel q.inflight cid, head := (q.head + 1) % size,
                         phase := if q.head + 1 = size then !q.phase else q.phase }
      let s := setBlkQueue s d op.recA q'
      if status ≠ 0 then .next (endBlk s core slot op)
      else
        let done := op.counted.length
        let qs := ((List.range (opSectors op)).drop done).take (commandSectors op)
        let s := countSectors s core slot op qs [] none
        let s := match engOp s core slot with
          | some op' => if op'.seq = op.seq then issueCommands s core slot op' (blkCommands op) else s
          | none => s
        .next (kick s core)
where
  /-- A storage operation ends with ECODE 7; its other commands are forgotten. -/
  endBlk (s : State) (c slot : Nat) (op : EngOp) : State :=
    let q := blkQueue s (dieNo c) op.recA
    let s := setBlkQueue s (dieNo c) op.recA { q with inflight := q.inflight.filter (fun e => e.2 != (c, slot)) }
    endError s c slot 7 op.xl.toNat false

/-- XBLK_TIMEOUT (R417): a storage operation whose command has no completion ends with ECODE 7. -/
def execXblkTimeout (core slot : Nat) (s : State) : Host.Outcome State Fault Refusal :=
  match engOp s core slot with
  | none => .next s
  | some op =>
    let q := blkQueue s (dieNo core) op.recA
    if q.inflight.any (fun e => e.2 == (core, slot)) then .next (execNvmeCompletion.endBlk s core slot op) else .next s

/-- POD_OP_TIMEOUT (R421): an operation whose target does not answer ends with ECODE 5. -/
def execPodOpTimeout (core slot : Nat) (s : State) : Host.Outcome State Fault Refusal :=
  match engOp s core slot with
  | none => .next s
  | some op =>
    .next (match op.state, op.kind with
      | .running, .get _ => endError s core slot 5 op.xs.toNat false
      | .running, .put _ => endError s core slot 5 op.xs.toNat false
      | .running, .ramo _ => endError s core slot 5 op.xs.toNat false
      | _, _ => s)

/-- COLL_TIMEOUT (R425): an incomplete collective ends with ECODE 5. -/
def execCollTimeout (core slot : Nat) (s : State) : Host.Outcome State Fault Refusal :=
  match engOp s core slot with
  | none => .next s
  | some op => .next (if isColl op.kind then endError s core slot 5 op.xs.toNat false else s)

/-! ### Packets of other packages (R421, R422) -/

/-- The launch of a pod group. -/
def groupLaunch (s : State) (g : Nat) : Option Launch :=
  (s.pkg.launches.find? (fun e => e.2.gv && e.2.group == g)).map (·.2)

/-- The packet is current: it names this package's incarnation, and its source's is that of the member entry (R422). -/
def podCurrent (s : State) (x : Launch) (p : PodPacket) : Bool :=
  p.target == s.pkg.inc && (List.range x.mcnt).any (fun r =>
    let e := memberEntry s x r
    bit e 31 && bits e 0 14 == p.src && bits e 14 4 == p.inc)

/-- Core of the group's launch at whose place a packet's sector is applied. -/
def podCore (x : Launch) : Nat := quadCore ((x.quads.head?).getD 0) 0

/-- The physical place of a packet's 32 bytes, translated at the target under the group's context (R419, R421). -/
def podTarget (s : State) (x : Launch) (acc : Access) (a : X) : Option (State × Nat) :=
  match classOf s (podCore x) a with
  | .global =>
    match translate s (podCore x) (some x.ctx) a.toNat acc with
    | some (s, pa, mt, _) => if (acc == .atomic && mt != 0) || decide (2 ^ 41 ≤ pa) then none else some (s, pa)
    | none => none
  | .shared o => some (s, larderKey o)
  | _ => none

/-- The line for which a packet's access waits: a speculative task holds it, or a die's own active request must perform first (R257,
R333). -/
def podHeld (s : State) (x : Launch) (acc : Access) (a : X) : Option Nat :=
  match classOf s (podCore x) a with
  | .global =>
    match translate s (podCore x) (some x.ctx) a.toNat acc with
    | some (s, pa, _, de) =>
      if (de && (holder s 0 (some a.toNat) (lineOf pa) (writes acc)).isSome) || !(recallWaits s none (lineOf pa) (writes acc)).isEmpty
      then some (lineOf pa) else none
    | none => none
  | _ => none

/-- The way of a packet's access: the entries of its translation, and its Larder bank, HBM stack and the flues of the dies that the
directory snoops (R353, R358, R367, R438). -/
def podWay (s : State) (x : Launch) (acc : Access) (a : X) : Path :=
  match classOf s (podCore x) a with
  | .global =>
    (transWay s (podCore x) (some x.ctx) a.toNat acc).andThen (match translate s (podCore x) (some x.ctx) a.toNat acc with
      | some (s, pa, _, _) => hostWay s pa (writes acc)
      | none => .opened)
  | .shared o => functionsOpen s [1280 + o / 256 % (128 * s.pkg.shared)]
  | _ => .opened

/-- The Larder reads a line for a packet: what dies have written is written back, and they keep the line for reading (R353, R421). -/
def larderGet (s : State) (k : Nat) : State :=
  if k < 2 ^ 40 then setDirectory (writtenBack s (lineOf k)) (lineOf k) { directoryOf s (lineOf k) with exclusive := false } else s

/-- The answer to a packet leaves for its source (R418, R421). -/
def answerPod (s : State) (p : PodPacket) (r : PodReply) : State :=
  let s := onPkg s (fun k => { k with podAnswer := some ⟨p.src, p.opId, p.sector, r⟩ })
  match sectorPort s p.src p.opId p.sector with
  | some port => (sendFlit s port).getD s
  | none => s

/-- A packet's sector is performed at its place and answered; it waits for its way, waking a Drowsy flue, and while a line is held, is
refused where its check fails, and has no answer where a way has failed (R333, R366, R421, R438). -/
def atTarget (s : State) (x : Launch) (p : PodPacket) (acc : Access) (f : State → Nat → State) : State :=
  let w := writes acc
  match podWay s x acc p.addr with
  | .opened =>
    match podHeld s x acc p.addr, podTarget s x acc p.addr with
    | some line, _ => dueEvent ((recallWaits s none line w).foldl (fun s d => askBack s d line w) s) (.podPacketReceive p line w)
    | none, some (s, k) => f s k
    | none, none => answerPod s p .refused
  | .waking g => dueEvent (wakeFlue s g) (.podPacketReceive p voidKey w)
  | .notReady _ => dueEvent s (.podPacketReceive p voidKey w)
  | _ => s

/-- What a RAMO sector of another package's operation is known by at its home (R289). -/
def ramoId (p : PodPacket) : Nat := 2 ^ 32 + p.src * 2 ^ 36 + p.inc * 2 ^ 50 + p.opId % 2 ^ 32

/-- A RAMO sector is combined once (R289, R421); poisoned data stay as they are. -/
def ramoSector (s : State) (p : PodPacket) (op : RedFn) (f : Fmt) (d : BitVec 256) (k : Nat) : State :=
  if (smGetD s.pkg.applied (ramoId p) []).contains p.sector then answerPod s p .applied
  else if poisoned s k 32 then answerPod s p .poisoned
  else
    let s := storeKey s k 32 (redSector op f (memRead s.mem k 32) d.toNat)
    let s := joinFireAll s k 32
    let old := smGetD s.pkg.applied (ramoId p) []
    answerPod (onPkg s (fun k => { k with applied := smSet k.applied (ramoId p) (insertNat old p.sector) })) p .applied

/-- The answer to a sector of this package's own operation: the target refused it, or found its data poisoned (R284, R421). -/
def podAnswered (s : State) (p : PodPacket) (refused : Bool) : State :=
  let c := p.opId / 2 ^ 20
  let slot := p.opId / 2 ^ 15 % 32
  match runningOp s c slot p.sector with
  | some op =>
    let a := op.xs.toNat + 32 * p.sector
    if opId c slot op != p.opId || !isPod op.kind || decide (op.sent ≤ p.sector) then s
    else if refused then endError s c slot 3 a false
    else poisonedSector (fillUndone s c op [p.sector]) c slot op p.sector a
  | none => s

/-- POD_PACKET_RECEIVE (R421, R422, R425): the target applies a sector and answers; a RAMO sector takes effect once (R289); the
answer to an own operation's sector says that it failed; a collective that disagrees with its members ends with ECODE 3. -/
def execPodPacketReceive (pkt : PodPacket) (s : State) : Host.Outcome State Fault Refusal :=
  match groupLaunch s pkt.group with
  | none => .next s
  | some x =>
    .next (if !podCurrent s x pkt then s
    else match pkt.what with
      | .get => atTarget s x pkt .load (fun s k =>
          answerPod (larderGet s k) pkt (if poisoned s k 32 then .poisoned else .data (BitVec.ofNat 256 (memRead s.mem k 32))))
      | .put d => atTarget s x pkt .store (fun s k => answerPod (storeKey s k 32 d.toNat) pkt .applied)
      | .ramo op f d => atTarget s x pkt .atomic (fun s k => ramoSector s pkt op f d k)
      | .refused => podAnswered s pkt true
      | .poisoned => podAnswered s pkt false
      | .disagree tag =>
        let launch := (s.pkg.launches.find? (fun e => e.2.gv && e.2.group == pkt.group)).map (·.1)
        (collsInFlight s launch).foldl (fun s e => if collTag e.2.2.recA == tag then endError s e.1 e.2.1 3 e.2.2.xs.toNat false else s) s)

end Sys2Proof.Machine
end

