-- ==== Sys2Proof/Machine/Window.lean ====
section
/-! DEFINITION. The supervisor's windows by doublewords: debug windows (R146, R217 to R219), die control window (R253, R163,
R249, R262, R285, R292), Hearth window (R339 to R341), Larder window (R351, R352, R365, R367, R371, R374, R376, R427, R437, R442),
Horn window (R418). -/

namespace Sys2Proof.Machine

/-! ### Debug windows (R217 to R219) -/

/-- Doubleword `j` of a comparator (R219). -/
def comparatorDword (x : Comparator) (j : Nat) : Nat :=
  match j with
  | 0 => x.addr.toNat + x.en.toNat * 2 ^ 48 + x.icen.toNat * 2 ^ 49 + x.lmen.toNat * 2 ^ 50
  | 1 => x.lmask.toNat
  | 2 => x.icount.toNat
  | _ => x.hits.toNat

/-- A comparator with doubleword `j` written. -/
def writeComparator (x : Comparator) (j w : Nat) : Comparator :=
  match j with
  | 0 => { x with addr := BitVec.ofNat 48 (w / 2 * 2), en := bit w 48, icen := bit w 49, lmen := bit w 50 }
  | 1 => { x with lmask := BitVec.ofNat 16 w }
  | 2 => { x with icount := BitVec.ofNat 64 w }
  | _ => { x with hits := BitVec.ofNat 64 w }

/-- The bits of an LM doubleword that a window write changes: all but the reserved and read-only ones of the core-state
block (R176, R182, R194). -/
def lmMask (o : Nat) : Nat :=
  let all := 2 ^ 64 - 1
  if o < 0x7F000 ∨ 0x7FA00 ≤ o then all
  else if o < 0x7F080 then (if o / 8 % 4 = 1 then 2 ^ 64 - 2 ^ 16 + 1 else all)
  else if o < 0x7F100 then 0
  else if o < 0x7F300 then (if o / 8 % 4 < 2 then 0 else if o / 8 % 4 = 2 then 2 ^ 64 - 2 ^ 26 else all)
  else if o < 0x7F400 then 0
  else if o < 0x7F800 then all
  else if o / 8 % 4 = 0 then all
  else if o / 8 % 4 = 1 then 2 ^ 42 - 1 - 2 ^ 31 else 0

/-- An LM offset lies in the lanes' frames (R22). -/
def inFrames (a : Nat) : Bool := decide (atticBase ≤ a ∧ a < 0x7E000)

/-- The doubleword at offset `o` of core `c`'s debug window. -/
def debugRead (s : State) (c o : Nat) : Nat :=
  let k := coreOf s c
  if o = 0 then k.ctl.hold.toNat
  else if 0x100 ≤ o ∧ o < 0x180 then lctlWord (laneOf s c ((o - 0x100) / 8))
  else if 0x1000 ≤ o ∧ o < 0x1100 then comparatorDword k.ctl.comparators[ix8 ((o - 0x1000) / 32)] (o / 8 % 4)
  else if 0x2000 ≤ o ∧ o < 0x2300 then bits (sbWord k ((o - 0x2000) / 16)) (64 * (o / 8 % 2)) 64
  else if 0x40000 ≤ o ∧ o < 0x60000 then memRead s.mem (bankKey c (o - 0x40000)) 8
  else if 0x80000 ≤ o ∧ o < 0x100000 then
    let a := o - 0x80000
    if inFrames a then
      frameDword (laneOf s c ((a - atticBase) / 0x1200)).frame ((a - atticBase) % 0x1200 / 8)
    else memRead s.mem (lmKey c a) 8
  else 0

/-- `n` bytes within a doubleword written to the lanes' frames through the window (R22, R217). -/
def frameStore (s : State) (c a n v : Nat) : State := frameWrite s c ((a - atticBase) / 0x1200) ((a - atticBase) % 0x1200) n v

/-- Doubleword `w` written to LM through the window: what waits for the core's buffers looks at them again (R188, R189) (DEDUCED, log
entry 34). -/
def lmWindowWrite (s : State) (c a w : Nat) : State :=
  if inFrames a then frameStore s c a 8 w
  else
    let old := memRead s.mem (lmKey c a) 8
    let s := storeKey s (lmKey c a) 8 ((w &&& lmMask a) ||| (old &&& (2 ^ 64 - 1 - lmMask a)))
    if 0x7F100 ≤ a ∧ a < 0x7F800 then bufferChanged s c else s

/-- Doubleword `w` written at offset `o` of core `c`'s debug window. -/
def debugStore (s : State) (c o w : Nat) : State :=
  if o = 0 then
    let s := setHold s c (bit w 0)
    let s := if bit w 1 then freezeAll s c else s
    if bit w 2 then onCore s c flushCore else s
  else if 0x100 ≤ o ∧ o < 0x180 then setFrzreq s c ((o - 0x100) / 8) (bit w 0)
  else if 0x1000 ≤ o ∧ o < 0x1100 then
    let i := ix8 ((o - 0x1000) / 32)
    onCore s c (fun k => { k with ctl := { k.ctl with
      comparators := k.ctl.comparators.set i (writeComparator k.ctl.comparators[i] (o / 8 % 4) w) } })
  else if 0x40000 ≤ o ∧ o < 0x60000 then
    -- bits 95:89 of a neuron are reserved (R193)
    let w := if o / 8 % 2 = 1 then putBits w 25 7 0 else w
    onMem s (fun m => memWrite m (bankKey c (o - 0x40000)) 8 w)
  else if 0x80000 ≤ o ∧ o < 0x100000 then lmWindowWrite s c (o - 0x80000) w
  else s

/-! ### Die control window (R253) -/

/-- The four 16-bit entries from entry `i` of a map, as a doubleword. -/
def entriesDword (m : SMap (BitVec 16)) (i : Nat) : Nat :=
  (List.range 4).foldl (fun h j => h + (smGetD m (i + j) 0).toNat * 2 ^ (16 * j)) 0

/-- A map with the four entries from entry `i` written; bits 14:12 of an entry are reserved (R163, R253). -/
def writeEntries (m : SMap (BitVec 16)) (i w : Nat) : SMap (BitVec 16) :=
  (List.range 4).foldl (fun m j =>
    let e := putBits (bits w (16 * j) 16) 12 3 0
    if e = 0 then smDel m (i + j) else smSet m (i + j) (BitVec.ofNat 16 e)) m

/-- Doubleword `j` of a row's DMA command block (R292). -/
def dmaDword (b : DmaBlock) (j : Nat) : Nat :=
  match j with
  | 1 => b.cellBase.toNat
  | 2 => b.col + b.op * 2 ^ 8 + b.stat * 2 ^ 10
      + (List.range 4).foldl (fun h i => h + (b.vc[i]?.getD 0) * 2 ^ (16 + 12 * i)) 0
  | _ => 0

/-- Doubleword `w` written to a row's DMA command block; GO starts it (R292). A busy engine keeps its command (DEDUCED, log entry 33). -/
def writeDma (s : State) (d r j w : Nat) : State :=
  let b := dmaOf s d r
  if b.stat = 1 then s
  else match j with
  | 1 => setDma s d r { b with cellBase := BitVec.ofNat 64 (bits w 16 36 * 2 ^ 16) }
  | 2 =>
    let vc := Vector.ofFn (fun (i : Fin 4) => bits w (16 + 12 * i.val) 12)
    let s := setDma s d r { b with col := bits w 0 3, op := bits w 8 2, vc := vc }
    if bit w 7 then dmaGo s d r else s
  | _ => s

/-- The ENGCTL register of a queue slot (R285). -/
def engctlWord (s : State) (c slot : Nat) : Nat :=
  match engOp s c slot with
  | some op => opId c slot op * 2 ^ 32 + opStateCode op.state * 2 ^ 4
  | none => 0

/-- The doubleword at offset `o` of die `d`'s control window. -/
def dieRead (s : State) (d o : Nat) : Nat :=
  let x := dieOf s d
  if o < 0x20000 then
    let m := smGetD x.owners (o / 0x4000) OwnerMap.reset
    let a := o % 0x4000
    if a = 0 then m.base.toNat
    else if a = 8 then m.limit.toNat
    else if a = 16 then m.shift + m.en.toNat * 2 ^ 63
    else if 0x2000 ≤ a then entriesDword m.entries ((a - 0x2000) / 2)
    else 0
  else if o < 0x30000 then entriesDword (smGetD x.vmaps ((o - 0x20000) / 0x2000) []) (o % 0x2000 / 2)
  else if 0x40000 ≤ o ∧ o < 0x41400 then
    let a := o - 0x40000
    if a % 0x40 = 0 then (quadOf s (d * 80 + a / 0x40)).gstat[0].toNat
    else if a % 0x40 = 8 then (quadOf s (d * 80 + a / 0x40)).gstat[1].toNat
    else 0
  else if 0x50000 ≤ o ∧ o < 0x51000 then (if o / 8 % 2 = 0 then (smGetD x.ctxs ((o - 0x50000) / 16) 0).toNat else 0)
  else if 0x60000 ≤ o ∧ o < 0x74000 then
    let i := (o - 0x60000) / 8
    engctlWord s (d * 512 + i / 32) (i % 32)
  else if 0x80000 ≤ o ∧ o < 0x80140 then dmaDword (dmaOf s d ((o - 0x80000) / 32)) (o / 8 % 4)
  else 0

/-- Doubleword `w` written at offset `a` of an owner map (R163). -/
def writeOwner (m : OwnerMap) (a w : Nat) : OwnerMap :=
  if a = 0 then { m with base := BitVec.ofNat 64 w }
  else if a = 8 then { m with limit := BitVec.ofNat 64 w }
  else if a = 16 then { m with en := bit w 63, shift := if 6 ≤ w % 64 ∧ w % 64 ≤ 36 then w % 64 else m.shift }
  else if 0x2000 ≤ a then { m with entries := writeEntries m.entries ((a - 0x2000) / 2) w }
  else m

/-- Doubleword `w` written at offset `o` of die `d`'s control window. -/
def dieStore (s : State) (d o w : Nat) : State :=
  if o < 0x20000 then
    onDie s d (fun x =>
      let m := smGetD x.owners (o / 0x4000) OwnerMap.reset
      { x with owners := smSet x.owners (o / 0x4000) (writeOwner m (o % 0x4000) w) })
  else if o < 0x30000 then
    -- messages on their way follow the map (R294)
    follow (onDie s d (fun x =>
      let i := (o - 0x20000) / 0x2000
      { x with vmaps := smSet x.vmaps i (writeEntries (smGetD x.vmaps i []) (o % 0x2000 / 2) w) }))
  else if 0x50000 ≤ o ∧ o < 0x51000 then
    (if o / 8 % 2 = 0 then
      onDie s d (fun x =>
        let e := bits w 63 1 * 2 ^ 63 + bits w 14 38 * 2 ^ 14
        { x with ctxs := smSet x.ctxs ((o - 0x50000) / 16) (BitVec.ofNat 64 e) })
    else s)
  else if 0x60000 ≤ o ∧ o < 0x74000 then
    let i := (o - 0x60000) / 8
    (if w % 4 = 1 then replayOp s (d * 512 + i / 32) (i % 32)
    else if w % 4 = 2 then failOp s (d * 512 + i / 32) (i % 32) else s)
  else if 0x80000 ≤ o ∧ o < 0x80140 then writeDma s d ((o - 0x80000) / 32) (o / 8 % 4) w
  else s

/-! ### Hearth window (R339 to R341) -/

/-- Doubleword `j` of a domain descriptor (R340). -/
def domainDword (d : Domain) (j : Nat) : Nat :=
  match j with
  | 0 => d.id + d.live.toNat * 2 ^ 16 + d.ordered.toNat * 2 ^ 17 + d.susp.toNat * 2 ^ 18 + d.launch * 2 ^ 32
  | 1 => d.qmap.toNat | 2 => d.tspill.toNat | 3 => d.tssize.toNat | 4 => d.undo.toNat | 5 => d.espill.toNat
  | 6 => d.essize.toNat | _ => d.rest.toNat

/-- A descriptor that is not live with doubleword `j` after the first written (R340). -/
def writeDomain (d : Domain) (j w : Nat) : Domain :=
  let v := BitVec.ofNat 64 w
  match j with
  | 1 => { d with qmap := v } | 2 => { d with tspill := v } | 3 => { d with tssize := v } | 4 => { d with undo := v }
  | 5 => { d with espill := v } | 6 => { d with essize := v } | _ => { d with rest := v }

/-- Doubleword `j` of a domain's status (R341). -/
def statusDword (d : Domain) (j : Nat) : Nat :=
  match j with
  | 0 => d.gvt.toNat
  | 1 => d.gvttb.toNat + d.safe.toNat * 2 ^ 32
  | 2 => d.commits.toNat
  | _ => d.aborts.toNat + d.spillf.toNat * 2 ^ 62 + d.derr.toNat * 2 ^ 63

/-- The doubleword at offset `o` of the Hearth window. -/
def hearthRead (s : State) (o : Nat) : Nat :=
  let h := s.hearth
  if o = 0 then h.hround
  else if o = 8 then (h.domains.filter (fun e => e.2.live)).length + h.rounds.toNat * 2 ^ 32
  else if 0x10000 ≤ o ∧ o < 0x50000 then domainDword (slotOf' s ((o - 0x10000) / 64)) (o / 8 % 8)
  else if 0x80000 ≤ o ∧ o < 0xA0000 then statusDword (slotOf' s ((o - 0x80000) / 32)) (o / 8 % 4)
  else 0

/-- Doubleword `w` written at offset `o` of the Hearth window. -/
def hearthStore (s : State) (o w : Nat) : State :=
  if o = 0 then
    (if 256 ≤ w % 2 ^ 13 ∧ w % 2 ^ 13 ≤ 4096 then onHearth s (fun h => { h with hround := w % 2 ^ 13 }) else s)
  else if 0x10000 ≤ o ∧ o < 0x50000 then
    let i := (o - 0x10000) / 64
    (if o / 8 % 8 = 0 then writeDescriptor s i w
    else if (slotOf' s i).live then s else setSlot s i (writeDomain (slotOf' s i) (o / 8 % 8) w))
  else if 0x80000 ≤ o ∧ o < 0xA0000 ∧ o / 8 % 4 = 3 ∧ bit w 63 then
    let i := (o - 0x80000) / 32
    setSlot s i { slotOf' s i with derr := false }
  else s

/-! ### Larder window (R351) -/

/-- FLSTAT of a flue (R365). -/
def flstatWord (x : Flue) : Nat :=
  x.gab % 32 * 2 ^ 8 + x.lastb.toNat * 2 ^ 18 + x.turning.isSome.toNat * 2 ^ 19 + x.qa.length * 2 ^ 20 + x.qb.length * 2 ^ 23
    + x.pwr * 2 ^ 26 + x.turns % 2 ^ 16 * 2 ^ 32 + x.drops % 2 ^ 16 * 2 ^ 48

/-- INCARN (R376). -/
def incarnWord (s : State) : Nat :=
  s.pkg.inc % 16 * 2 ^ 32 + (List.range 8).foldl (fun h d => h + (dieOf s d).inc % 16 * 2 ^ (4 * d)) 0

/-- The barrier that offset `o` of the Larder window configures: its scope, die and ID (R351). -/
def barrierAt (o : Nat) : Option (Scope × Nat × Nat) :=
  if 0x2000 ≤ o ∧ o < 0x3000 then some (.die, (o - 0x2000) / 0x200, o % 0x200 / 16)
  else if 0x3000 ≤ o ∧ o < 0x3400 then some (.pkg, 0, (o - 0x3000) / 16)
  else if 0x3800 ≤ o ∧ o < 0x3C00 then some (.pod, 0, (o - 0x3800) / 16)
  else none

/-- The doubleword at offset `o` of the Larder window. -/
def larderRead (s : State) (o : Nat) : Nat :=
  match barrierAt o with
  | some (sc, d, i) =>
    let b := netBarrier s sc d i
    if o / 8 % 2 = 0 then barrierLow (sc == .pod) b else barrierHigh (sc == .pod) b
  | none =>
    if o = 0 then s.pkg.shared
    else if o = 8 then incarnWord s
    else if 0x100 ≤ o ∧ o < 0x140 then (dieOf s ((o - 0x100) / 8)).rst * 4
    else if 0x1000 ≤ o ∧ o < 0x1200 then
      let x := flueOf s ((o - 0x1000) / 32)
      (if o / 8 % 4 = 0 then flstatWord x else if o / 8 % 4 = 2 then x.idle % 2 ^ 16 + x.pin.toNat * 2 ^ 16 else 0)
    else if 0x4000 ≤ o ∧ o < 0x4130 then bits s.pkg.ready (8 * (o - 0x4000)) 64
    else if 0x4180 ≤ o ∧ o < 0x42B0 then bits s.pkg.failed (8 * (o - 0x4180)) 64
    else if 0x5000 ≤ o ∧ o < 0x7000 then accountDword (accountOf s ((o - 0x5000) / 32)) (o / 8 % 4)
    else 0

/-- A command of DIERST (R374). -/
def dieCommand (s : State) (d cmd : Nat) : State :=
  if cmd = 1 then dieNormal s d else if cmd = 2 then dieAbrupt s d else if cmd = 3 then dieRejoin s d else s

/-- Doubleword `w` written at offset `o` of the Larder window. -/
def larderStore (s : State) (o w : Nat) : State :=
  match barrierAt o with
  | some (sc, d, i) => if o / 8 % 2 = 0 then writeBarrierLow s sc d i w else writeBarrierHigh s sc d i w
  | none =>
    if 0x100 ≤ o ∧ o < 0x140 then dieCommand s ((o - 0x100) / 8) (w % 4)
    else if 0x1000 ≤ o ∧ o < 0x1200 then
      let f := (o - 0x1000) / 32
      (if o / 8 % 4 = 1 then writeFlcmd s f w
      else if o / 8 % 4 = 2 then setFlue s f { flueOf s f with idle := w % 2 ^ 16, pin := bit w 16 } else s)
    else if 0x5000 ≤ o ∧ o < 0x7000 then writeAccount s ((o - 0x5000) / 32) (o / 8 % 4) w
    else s

/-! ### Horn window (R418) -/

/-- HPSTAT of a port. -/
def hpstatWord (x : HornPort) : Nat := x.state % 4 + x.downs % 2 ^ 16 * 2 ^ 32 + x.retry % 2 ^ 16 * 2 ^ 48

/-- The doubleword at offset `o` of the Horn window. -/
def hornRead (s : State) (o : Nat) : Nat :=
  if o = 0 then s.pkg.pkgId
  else if 0x100 ≤ o ∧ o < 0x300 then hpstatWord (portOf s ((o - 0x100) / 8))
  else if 0x10000 ≤ o ∧ o < 0x30000 then (smGetD s.pkg.routes ((o - 0x10000) / 8) 0).toNat
  else 0

/-- Doubleword `w` written at offset `o` of the Horn window. -/
def hornStore (s : State) (o w : Nat) : State :=
  if o = 0 then onPkg s (fun p => { p with pkgId := w % 2 ^ 14 })
  else if 0x10000 ≤ o ∧ o < 0x30000 then
    onPkg s (fun p => { p with routes := smSet p.routes ((o - 0x10000) / 8) (BitVec.ofNat 64 w) })
  else s

/-! ### All windows -/

/-- A place in a window that core `who` reaches. -/
inductive WindowPlace where
  | debug (core off : Nat)
  | die (d off : Nat)
  | hearth (off : Nat)
  | larder (off : Nat)
  | horn (off : Nat)
  | none
  deriving DecidableEq, Repr

/-- The window place of a physical address, for core `who`: the debug windows and the die control window belong to the
supervisors of the die, the others to every supervisor (R217, R253, R339, R351, R418) (DEDUCED, log entry 34). -/
def windowPlace (who pa : Nat) : WindowPlace :=
  let o := pa % 2 ^ 40 / 8 * 8
  let w := pa / 2 ^ 40
  if w = 0xFF0 ∧ o < 2 ^ 32 then (if reachesCore who (o / 2 ^ 20) then .debug (o / 2 ^ 20) (o % 2 ^ 20) else .none)
  else if w = 0xFF1 ∧ o < 2 ^ 27 then (if ownSup who (o / 2 ^ 24) then .die (o / 2 ^ 24) (o % 2 ^ 24) else .none)
  else if !isSup who then .none
  else if w = 0xFF2 then .hearth o
  else if w = 0xFF3 then .larder o
  else if w = 0xFF4 then .horn o
  else .none

/-- The doubleword at a window place. -/
def windowRead (s : State) : WindowPlace → Nat
  | .debug c o => debugRead s c o
  | .die d o => dieRead s d o
  | .hearth o => hearthRead s o
  | .larder o => larderRead s o
  | .horn o => hornRead s o
  | .none => 0

/-- A doubleword written at a window place (DEDUCED, log entry 34). -/
def windowStore (s : State) (p : WindowPlace) (w : Nat) : State :=
  match p with
  | .debug c o => debugStore s c o w
  | .die d o => dieStore s d o w
  | .hearth o => hearthStore s o w
  | .larder o => larderStore s o w
  | .horn o => hornStore s o w
  | .none => s

/-- What the bytes of a doubleword that a narrower write leaves out count as: what they read, but for bits that a written
1 clears (R341). -/
def windowImage (s : State) : WindowPlace → Nat
  | .hearth o => if 0x80000 ≤ o then 0 else hearthRead s o
  | p => windowRead s p

/-- A read of `n` bytes in one doubleword by core `who`. -/
def windowLoad (s : State) (who pa n : Nat) : Nat := bits (windowRead s (windowPlace who pa)) (8 * (pa % 8)) (8 * n)

/-- A write of `n` bytes in one doubleword by core `who`. -/
def windowPut (s : State) (who pa n v : Nat) : State :=
  let p := windowPlace who pa
  let whole := windowStore s p (mergeBytes (windowImage s p) (pa % 8) n v)
  match p with
  | .debug c o => if 0x80000 ≤ o && inFrames (o - 0x80000) then frameStore s c (o - 0x80000 + pa % 8) n v else whole
  | _ => whole

/-- The windows, as the loads and stores of lanes reach them. -/
def windows : Devices := ⟨windowLoad, windowPut⟩

/-- A doubleword whose write acts on the others of its register: it takes effect after them (R219, R292, R340, R371, R442) (DEDUCED, log entry 34). -/
def actsLast (who pa : Nat) : Bool :=
  match windowPlace who pa with
  | .debug _ o => decide (0x1000 ≤ o ∧ o < 0x1100 ∧ o / 8 % 4 = 0)
  | .die _ o => decide (0x80000 ≤ o ∧ o / 8 % 4 = 2)
  | .hearth o => decide (0x10000 ≤ o ∧ o < 0x50000 ∧ o / 8 % 8 = 0)
  | .larder o => (barrierAt o).isSome && o / 8 % 2 == 0
  | _ => false

/-- The pieces of a write of `n` bytes that lie in one doubleword each: address, bytes, value (DEDUCED, log entry 34). -/
def writePieces (pa n v : Nat) : List (Nat × Nat × Nat) :=
  (List.range ((pa % 8 + n + 7) / 8)).map (fun i =>
    let lo := max pa (pa / 8 * 8 + 8 * i)
    let hi := min (pa + n) (pa / 8 * 8 + 8 * i + 8)
    (lo, hi - lo, v / 2 ^ (8 * (lo - pa)) % 2 ^ (8 * (hi - lo))))

/-- REGISTER_WRITE (R10, R11, R351): core `who` writes `n` bytes, at most 64, of a window. -/
def execRegisterWrite (who pa n : Nat) (value : BitVec 512) (s : State) : Host.Outcome State Fault Refusal :=
  .next (if decide (0 < n ∧ n ≤ 64) && isWindow pa && isWindow (pa + n - 1) then
    let ps := writePieces pa n value.toNat
    (ps.filter (fun p => !actsLast who p.1) ++ ps.filter (fun p => actsLast who p.1)).foldl
      (fun s p => windowPut s who p.1 p.2.1 p.2.2) s
  else s)

end Sys2Proof.Machine
end

