-- ==== Sys2Proof/Machine/LoadStore.lean ====
section
/-! DEFINITION. Loads, stores, vector accesses, atomics, WAITC and PREF (R147 to R157) in their C, M, R and X forms. -/

namespace Sys2Proof.Machine

/-! ### Scalar accesses (R151) -/

/-- A load: destination, address, size in bytes, sign extension, order. -/
structure LoadArgs where
  d : Reg
  srcs : List Opnd
  addr : Lane → X
  size : Nat
  signed : Bool
  ordered : Bool
  /-- Before it performs, what was written is written back to the package (R152). -/
  prom : Bool

/-- What `.acq.prom` does before the load performs, at a scope of the package or wider: the dies write the line back (R152). Within a die
its slices hold what is common to the scope. -/
def promoted (s : State) (prom : Bool) : Place → State
  | .phys _ pa mt _ _ => if prom && cacheable pa mt then writtenBack s (lineOf pa) else s
  | _ => s

/-- A value as a load extends it (R151). -/
def extended (size : Nat) (signed : Bool) (v : Nat) : X :=
  if signed then BitVec.ofInt 64 (sgn (8 * size) v) else BitVec.ofNat 64 (v % 2 ^ (8 * size))

/-- The checks of a scalar access at its place: translation, ordered domains, scoreboard, counters (R138, R325, R142,
R149). -/
def scalarPlace (s : State) (acc : Access) (a : X) (size : Nat) (load store : Bool) : Except Stop (State × Place) := do
  let l := cur s
  let c := s.sched.core
  let (s, p) ← resolve s c (ctxOf s c l) acc false a size
  let s ← domainCheck (accessorOf l) (acc != .load) s p
  if p.isLocal then sbGate s (localGranules size [(0, p)]) 0 (acc != .load) else counterRoom (cur s) load store
  if acc != .store then localPoison s c size [(0, p)] else .ok ()
  .ok (s, p)

/-- `xd := mem[addr, size]`: at once from own LM, else long-latency (R149, R151, R153) (DESIGN CHOICE, log entry 5; DESIGN CHOICE, log entry 16). -/
def loadOp (g : LoadArgs) (s : State) : Except Stop State := do
  let l := cur s
  if g.ordered then irrevocable l
  gate l g.srcs [.x g.d]
  let c := s.sched.core
  let (s, p) ← scalarPlace s .load (g.addr l) g.size true false
  let v := extended g.size g.signed (readPlace windows s c g.size p)
  let k := kill (cur s) g.srcs
  if p.isLocal then .ok (setCur s (putX k g.d v))
  else
    let bad := firstPoison s c g.size [(0, p)]
    .ok (produce (setCur (cachePlaces (promoted s g.prom p) c [(0, p)]) k) ⟨.x g.d, if bad.isSome then 0 else v.setWidth 1024, true, bad, s.sched.bits, g.addr l, siteOf s⟩)

/-- A store: sources, address, size in bytes, data, order. -/
structure StoreArgs where
  srcs : List Opnd
  addr : Lane → X
  size : Nat
  data : Lane → X
  ordered : Bool

/-- `mem[addr, size] := data` (R151): counted in scnt unless the address is in own LM (R149) (DESIGN CHOICE, log entry 5; DESIGN CHOICE, log entry 16). -/
def storeOp (g : StoreArgs) (s : State) : Except Stop State := do
  let l := cur s
  if g.ordered then irrevocable l
  gate l g.srcs []
  let c := s.sched.core
  let (s, p) ← scalarPlace s .store (g.addr l) g.size false true
  let s := writePlace windows (setCur s (kill (cur s) g.srcs)) c g.size (g.data l).toNat p
  .ok (if p.isLocal then s else countStore s)

/-- Size in bytes and signedness of an LD op8 or fn3 code (R53, R147). -/
def ldFmt (f : Fin 7) : Nat × Bool :=
  match f.val with
  | 0 => (1, false) | 1 => (1, true) | 2 => (2, false) | 3 => (2, true) | 4 => (4, false) | 5 => (4, true) | _ => (8, false)

/-- Size in bytes of an ST op8 or fn3 code (R53, R147). -/
def stSize (f : Fin 4) : Nat := 2 ^ f.val

/-- Size in bytes of a format of an X access. -/
def fmtBytes (f : Fmt) : Nat := fmtWidth f / 8

/-- Base plus a signed offset in units of a size (R147, R148). -/
def offAddr {n : Nat} (a : Reg) (off : BitVec n) (size : Nat) (l : Lane) : X := getX l a + BitVec.ofInt 64 (off.toInt * size)

/-- Base plus index times a size (R147). -/
def ixAddr (a b : Reg) (size : Nat) (l : Lane) : X := getX l a + getX l b * BitVec.ofNat 64 size

/-- `LD.fmt xd, [xa+off]` (R151). -/
def execLd (o : LdOp) : State → Host.Outcome State Fault Refusal := stateOp 4 (loadOp
  ⟨o.d, [.x o.a], offAddr o.a.reg o.imm (ldFmt o.f).1, (ldFmt o.f).1, (ldFmt o.f).2, false, false⟩)

/-- `LDX.fmt xd, [xa+xb]` (R151). -/
def execLdx (o : LdxOp) : State → Host.Outcome State Fault Refusal := stateOp 4 (loadOp
  ⟨o.d, [.x o.a, .x o.b], ixAddr o.a.reg o.b.reg (ldFmt o.f).1, (ldFmt o.f).1, (ldFmt o.f).2, false, false⟩)

/-- C `LD.i64 xa, [xb]` (R51). -/
def execLdI64C (o : C2) : State → Host.Outcome State Fault Refusal := stateOp 2 (loadOp ⟨o.a, [.x (plain o.b)], fun l => getX l o.b, 8, false, false, false⟩)

/-- C `LD.i32 xa, [xb]` (R51). -/
def execLdI32C (o : C2) : State → Host.Outcome State Fault Refusal := stateOp 2 (loadOp ⟨o.a, [.x (plain o.b)], fun l => getX l o.b, 4, true, false, false⟩)

/-- X-form `LD.fmt.order.scope xd, [xa+off]` (R151, R152). -/
def execLdX (o : LdXOp) : State → Host.Outcome State Fault Refusal := guardedStateOp 8 o.guard (loadOp
  ⟨o.d, [.x o.a], offAddr o.a.reg o.off (fmtBytes o.fmt), fmtBytes o.fmt, fmtKind o.fmt == .sint, o.order != .plain, o.order == .acqProm && decide (4 ≤ o.scope.code)⟩)

/-- `ST.fmt [xa+off], xd` (R151). -/
def execSt (o : StOp) : State → Host.Outcome State Fault Refusal := stateOp 4 (storeOp
  ⟨[.x o.a, .x (plain o.d)], offAddr o.a.reg o.imm (stSize o.f), stSize o.f, fun l => getX l o.d, false⟩)

/-- `STX.fmt [xa+xb], xd` (R151). -/
def execStx (o : StxOp) : State → Host.Outcome State Fault Refusal := stateOp 4 (storeOp
  ⟨[.x o.a, .x o.b, .x (plain o.d)], ixAddr o.a.reg o.b.reg (stSize o.f), stSize o.f, fun l => getX l o.d, false⟩)

/-- C `ST.i64 [xb], xa` (R51). -/
def execStI64C (o : C2) : State → Host.Outcome State Fault Refusal := stateOp 2 (storeOp ⟨[.x (plain o.a), .x (plain o.b)], fun l => getX l o.b, 8, fun l => getX l o.a, false⟩)

/-- C `ST.i32 [xb], xa` (R51). -/
def execStI32C (o : C2) : State → Host.Outcome State Fault Refusal := stateOp 2 (storeOp ⟨[.x (plain o.a), .x (plain o.b)], fun l => getX l o.b, 4, fun l => getX l o.a, false⟩)

/-- X-form `ST.fmt.order.scope [xa+off], xb` (R151, R152). -/
def execStX (o : StXOp) : State → Host.Outcome State Fault Refusal := guardedStateOp 8 o.guard (storeOp
  ⟨[.x o.a, .x o.b], offAddr o.a.reg o.off (fmtBytes o.fmt), fmtBytes o.fmt, fun l => getX l o.b.reg, o.order != .plain⟩)

/-! ### Vector accesses (R154) -/

/-- A vector access: sources, element width in bits, active elements, element addresses, alignment in bytes. -/
structure VecArgs where
  srcs : List Opnd
  w : Nat
  act : Lane → P
  addr : Lane → Nat → X
  align : Nat

/-- The active elements with their addresses, in ascending order. -/
def vecElems (g : VecArgs) (l : Lane) : List (Nat × X) :=
  ((List.range (1024 / g.w)).filter (pbit (g.act l))).map (fun i => (i, g.addr l i))

/-- The local elements of a vector access wait for what conflicts with them, and are not poisoned (R138, R142). -/
def vecLocal (g : VecArgs) (acc : Access) (s : State) (ps : List (Nat × Place)) : Except Stop Unit := do
  sbGate s (localGranules (g.w / 8) ps) 0 (acc != .load)
  if acc != .store then localPoison s s.sched.core (g.w / 8) ps else .ok ()

/-- The checks of every element of a vector access (R138, R148, R325, R142, R149): the places of the elements. The fault of the
lowest element that fails is taken, after the local elements below it are free of conflicts and poison. -/
def vecPlaces (g : VecArgs) (acc : Access) (load store : Bool) (s : State) : Except Stop (State × List (Nat × Place)) :=
  let l := cur s
  let c := s.sched.core
  match resolveAll c (ctxOf s c l) acc g.align s (vecElems g l) with
  | .error e => do
    vecLocal g acc s (placesBefore c (ctxOf s c l) acc g.align s (vecElems g l))
    .error e
  | .ok (s, ps) => do
    let s ← domainAll (accessorOf l) (acc != .load) s ps
    vecLocal g acc s ps
    if ps.all (fun e => e.2.isLocal) then .ok () else counterRoom (cur s) load store
    .ok (s, ps)

/-- The value an element list gives to element `i` of a vector, else the old element. -/
def elemOf (es : List (Nat × Nat)) (old : Nat) (i : Nat) : Nat :=
  match es.find? (fun e => e.1 == i) with
  | some e => e.2
  | none => old

/-- `vd[i] := mem[a_i, W/8]` for each active element (R154). -/
def vecLoad (d : Reg) (g : VecArgs) (s : State) : Except Stop State := do
  let l := cur s
  gate l g.srcs [.v d]
  let c := s.sched.core
  let (s, ps) ← vecPlaces g .load true false s
  let es := ps.map (fun e => (e.1, readPlace windows s c (g.w / 8) e.2))
  let v := vecOf g.w (1024 / g.w) (fun i => elemOf es (elem g.w l.regs.v[d] i) i)
  let k := kill (cur s) g.srcs
  if ps.all (fun e => e.2.isLocal) then .ok (setCur s (putV k d v))
  else
    let bad := firstPoison s c (g.w / 8) ps
    .ok (produce (setCur (cachePlaces s c ps) k) ⟨.v d, if bad.isSome then 0 else v, true, bad, s.sched.bits, firstAddr ps, siteOf s⟩)

/-- `mem[a_i, W/8] := data[i]` for each active element in ascending order (R154). -/
def vecStore (data : Lane → V) (g : VecArgs) (s : State) : Except Stop State := do
  let l := cur s
  gate l g.srcs []
  let c := s.sched.core
  let (s, ps) ← vecPlaces g .store false true s
  let s := ps.foldl (fun s e => writePlace windows s c (g.w / 8) (elem g.w (data l) e.1) e.2) (setCur s (kill (cur s) g.srcs))
  let s := clearCovered s (ps.map (fun e => (placeKey c e.2, g.w / 8)))
  .ok (if ps.all (fun e => e.2.isLocal) then s else countStore s)

/-- The sum that VSCTA stores (R154): modulo 2^W, or rounded once by RNE. -/
def scatterSum (f : Fmt) (a b : Nat) : Nat :=
  match fmtKind f with
  | .flt x => roundFlt x .rne 0 (addNum false (decodeFlt x a) (decodeFlt x b))
  | _ => (a + b) % 2 ^ fmtWidth f

/-- `mem[a_i, W/8] := add(mem[a_i, W/8], data[i])` for each active element in ascending order (R154). A global element that reads
poisoned data is left as it is, and the lane freezes before its next issue (R138, R153) (DEDUCED, log entry 17). -/
def vecScatterAdd (f : Fmt) (data : Lane → V) (g : VecArgs) (s : State) : Except Stop State := do
  let l := cur s
  irrevocable l
  gate l g.srcs []
  let c := s.sched.core
  let (s, ps) ← vecPlaces g .atomic false true s
  let bad := firstPoison s c (g.w / 8) ps
  let k := kill (cur s) g.srcs
  let k := match bad with
    | some a => { k with frz := { k.frz with poisoned := some (a, s.sched.bits) } }
    | none => k
  let s := (ps.filter (fun e => !poisoned s (placeKey c e.2) (g.w / 8))).foldl (fun s e =>
    writePlace windows s c (g.w / 8) (scatterSum f (readPlace windows s c (g.w / 8) e.2) (elem g.w (data l) e.1)) e.2) (setCur s k)
  .ok (if ps.all (fun e => e.2.isLocal) then s else countStore s)

/-- The format of a type's elements. -/
def tyFmt : ElemTy → Fmt
  | .i32 => .i32 | .ui32 => .ui32 | .i64 => .i64 | .ui64 => .ui64 | .f32 => .f32 | .f64 => .f64 | .f16 => .f16 | .bf16 => .bf16

/-- All elements active. -/
def allActive (_ : Lane) : P := BitVec.allOnes 32

/-- Addresses of consecutive elements from a base (R154). -/
def seqAddr (base : Lane → X) (w : Nat) (l : Lane) (i : Nat) : X := base l + BitVec.ofNat 64 (i * (w / 8))

/-- Addresses at a signed byte stride (R154). -/
def strideAddr (a b : Reg) (l : Lane) (i : Nat) : X := getX l a + BitVec.ofNat 64 i * getX l b

/-- Addresses at the offsets of a vector (R154). -/
def gatherAddr (a : Reg) (b : Src) (w : Nat) (l : Lane) (i : Nat) : X := getX l a + BitVec.ofInt 64 (sgn w (elem w (getV l b) i))

/-- `VLD vd, [xa+off]` (R154). -/
def execVld (o : RI) : State → Host.Outcome State Fault Refusal := stateOp 4 (vecLoad o.d
  ⟨[.x o.a], 32, allActive, seqAddr (offAddr o.a.reg o.imm 128) 32, 4⟩)

/-- C `VLD va, [xb]` (R51). -/
def execVldC (o : C2) : State → Host.Outcome State Fault Refusal := stateOp 2 (vecLoad o.a ⟨[.x (plain o.b)], 32, allActive, seqAddr (fun l => getX l o.b) 32, 4⟩)

/-- X-form `VLD.fmt vd, [xa+off]` (R154). -/
def execVldX (o : VldXOp) : State → Host.Outcome State Fault Refusal := stateOp 8 (vecLoad o.d
  ⟨[.x o.a], fmtWidth o.fmt, fun l => getP l o.guard, seqAddr (offAddr o.a.reg o.off 128) (fmtWidth o.fmt), fmtBytes o.fmt⟩)

/-- `VST [xa+off], vd` (R154). -/
def execVst (o : RI) : State → Host.Outcome State Fault Refusal := stateOp 4 (vecStore (fun l => l.regs.v[o.d])
  ⟨[.x o.a, .v (plain o.d)], 32, allActive, seqAddr (offAddr o.a.reg o.imm 128) 32, 4⟩)

/-- C `VST [xb], va` (R51). -/
def execVstC (o : C2) : State → Host.Outcome State Fault Refusal := stateOp 2 (vecStore (fun l => l.regs.v[o.a])
  ⟨[.v (plain o.a), .x (plain o.b)], 32, allActive, seqAddr (fun l => getX l o.b) 32, 4⟩)

/-- X-form `VST.fmt [xa+off], vb` (R154). -/
def execVstX (o : VstXOp) : State → Host.Outcome State Fault Refusal := stateOp 8 (vecStore (fun l => getV l o.b)
  ⟨[.x o.a, .v o.b], fmtWidth o.fmt, fun l => getP l o.guard, seqAddr (offAddr o.a.reg o.off 128) (fmtWidth o.fmt), fmtBytes o.fmt⟩)

/-- `VLDS.type vd, [xa], xb` (R154). -/
def execVlds (o : V2) : State → Host.Outcome State Fault Refusal := stateOp 4 (vecLoad o.d
  ⟨[.x o.a, .x o.b], tyW o.ty, allActive, strideAddr o.a.reg o.b.reg, tyW o.ty / 8⟩)

/-- `VSTS.type [xa], vd, xb` (R154). -/
def execVsts (o : V2) : State → Host.Outcome State Fault Refusal := stateOp 4 (vecStore (fun l => l.regs.v[o.d])
  ⟨[.x o.a, .x o.b, .v (plain o.d)], tyW o.ty, allActive, strideAddr o.a.reg o.b.reg, tyW o.ty / 8⟩)

/-- `VGTH.type vd, [xa], vb` (R154). -/
def execVgth (o : V2) : State → Host.Outcome State Fault Refusal := stateOp 4 (vecLoad o.d
  ⟨[.x o.a, .v o.b], tyW o.ty, allActive, gatherAddr o.a.reg o.b (tyW o.ty), tyW o.ty / 8⟩)

/-- X-form `VGTH.fmt vd, [xa], vb` (R154). -/
def execVgthX (o : VgthXOp) : State → Host.Outcome State Fault Refusal := stateOp 8 (vecLoad o.d
  ⟨[.x o.a, .v o.b], fmtWidth o.fmt, fun l => getP l o.guard, gatherAddr o.a.reg o.b (fmtWidth o.fmt), fmtBytes o.fmt⟩)

/-- `VSCT.type [xa], vd, vb` (R154). -/
def execVsct (o : V2) : State → Host.Outcome State Fault Refusal := stateOp 4 (vecStore (fun l => l.regs.v[o.d])
  ⟨[.x o.a, .v o.b, .v (plain o.d)], tyW o.ty, allActive, gatherAddr o.a.reg o.b (tyW o.ty), tyW o.ty / 8⟩)

/-- X-form `VSCT.fmt [xa], vc, vb` (R154). -/
def execVsctX (o : VsctXOp) : State → Host.Outcome State Fault Refusal := stateOp 8 (vecStore (fun l => getV l o.c)
  ⟨[.x o.a, .v o.b, .v o.c], fmtWidth o.fmt, fun l => getP l o.guard, gatherAddr o.a.reg o.b (fmtWidth o.fmt), fmtBytes o.fmt⟩)

/-- `VSCTA.type [xa], vd, vb` at .die scope (R154). -/
def execVscta (o : V2) : State → Host.Outcome State Fault Refusal := stateOp 4 (vecScatterAdd (tyFmt o.ty) (fun l => l.regs.v[o.d])
  ⟨[.x o.a, .v o.b, .v (plain o.d)], tyW o.ty, allActive, gatherAddr o.a.reg o.b (tyW o.ty), tyW o.ty / 8⟩)

/-- X-form `VSCTA.fmt.scope [xa], vc, vb` (R154). -/
def execVsctaX (o : VsctaXOp) : State → Host.Outcome State Fault Refusal := stateOp 8 (vecScatterAdd o.fmt (fun l => getV l o.c)
  ⟨[.x o.a, .v o.b, .v o.c], fmtWidth o.fmt, fun l => getP l o.guard, gatherAddr o.a.reg o.b (fmtWidth o.fmt), fmtBytes o.fmt⟩)

/-! ### Atomics (R156) -/

/-- The new word of an AMO of width `w` (R156). -/
def amoNew (op : AmoFn) (w old b : Nat) : Nat :=
  match op with
  | .add => (old + b) % 2 ^ w
  | .and => Nat.land old b
  | .or => Nat.lor old b
  | .xor => Nat.xor old b
  | .min => if sgn w b < sgn w old then b else old
  | .max => if sgn w old < sgn w b then b else old
  | .minu => min old b
  | .maxu => max old b
  | .swap => b
  | .faddF32 => scatterSum .f32 old b
  | .faddBf16x2 => scatterSum .bf16 (old % 65536) (b % 65536) + 65536 * scatterSum .bf16 (old / 65536) (b / 65536)

/-- Width in bits of an atomic: fadd.bf16x2 takes a word (R156). -/
def amoWidth (f : Fmt) : Nat := if f = .bf16 then 32 else fmtWidth f

/-- An atomic read and write of one word; `new` is what it becomes (R156). Poisoned data returns zero and leaves the
word (R153). A counter left at zero fires its registrations (R172). An atomic on shared space comes after the sectors
that the core's earlier operations send to its bank (R357) (DESIGN CHOICE, log entry 5; DEDUCED, log entry 17). -/
def atomicOp (d : Reg) (srcs : List Opnd) (addr : Lane → X) (f : Fmt) (new : Lane → Nat → Nat) (s : State) :
    Except Stop State := do
  let l := cur s
  irrevocable l
  gate l srcs [.x d]
  let c := s.sched.core
  let n := amoWidth f / 8
  let (s, p) ← scalarPlace s .atomic (addr l) n true false
  match p with
  | .shared off => await (!bankPending s c off (curCore s).eng.seq) (.bankOrder off)
  | _ => .ok ()
  let old := readPlace windows s c n p
  let v := extended n (f == .i32 || f == .i64) old
  let s := setCur s (kill (cur s) srcs)
  if p.isLocal then .ok (setCur (writePlace windows s c n (new l old) p) (putX (cur s) d v))
  else
    match firstPoison s c n [(0, p)] with
    | some a => .ok (produce s ⟨.x d, 0, true, some a, s.sched.bits, a, siteOf s⟩)
    | none =>
      let s := produce s ⟨.x d, v.setWidth 1024, true, none, s.sched.bits, addr l, siteOf s⟩
      .ok (joinFire (writePlace windows s c n (new l old) p) (placeKey c p / 8 * 8))

/-- `AMO.op.fmt.order.scope xd, [xa+off], xb` (R156). -/
def execAmo (o : AmoOp) : State → Host.Outcome State Fault Refusal := guardedStateOp 8 o.guard (atomicOp o.d [.x o.a, .x o.b]
  (offAddr o.a.reg o.off (amoWidth o.fmt / 8)) o.fmt
  (fun l old => amoNew o.op (amoWidth o.fmt) old ((getX l o.b.reg).toNat % 2 ^ amoWidth o.fmt)))

/-- `CAS.fmt.order.scope xd, [xa+off], xb, xc` (R156). -/
def execCas (o : CasOp) : State → Host.Outcome State Fault Refusal := guardedStateOp 8 o.guard (atomicOp o.d [.x o.a, .x o.b, .x o.c]
  (offAddr o.a.reg o.off (fmtBytes o.fmt)) o.fmt
  (fun l old => if old = (getX l o.b.reg).toNat % 2 ^ fmtWidth o.fmt then (getX l o.c.reg).toNat % 2 ^ fmtWidth o.fmt else old))

/-! ### Counter waits and prefetch (R155, R157) -/

/-- `WAITC #l, #s` (R157). -/
def execWaitc (o : WaitcOp) : State → Host.Outcome State Fault Refusal := laneOp 4 (fun l => do
  await (decide (l.lcnt ≤ o.l.toNat ∧ l.scnt ≤ o.s.toNat)) (.counters o.l.toNat o.s.toNat)
  .ok l)

/-- `PREF [xa+off], #level` reads its base and has no other effect (R155): a base that cannot be read drops it without a fault. -/
def execPref (o : PrefOp) : State → Host.Outcome State Fault Refusal := laneOp 4 (fun l =>
  match gate l [.x o.a] [] with
  | .error (.fault _ _) => .ok l
  | .error e => .error e
  | .ok () => .ok (kill l [.x o.a]))

end Sys2Proof.Machine
end

