-- ==== Sys2Proof/Machine/System.lean ====
section
/-! DEFINITION. System registers (R105 to R107, R216) and ENRD (R444). -/

namespace Sys2Proof.Machine

/-- The FIRING register of a lane (R107). -/
def firingWord (l : Lane) : X :=
  BitVec.ofNat 64 (kindCode l.firing.kind + l.firing.cls % 4 * 2 ^ 4 + l.firing.prio % 4 * 2 ^ 6 + l.firing.spec.toNat * 2 ^ 8
    + l.firing.domain % 2 ^ 16 * 2 ^ 16)

/-- VCORE (R106): the lowest number that the die's map of the firing's launch gives the core. -/
def vcoreWord (s : State) : X :=
  let c := s.sched.core
  match launchOf s c (cur s) with
  | none => BitVec.ofNat 64 (2 ^ 63)
  | some (_, x) =>
    match (List.range 4096).find? (fun v => virtCore s (dieNo c) x v == some c) with
    | some v => BitVec.ofNat 64 v
    | none => BitVec.ofNat 64 (2 ^ 63)

/-- A system register that a lane may read without waiting: its value (R106, R216, R217, R253, R339, R351, R418) (DESIGN CHOICE, log entry 7). -/
def sysRead (s : State) (n : Nat) : Option X :=
  let l := cur s
  let c := s.sched.core
  let d := dieOf s (dieNo c)
  match n with
  | 0x000 => some (BitVec.ofNat 64 (c + s.sched.lane * 2 ^ 12))
  | 0x001 => some (vcoreWord s)
  | 0x002 => some (firingWord l)
  | 0x003 => some (l.instcnt.setWidth 64)
  | 0x004 => some (l.sr.setWidth 64)
  | 0x008 => some s.sched.gtime
  | 0x009 => some (coreOf s c).ctl.cycles
  | 0x00A => some (BitVec.ofNat 64 (coreOf s c).ctl.freq)
  | 0x010 => some (BitVec.ofNat 64 ((launchOf s c l).elim 0 (·.1)))
  | 0x800 => some d.fpqBase
  | 0x801 => some (BitVec.ofNat 64 d.fpqSize)
  | 0x802 => some (BitVec.ofNat 64 d.fpqHead)
  | 0x803 => some (BitVec.ofNat 64 d.fpqTail)
  | 0x804 => some (BitVec.ofNat 64 d.fpqWait.length)
  | 0x810 => some 0xFF00000000000
  | 0x811 => some (BitVec.ofNat 64 (0xFF10000000000 + dieNo c * 0x1000000))
  | 0x812 => some 0xFF20000000000
  | 0x813 => some 0xFF30000000000
  | 0x814 => some 0xFF40000000000
  | _ => none

/-- A metered register's value (R106): QTEMP is what the meter shows (DESIGN CHOICE, log entry 4). A supervisor core, whose
quad number is past 639 and never charged, reads QENERGY and QPOWER as 0 (DESIGN CHOICE, log entry 45). -/
def meterRead (s : State) (n : Nat) : Option X :=
  let q := quadOf s (quadNo s.sched.core)
  match n with
  | 0x040 => some q.energy
  | 0x041 => some q.power
  | 0x042 => some (Config.metered s.sched.freeCtr)
  | _ => none

/-- Time passes before a clock is sampled (R7, R106) (DESIGN CHOICE, log entry 7). -/
def sampleClocks (s : State) (n : Nat) : State :=
  if n = 0x008 then sampleTime s
  else if n = 0x009 then sampleCycles s s.sched.core
  else if n = 0x042 then draw s
  else s

/-- A supervisor register is illegal on every other lane (R105). -/
def sysAllowed (s : State) (n : Nat) : Except Stop Unit := need (decide (n < 0x800) || isSup s.sched.core) .illegal

/-- `SYSR xd, #num` (R105, R106). -/
def execSysr (o : SysrOp) : State → Host.Outcome State Fault Refusal := stateOp 8 (fun s => do
  let n := o.num.toNat
  sysAllowed s n
  need ((sysRead s n).isSome || (meterRead s n).isSome) .illegal
  if !guardOn (cur s) o.guard then .ok s
  else
    gate (cur s) [] [.x o.d]
    let t := sampleClocks s n
    match meterRead s n with
    | some v => .ok (produce t ⟨.x o.d, v.setWidth 1024, false, none, s.sched.bits, 0, siteOf s⟩)
    | none => .ok (setCur t (putX (cur t) o.d ((sysRead t n).getD 0))))

/-- A write of a supervisor queue register (R216). A size that is not 0 or a power of two up to 1,024 is ignored. -/
def writeFpq (s : State) (n : Nat) (v : X) : State :=
  let d := dieNo s.sched.core
  let s := onDie s d (fun x =>
    match n with
    | 0x800 => { x with fpqBase := BitVec.ofNat 64 (bits v.toNat 6 13 * 64) }
    | 0x801 => if v = 0 ∨ (List.range 11).any (fun i => v.toNat == 2 ^ i) then { x with fpqSize := v.toNat } else x
    | _ => { x with fpqHead := v.toNat % 2 ^ 32 })
  if (dieOf s d).fpqWait.isEmpty then s else dueEvent s (.faultRingWrite d)

/-- `SYSW #num, xa` (R105, R106, R216). -/
def execSysw (o : SyswOp) : State → Host.Outcome State Fault Refusal := stateOp 8 (fun s => do
  let n := o.num.toNat
  sysAllowed s n
  need (decide (n = 0x004 ∨ (0x800 ≤ n ∧ n ≤ 0x802))) .illegal
  if !guardOn (cur s) o.guard then .ok s
  else
    let l := cur s
    irrevocable l
    gate l [.x o.a] []
    let v := getX l o.a.reg
    let k := kill l [.x o.a]
    if n = 0x004 then .ok (setCur s { k with sr := srWrite (v.setWidth 32) })
    else .ok (writeFpq (setCur s k) n v))

/-- What `ENRD` returns of an account (R444). A rest above 2^64 - 1 is open (DESIGN CHOICE, log entry 4). -/
def enrdValue (s : State) (x : Account) (sel : Nat) : X :=
  match sel with
  | 0 => x.charged
  | 1 =>
    let rest := x.allow.toNat * 1000 - x.charged.toNat
    if x.allow = 0 then BitVec.allOnes 64
    else if rest < 2 ^ 64 then BitVec.ofNat 64 rest else (Config.freeV s.sched.freeCtr).setWidth 64
  | _ => x.pwr.setWidth 64

/-- `ENRD xd, #sel` (R444). -/
def execEnrd (o : EnrdOp) : State → Host.Outcome State Fault Refusal := guardedStateOp 8 o.guard (fun s => do
  let l := cur s
  gate l [] [.x o.d]
  match launchOf s s.sched.core l with
  | none => .ok (setCur s (putX l o.d (BitVec.ofNat 64 (2 ^ 63))))
  | some (_, x) => .ok (setCur (draw s) (putX l o.d (enrdValue s (accountOf s x.account) o.sel.val))))

end Sys2Proof.Machine
end

