-- ==== Sys2Proof/Machine/Wake.lean ====
section
/-! DEFINITION. When the condition that blocked a lane clears (R24): the lane becomes Ready and issues its instruction again; a
barrier's lane completes with its status (R370). -/

namespace Sys2Proof.Machine

/-- The barrier updates this lane has sent are performed (R275). -/
def txDrained (k : Core) (l : Nat) : Bool := !(k.eng.tx.any (fun u => u.lane == l))

/-- The condition of a wait has cleared (R24) (DEDUCED, log entry 26). -/
def waitClear (s : State) (c n : Nat) (w : Wait) : Bool :=
  let k := coreOf s c
  let l := laneOf s c n
  match w with
  | .xfull r => xFull l r
  | .vfull r => vFull l r
  | .scoreboard gs tiles write before => !(k.eng.sb.any (fun e => decide (e.2.age < before) && entryBlocks gs tiles write e.2))
  | .sbEntry => sbRoom k
  | .engineQueue => (lowestFree k.eng.queue 32).isSome
  | .seatQueue i => decide (seatLoad (k.stove.seats[i]?.getD []) < 16)
  | .sendQueue => sendRoom s c
  | .spawnQueue => decide (k.msg.spawnQ.length < 16)
  | .joinTable => decide (s.pkg.joins.length < 8192)
  | .counters a b => decide (l.lcnt ≤ a ∧ l.scnt ≤ b)
  | .earliest => !l.firing.spec
  | .txPhase key ph => let b := memRead s.mem key 16; txPhase b != ph || txErr b
  | .txSent => txDrained k n
  | .barrier sc _ id ph _ => (barrierOf s c sc id).phase != ph
  | .barrierForced _ _ _ _ => true
  | .podRelease id => !allArrived (netBarrier s .pod 0 id).bar
  | .functionReady i _ => bit s.pkg.ready i || bit s.pkg.failed i
  | .stealAnswer _ _ => false
  | .stealing i => !(rangeGet s c i).stealing
  | .streamRoom b => decide (streamCount (streamGet s c b) < (streamGet s c b).size)
  | .streamItem b => decide (0 < streamCount (streamGet s c b))
  | .held va line write => (holder s ((l.firing.task.bind (taskOf s)).elim 0 (fun t => t.domain)) (some va) line write).isNone
  | .tokens line w cached => linesFree s c line w cached
  | .sectors ops => ops.all (fun o => (engOp s o.1 o.2.1).all (fun op => op.seq != o.2.2 || !inFlight s o.1 o.2.1 op))
  | .link f _ => decide ((flueOf s f).pwr = 0 ∨ (flueOf s f).pwr = 3)
  | .delivery b j => !(k.ev.delivering.any (fun d => d.bank == b && d.neuron == j))
  | .bankOrder off => !bankPending s c off k.eng.seq

/-- The lane after its wait has cleared. -/
def released (s : State) (c : Nat) (l : Lane) (w : Wait) : Lane :=
  let ready := { l with status := .ready, wait := none, waitCount := 0 }
  match w with
  | .barrier sc _ id _ r => retire 8 (putX ready r (barrierWord 0 (barrierOf s c sc id).phase))
  | .barrierForced sc _ id r => retire 8 (putX ready r (barrierWord 3 (barrierOf s c sc id).phase))
  | .earliest => { ready with frz := { ready.frz with deferred := none } }
  | _ => ready

/-- Lane `n` of core `c` leaves Blocked when its condition has cleared. A lane that waits to freeze stays. -/
def unblock (s : State) (c n : Nat) : State :=
  let l := laneOf s c n
  match l.status, l.wait, l.frz.pending with
  | .blocked, some w, none => if waitClear s c n w then setLane s c n (released s c l w) else s
  | _, _, _ => s

/-- LANE_UNBLOCK (R24, R29, R37). A lane whose draining has come to its end becomes Free. -/
def execLaneUnblock (core lane : Nat) (s : State) : Host.Outcome State Fault Refusal :=
  .next (drain (unblock s core lane) core lane)

end Sys2Proof.Machine
end

