-- ==== Sys2Proof/Machine/Dispatch.lean ====
section
/-! DEFINITION. One arm per constructor of `Instr`: the meaning of each instruction and event. -/

namespace Sys2Proof.Machine

-- The outcome of an instruction or event at a state.
def exec (i : Instr) (s : State) : Host.Outcome State Fault Refusal :=
  match i with
  | .movC o => Sys2Proof.Machine.execMovC o s
  | .addC o => Sys2Proof.Machine.execAddC o s
  | .subC o => Sys2Proof.Machine.execSubC o s
  | .andC o => Sys2Proof.Machine.execAndC o s
  | .orC o => Sys2Proof.Machine.execOrC o s
  | .xorC o => Sys2Proof.Machine.execXorC o s
  | .shlC o => Sys2Proof.Machine.execShlC o s
  | .shrC o => Sys2Proof.Machine.execShrC o s
  | .sraC o => Sys2Proof.Machine.execSraC o s
  | .addiC o => Sys2Proof.Machine.execAddiC o s
  | .ldiC o => Sys2Proof.Machine.execLdiC o s
  | .shliC o => Sys2Proof.Machine.execShliC o s
  | .shriC o => Sys2Proof.Machine.execShriC o s
  | .sraiC o => Sys2Proof.Machine.execSraiC o s
  | .andiC o => Sys2Proof.Machine.execAndiC o s
  | .negC o => Sys2Proof.Machine.execNegC o s
  | .ldI64C o => Sys2Proof.Machine.execLdI64C o s
  | .stI64C o => Sys2Proof.Machine.execStI64C o s
  | .ldI32C o => Sys2Proof.Machine.execLdI32C o s
  | .stI32C o => Sys2Proof.Machine.execStI32C o s
  | .vaddC o => Sys2Proof.Machine.execVaddC o s
  | .vmulC o => Sys2Proof.Machine.execVmulC o s
  | .vsubC o => Sys2Proof.Machine.execVsubC o s
  | .vldC o => Sys2Proof.Machine.execVldC o s
  | .vstC o => Sys2Proof.Machine.execVstC o s
  | .bzC o => Sys2Proof.Machine.execBzC o s
  | .bnzC o => Sys2Proof.Machine.execBnzC o s
  | .jmprC o => Sys2Proof.Machine.execJmprC o s
  | .retC o => Sys2Proof.Machine.execRetC o s
  | .doneC o => Sys2Proof.Machine.execDoneC o s
  | .nopC o => Sys2Proof.Machine.execNopC o s
  | .brkC o => Sys2Proof.Machine.execBrkC o s
  | .add o => Sys2Proof.Machine.execAdd o s
  | .sub o => Sys2Proof.Machine.execSub o s
  | .neg o => Sys2Proof.Machine.execNeg o s
  | .mul o => Sys2Proof.Machine.execMul o s
  | .mulhi o => Sys2Proof.Machine.execMulhi o s
  | .mulhiu o => Sys2Proof.Machine.execMulhiu o s
  | .div o => Sys2Proof.Machine.execDiv o s
  | .divu o => Sys2Proof.Machine.execDivu o s
  | .rem o => Sys2Proof.Machine.execRem o s
  | .remu o => Sys2Proof.Machine.execRemu o s
  | .and o => Sys2Proof.Machine.execAnd o s
  | .or o => Sys2Proof.Machine.execOr o s
  | .xor o => Sys2Proof.Machine.execXor o s
  | .andn o => Sys2Proof.Machine.execAndn o s
  | .shl o => Sys2Proof.Machine.execShl o s
  | .shr o => Sys2Proof.Machine.execShr o s
  | .sra o => Sys2Proof.Machine.execSra o s
  | .rot o => Sys2Proof.Machine.execRot o s
  | .min o => Sys2Proof.Machine.execMin o s
  | .max o => Sys2Proof.Machine.execMax o s
  | .minu o => Sys2Proof.Machine.execMinu o s
  | .maxu o => Sys2Proof.Machine.execMaxu o s
  | .abs o => Sys2Proof.Machine.execAbs o s
  | .clz o => Sys2Proof.Machine.execClz o s
  | .ctz o => Sys2Proof.Machine.execCtz o s
  | .popc o => Sys2Proof.Machine.execPopc o s
  | .brev o => Sys2Proof.Machine.execBrev o s
  | .bswap o => Sys2Proof.Machine.execBswap o s
  | .sext o => Sys2Proof.Machine.execSext o s
  | .zext o => Sys2Proof.Machine.execZext o s
  | .cmp o => Sys2Proof.Machine.execCmp o s
  | .mov o => Sys2Proof.Machine.execMov o s
  | .addi o => Sys2Proof.Machine.execAddi o s
  | .muli o => Sys2Proof.Machine.execMuli o s
  | .andi o => Sys2Proof.Machine.execAndi o s
  | .ori o => Sys2Proof.Machine.execOri o s
  | .xori o => Sys2Proof.Machine.execXori o s
  | .shli o => Sys2Proof.Machine.execShli o s
  | .shri o => Sys2Proof.Machine.execShri o s
  | .srai o => Sys2Proof.Machine.execSrai o s
  | .roti o => Sys2Proof.Machine.execRoti o s
  | .ldi o => Sys2Proof.Machine.execLdi o s
  | .lea o => Sys2Proof.Machine.execLea o s
  | .cmpi o => Sys2Proof.Machine.execCmpi o s
  | .br o => Sys2Proof.Machine.execBr o s
  | .bz o => Sys2Proof.Machine.execBz o s
  | .bnz o => Sys2Proof.Machine.execBnz o s
  | .bpAny o => Sys2Proof.Machine.execBpAny o s
  | .bpAll o => Sys2Proof.Machine.execBpAll o s
  | .bpNone o => Sys2Proof.Machine.execBpNone o s
  | .jmp o => Sys2Proof.Machine.execJmp o s
  | .call o => Sys2Proof.Machine.execCall o s
  | .jmpr o => Sys2Proof.Machine.execJmpr o s
  | .callr o => Sys2Proof.Machine.execCallr o s
  | .ret o => Sys2Proof.Machine.execRet o s
  | .loop o => Sys2Proof.Machine.execLoop o s
  | .done o => Sys2Proof.Machine.execDone o s
  | .nop o => Sys2Proof.Machine.execNop o s
  | .trap o => Sys2Proof.Machine.execTrap o s
  | .brk o => Sys2Proof.Machine.execBrk o s
  | .ld o => Sys2Proof.Machine.execLd o s
  | .st o => Sys2Proof.Machine.execSt o s
  | .vld o => Sys2Proof.Machine.execVld o s
  | .vst o => Sys2Proof.Machine.execVst o s
  | .ldx o => Sys2Proof.Machine.execLdx o s
  | .stx o => Sys2Proof.Machine.execStx o s
  | .vlds o => Sys2Proof.Machine.execVlds o s
  | .vsts o => Sys2Proof.Machine.execVsts o s
  | .vgth o => Sys2Proof.Machine.execVgth o s
  | .vsct o => Sys2Proof.Machine.execVsct o s
  | .vscta o => Sys2Proof.Machine.execVscta o s
  | .pref o => Sys2Proof.Machine.execPref o s
  | .waitc o => Sys2Proof.Machine.execWaitc o s
  | .vadd o => Sys2Proof.Machine.execVadd o s
  | .vsub o => Sys2Proof.Machine.execVsub o s
  | .vmul o => Sys2Proof.Machine.execVmul o s
  | .vfma o => Sys2Proof.Machine.execVfma o s
  | .vfms o => Sys2Proof.Machine.execVfms o s
  | .vfnma o => Sys2Proof.Machine.execVfnma o s
  | .vneg o => Sys2Proof.Machine.execVneg o s
  | .vabs o => Sys2Proof.Machine.execVabs o s
  | .vmin o => Sys2Proof.Machine.execVmin o s
  | .vmax o => Sys2Proof.Machine.execVmax o s
  | .vminn o => Sys2Proof.Machine.execVminn o s
  | .vmaxn o => Sys2Proof.Machine.execVmaxn o s
  | .vrcp o => Sys2Proof.Machine.execVrcp o s
  | .vrsq o => Sys2Proof.Machine.execVrsq o s
  | .vsqrt o => Sys2Proof.Machine.execVsqrt o s
  | .vdiv o => Sys2Proof.Machine.execVdiv o s
  | .vexp2 o => Sys2Proof.Machine.execVexp2 o s
  | .vlog2 o => Sys2Proof.Machine.execVlog2 o s
  | .vand o => Sys2Proof.Machine.execVand o s
  | .vor o => Sys2Proof.Machine.execVor o s
  | .vxor o => Sys2Proof.Machine.execVxor o s
  | .vshl o => Sys2Proof.Machine.execVshl o s
  | .vshr o => Sys2Proof.Machine.execVshr o s
  | .vsra o => Sys2Proof.Machine.execVsra o s
  | .vperm o => Sys2Proof.Machine.execVperm o s
  | .vdot o => Sys2Proof.Machine.execVdot o s
  | .vlut o => Sys2Proof.Machine.execVlut o s
  | .vdistL2sq o => Sys2Proof.Machine.execVdistL2sq o s
  | .vdistIp o => Sys2Proof.Machine.execVdistIp o s
  | .vdistCos o => Sys2Proof.Machine.execVdistCos o s
  | .vnorm o => Sys2Proof.Machine.execVnorm o s
  | .pset o => Sys2Proof.Machine.execPset o s
  | .pand o => Sys2Proof.Machine.execPand o s
  | .por o => Sys2Proof.Machine.execPor o s
  | .pxor o => Sys2Proof.Machine.execPxor o s
  | .pandn o => Sys2Proof.Machine.execPandn o s
  | .pnot o => Sys2Proof.Machine.execPnot o s
  | .pcnt o => Sys2Proof.Machine.execPcnt o s
  | .pfirst o => Sys2Proof.Machine.execPfirst o s
  | .pmovxToP o => Sys2Proof.Machine.execPmovxToP o s
  | .pmovxToX o => Sys2Proof.Machine.execPmovxToX o s
  | .send o => Sys2Proof.Machine.execSend o s
  | .sendv o => Sys2Proof.Machine.execSendv o s
  | .sendo o => Sys2Proof.Machine.execSendo o s
  | .spawn o => Sys2Proof.Machine.execSpawn o s
  | .spawnc o => Sys2Proof.Machine.execSpawnc o s
  | .joinat o => Sys2Proof.Machine.execJoinat o s
  | .tsrd o => Sys2Proof.Machine.execTsrd o s
  | .abortt o => Sys2Proof.Machine.execAbortt o s
  | .aborttDrop o => Sys2Proof.Machine.execAborttDrop o s
  | .range o => Sys2Proof.Machine.execRange o s
  | .chunk o => Sys2Proof.Machine.execChunk o s
  | .steal o => Sys2Proof.Machine.execSteal o s
  | .actor o => Sys2Proof.Machine.execActor o s
  | .sbcfg o => Sys2Proof.Machine.execSbcfg o s
  | .push o => Sys2Proof.Machine.execPush o s
  | .pop o => Sys2Proof.Machine.execPop o s
  | .hvw o => Sys2Proof.Machine.execHvw o s
  | .vaddX o => Sys2Proof.Machine.execVaddX o s
  | .vsubX o => Sys2Proof.Machine.execVsubX o s
  | .vmulX o => Sys2Proof.Machine.execVmulX o s
  | .vfmaX o => Sys2Proof.Machine.execVfmaX o s
  | .vfmsX o => Sys2Proof.Machine.execVfmsX o s
  | .vfnmaX o => Sys2Proof.Machine.execVfnmaX o s
  | .vnegX o => Sys2Proof.Machine.execVnegX o s
  | .vabsX o => Sys2Proof.Machine.execVabsX o s
  | .vminX o => Sys2Proof.Machine.execVminX o s
  | .vmaxX o => Sys2Proof.Machine.execVmaxX o s
  | .vminnX o => Sys2Proof.Machine.execVminnX o s
  | .vmaxnX o => Sys2Proof.Machine.execVmaxnX o s
  | .vrcpX o => Sys2Proof.Machine.execVrcpX o s
  | .vrsqX o => Sys2Proof.Machine.execVrsqX o s
  | .vsqrtX o => Sys2Proof.Machine.execVsqrtX o s
  | .vdivX o => Sys2Proof.Machine.execVdivX o s
  | .vexp2X o => Sys2Proof.Machine.execVexp2X o s
  | .vlog2X o => Sys2Proof.Machine.execVlog2X o s
  | .vandX o => Sys2Proof.Machine.execVandX o s
  | .vorX o => Sys2Proof.Machine.execVorX o s
  | .vxorX o => Sys2Proof.Machine.execVxorX o s
  | .vshlX o => Sys2Proof.Machine.execVshlX o s
  | .vshrX o => Sys2Proof.Machine.execVshrX o s
  | .vsraX o => Sys2Proof.Machine.execVsraX o s
  | .vpermX o => Sys2Proof.Machine.execVpermX o s
  | .vdotX o => Sys2Proof.Machine.execVdotX o s
  | .vlutX o => Sys2Proof.Machine.execVlutX o s
  | .vdistL2sqX o => Sys2Proof.Machine.execVdistL2sqX o s
  | .vdistIpX o => Sys2Proof.Machine.execVdistIpX o s
  | .vdistCosX o => Sys2Proof.Machine.execVdistCosX o s
  | .vnormX o => Sys2Proof.Machine.execVnormX o s
  | .vcmp o => Sys2Proof.Machine.execVcmp o s
  | .vsel o => Sys2Proof.Machine.execVsel o s
  | .vcvt o => Sys2Proof.Machine.execVcvt o s
  | .vround o => Sys2Proof.Machine.execVround o s
  | .vclamp o => Sys2Proof.Machine.execVclamp o s
  | .vsplat o => Sys2Proof.Machine.execVsplat o s
  | .vextr o => Sys2Proof.Machine.execVextr o s
  | .vins o => Sys2Proof.Machine.execVins o s
  | .viota o => Sys2Proof.Machine.execViota o s
  | .vslide o => Sys2Proof.Machine.execVslide o s
  | .vcomp o => Sys2Proof.Machine.execVcomp o s
  | .vexpd o => Sys2Proof.Machine.execVexpd o s
  | .vred o => Sys2Proof.Machine.execVred o s
  | .vscan o => Sys2Proof.Machine.execVscan o s
  | .topk o => Sys2Proof.Machine.execTopk o s
  | .topkm o => Sys2Proof.Machine.execTopkm o s
  | .sel o => Sys2Proof.Machine.execSel o s
  | .madd o => Sys2Proof.Machine.execMadd o s
  | .bfx o => Sys2Proof.Machine.execBfx o s
  | .bfxu o => Sys2Proof.Machine.execBfxu o s
  | .bfi o => Sys2Proof.Machine.execBfi o s
  | .ldiL o => Sys2Proof.Machine.execLdiL o s
  | .ldih o => Sys2Proof.Machine.execLdih o s
  | .jmpL o => Sys2Proof.Machine.execJmpL o s
  | .callL o => Sys2Proof.Machine.execCallL o s
  | .ldX o => Sys2Proof.Machine.execLdX o s
  | .stX o => Sys2Proof.Machine.execStX o s
  | .amo o => Sys2Proof.Machine.execAmo o s
  | .cas o => Sys2Proof.Machine.execCas o s
  | .vldX o => Sys2Proof.Machine.execVldX o s
  | .vstX o => Sys2Proof.Machine.execVstX o s
  | .vgthX o => Sys2Proof.Machine.execVgthX o s
  | .vsctX o => Sys2Proof.Machine.execVsctX o s
  | .vsctaX o => Sys2Proof.Machine.execVsctaX o s
  | .xcopyIn o => Sys2Proof.Machine.execXcopyIn o s
  | .xcopyOut o => Sys2Proof.Machine.execXcopyOut o s
  | .xcopyXx o => Sys2Proof.Machine.execXcopyXx o s
  | .xgather o => Sys2Proof.Machine.execXgather o s
  | .xscatter o => Sys2Proof.Machine.execXscatter o s
  | .xred o => Sys2Proof.Machine.execXred o s
  | .xfill o => Sys2Proof.Machine.execXfill o s
  | .xblkRd o => Sys2Proof.Machine.execXblkRd o s
  | .xblkWr o => Sys2Proof.Machine.execXblkWr o s
  | .xblkFlush o => Sys2Proof.Machine.execXblkFlush o s
  | .txinit o => Sys2Proof.Machine.execTxinit o s
  | .txarr o => Sys2Proof.Machine.execTxarr o s
  | .txexp o => Sys2Proof.Machine.execTxexp o s
  | .txwait o => Sys2Proof.Machine.execTxwait o s
  | .txtest o => Sys2Proof.Machine.execTxtest o s
  | .txtestErr o => Sys2Proof.Machine.execTxtestErr o s
  | .shfence o => Sys2Proof.Machine.execShfence o s
  | .shpf o => Sys2Proof.Machine.execShpf o s
  | .tcfg o => Sys2Proof.Machine.execTcfg o s
  | .tld o => Sys2Proof.Machine.execTld o s
  | .tst o => Sys2Proof.Machine.execTst o s
  | .tzero o => Sys2Proof.Machine.execTzero o s
  | .trow o => Sys2Proof.Machine.execTrow o s
  | .tsetrow o => Sys2Proof.Machine.execTsetrow o s
  | .msk o => Sys2Proof.Machine.execMsk o s
  | .gwld o => Sys2Proof.Machine.execGwld o s
  | .gmma o => Sys2Proof.Machine.execGmma o s
  | .gmmas o => Sys2Proof.Machine.execGmmas o s
  | .gmmag o => Sys2Proof.Machine.execGmmag o s
  | .gacc o => Sys2Proof.Machine.execGacc o s
  | .gaccz o => Sys2Proof.Machine.execGaccz o s
  | .evcfg o => Sys2Proof.Machine.execEvcfg o s
  | .evinj o => Sys2Proof.Machine.execEvinj o s
  | .evrd o => Sys2Proof.Machine.execEvrd o s
  | .evwr o => Sys2Proof.Machine.execEvwr o s
  | .evfan o => Sys2Proof.Machine.execEvfan o s
  | .evstat o => Sys2Proof.Machine.execEvstat o s
  | .bar o => Sys2Proof.Machine.execBar o s
  | .bara o => Sys2Proof.Machine.execBara o s
  | .barw o => Sys2Proof.Machine.execBarw o s
  | .fturn o => Sys2Proof.Machine.execFturn o s
  | .get o => Sys2Proof.Machine.execGet o s
  | .put o => Sys2Proof.Machine.execPut o s
  | .ramo o => Sys2Proof.Machine.execRamo o s
  | .collAllred o => Sys2Proof.Machine.execCollAllred o s
  | .collAllgth o => Sys2Proof.Machine.execCollAllgth o s
  | .collRedsct o => Sys2Proof.Machine.execCollRedsct o s
  | .collBar o => Sys2Proof.Machine.execCollBar o s
  | .bop o => Sys2Proof.Machine.execBop o s
  | .bred o => Sys2Proof.Machine.execBred o s
  | .bvec o => Sys2Proof.Machine.execBvec o s
  | .sysr o => Sys2Proof.Machine.execSysr o s
  | .sysw o => Sys2Proof.Machine.execSysw o s
  | .icflush o => Sys2Proof.Machine.execIcflush o s
  | .enrd o => Sys2Proof.Machine.execEnrd o s
  | .lresume o => Sys2Proof.Machine.execLresume o s
  | .lstep o => Sys2Proof.Machine.execLstep o s
  | .lkill o => Sys2Proof.Machine.execLkill o s
  | .tlbi o => Sys2Proof.Machine.execTlbi o s
  | .hintSpace o => Sys2Proof.Machine.execHintSpace o s
  | .dispatch core => Sys2Proof.Machine.execDispatch core s
  | .laneAged core lane => Sys2Proof.Machine.execLaneAged core lane s
  | .laneUnblock core lane => Sys2Proof.Machine.execLaneUnblock core lane s
  | .resultArrival core lane idx => Sys2Proof.Machine.execResultArrival core lane idx s
  | .storePerformed core lane => Sys2Proof.Machine.execStorePerformed core lane s
  | .faultFreeze core lane => Sys2Proof.Machine.execFaultFreeze core lane s
  | .faultRingWrite die => Sys2Proof.Machine.execFaultRingWrite die s
  | .messageAccept src dst => Sys2Proof.Machine.execMessageAccept src dst s
  | .sendQueueReoffer src dst => Sys2Proof.Machine.execSendQueueReoffer src dst s
  | .remotePushAccept src dst => Sys2Proof.Machine.execRemotePushAccept src dst s
  | .taskAccept core => Sys2Proof.Machine.execTaskAccept core s
  | .taskSpillReturn quad => Sys2Proof.Machine.execTaskSpillReturn quad s
  | .stealRequest core lane => Sys2Proof.Machine.execStealRequest core lane s
  | .stealAnswer core lane => Sys2Proof.Machine.execStealAnswer core lane s
  | .eventAccept src dst => Sys2Proof.Machine.execEventAccept src dst s
  | .eventSpillReturn core => Sys2Proof.Machine.execEventSpillReturn core s
  | .eventDelivery core => Sys2Proof.Machine.execEventDelivery core s
  | .eventDiscard core => Sys2Proof.Machine.execEventDiscard core s
  | .fanoutEmit core => Sys2Proof.Machine.execFanoutEmit core s
  | .fireMessagePost core => Sys2Proof.Machine.execFireMessagePost core s
  | .asyncOpStart core queue slot => Sys2Proof.Machine.execAsyncOpStart core queue slot s
  | .gangForm quad seat => Sys2Proof.Machine.execGangForm quad seat s
  | .gangTimeout quad seat => Sys2Proof.Machine.execGangTimeout quad seat s
  | .gangPositionExpiry quad seat => Sys2Proof.Machine.execGangPositionExpiry quad seat s
  | .gangComplete quad => Sys2Proof.Machine.execGangComplete quad s
  | .tileOpComplete core seat => Sys2Proof.Machine.execTileOpComplete core seat s
  | .engineSectorComplete core slot sector data => Sys2Proof.Machine.execEngineSectorComplete core slot sector data s
  | .engctlReplay who core slot => Sys2Proof.Machine.execEngctlReplay who core slot s
  | .engctlFail who core slot => Sys2Proof.Machine.execEngctlFail who core slot s
  | .txBarrierUpdate core => Sys2Proof.Machine.execTxBarrierUpdate core s
  | .reduceSectorApply core slot sector => Sys2Proof.Machine.execReduceSectorApply core slot sector s
  | .bankSectorApply core slot sector => Sys2Proof.Machine.execBankSectorApply core slot sector s
  | .pageWalkComplete core va acc => Sys2Proof.Machine.execPageWalkComplete core va acc s
  | .transientRequest core line write => Sys2Proof.Machine.execTransientRequest core line write s
  | .transientTimeout core line => Sys2Proof.Machine.execTransientTimeout core line s
  | .persistentRequest core line => Sys2Proof.Machine.execPersistentRequest core line s
  | .persistentDeactivate die line => Sys2Proof.Machine.execPersistentDeactivate die line s
  | .directoryRequest die line write => Sys2Proof.Machine.execDirectoryRequest die line write s
  | .directoryRecall die line all => Sys2Proof.Machine.execDirectoryRecall die line all s
  | .backInvalidate line => Sys2Proof.Machine.execBackInvalidate line s
  | .hostMemWrite pa n value => Sys2Proof.Machine.execHostMemWrite pa n value s
  | .hostMemRead pa n => Sys2Proof.Machine.execHostMemRead pa n s
  | .spawnWindowStore off n value => Sys2Proof.Machine.execSpawnWindowStore off n value s
  | .launchCommand off n value => Sys2Proof.Machine.execLaunchCommand off n value s
  | .launchTake plan => Sys2Proof.Machine.execLaunchTake plan s
  | .launchEnd launch verdict => Sys2Proof.Machine.execLaunchEnd launch verdict s
  | .lstatRead => Sys2Proof.Machine.execLstatRead s
  | .spwstatRead => Sys2Proof.Machine.execSpwstatRead s
  | .attdropRead => Sys2Proof.Machine.execAttdropRead s
  | .attreq value => Sys2Proof.Machine.execAttreq value s
  | .attestationReport => Sys2Proof.Machine.execAttestationReport s
  | .cctlRcflush who core => Sys2Proof.Machine.execCctlRcflush who core s
  | .cctlFrzall who core => Sys2Proof.Machine.execCctlFrzall who core s
  | .cctlHold who core hold => Sys2Proof.Machine.execCctlHold who core hold s
  | .lctlFrzreq who core lane req => Sys2Proof.Machine.execLctlFrzreq who core lane req s
  | .debugFrameWrite who core lane off n value => Sys2Proof.Machine.execDebugFrameWrite who core lane off n value s
  | .registerWrite who pa n value => Sys2Proof.Machine.execRegisterWrite who pa n value s
  | .domainCreate who slot value => Sys2Proof.Machine.execDomainCreate who slot value s
  | .domainSuspend who slot => Sys2Proof.Machine.execDomainSuspend who slot s
  | .domainResume who slot => Sys2Proof.Machine.execDomainResume who slot s
  | .domainRetire who slot => Sys2Proof.Machine.execDomainRetire who slot s
  | .hearthRoundStart => Sys2Proof.Machine.execHearthRoundStart s
  | .hearthRootForm => Sys2Proof.Machine.execHearthRootForm s
  | .hearthValuesArrive quad => Sys2Proof.Machine.execHearthValuesArrive quad s
  | .taskAbort task => Sys2Proof.Machine.execTaskAbort task s
  | .holdTimeout core lane => Sys2Proof.Machine.execHoldTimeout core lane s
  | .spatialPreempt launch quads => Sys2Proof.Machine.execSpatialPreempt launch quads s
  | .preemptDeadline launch => Sys2Proof.Machine.execPreemptDeadline launch s
  | .dmaSave who row => Sys2Proof.Machine.execDmaSave who row s
  | .dmaRestore who row => Sys2Proof.Machine.execDmaRestore who row s
  | .dmaDone die row ok => Sys2Proof.Machine.execDmaDone die row ok s
  | .dieNormalReset who die => Sys2Proof.Machine.execDieNormalReset who die s
  | .dieAbruptReset who die => Sys2Proof.Machine.execDieAbruptReset who die s
  | .dieResetEnter die => Sys2Proof.Machine.execDieResetEnter die s
  | .dieRejoin who die => Sys2Proof.Machine.execDieRejoin who die s
  | .flcmdWrite who flue value => Sys2Proof.Machine.execFlcmdWrite who flue value s
  | .flueTurnStart flue => Sys2Proof.Machine.execFlueTurnStart flue s
  | .flueGroupTurned flue => Sys2Proof.Machine.execFlueGroupTurned flue s
  | .linkPacketReceive flue toB seq => Sys2Proof.Machine.execLinkPacketReceive flue toB seq s
  | .linkRetry flue toB => Sys2Proof.Machine.execLinkRetry flue toB s
  | .flueDrowsy flue => Sys2Proof.Machine.execFlueDrowsy flue s
  | .flueTrained flue => Sys2Proof.Machine.execFlueTrained flue s
  | .flueWakeTimeout flue => Sys2Proof.Machine.execFlueWakeTimeout flue s
  | .dieUnresponsive core lane => Sys2Proof.Machine.execDieUnresponsive core lane s
  | .barrierForce who scope die id => Sys2Proof.Machine.execBarrierForce who scope die id s
  | .podBarrierForce who id => Sys2Proof.Machine.execPodBarrierForce who id s
  | .podBarrierArrival id => Sys2Proof.Machine.execPodBarrierArrival id s
  | .podBarrierRelease id => Sys2Proof.Machine.execPodBarrierRelease id s
  | .hornFlitReceive port seq => Sys2Proof.Machine.execHornFlitReceive port seq s
  | .hornRetry port => Sys2Proof.Machine.execHornRetry port s
  | .hornRetrain port => Sys2Proof.Machine.execHornRetrain port s
  | .podPacketReceive pkt => Sys2Proof.Machine.execPodPacketReceive pkt s
  | .podOpTimeout core slot => Sys2Proof.Machine.execPodOpTimeout core slot s
  | .collTimeout core slot => Sys2Proof.Machine.execCollTimeout core slot s
  | .nvmeCompletion core slot status => Sys2Proof.Machine.execNvmeCompletion core slot status s
  | .xblkTimeout core slot => Sys2Proof.Machine.execXblkTimeout core slot s
  | .energyCharge charges => Sys2Proof.Machine.execEnergyCharge charges s
  | .energyAccountWrite who acct off n value => Sys2Proof.Machine.execEnergyAccountWrite who acct off n value s
  | .powerLimitThrottle quad => Sys2Proof.Machine.execPowerLimitThrottle quad s
  | .freqChangeDone quad => Sys2Proof.Machine.execFreqChangeDone quad s
  | .thermalThrottle quad => Sys2Proof.Machine.execThermalThrottle quad s
  | .thermalDieReset die => Sys2Proof.Machine.execThermalDieReset die s
  | .thermalShutdown => Sys2Proof.Machine.execThermalShutdown s
  | .packageReset verdict => Sys2Proof.Machine.execPackageReset verdict s
  | .functionReady idx => Sys2Proof.Machine.execFunctionReady idx s
  | .functionFailed idx => Sys2Proof.Machine.execFunctionFailed idx s
  | .lmDoubleBitError core word => Sys2Proof.Machine.execLmDoubleBitError core word s
  | .hbmUncorrectableError line => Sys2Proof.Machine.execHbmUncorrectableError line s
  | .thermalThrottleEnd quad => Sys2Proof.Machine.execThermalThrottleEnd quad s
  | .dieRejoinComplete die => Sys2Proof.Machine.execDieRejoinComplete die s
  | .hornPortTrained port => Sys2Proof.Machine.execHornPortTrained port s

end Sys2Proof.Machine
end

