-- ==== Sys2Proof/Machine/Issue.lean ====
section
/-! DEFINITION. What happens before an instruction's meaning: pending freezes, limits, fetch, comparators, decoding (R41, R55,
R212, R219, R220, R328). -/

namespace Sys2Proof.Machine

/-- What a step does: nothing more than the state it gives, or the meaning of an instruction at that state. -/
inductive Plan where
  | stay (s : State)
  | run (s : State) (i : Instr)

/-- Lane `l` of core `c` is the one that issues an instruction with bits `w`. -/
def focusOn (s : State) (c l w : Nat) : State :=
  { s with sched := { s.sched with core := c, lane := l, bits := BitVec.ofNat 64 w, marks := (laneOf s c l).marks } }

/-- What keeps a Ready lane from issuing at all: a request that failed (R367), a poisoned result (R153), a freeze request
(R218), the end of a single step (R220), the instruction limit of a speculative task (R328), a barrier at which its arrival was
counted before it froze (R368). A fault of a speculative task waits until the task is earliest (R331) (DEDUCED, log entry 36). -/
def heldBack (s : State) (c l : Nat) : Option State :=
  let x := laneOf s c l
  let clear := fun (x : Lane) => if x.firing.spec then x else { x with frz := { x.frz with failing := none, poisoned := none } }
  match x.frz.failing with
  | some f =>
    -- a task that is promoted issues the access again when the lane stands at it (R331)
    let y := if f.here then { x with frz := { x.frz with failing := none } } else clear x
    some (takeFault (setLane (focusOn s c l f.instr.toNat) c l y) .dieUnresponsive f.addr)
  | none => match x.frz.poisoned with
    | some (a, instr) => some (takeFault (setLane (focusOn s c l instr.toNat) c l (clear x)) .poisoned a)
    | none =>
      if x.frz.frzreq then some (requestFreeze s c l)
      else if x.frz.step && x.frz.stepped then some (freeze s c l (packetFor s c l .singleStep 0 0))
      else if x.firing.spec && decide (8192 ≤ x.instcnt.toNat) then some (setLane s c l (blocked x .earliest))
      else (keptWait x).map (fun w => setLane s c l (blocked x w))

/-- A comparator matches the instruction that lane `l` is about to issue (R219). -/
def comparatorHit (l : Nat) (x : Lane) (k : Comparator) : Bool :=
  k.en && k.addr == x.pc && (!k.lmen || k.lmask.getLsbD l) && (!k.icen || (x.loop.len != 0 && x.loop.rem == k.icount))

/-- The comparators that match, lowest first: none while suppression is pending (R219, R220). -/
def hits (s : State) (c l : Nat) : List (Fin 8) :=
  let x := laneOf s c l
  if x.frz.suppr then []
  else (List.finRange 8).filter (fun i => comparatorHit l x (coreOf s c).ctl.comparators[i])

/-- HITS of a comparator that matched counts up (R219). -/
def countHit (v : Vector Comparator 8) (i : Fin 8) : Vector Comparator 8 := v.set i { v[i] with hits := satInc v[i].hits }

/-- A comparator hit freezes the lane before the instruction issues (R219). -/
def hitFreeze (s : State) (c l w : Nat) (hs : List (Fin 8)) : State :=
  let s := onCore s c (fun k => { k with ctl := { k.ctl with
    comparators := hs.foldl countHit k.ctl.comparators } })
  freeze s c l { packetFor s c l .comparator 0 (BitVec.ofNat 64 w) with aux := BitVec.ofNat 128 ((hs.head?).elim 0 (·.val)) }

/-- The lane as its instruction issues: the end of its LOOP body is known and its bytes are in the loop buffer (R99, R100) (DEDUCED, log entry 9). -/
def readied (s : State) (c l n w : Nat) : State :=
  let x := laneOf s c l
  let s :=
    if x.loop.len = 0 then s
    else
      let y := withStop s c l x
      setLane s c l { y with loop := { y.loop with
        buf := if x.loop.flushed then [] else bufferHalves x.loop.buf x.pc.toNat w (n / 16) } }
  focusOn s c l w

/-- A fault before the meaning of an instruction of `n` bits, of which `w` are known: a gang instruction's is one of its seat
(R247), but a speculative task's is deferred (R251, R331). -/
def earlyFault (s : State) (n w : Nat) (code : FaultCode) : State :=
  let op := bits w 2 10
  match seatOf (curCore s) s.sched.lane with
  | some i =>
    if n = 64 ∧ 0x207 ≤ op ∧ op ≤ 0x20A ∧ (cur s).firing.cls = 1 ∧ !(cur s).firing.spec then gangIssueFault s i code 0
    else takeFault s code 0
  | none => takeFault s code 0

/-- An instruction that is none faults as illegal (R55). -/
def illegalIssue (s : State) (n w : Nat) : State := earlyFault s n w .illegal

/-- A lane whose instruction cannot be fetched: a fetch fault, one of a gang instruction when its first halfword tells so (R41, R247),
or a wait for the way to it or its failure (R358, R367). The INSTR of a fetch fault's packet, whose bits are not all known, is 0 (DESIGN
CHOICE, log entry 59). -/
def fetchStopped (s : State) (c l : Nat) (e : Stop) : State :=
  match e with
  | .fault .fetch _ =>
    match fetchHalf s c l (laneOf s c l).pc.toNat with
    | .ok (t, h) => earlyFault (focusOn t c l 0) (lengthOf h) h .fetch
    | .error _ => takeFault (focusOn s c l 0) .fetch 0
  | .fault code a => takeFault (focusOn s c l 0) code a
  | .wait w => setLane (startWait (focusOn s c l 0) w) c l { blocked (laneOf s c l) w with waitInstr := 0 }
  | .stuck _ => s

/-- The next instruction of lane `l` of core `c` (R212): what stops it, or its meaning. -/
noncomputable def issue (s : State) (c l : Nat) : Plan :=
  if (laneOf s c l).status != .ready then .stay s
  else match heldBack s c l with
    | some t => .stay t
    | none =>
      match fetchInstr s c l with
      | .error e => .stay (fetchStopped s c l e)
      | .ok (s, n, w) =>
        match hits s c l with
        | h :: hs => .stay (hitFreeze s c l w (h :: hs))
        | [] =>
          match decodeWord n w with
          | .ok i => .run (readied s c l n w) i
          | .error _ => .stay (illegalIssue (readied s c l n w) n w)

end Sys2Proof.Machine
end

