-- ==== Sys2Proof/Machine/Sched.lean ====
section
/-! DEFINITION. The order of the steps (DESIGN CHOICE, log entry 1): what is due, the turns of the cores in rotation, and the pick of a lane for
each issue slot (R28 to R32). -/

namespace Sys2Proof.Machine

/-- The row of the opcode table that an event of the machine stands for. -/
noncomputable def dueInstr : Due → Instr
  | .dispatch c => .dispatch c
  | .laneUnblock c l => .laneUnblock c l
  | .resultArrival c l i => .resultArrival c l i
  | .storePerformed c l => .storePerformed c l
  | .faultFreeze c l => .faultFreeze c l
  | .faultRingWrite d => .faultRingWrite d
  | .messageAccept a b => .messageAccept a b
  | .sendQueueReoffer a b => .sendQueueReoffer a b
  | .remotePushAccept a b => .remotePushAccept a b
  | .taskAccept c => .taskAccept c
  | .taskSpillReturn q => .taskSpillReturn q
  | .stealRequest c l => .stealRequest c l
  | .stealAnswer c l => .stealAnswer c l
  | .eventAccept a b => .eventAccept a b
  | .eventSpillReturn c => .eventSpillReturn c
  | .eventDelivery c => .eventDelivery c
  | .eventDiscard c => .eventDiscard c
  | .fanoutEmit c => .fanoutEmit c
  | .fireMessagePost c => .fireMessagePost c
  | .asyncOpStart c q k => .asyncOpStart c q k
  | .gangForm q i => .gangForm q i
  | .gangComplete q => .gangComplete q
  | .tileOpComplete c i => .tileOpComplete c i
  | .sectorComplete c k n => .engineSectorComplete c k n 0
  | .txBarrierUpdate c => .txBarrierUpdate c
  | .reduceSectorApply c k n => .reduceSectorApply c k n
  | .bankSectorApply c k n => .bankSectorApply c k n
  | .backInvalidate a => .backInvalidate a
  | .dieResetEnter d => .dieResetEnter d
  | .dieRejoinComplete d => .dieRejoinComplete d
  | .dmaDone d r ok => .dmaDone d r ok
  | .freqChangeDone q => .freqChangeDone q
  | .podBarrierArrival i => .podBarrierArrival i
  | .podBarrierRelease i => .podBarrierRelease i
  | .flueTurnStart f => .flueTurnStart f
  | .flueGroupTurned f => .flueGroupTurned f
  | .flueTrained f => .flueTrained f
  | .attestationReport => .attestationReport
  | .hearthRootForm => .hearthRootForm
  | .hearthValuesArrive q => .hearthValuesArrive q
  | .taskAbort n => .taskAbort n
  | .persistentDeactivate d a => .persistentDeactivate d a
  | .directoryRequest d a w => .directoryRequest d a w
  | .directoryRecall d l a => .directoryRecall d l a
  | .transientRequest c l w => .transientRequest c l w
  | .hostMemRead a n => .hostMemRead a n
  | .hostMemWrite a n v => .hostMemWrite a n v
  | .podPacketReceive p _ _ => .podPacketReceive p

/-! ### The pick for a slot (R28 to R32) -/

/-- An instruction of `n` bits goes to the vector slot (R28): V format, the C-format vector arithmetic, and X instructions
below op10 0x100 whose destination is a v register. -/
def vectorSlot (n w : Nat) : Bool :=
  let op8 := bits w 2 8
  let op10 := bits w 2 10
  if n = 16 then decide (0x14 ≤ bits w 1 5 ∧ bits w 1 5 ≤ 0x16)
  else if n = 32 then decide (0x80 ≤ op8 ∧ op8 ≤ 0x9E)
  else decide (op10 < 0x1F ∨ (0x21 ≤ op10 ∧ op10 < 0x30 ∧ op10 ≠ 0x26))

/-- A lane was left waiting before its instruction issued (R29): it neither faulted, nor is its wait one that the instruction itself
begins, as that at a barrier or for a steal is (DEDUCED, log entry 57). -/
def heldBefore (l : Lane) : Bool :=
  l.status == .blocked && l.frz.pending.isNone && l.frz.deferred.isNone && (match l.wait with
    | some (.barrier _ _ _ _ _) => false
    | some (.barrierForced _ _ _ _) => false
    | some (.stealAnswer _ _) => false
    | _ => true)

/-- The slot of a lane's next instruction (R28). -/
def slotFor (s : State) (c l : Nat) : Option Bool :=
  match fetchInstr s c l with
  | .ok (_, n, w) => some (vectorSlot n w)
  | .error _ => none

/-- Lane `l` as the core finds it in a cycle (R29): the state, in which a lane that cannot issue is Blocked or Frozen, and the slot for
which an eligible one competes. What an eligible lane's instruction does, and a fault or a comparator hit at it, is left to its turn; a
fetch that stops is in no slot (DESIGN CHOICE, log entry 57). -/
noncomputable def eligible (s : State) (c l : Nat) : State × Option Bool :=
  if (laneOf s c l).status != .ready then (s, none)
  else match issue s c l with
    | .stay t => if (heldBack s c l).isNone && (slotFor s c l).isSome then (s, slotFor s c l) else (t, none)
    | .run t i => match exec i t with
      | .next u => if heldBefore (laneOf u c l) then (u, none) else (s, slotFor s c l)
      | _ => (s, slotFor s c l)

/-- Lane `a` goes before lane `b` for a slot whose pointer stands at `p` (R30, R32). -/
def pickBefore (k : Core) (p a b : Nat) : Bool :=
  let x := k.lanes[laneIx a]
  let y := k.lanes[laneIx b]
  let rr := fun i => (i + 15 - p) % 16
  if x.aged != y.aged then x.aged
  else if x.aged && x.waitCount != y.waitCount then decide (y.waitCount < x.waitCount)
  else if x.firing.prio != y.firing.prio then decide (y.firing.prio < x.firing.prio)
  else decide (rr a < rr b)

/-- The lane that takes a slot, of those that compete for it (R30). -/
def slotPick (k : Core) (lanes : List Nat) (vector : Bool) : Option Nat :=
  bestBy (pickBefore k (if vector then k.ctl.rrVector else k.ctl.rrScalar)) lanes

/-- The lanes of a list that compete for a slot, and the state in which the others wait (R29). -/
noncomputable def competing (s : State) (c : Nat) (vector : Bool) (lanes : List Nat) : State × List Nat :=
  lanes.foldl (fun (r : State × List Nat) l =>
    let (t, v) := eligible r.1 c l
    (t, if v == some vector then r.2 ++ [l] else r.2)) (s, [])

/-- A lane that was passed over counts the cycle, and is aged at 64 (R31, R32). -/
def passedOver (l : Lane) : Lane := { l with waitCount := l.waitCount + 1, aged := l.aged || decide (64 ≤ l.waitCount + 1) }

/-- A slot goes to one of the lanes that compete for it, whose turn is next; its pointer moves there, and the others count the cycle
(R30, R31). -/
def grant (s : State) (c : Nat) (vector : Bool) (lanes : List Nat) : State × Option Nat :=
  match slotPick (coreOf s c) lanes vector with
  | none => (s, none)
  | some a =>
    let s := (lanes.filter (· ≠ a)).foldl (fun s l => onLaneAt s c l passedOver) s
    let s := onCore s c (fun k => { k with ctl :=
      if vector then { k.ctl with rrVector := a } else { k.ctl with rrScalar := a } })
    ({ s with sched := { s.sched with agenda := .lane c a :: s.sched.agenda } }, some a)

/-- One cycle of a core's issue: the scalar slot is filled, and after its lane's turn the vector slot (R28) (DESIGN CHOICE, log entry
57). -/
noncomputable def arbitrate (s : State) (c : Nat) : State :=
  let (s, lanes) := competing s c false (List.range 16)
  let (s, a) := grant s c false lanes
  let next := s.sched.agenda.take a.toList.length ++ [Turn.vector c a] ++ s.sched.agenda.drop a.toList.length
  { s with sched := { s.sched with agenda := next } }

/-- The vector slot of a cycle in which lane `taken` took the scalar slot (R28, R30). -/
noncomputable def vectorTurn (s : State) (c : Nat) (taken : Option Nat) : State :=
  let (s, lanes) := competing s c true ((List.range 16).filter (fun l => some l != taken))
  (grant s c true lanes).1

/-! ### The turns -/

/-- The cores that take turns: those that hold any state and those with queued tasks (DESIGN CHOICE, log entry 7). -/
def turnCores (s : State) : List Nat :=
  (s.hearth.tasks.filter (fun e => e.2.state == .queued)).foldl (fun ks e => insertNat ks e.2.core) (s.cores.map (·.1))

/-- The core after `c` in rotation. -/
def coreAfter (s : State) (c : Nat) : Nat :=
  let ks := turnCores s
  (ks.find? (fun k => decide (c < k))).getD (ks.headD 0)

/-- The queued operations of a core that an access before them kept from starting are tried again (R142). -/
def retry (s : State) (c : Nat) : State :=
  let k := coreOf s c
  let post := fun (s : State) (d : Due) => if s.sched.agenda.contains (.due d) then s else dueEvent s d
  let s := (k.eng.queue.filter (fun e => e.2.state == .queued && mayStart k e.2.sb)).foldl (fun s e => post s (.asyncOpStart c 0 e.1)) s
  (List.range 2).foldl (fun s i =>
    match nextSeatOp (k.stove.seats[i]?.getD []) with
    | some p => if p.held.isNone && mayStart k p.sb then post s (.asyncOpStart c (i + 1) p.age) else s
    | none => s) s

/-- A turn of core `c`: lanes whose wait has cleared become Ready, freeze requests reach Blocked lanes, held operations are tried again,
the dispatcher starts a firing, and the slots are filled (R16, R24, R28, R142, R218). -/
noncomputable def coreTurn (s : State) (c : Nat) : State :=
  let s := (List.range 16).foldl (fun s l => unblock s c l) s
  let s := (List.range 16).foldl (fun s l =>
    let x := laneOf s c l
    if x.status == .blocked && x.frz.frzreq && x.frz.pending.isNone then requestFreeze s c l else s) s
  arbitrate (dispatchCore (retry s c) c) c

/-- The turn of the core in focus; the focus moves on, and what is due comes next (DESIGN CHOICE, log entry 1). -/
noncomputable def focusTurn (s : State) : State :=
  let c := s.sched.focus
  let s := if (turnCores s).contains c then coreTurn s c else s
  { s with sched := { s.sched with focus := coreAfter s c, flip := true } }

/-- An event alternates with the cores' turns (DESIGN CHOICE, log entry 1). -/
noncomputable def eventTurn (s : State) (rest : List Turn) (i : Instr) : Plan :=
  if s.sched.flip then .run { s with sched := { s.sched with agenda := rest, flip := false } } i else .stay (focusTurn s)

/-- The package runs, or an event resets it: once it is powered down nothing else happens (R445) (DEDUCED, log entry 8). -/
def powered (s : State) : Turn → Bool
  | .event (.packageReset _) => true
  | _ => !s.pkg.down

/-- What the next step does (DESIGN CHOICE, log entry 1). -/
noncomputable def plan (s : State) : Plan :=
  match s.sched.agenda with
  | [] => .stay (if s.pkg.down then s else focusTurn s)
  | t :: rest =>
    let rest' := { s with sched := { s.sched with agenda := rest } }
    if !powered s t then .stay rest'
    else match t with
      | .lane c l => issue rest' c l
      | .core c => .stay (coreTurn rest' c)
      | .vector c taken => .stay (vectorTurn rest' c taken)
      | .due d => eventTurn s rest (dueInstr d)
      | .event i => eventTurn s rest i

end Sys2Proof.Machine
end

