-- ==== Sys2Proof/Machine/Step.lean ====
section
/-! DEFINITION. One step of the package, and the placing of one instruction where the next step fetches it. -/

namespace Sys2Proof.Machine

/-- One step: the next event that is due, the next turn of a core, or the next instruction of a lane (DESIGN CHOICE, log entry 1). -/
noncomputable def step (s : State) : Host.Outcome State Fault Refusal :=
  match plan s with
  | .stay t => .next t
  | .run t i => exec i t

/-! ### Placing an instruction (DESIGN CHOICE, log entry 23) -/

/-- The supervisor core that fetches the placed instruction (DESIGN CHOICE, log entry 23). -/
def fetchCore : Nat := 480

/-- Physical addresses of the level-1 table and of the level-2 table that map the first 64 GiB to themselves (DESIGN CHOICE, log entry 23). -/
def fetchRoot : Nat := 0x100000

/-- The level-2 table (DESIGN CHOICE, log entry 23). -/
def fetchTable : Nat := 0x200000

/-- The lane that fetches the instruction at address 0. -/
def fetchLane (l : Lane) : Lane :=
  { l with status := .ready, wait := none, pc := 0, loop := LoopState.reset,
           firing := { Firing.reset with kind := .handler },
           frz := FreezeCtl.reset }

/-- The core that fetches: no comparator acts, and neither its TLB nor its L1I holds anything (DESIGN CHOICE, log entry 23). -/
def fetchReady (k : Core) : Core :=
  { setLaneC k 0 (fetchLane k.lanes[laneIx 0]) with
    ctl := { k.ctl with tlb := [], l1i := [], comparators := k.ctl.comparators.map (fun x => { x with en := false }) } }

/-- The state with the instruction of `nbits` bits `w` at physical address 0, mapped at address 0, as the next that lane 0
of the first supervisor core issues (DESIGN CHOICE, log entry 23). -/
def State.withFetchWord (s : State) (nbits w : Nat) : State :=
  let m := memWrite s.mem 0 8 (w % 2 ^ nbits)
  let m := memWrite m fetchRoot 8 (fetchTable + 1)
  let m := memWrite m fetchTable 8 0x17F
  let f := flueOf s 0
  { s with
    mem := m
    cores := smSet s.cores fetchCore (fetchReady (coreOf s fetchCore))
    dies := smSet s.dies 0 { dieOf s 0 with ctxs := smSet (dieOf s 0).ctxs 0 (BitVec.ofNat 64 (2 ^ 63 + fetchRoot)) }
    pkg := { s.pkg with down := false, ready := 2 ^ 2432 - 2 ^ 1024 + 2 ^ 640 - 1, flues := smSet s.pkg.flues 0 { f with pwr := 0 } }
    sched := { s.sched with agenda := .lane fetchCore 0 :: s.sched.agenda, fwCtx := some 0 } }

end Sys2Proof.Machine
end

