-- ==== Sys2Proof/Safety.lean ====
section
/-! DEFINITION. What claims call a good state and a safe run, and the words in which claims about instructions are stated:
operands that can be read, the state after an instruction completes, and what a step keeps. -/

namespace Sys2Proof.Safety

open Sys2Proof.Machine

/-! ### Good states -/

/-- The memory is in its canonical form: addresses rise, and no entry equals what an unlisted address reads as. -/
def MemoryOk (s : State) : Prop := s.mem.wf = true

/-- `k` steps from a state neither fault nor are refused. -/
def SafeRun (k : Nat) (s : State) : Prop := ∃ t, Host.Core.run Sys2Proof.core k s = .next t

/-! ### Operands that can be used at once (R26, R27) -/

/-- x source `a` can be read: x0, or a full and live register. -/
def XReady (l : Lane) (a : Src) : Prop :=
  a.reg = 0 ∨ (l.marks.xfull.getLsbD a.reg.val = true ∧ l.marks.xdead.getLsbD a.reg.val = false)

/-- v source `a` can be read: a payload register in a handler firing, or a full and live register (R45). -/
def VReady (l : Lane) (a : Src) : Prop :=
  if a.last = true ∧ a.trap = true then l.firing.kind = .handler
  else l.marks.vfull.getLsbD a.reg.val = true ∧ l.marks.vdead.getLsbD a.reg.val = false

/-- x register `d` can be written: x0, or a full register. -/
def XFree (l : Lane) (d : Reg) : Prop := d = 0 ∨ l.marks.xfull.getLsbD d.val = true

/-- v register `d` can be written: it is full. -/
def VFree (l : Lane) (d : Reg) : Prop := l.marks.vfull.getLsbD d.val = true

/-- A source operand can be read. -/
def OpndReady (l : Lane) : Opnd → Prop
  | .x a => XReady l a
  | .v a => VReady l a

/-- A destination can be written. -/
def DstFree (l : Lane) : Dst → Prop
  | .x r => XFree l r
  | .v r => VFree l r

/-- Every source operand of a list can be read. -/
def Ready (l : Lane) (srcs : List Opnd) : Prop := ∀ o ∈ srcs, OpndReady l o

/-- Every destination of a list can be written. -/
def Free (l : Lane) (dsts : List Dst) : Prop := ∀ d ∈ dsts, DstFree l d

/-! ### The state after an instruction of the issuing lane -/

/-- The issuing lane becomes `l`, with an instruction of `n` bytes counted and the PC past it (R99). -/
def after (s : State) (n : Nat) (l : Lane) : State := setCur s (retire n l)

/-- The issuing lane becomes `l`, with an instruction counted and the PC at `target` (R96, R97). -/
def afterJump (s : State) (target : BitVec 48) (l : Lane) : State := setCur s (retireTo target l)

/-- Memory, the other lanes, and everything of the package but the issuing core's lanes and control, the dies' fault
queues and the schedule are as they were. -/
structure OthersKept (s t : State) : Prop where
  mem : ∀ a, memGet t.mem a = memGet s.mem a
  poison : t.poison = s.poison
  quads : t.quads = s.quads
  hearth : t.hearth = s.hearth
  pkg : t.pkg = s.pkg
  lanes : ∀ c l, c ≠ s.sched.core ∨ laneIx l ≠ laneIx s.sched.lane → laneOf t c l = laneOf s c l
  msg : ∀ c, (coreOf t c).msg = (coreOf s c).msg
  ev : ∀ c, (coreOf t c).ev = (coreOf s c).ev
  eng : ∀ c, (coreOf t c).eng = (coreOf s c).eng
  stove : ∀ c, (coreOf t c).stove = (coreOf s c).stove

/-- The lane's x, v and p registers other than the destinations, its firing, its counters of outstanding accesses and
its results are as they were. -/
structure LaneKept (l m : Lane) (dx : Option Reg) (dv : Option Reg) (dp : Option PReg) : Prop where
  x : ∀ r : Reg, dx ≠ some r → m.regs.x[r] = l.regs.x[r]
  v : ∀ r : Reg, dv ≠ some r → m.regs.v[r] = l.regs.v[r]
  p : ∀ r : PReg, dp ≠ some r → m.regs.p[r] = l.regs.p[r]
  xfull : m.marks.xfull = l.marks.xfull
  vfull : m.marks.vfull = l.marks.vfull
  firing : m.firing = l.firing
  lcnt : m.lcnt = l.lcnt
  scnt : m.scnt = l.scnt
  results : m.results = l.results

/-! ### Instructions that complete -/

/-- With its sources readable and xd writable, the instruction completes: xd holds the value, last-use sources are dead,
and nothing else of the machine changes but the count of instructions and the PC. -/
def ResultX (i : Instr) (n : Nat) (srcs : List Opnd) (d : Reg) (v : Lane → X) : Prop :=
  ∀ s, Ready (cur s) srcs → XFree (cur s) d → exec i s = .next (after s n (putX (kill (cur s) srcs) d (v (cur s))))

/-- As `ResultX`, for a predicate register, which is always full. -/
def ResultP (i : Instr) (n : Nat) (srcs : List Opnd) (d : PReg) (v : Lane → P) : Prop :=
  ∀ s, Ready (cur s) srcs → exec i s = .next (after s n (putP (kill (cur s) srcs) d (v (cur s))))

/-- With its guard bit 0 set the instruction completes as `ResultX` says; with the bit clear it only counts (R47). -/
def GuardedX (i : Instr) (n : Nat) (g : PReg) (srcs : List Opnd) (d : Reg) (v : Lane → X) : Prop :=
  ∀ s, ((getP (cur s) g).getLsbD 0 = true → Ready (cur s) srcs → XFree (cur s) d →
      exec i s = .next (after s n (putX (kill (cur s) srcs) d (v (cur s)))))
    ∧ ((getP (cur s) g).getLsbD 0 = false → exec i s = .next (after s n (cur s)))

/-- An R-format instruction of two x sources. -/
def Binary (i : R3 → Instr) (g : X → X → X) : Prop :=
  ∀ o, ResultX (i o) 4 [.x o.a, .x o.b] o.d (fun l => g (getX l o.a.reg) (getX l o.b.reg))

/-- An R-format instruction of one x source. -/
def Unary (i : R2 → Instr) (g : X → X) : Prop := ∀ o, ResultX (i o) 4 [.x o.a] o.d (fun l => g (getX l o.a.reg))

/-- An I-format instruction: the second operand is the sign-extended immediate (R92). -/
def Immediate (i : RI → Instr) (g : X → X → X) : Prop :=
  ∀ o, ResultX (i o) 4 [.x o.a] o.d (fun l => g (getX l o.a.reg) (o.imm.signExtend 64))

/-- An I-format shift: the count is the immediate (R88). -/
def ImmShift (i : RSh → Instr) (g : X → X → X) : Prop :=
  ∀ o, ResultX (i o) 4 [.x o.a] o.d (fun l => g (getX l o.a.reg) (o.n.setWidth 64))

/-- A compressed instruction `op xa, xa, xb` (R51). -/
def Compressed (i : C2 → Instr) (g : X → X → X) : Prop :=
  ∀ o, ResultX (i o) 2 [.x (plain o.a), .x (plain o.b)] o.a (fun l => g (getX l o.a) (getX l o.b))

/-- A long-latency producer with an x destination: x0 is left alone; any other register is empty until the value, which
is fixed at issue, arrives (R26, R44). -/
def LongX (i : Instr) (n : Nat) (srcs : List Opnd) (d : Reg) (v : Lane → X) : Prop :=
  ∀ s, Ready (cur s) srcs → XFree (cur s) d →
    (d = 0 → exec i s = .next (after s n (kill (cur s) srcs)))
    ∧ (d ≠ 0 →
        let t := produce (setCur s (kill (cur s) srcs)) ⟨.x d, (v (cur s)).setWidth 1024, false, none, s.sched.bits, 0, siteOf s⟩
        exec i s = .next (after t n (cur t)))

/-- Where a PC-relative transfer goes: the instruction's address plus twice the offset (R43, R50). -/
def targetOf (l : Lane) (off : X) : X := l.pc.setWidth 64 + off * 2

/-- A target at which a transfer may go on: even, and below 2^48 (R98). -/
def TargetOk (t : X) : Prop := t.toNat < 2 ^ 48 ∧ t.getLsbD 0 = false

/-- A conditional branch outside a LOOP body (R96). -/
def BranchWhen (i : Instr) (n : Nat) (srcs : List Opnd) (taken : Lane → Prop) (off : X) : Prop :=
  ∀ s, (cur s).loop.len = 0 → Ready (cur s) srcs →
    (taken (cur s) → TargetOk (targetOf (cur s) off) →
      exec i s = .next (afterJump s ((targetOf (cur s) off).setWidth 48) (cur s)))
    ∧ (¬ taken (cur s) → exec i s = .next (after s n (cur s)))

/-- A jump outside a LOOP body, without a link (R97); `ras` is what it does to the return-address stack. -/
def Jumps (i : Instr) (srcs : List Opnd) (target : Lane → X) (ras : Lane → Lane) : Prop :=
  ∀ s, (cur s).loop.len = 0 → Ready (cur s) srcs → TargetOk (target (cur s)) →
    exec i s = .next (afterJump s ((target (cur s)).setWidth 48) (ras (kill (cur s) srcs)))

/-- A call of `n` bytes outside a LOOP body: the link is the address after it (R97). -/
def Calls (i : Instr) (n : Nat) (srcs : List Opnd) (link : Reg) (target : Lane → X) : Prop :=
  ∀ s, (cur s).loop.len = 0 → Ready (cur s) srcs → XFree (cur s) link → TargetOk (target (cur s)) →
    let next := (cur s).pc + BitVec.ofNat 48 n
    exec i s = .next (afterJump s ((target (cur s)).setWidth 48)
      (pushRas (putX (kill (cur s) srcs) link (next.setWidth 64)) next))

/-! ### Vector instructions (R108, R47, R76) -/

/-- The value that an exact operation and one rounding give an element (R80, R113); integers are exact modulo 2^W. -/
def arithValue (g : VArgs) (fl : List Machine.Num → Machine.Num) (it : List Int → Int) (draw : Nat) (xs : List Nat) : Nat :=
  match tyFlt g.ty with
  | some f => roundFlt f g.rnd draw (fl (xs.map (decodeFlt f)))
  | none => wrap (tyW g.ty) (it (xs.map (elemInt g.ty)))

/-- The elements of the sources at one place. -/
def sourceElems (g : VArgs) (l : Lane) (k : Nat) : List Nat := (srcVals g l).map (fun v => elem (tyW g.ty) v k)

/-- The instruction completes with a vector of elements of width `W`: every active element gets its value, every other
keeps the one that vd held; nothing else changes. -/
def PerElement (i : Instr) (n : Nat) (srcs : List Opnd) (d : Reg) (W : Nat) (act : Lane → P) (value : Lane → Nat → Nat) :
    Prop :=
  ∀ s, Ready (cur s) srcs → VFree (cur s) d →
    ∃ v : V, exec i s = .next (after s n (putV (kill (cur s) srcs) d v))
      ∧ ∀ k, k < 1024 / W → elem W v k =
          if (act (cur s)).getLsbD k = true then value (cur s) k % 2 ^ W else elem W (cur s).regs.v[d] k

/-- An element-wise instruction in a mode that takes no draw: the value of an active element is that of its sources'
elements at its place. -/
def ElementWise (i : Instr) (n : Nat) (g : VArgs) (value : List Nat → Nat) : Prop :=
  g.rnd ≠ .sr → PerElement i n (g.srcs.map .v) g.d (tyW g.ty) (fun l => getP l g.guard)
    (fun l k => value (sourceElems g l k))

/-- The generator after `n` steps (R75). -/
def srAfter (x : BitVec 32) : Nat → BitVec 32
  | 0 => x
  | n + 1 => srStep (srAfter x n)

/-- An element-wise instruction under .sr on a floating type: the active elements take one draw each in ascending order,
whether or not they need one (R76). -/
def StochasticWise (i : Instr) (n : Nat) (g : VArgs) (value : Nat → List Nat → Nat) : Prop :=
  ∀ s, g.rnd = .sr → (tyFlt g.ty).isSome = true → Ready (cur s) (g.srcs.map .v) → VFree (cur s) g.d →
    let act := getP (cur s) g.guard
    let below := fun k => ((List.range k).filter (fun j => act.getLsbD j)).length
    ∃ v : V, exec i s = .next (after s n { putV (kill (cur s) (g.srcs.map .v)) g.d v with
        sr := srAfter (cur s).sr (below (1024 / tyW g.ty)) })
      ∧ ∀ k, k < 1024 / tyW g.ty → elem (tyW g.ty) v k =
          if act.getLsbD k = true then
            value ((srAfter (cur s).sr (below k + 1)).toNat % 2 ^ 16) (sourceElems g (cur s) k) % 2 ^ tyW g.ty
          else elem (tyW g.ty) (cur s).regs.v[g.d] k

/-- A vector instruction that completes with the vector and the generator that `f` gives. -/
def ResultV (i : Instr) (n : Nat) (srcs : List Opnd) (d : Reg) (f : Lane → V × BitVec 32) : Prop :=
  ∀ s, Ready (cur s) srcs → VFree (cur s) d →
    exec i s = .next (after s n { putV (kill (cur s) srcs) d (f (cur s)).1 with sr := (f (cur s)).2 })

/-- With its sources readable and vd writable the vector instruction completes, whatever its rounding mode: vd holds a vector, the
generator stands at some state, last-use sources are dead, and nothing else changes but the count of instructions and the PC. -/
def CompletesV (i : Instr) (n : Nat) (srcs : List Opnd) (d : Reg) : Prop :=
  ∀ s, Ready (cur s) srcs → VFree (cur s) d →
    ∃ (v : V) (r : BitVec 32), exec i s = .next (after s n { putV (kill (cur s) srcs) d v with sr := r })

/-- A long-latency vector instruction: the destination is empty until the vector, fixed at issue, arrives (R26, R111). -/
def LongV (i : Instr) (n : Nat) (srcs : List Opnd) (d : Reg) (f : Lane → V × BitVec 32) : Prop :=
  ∀ s, Ready (cur s) srcs → VFree (cur s) d →
    let t := produce (setCur s { kill (cur s) srcs with sr := (f (cur s)).2 }) ⟨.v d, (f (cur s)).1, false, none, s.sched.bits, 0, siteOf s⟩
    exec i s = .next (after t n (cur t))

/-! ### Memory instructions (R137, R147 to R157) -/

/-- An aligned access of `n` bytes of own LM below the Attic, at offset `o` (R135, R137, R138). -/
def LocalAt (a : X) (n o : Nat) : Prop := a.toNat = 0xFF80 * 2 ^ 48 + o ∧ o + n ≤ 0x6C000 ∧ o % n = 0

/-- No scoreboard entry of the core stands against an access of `n` bytes of own LM at `o` (R142). -/
def NoConflict (s : State) (o n : Nat) (write : Bool) : Prop :=
  ∀ e ∈ (curCore s).eng.sb, entryBlocks [granule o, granule (o + n - 1)] 0 write e.2 = false

/-- A value of `n` bytes as a load extends it (R151). -/
def loaded (n : Nat) (signed : Bool) (v : Nat) : X :=
  if signed then (BitVec.ofNat (8 * n) v).signExtend 64 else (BitVec.ofNat (8 * n) v).setWidth 64

/-- The `n` bytes from `a` hold the low bytes of `v`, the low byte first, and every other byte reads as before. -/
def Stored (s t : State) (a n v : Nat) : Prop :=
  ∀ b, memGet t.mem b = if a ≤ b ∧ b < a + n then BitVec.ofNat 8 (v / 256 ^ (b - a)) else memGet s.mem b

/-- Everything but memory, poison marks, the issuing lane and the schedule is as before. -/
structure MachineKept (s t : State) : Prop where
  quads : t.quads = s.quads
  dies : t.dies = s.dies
  hearth : t.hearth = s.hearth
  pkg : t.pkg = s.pkg
  lanes : ∀ c l, c ≠ s.sched.core ∨ laneIx l ≠ laneIx s.sched.lane → laneOf t c l = laneOf s c l
  ctl : ∀ c, (coreOf t c).ctl = (coreOf s c).ctl
  msg : ∀ c, (coreOf t c).msg = (coreOf s c).msg
  ev : ∀ c, (coreOf t c).ev = (coreOf s c).ev
  eng : ∀ c, (coreOf t c).eng = (coreOf s c).eng
  stove : ∀ c, (coreOf t c).stove = (coreOf s c).stove

/-- A load from own LM completes at once (R149, R151): xd holds the extended value. -/
def LoadsLocal (i : Instr) (n : Nat) (srcs : List Opnd) (d : Reg) (addr : Lane → X) (size : Nat) (signed : Bool)
    (pre : Lane → Prop) : Prop :=
  ∀ s o, pre (cur s) → Ready (cur s) srcs → XFree (cur s) d → LocalAt (addr (cur s)) size o → NoConflict s o size false →
    poisoned s (lmKey s.sched.core o) size = false →
    exec i s = .next (after s n (putX (kill (cur s) srcs) d (loaded size signed (memRead s.mem (lmKey s.sched.core o) size))))

/-- A store to own LM completes: its bytes are written, no register changes, and nothing else of memory (R149, R151). -/
def StoresLocal (i : Instr) (n : Nat) (srcs : List Opnd) (addr : Lane → X) (size : Nat) (data : Lane → X)
    (pre : Lane → Prop) : Prop :=
  ∀ s o, pre (cur s) → MemoryOk s → Ready (cur s) srcs → LocalAt (addr (cur s)) size o → NoConflict s o size true →
    ∃ t, exec i s = .next t ∧ cur t = retire n (kill (cur s) srcs)
      ∧ Stored s t (lmKey s.sched.core o) size (data (cur s)).toNat ∧ MachineKept s t

/-- The page that a global access meets: an aligned address below 2^56 that translates to HBM or host memory, with the ways to the tables
and to the data open, and no persistent request of another core on its line (R137, R138, R256, R264, R366). `t` is the state in which
the walk has left the A and D bits and the TLBs. -/
def PageAt (s t : State) (acc : Access) (a : X) (n pa mt : Nat) (de : Bool) : Prop :=
  a.toNat < 2 ^ 56 ∧ a.toNat % n = 0 ∧ transWay s s.sched.core (ctxOf s s.sched.core (cur s)) a.toNat acc = .opened
  ∧ translate s s.sched.core (ctxOf s s.sched.core (cur s)) a.toNat acc = some (t, pa, mt, de)
  ∧ pa < 2 ^ 41 ∧ pathPhys t (dieNo s.sched.core) pa mt (writes acc) = .opened
  ∧ (pa < 2 ^ 40 → linesFree t s.sched.core (lineOf pa) (writes acc) (cacheable pa mt) = true)

/-- A global access by the issuing lane passes its checks and lands at `key` in the memory list, leaving the state `u`: on a
page of a memory type that `types` allows, with what an ordered task's access records (R325) or no speculative task's hold on
the line (R333); or in Larder shared space, with its flue Active and its bank ready (R352, R366). -/
def GlobalAt (s u : State) (acc : Access) (types : Nat → Prop) (a : X) (n key : Nat) : Prop :=
  (∃ t mt de, PageAt s t acc a n key mt de ∧ types mt
    ∧ lineAccess t (accessorOf (cur s)) a.toNat key mt de (acc != .load) = .ok u)
  ∨ ∃ off, u = s ∧ a.toNat = 0xFF90 * 2 ^ 48 + off ∧ off + n ≤ s.pkg.shared * 2 ^ 26 ∧ s.pkg.shared ≤ 8 ∧ off % n = 0
      ∧ key = 2 ^ 44 + off ∧ pathShared s (dieNo s.sched.core) off = .opened
      ∧ ∀ k ∈ (cur s).firing.task, ∀ t ∈ taskOf s k, t.spec = false

/-- The lane with a counted result outstanding (R26, R149), as the lane of `u` issues its instruction. -/
def awaiting (u : State) (l : Lane) (r : Result) : Lane :=
  { l with results := (cur u).results ++ [r], lcnt := (cur u).lcnt + 1 }

/-- The lane waits, at the same instruction, for a condition (R24). -/
def waiting (s : State) (w : Wait) : State := setCur s { blocked (cur s) w with waitInstr := s.sched.bits }

/-- A load from global memory completes as a long-latency producer (R149, R151): the register is empty until the value
arrives, lcnt counts it, and memory is as the checks left it. Poisoned data arrive as 0 with the poison (R153). -/
def LoadsGlobal (i : Instr) (n : Nat) (srcs : List Opnd) (d : Reg) (addr : Lane → X) (size : Nat) (signed : Bool)
    (pre : Lane → Prop) : Prop :=
  ∀ s u key, pre (cur s) → Ready (cur s) srcs → XFree (cur s) d →
    GlobalAt s u .load (fun _ => True) (addr (cur s)) size key → (cur u).lcnt < 63 →
    let bad := poisoned u key size
    let r : Result := ⟨.x d, if bad then 0 else (loaded size signed (memRead u.mem key size)).setWidth 1024, true,
      if bad then some (addr (cur s)) else none, s.sched.bits, addr (cur s), siteOf u⟩
    ∃ t, exec i s = .next t ∧ t.mem = u.mem ∧ t.sched.agenda = u.sched.agenda ++ [.due (.resultArrival s.sched.core s.sched.lane 0)]
      ∧ cur t = retire n (awaiting u (emptyDest (kill (cur u) srcs) (.x d)) r)

/-- A store to global memory completes: its bytes are written where the address translates to, nothing else of memory
changes after the checks, and scnt counts it (R149, R151). -/
def StoresGlobal (i : Instr) (n : Nat) (srcs : List Opnd) (addr : Lane → X) (size : Nat) (data : Lane → X)
    (pre : Lane → Prop) : Prop :=
  ∀ s u key, pre (cur s) → MemoryOk u → Ready (cur s) srcs → GlobalAt s u .store (fun _ => True) (addr (cur s)) size key →
    (cur u).scnt < 63 →
    ∃ t, exec i s = .next t ∧ Stored u t key size (data (cur s)).toNat
      ∧ t.sched.agenda = u.sched.agenda ++ [.due (.storePerformed s.sched.core s.sched.lane)]
      ∧ cur t = retire n { kill (cur u) srcs with scnt := (cur u).scnt + 1 }

/-- The active elements of a vector access all lie in own LM, element `k` at offset `off k`. -/
def AllLocal (s : State) (w : Nat) (act : P) (addr : Nat → X) (off : Nat → Nat) (write : Bool) : Prop :=
  ∀ k, k < 1024 / w → act.getLsbD k = true → LocalAt (addr k) (w / 8) (off k) ∧ NoConflict s (off k) (w / 8) write

/-- The active elements in ascending order. -/
def actives (w : Nat) (act : P) : List Nat := (List.range (1024 / w)).filter (fun k => act.getLsbD k)

/-- A vector load from own LM completes at once (R154): an active element is the memory at its address. -/
def VectorLoadsLocal (i : Instr) (n : Nat) (srcs : List Opnd) (d : Reg) (w : Nat) (act : Lane → P) (addr : Lane → Nat → X) :
    Prop :=
  ∀ s off, Ready (cur s) srcs → VFree (cur s) d → AllLocal s w (act (cur s)) (addr (cur s)) off false →
    (∀ k ∈ actives w (act (cur s)), poisoned s (lmKey s.sched.core (off k)) (w / 8) = false) →
    ∃ v : V, exec i s = .next (after s n (putV (kill (cur s) srcs) d v))
      ∧ ∀ k, k < 1024 / w → elem w v k =
          if (act (cur s)).getLsbD k = true then memRead s.mem (lmKey s.sched.core (off k)) (w / 8)
          else elem w (cur s).regs.v[d] k

/-- A vector store to own LM completes (R154): the active elements are written in ascending order, each at its address;
no register changes, and every byte outside those elements reads as before. -/
def VectorStoresLocal (i : Instr) (n : Nat) (srcs : List Opnd) (w : Nat) (act : Lane → P) (addr : Lane → Nat → X)
    (data : Lane → V) : Prop :=
  ∀ s off, MemoryOk s → Ready (cur s) srcs → AllLocal s w (act (cur s)) (addr (cur s)) off true →
    let at' := fun k => lmKey s.sched.core (off k)
    ∃ t, exec i s = .next t ∧ cur t = retire n (kill (cur s) srcs) ∧ MachineKept s t
      ∧ t.mem = (actives w (act (cur s))).foldl (fun m k => memWrite m (at' k) (w / 8) (elem w (data (cur s)) k)) s.mem
      ∧ ∀ b, (∀ k ∈ actives w (act (cur s)), b < at' k ∨ at' k + w / 8 ≤ b) → memGet t.mem b = memGet s.mem b

/-- A vector scatter-add to own LM completes (R154): each active element in ascending order adds to what its address then
holds, once per element. -/
def VectorAddsLocal (i : Instr) (n : Nat) (srcs : List Opnd) (w : Nat) (act : Lane → P) (addr : Lane → Nat → X)
    (data : Lane → V) (sum : Nat → Nat → Nat) : Prop :=
  ∀ s off, (cur s).firing.spec = false → Ready (cur s) srcs → AllLocal s w (act (cur s)) (addr (cur s)) off true →
    (∀ k ∈ actives w (act (cur s)), poisoned s (lmKey s.sched.core (off k)) (w / 8) = false) →
    let at' := fun k => lmKey s.sched.core (off k)
    ∃ t, exec i s = .next t ∧ cur t = retire n (kill (cur s) srcs) ∧ MachineKept s t
      ∧ t.mem = (actives w (act (cur s))).foldl (fun m k =>
          memWrite m (at' k) (w / 8) (sum (memRead m (at' k) (w / 8)) (elem w (data (cur s)) k))) s.mem

/-- The elements of a vector access that pass their checks, lowest first, at the places `ps`, none of them in own LM or in a
window; `u` is the state that the checks leave (R138, R148, R325). -/
def VectorPlaces (s u : State) (acc : Access) (w : Nat) (act : P) (addr : Nat → X) (ps : List (Nat × Place)) : Prop :=
  ∃ v, resolveAll s.sched.core (ctxOf s s.sched.core (cur s)) acc (w / 8) s ((actives w act).map (fun k => (k, addr k)))
      = .ok (v, ps)
    ∧ domainAll (accessorOf (cur s)) (acc != .load) v ps = .ok u ∧ ps ≠ []
    ∧ ∀ e ∈ ps, e.2.isLocal = false ∧ isWindow (placeKey s.sched.core e.2) = false

/-- A vector load from global memory completes as a long-latency producer (R149, R154): the vector that arrives holds each
active element's memory at its place, and the old elements elsewhere; with a poisoned element it is 0 (R153). -/
def VectorLoadsGlobal (i : Instr) (n : Nat) (srcs : List Opnd) (d : Reg) (w : Nat) (act : Lane → P) (addr : Lane → Nat → X) :
    Prop :=
  ∀ s u ps, Ready (cur s) srcs → VFree (cur s) d → VectorPlaces s u .load w (act (cur s)) (addr (cur s)) ps → (cur u).lcnt < 63 →
    let key := fun (e : Nat × Place) => placeKey s.sched.core e.2
    ∃ t r, exec i s = .next t ∧ t.mem = u.mem ∧ r.dest = .v d ∧ r.counted = true
      ∧ t.sched.agenda = u.sched.agenda ++ [.due (.resultArrival s.sched.core s.sched.lane 0)]
      ∧ cur t = retire n (awaiting u (emptyDest (kill (cur u) srcs) (.v d)) r)
      ∧ ((∀ e ∈ ps, poisoned u (key e) (w / 8) = false) → r.poisonAt = none ∧ ∀ k, k < 1024 / w →
          elem w r.value k = match ps.find? (fun e => e.1 == k) with
            | some e => memRead u.mem (key e) (w / 8)
            | none => elem w (cur s).regs.v[d] k)
      ∧ ((∃ e ∈ ps, poisoned u (key e) (w / 8) = true) → r.value = 0 ∧ r.poisonAt ≠ none)

/-- A vector store to global memory completes (R154): the elements are written in ascending order at their places, and no
other byte; scnt counts the instruction once. -/
def VectorStoresGlobal (i : Instr) (n : Nat) (srcs : List Opnd) (w : Nat) (act : Lane → P) (addr : Lane → Nat → X)
    (data : Lane → V) : Prop :=
  ∀ s u ps, MemoryOk u → Ready (cur s) srcs → VectorPlaces s u .store w (act (cur s)) (addr (cur s)) ps → (cur u).scnt < 63 →
    let key := fun (e : Nat × Place) => placeKey s.sched.core e.2
    ∃ t, exec i s = .next t ∧ cur t = retire n { kill (cur u) srcs with scnt := (cur u).scnt + 1 }
      ∧ t.mem = ps.foldl (fun m e => memWrite m (key e) (w / 8) (elem w (data (cur s)) e.1)) u.mem
      ∧ ∀ b, (∀ e ∈ ps, b < key e ∨ key e + w / 8 ≤ b) → memGet t.mem b = memGet u.mem b

/-- A vector scatter-add to global memory completes (R154): each element in ascending order adds to what its place then
holds; an element that reads poisoned data is left as it is, and the lane will freeze with the first such address (R153). -/
def VectorAddsGlobal (i : Instr) (n : Nat) (srcs : List Opnd) (w : Nat) (act : Lane → P) (addr : Lane → Nat → X)
    (data : Lane → V) (sum : Nat → Nat → Nat) : Prop :=
  ∀ s u ps, (cur s).firing.spec = false → Ready (cur s) srcs → VectorPlaces s u .atomic w (act (cur s)) (addr (cur s)) ps →
    (cur u).scnt < 63 →
    let key := fun (e : Nat × Place) => placeKey s.sched.core e.2
    let frz := match firstPoison u s.sched.core (w / 8) ps with
      | some a => { (cur u).frz with poisoned := some (a, s.sched.bits) }
      | none => (cur u).frz
    ∃ t, exec i s = .next t ∧ cur t = retire n { kill (cur u) srcs with scnt := (cur u).scnt + 1, frz := frz }
      ∧ t.mem = (ps.filter (fun e => !poisoned u (key e) (w / 8))).foldl (fun m e => memWrite m (key e) (w / 8) (sum (memRead m (key e) (w / 8)) (elem w (data (cur s)) e.1))) u.mem

/-- An atomic on own LM completes at once (R156): xd gets the old value and the word becomes `new` of it. -/
def AtomicLocal (i : Instr) (srcs : List Opnd) (d : Reg) (addr : Lane → X) (size : Nat) (signed : Bool)
    (new : Lane → Nat → Nat) (pre : Lane → Prop) : Prop :=
  ∀ s o, pre (cur s) → MemoryOk s → Ready (cur s) srcs → XFree (cur s) d → LocalAt (addr (cur s)) size o → NoConflict s o size true →
    poisoned s (lmKey s.sched.core o) size = false →
    let old := memRead s.mem (lmKey s.sched.core o) size
    ∃ t, exec i s = .next t ∧ cur t = retire 8 (putX (kill (cur s) srcs) d (loaded size signed old))
      ∧ Stored s t (lmKey s.sched.core o) size (new (cur s) old) ∧ MachineKept s t

/-- An atomic on global memory completes as a long-latency producer (R149, R156): the old value arrives in xd, and the word
becomes `new` of it; poisoned data give 0 and leave the word (R153). -/
def AtomicGlobal (i : Instr) (srcs : List Opnd) (d : Reg) (addr : Lane → X) (size : Nat) (signed : Bool)
    (new : Lane → Nat → Nat) (pre : Lane → Prop) : Prop :=
  ∀ s u key, pre (cur s) → MemoryOk u → Ready (cur s) srcs → XFree (cur s) d →
    GlobalAt s u .atomic (fun mt => mt ≠ 2) (addr (cur s)) size key →
    (∀ e ∈ (curCore s).eng.queue, (bankDest e.2).isNone = true) → (cur u).lcnt < 63 →
    let old := memRead u.mem key size
    let bad := poisoned u key size
    let r : Result := ⟨.x d, if bad then 0 else (loaded size signed old).setWidth 1024, true,
      if bad then some (addr (cur s)) else none, s.sched.bits, addr (cur s), siteOf u⟩
    ∃ t, exec i s = .next t
      ∧ (bad = true → t.mem = u.mem) ∧ (bad = false → Stored u t key size (new (cur s) old))
      ∧ cur t = retire 8 (awaiting u (emptyDest (kill (cur u) srcs) (.x d)) r)

/-! ### Messages and tasks (R159 to R175) -/

/-- The core that a message descriptor names (R161 to R163): by number, by the launch's virtual core, or as the owner of
an address. -/
def NamesDest (s : State) (desc : Nat) (owner : Option X) (dst : Nat) : Prop :=
  namesCore dst = true ∧ bits desc 32 32 = 0 ∧ bits desc 14 2 = 0 ∧
  match owner with
  | some a => bits desc 0 13 = 0 ∧ ∃ x, launchOf s s.sched.core (cur s) = some x ∧ ownerCore s (dieNo s.sched.core) x.2 a = some dst
  | none =>
    if bit desc 12 then ∃ x, launchOf s s.sched.core (cur s) = some x ∧ virtCore s (dieNo s.sched.core) x.2 (bits desc 0 12) = some dst
    else dst = bits desc 0 12

/-- A send completes: its message stands last in the send queue with the core's next sequence number, and will be offered
to its destination (R160, R162, R164). -/
def Sends (i : Instr) (srcs : List Opnd) (a : Src) (owner : Option Reg) (payload : Lane → List V) : Prop :=
  ∀ s dst, (cur s).firing.spec = false → Ready (cur s) srcs → (curCore s).msg.sendQ.length < 32 →
    NamesDest s (getX (cur s) a.reg).toNat (owner.map (getX (cur s))) dst →
    let desc := (getX (cur s) a.reg).toNat
    let k := curCore s
    let m : Message := ⟨dst, bits desc 16 8, bits desc 24 8, bit desc 13, k.msg.sendSeq, s.sched.core, s.sched.lane,
      (dieOf s (dieNo s.sched.core)).inc, none, payload (cur s),
      if bit desc 12 then (launchOf s s.sched.core (cur s)).map (fun x => (x.1, bits desc 0 12)) else none, none,
      (launchOf s s.sched.core (cur s)).map (·.1)⟩
    ∃ t, exec i s = .next t ∧ cur t = retire 4 (kill (cur s) srcs) ∧ t.mem = s.mem
      ∧ (curCore t).msg = { k.msg with sendQ := k.msg.sendQ ++ [.msg m], sendSeq := k.msg.sendSeq + 1 }
      ∧ t.sched.agenda = s.sched.agenda ++ [.due (.messageAccept s.sched.core dst)]

/-- The spawn that a record `r` of the issuing lane makes (R167 to R169). -/
def spawned (s : State) (r : Nat) (outside : Bool) : Spawn :=
  { record := r, core := s.sched.core, lane := s.sched.lane,
    parent := if (cur s).firing.spec = true ∧ outside = false then (cur s).firing.task else none,
    origin := if outside then none else (cur s).firing.task, domain := (cur s).firing.domain,
    tstamp := (cur s).firing.tstamp, launch := (launchOf s s.sched.core (cur s)).map (·.1), host := false }

/-! ### Transaction barriers (R273 to R275) -/

/-- A transaction barrier's address that the issuing lane can use: 16 bytes of own LM or of global memory of type 00, at
`key`, with the state `u` after the checks. -/
def BarrierAt (s u : State) (write : Bool) (a : X) (key : Nat) : Prop :=
  (∃ o, u = s ∧ LocalAt a 16 o ∧ key = lmKey s.sched.core o ∧ poisoned s key 16 = false)
  ∨ ((cur s).firing.spec = false ∧ GlobalAt s u (if write then .atomic else .load) (fun mt => mt = 0) a 16 key)

/-! ### Engine operations (R277 to R284) -/

/-- The command is accepted (R279): after its checks, which leave the state `v`, the operation stands queued in the free slot,
with the core's next sequence number, and its start is due. The instruction completes; memory is as the checks left it. -/
def Accepts (s : State) (i : Instr) (v : State) (op : EngOp) (slot : Nat) : Prop :=
  let c := v.sched.core
  ∃ t sb sc, exec i s = .next t ∧ engOp t c slot = some { op with sb := sb, sbScale := sc } ∧ op.state = .queued
    ∧ op.seq = (coreOf v c).eng.seq ∧ (coreOf t c).eng.seq = (coreOf v c).eng.seq + 1
    ∧ (∀ k, k ≠ slot → engOp t c k = engOp v c k) ∧ t.mem = v.mem ∧ cur t = retire 8 (cur v)
    ∧ t.sched.agenda = v.sched.agenda ++ [.due (.asyncOpStart c 0 slot)]

/-- A free slot of the engine queue, and of the scoreboard for the `n` entries that the operation takes (R141, R142, R279). -/
def RoomFor (v : State) (n : Nat) (slot : Nat) : Prop :=
  lowestFree (coreOf v v.sched.core).eng.queue 32 = some slot ∧ (n ≠ 0 → sbRoomFor (coreOf v v.sched.core) n = true)

/-- Registers read with L = 0 and F = block can be read. -/
def PlainReady (l : Lane) (rs : List Reg) : Prop := Ready l (rs.map (fun r => Opnd.x (plain r)))

/-- A data mover with a valid record is accepted (R277 to R282). -/
def MoverAccepted (i : Instr) (kind : EngKind) (xs xc xb : Reg) (xl xn : Option Reg) (nosb raw : Bool) : Prop :=
  ∀ s u v bar ra slot, (cur s).firing.spec = false → PlainReady (cur s) (xs :: coordRegs xc ++ xl.toList ++ [xb] ++ xn.toList) →
    (∀ r ∈ xl, ∃ o, classOf s s.sched.core (getX (cur s) r) = .ownLm o ∧ o < 0x6C000) →
    recordAddr s (getX (cur s) xs) = .ok () → barPlace s (getX (cur s) xb) = .ok (u, bar) →
    readRecord u s.sched.core (cur s) (getX (cur s) xs) = .ok (v, ra) → recordValid raw ra = true →
    let op := newOp v kind (getX (cur s) xs) (xl.elim 0 (getX (cur s))) (getX (cur s) (xn.getD 0)) (getX (cur s) xb)
      (coordsOf (cur s) xc) ra 0 bar
    acceptError v op = none → RoomFor v (if nosb then 0 else (moverEntries v op).length) slot → Accepts s i v op slot

/-- What an operation reports to its barrier at `key` (R281, R284). -/
def barUpdate (op : EngOp) (key sectors fails : Nat) (code : Option Nat) : TxUpdate :=
  ⟨16, op.xb, key, .engine sectors fails code, ⟨op.ctx, op.task, op.owner⟩⟩

/-- A sector has been counted (R281): the operation remembers it, or has left the queue with its last; its barrier's PSECT has
gone down by one, or, while something holds the barrier's line, the update is on its way; a divided operation's first part frees its
entry with its last sector (R141, R143). `u` is the state in which the sector's writes have performed. -/
def SectorCounted (u t : State) (c slot : Nat) (op : EngOp) (q : Nat) : Prop :=
  (op.counted.length + 1 < opSectors op → engOp t c slot = some { op with
      counted := op.counted ++ [q], heldAt := none,
      sb := if op.sbScale.isSome = true ∧ ∀ k, k < firstPart op → k ∈ op.counted ++ [q] then none else op.sb })
  ∧ (opSectors op ≤ op.counted.length + 1 → engOp t c slot = none)
  ∧ (sbOf op.kind = none → ∀ k, op.bar = some k → k ≠ voidKey →
      (∀ v, txReady u c (barUpdate op k 1 0 none) = .ok v → MemoryOk v →
        memRead t.mem k 16 = txEvaluate (txSectors (memRead v.mem k 16) 1))
      ∧ ∀ w, txReady u c (barUpdate op k 1 0 none) = .error (.wait w) →
        t.mem = u.mem ∧ (coreOf t c).eng.tx = (coreOf u c).eng.tx ++ [barUpdate op k 1 0 none])

/-- An operation has ended in error (R284): it has left the queue, ERR is set in its barrier, or the update that sets it is on its way to
a barrier that is not in own LM, and its packet waits for the die's ring with the code, in its place among those that wait (R215). -/
def EndedInError (s t : State) (c slot : Nat) (op : EngOp) (code : FaultCode) : Prop :=
  engOp t c slot = none
  ∧ (MemoryOk s → ∀ k, op.bar = some k → k ≠ voidKey → txErr (memRead t.mem k 16) = true
      ∨ ((∀ o, classOf s c op.xb ≠ .ownLm o) ∧ ∃ n f e, barUpdate op k n f (some e) ∈ (coreOf t c).eng.tx))
  ∧ ∃ p, (dieOf t (dieNo c)).fpqWait = queuePacket (dieOf s (dieNo c)).fpqWait p ∧ p.code = code ∧ p.nofrz = true
      ∧ p.engop = BitVec.ofNat 32 (opId c slot op)

/-! ### Tiles and gangs (R222 to R246) -/

/-- The issuing lane runs a tile firing that owns the tiles of seat `i` (R25, R227). -/
def InSeat (s : State) (i : Fin 2) : Prop := seatOf (curCore s) s.sched.lane = some i ∧ (cur s).firing.cls = 1

/-- The instruction puts an operation last into its seat queue, with the masks of the seat as they are, and its start is due
(R224, R225, R233). -/
def SeatQueued (s : State) (ins : Instr) (i : Fin 2) (kind : SeatKind) (xa xb : X) (table : List Nat) : Prop :=
  ∃ t p, exec ins s = .next t ∧ (curCore t).stove.seats[i] = (curCore s).stove.seats[i] ++ [p]
    ∧ p.kind = kind ∧ p.lane = s.sched.lane ∧ p.xa = xa ∧ p.xb = xb ∧ p.table = table
    ∧ p.masks = (curCore s).stove.masks[i] ∧ p.started = false ∧ p.formed = false ∧ p.held = none
    ∧ (cur t).regs = (cur s).regs ∧ (cur t).instcnt = satInc (cur s).instcnt ∧ t.mem = s.mem
    ∧ t.sched.agenda = s.sched.agenda ++ [.due (.asyncOpStart s.sched.core (i.val + 1) p.age)]

/-- Room in a seat queue, and in the scoreboard for an operation that takes an entry. -/
def SeatRoom (s : State) (i : Fin 2) (nosb : Bool) : Prop :=
  seatLoad (curCore s).stove.seats[i] < 16 ∧ (nosb = false → sbRoom (curCore s) = true)

/-- The scale block that an instruction reads, if it reads one, lies in own LM below the Attic (R236, R239). -/
def ScalesOk (s : State) (reads : Bool) (f : Fmt) (b : X) (n : Nat) : Prop :=
  reads = true → scaled f = true → b ≠ 0 → ∃ o, classOf s s.sched.core b = .ownLm o ∧ o + n ≤ 0x6C000

end Sys2Proof.Safety
end

