-- ==== Sys2Proof/Certificates/Slice0/Obligations.lean ====
section
/-! DEFINITION. The statements for the provers: each `Obligations.X` is one statement, and each `Claims.X` is a part of the one
below it. Each docstring names the rules of spec/ that the statement formalises. -/

open Sys2Proof Sys2Proof.Machine Sys2Proof.Safety

/-! ### Scalar instructions -/

/-- R86, R88, R89, R90: the R-format instructions of two sources. Shifts take the low six bits of xb; ROT rotates right;
MULHI and MULHIU are the high halves of the signed and the unsigned 128-bit product; CMP writes 1 or 0. -/
def Claims.IntegerTwoSource : Prop :=
  Binary .add (fun a b => a + b) ∧ Binary .sub (fun a b => a - b) ∧ Binary .mul (fun a b => a * b)
  ∧ Binary .mulhi (fun a b => (a.signExtend 128 * b.signExtend 128).extractLsb' 64 64)
  ∧ Binary .mulhiu (fun a b => (a.setWidth 128 * b.setWidth 128).extractLsb' 64 64)
  ∧ Binary .and (fun a b => a &&& b) ∧ Binary .or (fun a b => a ||| b) ∧ Binary .xor (fun a b => a ^^^ b)
  ∧ Binary .andn (fun a b => a &&& ~~~ b)
  ∧ Binary .shl (fun a b => a <<< (b &&& 63)) ∧ Binary .shr (fun a b => a >>> (b &&& 63))
  ∧ Binary .sra (fun a b => a.sshiftRight (b &&& 63).toNat)
  ∧ Binary .rot (fun a b => (a >>> (b &&& 63)) ||| (a <<< (64 - (b &&& 63).toNat)))
  ∧ Binary .min (fun a b => if a.toInt ≤ b.toInt then a else b)
  ∧ Binary .max (fun a b => if a.toInt ≤ b.toInt then b else a)
  ∧ Binary .minu (fun a b => if a.toNat ≤ b.toNat then a else b)
  ∧ Binary .maxu (fun a b => if a.toNat ≤ b.toNat then b else a)
  ∧ ∀ o : RCmp, ResultX (.cmp o) 4 [.x o.a, .x o.b] o.d (fun l =>
      let a := getX l o.a.reg
      let b := getX l o.b.reg
      match o.cond with
      | .eq => if a = b then 1 else 0
      | .ne => if a ≠ b then 1 else 0
      | .lt => if a.toInt < b.toInt then 1 else 0
      | .le => if a.toInt ≤ b.toInt then 1 else 0
      | .ltu => if a.toNat < b.toNat then 1 else 0
      | .leu => if a.toNat ≤ b.toNat then 1 else 0)

/-- R86: the R-format instructions of one source. SEXT and ZEXT take the width 8, 16 or 32 that fn3 encodes. -/
def Claims.IntegerOneSource : Prop :=
  Unary .neg (fun a => 0 - a) ∧ Unary .abs (fun a => if 0 ≤ a.toInt then a else 0 - a)
  ∧ Unary .clz (fun a => a.clz) ∧ Unary .ctz (fun a => a.ctz) ∧ Unary .popc (fun a => a.cpop)
  ∧ Unary .brev (fun a => a.reverse)
  ∧ Unary .bswap (fun a => a.extractLsb' 0 8 ++ a.extractLsb' 8 8 ++ a.extractLsb' 16 8 ++ a.extractLsb' 24 8
      ++ a.extractLsb' 32 8 ++ a.extractLsb' 40 8 ++ a.extractLsb' 48 8 ++ a.extractLsb' 56 8)
  ∧ Unary .mov (fun a => a)
  ∧ (∀ o : RW, ResultX (.sext o) 4 [.x o.a] o.d (fun l =>
      ((getX l o.a.reg).setWidth (8 * 2 ^ o.w.val)).signExtend 64))
  ∧ ∀ o : RW, ResultX (.zext o) 4 [.x o.a] o.d (fun l => ((getX l o.a.reg).setWidth (8 * 2 ^ o.w.val)).setWidth 64)

/-- `Claims.IntegerTwoSource` (R86, R88, R89, R90); `Claims.IntegerOneSource` (R86). -/
def Obligations.IntegerRegisters : Prop := Claims.IntegerTwoSource ∧ Claims.IntegerOneSource

/-- R88, R90, R92: the I-format instructions. LEA adds twice the immediate to its own address. -/
def Claims.IntegerImmediate : Prop :=
  Immediate .addi (fun a b => a + b) ∧ Immediate .muli (fun a b => a * b) ∧ Immediate .andi (fun a b => a &&& b)
  ∧ Immediate .ori (fun a b => a ||| b) ∧ Immediate .xori (fun a b => a ^^^ b)
  ∧ ImmShift .shli (fun a n => a <<< n) ∧ ImmShift .shri (fun a n => a >>> n)
  ∧ ImmShift .srai (fun a n => a.sshiftRight n.toNat)
  ∧ ImmShift .roti (fun a n => (a >>> n) ||| (a <<< (64 - n.toNat)))
  ∧ (∀ o : RICmp, ResultX (.cmpi o) 4 [.x o.a] o.d (fun l =>
      let a := getX l o.a.reg
      let b : X := o.imm.signExtend 64
      match o.cond with
      | .eq => if a = b then 1 else 0
      | .ne => if a ≠ b then 1 else 0
      | .lt => if a.toInt < b.toInt then 1 else 0
      | .le => if a.toInt ≤ b.toInt then 1 else 0
      | .ltu => if a.toNat < b.toNat then 1 else 0
      | .leu => if a.toNat ≤ b.toNat then 1 else 0))
  ∧ (∀ o : DI, ResultX (.ldi o) 4 [] o.d (fun _ => o.imm.signExtend 64))
  ∧ ∀ o : DI, ResultX (.lea o) 4 [] o.d (fun l => l.pc.setWidth 64 + o.imm.signExtend 64 * 2)

/-- R51: the compressed integer instructions have the effect of the wider forms. -/
def Claims.CompressedInteger : Prop :=
  Compressed .addC (fun a b => a + b) ∧ Compressed .subC (fun a b => a - b) ∧ Compressed .andC (fun a b => a &&& b)
  ∧ Compressed .orC (fun a b => a ||| b) ∧ Compressed .xorC (fun a b => a ^^^ b)
  ∧ Compressed .shlC (fun a b => a <<< (b &&& 63)) ∧ Compressed .shrC (fun a b => a >>> (b &&& 63))
  ∧ Compressed .sraC (fun a b => a.sshiftRight (b &&& 63).toNat)
  ∧ (∀ o : C2, ResultX (.movC o) 2 [.x (plain o.b)] o.a (fun l => getX l o.b))
  ∧ (∀ o : C2, ResultX (.negC o) 2 [.x (plain o.b)] o.a (fun l => 0 - getX l o.b))
  ∧ (∀ o : CI, ResultX (.addiC o) 2 [.x (plain o.a)] o.a (fun l => getX l o.a + o.imm.signExtend 64))
  ∧ (∀ o : CI, ResultX (.andiC o) 2 [.x (plain o.a)] o.a (fun l => getX l o.a &&& o.imm.signExtend 64))
  ∧ (∀ o : CI, ResultX (.ldiC o) 2 [] o.a (fun _ => o.imm.signExtend 64))
  ∧ (∀ o : CI, ResultX (.shliC o) 2 [.x (plain o.a)] o.a (fun l => getX l o.a <<< o.imm))
  ∧ (∀ o : CI, ResultX (.shriC o) 2 [.x (plain o.a)] o.a (fun l => getX l o.a >>> o.imm))
  ∧ ∀ o : CI, ResultX (.sraiC o) 2 [.x (plain o.a)] o.a (fun l => (getX l o.a).sshiftRight o.imm.toNat)

/-- `Claims.IntegerImmediate` (R88, R90, R92); `Claims.CompressedInteger` (R51). -/
def Obligations.IntegerImmediates : Prop := Claims.IntegerImmediate ∧ Claims.CompressedInteger

/-- R47, R91, R93, R94: the guarded three-source and bit-field instructions, with pos + len ≤ 64 and len at least 1 for
the bit fields (WellFormed), and the long immediates. -/
def Claims.ThreeSourceAndFields : Prop :=
  (∀ o : X3, GuardedX (.sel o) 8 o.guard [.x o.a, .x o.b, .x o.c] o.d (fun l =>
      if getX l o.c.reg ≠ 0 then getX l o.a.reg else getX l o.b.reg))
  ∧ (∀ o : X3, GuardedX (.madd o) 8 o.guard [.x o.a, .x o.b, .x o.c] o.d (fun l =>
      getX l o.a.reg * getX l o.b.reg + getX l o.c.reg))
  ∧ (∀ o : BfxOp, wf (.bfxu o) = true → GuardedX (.bfxu o) 8 o.guard [.x o.a] o.d (fun l =>
      ((getX l o.a.reg).extractLsb' o.pos.toNat o.len.toNat).setWidth 64))
  ∧ (∀ o : BfxOp, wf (.bfx o) = true → GuardedX (.bfx o) 8 o.guard [.x o.a] o.d (fun l =>
      ((getX l o.a.reg).extractLsb' o.pos.toNat o.len.toNat).signExtend 64))
  ∧ (∀ o : BfiOp, wf (.bfi o) = true → GuardedX (.bfi o) 8 o.guard [.x o.a, .x o.b] o.d (fun l =>
      let m : X := (BitVec.allOnes o.len.toNat).setWidth 64 <<< o.pos.toNat
      (getX l o.a.reg &&& ~~~ m) ||| ((getX l o.b.reg <<< o.pos.toNat) &&& m)))
  ∧ (∀ o : LImm, ResultX (.ldiL o) 8 [] o.d (fun _ => o.imm.signExtend 64))
  ∧ ∀ o : LImm, ResultX (.ldih o) 8 [.x (plain o.d)] o.d (fun l => o.imm ++ (getX l o.d).setWidth 32)

/-- R95: the predicate instructions. PSET clamps the sum xa + imm to 0 to 32 and sets that many low bits; that the sum is first taken
modulo 2^64 and then read as signed is the model's reading (log entry 12). PFIRST gives 32 when no bit is set. -/
def Claims.PredicateInstructions : Prop :=
  (∀ o : PsetOp, ResultP (.pset o) 4 [.x o.a] o.d (fun l =>
      let n := (getX l o.a.reg + o.imm.signExtend 64).toInt
      BitVec.ofNat 32 (2 ^ (min 32 (max 0 n)).toNat - 1)))
  ∧ (∀ o : P3, ResultP (.pand o) 4 [] o.d (fun l => getP l o.a.reg &&& getP l o.b.reg))
  ∧ (∀ o : P3, ResultP (.por o) 4 [] o.d (fun l => getP l o.a.reg ||| getP l o.b.reg))
  ∧ (∀ o : P3, ResultP (.pxor o) 4 [] o.d (fun l => getP l o.a.reg ^^^ getP l o.b.reg))
  ∧ (∀ o : P3, ResultP (.pandn o) 4 [] o.d (fun l => getP l o.a.reg &&& ~~~ getP l o.b.reg))
  ∧ (∀ o : P2, ResultP (.pnot o) 4 [] o.d (fun l => ~~~ getP l o.a.reg))
  ∧ (∀ o : XP, ResultX (.pcnt o) 4 [] o.d (fun l => ((getP l o.a.reg).cpop).setWidth 64))
  ∧ (∀ o : XP, ResultX (.pfirst o) 4 [] o.d (fun l => ((getP l o.a.reg).ctz).setWidth 64))
  ∧ (∀ o : PX, ResultP (.pmovxToP o) 4 [.x o.a] o.d (fun l => (getX l o.a.reg).setWidth 32))
  ∧ ∀ o : XP, ResultX (.pmovxToX o) 4 [] o.d (fun l => (getP l o.a.reg).setWidth 64)

/-- `Claims.ThreeSourceAndFields` (R47, R91, R93, R94); `Claims.PredicateInstructions` (R95). -/
def Obligations.FieldsAndPredicates : Prop := Claims.ThreeSourceAndFields ∧ Claims.PredicateInstructions

/-- R87: division. The quotient is rounded towards zero and the remainder takes the sign of the dividend; with xb = 0 the
quotient is all ones and the remainder is xa. Each is a long-latency producer. -/
def Obligations.Division : Prop :=
  ∀ o : R3,
    let srcs := [.x o.a, .x o.b]
    let a := fun l => getX l o.a.reg
    let b := fun l => getX l o.b.reg
    LongX (.div o) 4 srcs o.d (fun l => if b l = 0 then BitVec.allOnes 64
      else BitVec.ofInt 64 ((a l).toInt.tdiv (b l).toInt))
    ∧ LongX (.divu o) 4 srcs o.d (fun l => if b l = 0 then BitVec.allOnes 64
      else BitVec.ofNat 64 ((a l).toNat / (b l).toNat))
    ∧ LongX (.rem o) 4 srcs o.d (fun l => if b l = 0 then a l
      else BitVec.ofInt 64 ((a l).toInt.tmod (b l).toInt))
    ∧ LongX (.remu o) 4 srcs o.d (fun l => if b l = 0 then a l
      else BitVec.ofNat 64 ((a l).toNat % (b l).toNat))

/-- R91: SEL is X format at op10 0x040; it reads all three sources whichever is chosen, so a last-use mark kills its
register in either case, and an empty source with F = block makes it wait in either case. -/
def Obligations.SelectReadsAll : Prop :=
  ∀ o : X3,
    (∃ w, encode (.sel o) = some (64, w) ∧ w % 4 = 3 ∧ w / 4 % 1024 = 0x040)
    ∧ GuardedX (.sel o) 8 o.guard [.x o.a, .x o.b, .x o.c] o.d (fun l =>
        if getX l o.c.reg ≠ 0 then getX l o.a.reg else getX l o.b.reg)
    ∧ ∀ s, ∀ src ∈ [o.a, o.b, o.c], (getP (cur s) o.guard).getLsbD 0 = true → src.trap = false → src.reg ≠ 0 →
        (cur s).marks.xfull.getLsbD src.reg.val = false → (cur s).marks.xdead.getLsbD src.reg.val = false →
        ∃ r : Reg, exec (.sel o) s = .next (waiting s (.xfull r))

/-! ### Control and faults -/

/-- R96, R51: the conditional branches, in their B and C forms. -/
def Obligations.ConditionalBranches : Prop :=
  (∀ o : Br, BranchWhen (.br o) 4 [.x (plain o.a), .x (plain o.b)] (fun l =>
      let a := getX l o.a
      let b := getX l o.b
      match o.cond with
      | .eq => a = b
      | .ne => a ≠ b
      | .lt => a.toInt < b.toInt
      | .le => a.toInt ≤ b.toInt
      | .ltu => a.toNat < b.toNat
      | .leu => a.toNat ≤ b.toNat) (o.off.signExtend 64))
  ∧ (∀ o : Bz, BranchWhen (.bz o) 4 [.x (plain o.a)] (fun l => getX l o.a = 0) (o.off.signExtend 64))
  ∧ (∀ o : Bz, BranchWhen (.bnz o) 4 [.x (plain o.a)] (fun l => getX l o.a ≠ 0) (o.off.signExtend 64))
  ∧ (∀ o : CI, BranchWhen (.bzC o) 2 [.x (plain o.a)] (fun l => getX l o.a = 0) (o.imm.signExtend 64))
  ∧ (∀ o : CI, BranchWhen (.bnzC o) 2 [.x (plain o.a)] (fun l => getX l o.a ≠ 0) (o.imm.signExtend 64))
  ∧ (∀ o : Bp, BranchWhen (.bpAny o) 4 [] (fun l => getP l o.p ≠ 0) (o.off.signExtend 64))
  ∧ (∀ o : Bp, BranchWhen (.bpAll o) 4 [] (fun l => getP l o.p = 0xFFFFFFFF) (o.off.signExtend 64))
  ∧ ∀ o : Bp, BranchWhen (.bpNone o) 4 [] (fun l => getP l o.p = 0) (o.off.signExtend 64)

/-- R97, R51: the unconditional transfers. A call writes the address that follows it; CALLR reads xa before it writes
xd; RET has the effect of JMPR. -/
def Claims.Transfers : Prop :=
  (∀ o : BOff, Jumps (.jmp o) [] (fun l => targetOf l (o.off.signExtend 64)) id)
  ∧ (∀ o : LJmp, Jumps (.jmpL o) [] (fun l => targetOf l (o.off.signExtend 64)) id)
  ∧ (∀ o : A1, Jumps (.jmpr o) [.x o.a] (fun l => getX l o.a.reg) id)
  ∧ (∀ o : C1, Jumps (.jmprC o) [.x (plain o.a)] (fun l => getX l o.a) id)
  ∧ (∀ o : A1, Jumps (.ret o) [.x o.a] (fun l => getX l o.a.reg) popRas)
  ∧ (∀ o : C1, Jumps (.retC o) [.x (plain o.a)] (fun l => getX l o.a) popRas)
  ∧ (∀ o : BOff, Calls (.call o) 4 [] 31 (fun l => targetOf l (o.off.signExtend 64)))
  ∧ (∀ o : LCall, Calls (.callL o) 8 [] o.d (fun l => targetOf l (o.off.signExtend 64)))
  ∧ ∀ o : R2, Calls (.callr o) 4 [.x o.a] o.d (fun l => getX l o.a.reg)

/-- R98, R212: a target at or above 2^48 raises the instruction-address fault, an odd one below it the
instruction-alignment fault, at the transfer and before it changes any register. -/
def Claims.TransferTargetFaults : Prop :=
  ∀ s (o : R2), (cur s).loop.len = 0 → XReady (cur s) o.a → XFree (cur s) o.d →
    (2 ^ 48 ≤ (getX (cur s) o.a.reg).toNat → exec (.callr o) s = .next (takeFault s .instrAddr 0)
      ∧ exec (.jmpr ⟨o.a⟩) s = .next (takeFault s .instrAddr 0) ∧ exec (.ret ⟨o.a⟩) s = .next (takeFault s .instrAddr 0))
    ∧ ((getX (cur s) o.a.reg).toNat < 2 ^ 48 → (getX (cur s) o.a.reg).getLsbD 0 = true →
      exec (.callr o) s = .next (takeFault s .instrAlign 0) ∧ exec (.jmpr ⟨o.a⟩) s = .next (takeFault s .instrAlign 0)
      ∧ exec (.ret ⟨o.a⟩) s = .next (takeFault s .instrAlign 0))

/-- `Claims.Transfers` (R97, R51); `Claims.TransferTargetFaults` (R98, R212). -/
def Obligations.TransfersAndTheirFaults : Prop := Claims.Transfers ∧ Claims.TransferTargetFaults

/-- R101: in an active LOOP body every branch, transfer and LOOP raises a loop-body fault, taken or not, whatever its
operands; DONE, NOP, TRAP, BRK and hint-space instructions are permitted: they do what they do outside a body. -/
def Obligations.LoopBodyFaults : Prop :=
  ∀ s, (cur s).loop.len ≠ 0 →
    (∀ o, exec (.br o) s = .next (takeFault s .loopBody 0)) ∧ (∀ o, exec (.bz o) s = .next (takeFault s .loopBody 0))
    ∧ (∀ o, exec (.bnz o) s = .next (takeFault s .loopBody 0)) ∧ (∀ o, exec (.bzC o) s = .next (takeFault s .loopBody 0))
    ∧ (∀ o, exec (.bnzC o) s = .next (takeFault s .loopBody 0))
    ∧ (∀ o, exec (.bpAny o) s = .next (takeFault s .loopBody 0)) ∧ (∀ o, exec (.bpAll o) s = .next (takeFault s .loopBody 0))
    ∧ (∀ o, exec (.bpNone o) s = .next (takeFault s .loopBody 0)) ∧ (∀ o, exec (.jmp o) s = .next (takeFault s .loopBody 0))
    ∧ (∀ o, exec (.jmpL o) s = .next (takeFault s .loopBody 0)) ∧ (∀ o, exec (.call o) s = .next (takeFault s .loopBody 0))
    ∧ (∀ o, exec (.callL o) s = .next (takeFault s .loopBody 0)) ∧ (∀ o, exec (.jmpr o) s = .next (takeFault s .loopBody 0))
    ∧ (∀ o, exec (.jmprC o) s = .next (takeFault s .loopBody 0)) ∧ (∀ o, exec (.callr o) s = .next (takeFault s .loopBody 0))
    ∧ (∀ o, exec (.ret o) s = .next (takeFault s .loopBody 0)) ∧ (∀ o, exec (.retC o) s = .next (takeFault s .loopBody 0))
    ∧ (∀ o, exec (.loop o) s = .next (takeFault s .loopBody 0))
    ∧ (∀ o, exec (.nop o) s = .next (after s 4 (cur s))) ∧ (∀ o, exec (.hintSpace o) s = .next (after s 8 (cur s)))
    ∧ (∀ o, exec (.nopC o) s = .next (after s 2 (cur s)))
    ∧ (∀ o, exec (.brk o) s = .next (takeFault s .breakpoint 0)) ∧ (∀ o, exec (.brkC o) s = .next (takeFault s .breakpoint 0))
    ∧ (∀ o : CodeOp, (cur s).firing.spec = false → exec (.trap o) s = .next (freeze (after s 4 (cur s)) s.sched.core s.sched.lane
        (packetFor s s.sched.core s.sched.lane .softTrap 0 (o.code.setWidth 64))))
    ∧ ((cur s).frz.step = false →
        (∀ o, exec (.done o) s = .next (doneFiring (after s 4 (cur s)) s.sched.core s.sched.lane))
        ∧ ∀ o, exec (.doneC o) s = .next (doneFiring (after s 2 (cur s)) s.sched.core s.sched.lane))

/-- R99: LOOP with a count other than 0 makes the body that follows it active; with the count 0 the body is skipped, and
a fetch fault on one of its halfwords is taken at the LOOP. Then, after every instruction: at the end address of the body
a remaining count above 1 goes back to the body's start, a count of 1 ends the loop; INSTCNT counts up to its maximum. The end address
is `loop.stop`, which each issue in a body sets to what `peekEnd` finds by the length rule: when it is found is the model's choice (log
entry 9). -/
def Obligations.LoopInstruction : Prop :=
  (∀ s (o : LoopOp), (cur s).loop.len = 0 → XReady (cur s) o.a →
    let n := getX (cur s) o.a.reg
    let k := kill (cur s) [.x o.a]
    (n ≠ 0 → exec (.loop o) s = .next (after s 4 { k with loop := ⟨o.len.toNat, n, (cur s).pc + 4, none, [], false⟩ }))
    ∧ (n = 0 → ∀ e, bodyEnd s s.sched.core s.sched.lane ((cur s).pc.toNat + 4) o.len.toNat = .ok e →
        exec (.loop o) s = .next (afterJump s (BitVec.ofNat 48 e) k))
    ∧ (n = 0 → bodyEnd s s.sched.core s.sched.lane ((cur s).pc.toNat + 4) o.len.toNat = .error (.fault .fetch 0) →
        exec (.loop o) s = .next (takeFault s .fetch 0)))
  ∧ (∀ (l : Lane) (n : Nat),
    let next := l.pc + BitVec.ofNat 48 n
    let m := retire n l
    (m.instcnt = if l.instcnt = 0xFFFFFFFF then l.instcnt else l.instcnt + 1)
    ∧ (l.loop.len ≠ 0 → l.loop.stop = some next → 1 < l.loop.rem.toNat →
        m.pc = l.loop.pc ∧ m.loop = { l.loop with rem := l.loop.rem - 1 })
    ∧ (l.loop.len ≠ 0 → l.loop.stop = some next → l.loop.rem.toNat ≤ 1 →
        m.pc = next ∧ m.loop.len = 0 ∧ m.loop.rem = 0 ∧ m.loop.pc = 0)
    ∧ (l.loop.len = 0 ∨ l.loop.stop ≠ some next → m.pc = next ∧ m.loop = l.loop))
  ∧ ∀ s c l n w,
    let x := laneOf s c l
    let y := laneOf (readied s c l n w) c l
    (x.loop.len = 0 → y.loop.stop = x.loop.stop)
    ∧ (x.loop.len ≠ 0 → y.loop.stop = (peekEnd s c l x.loop.pc.toNat x.loop.len).map (BitVec.ofNat 48))

/-- R102: DONE and NOP, their words, and their effects. NOP only counts and advances. DONE reads no register and does not
wait for lcnt or scnt: the lane is Draining without a firing while any of its registers is empty; in both cases its firing has ended. That
a lane whose registers are all full is Free at once, and not Draining for a moment (R24, R102), is the model's choice (log entry 26). -/
def Obligations.DoneAndNop : Prop :=
  encode (.done ⟨⟩) = some (32, 1 + 4 * 0x51) ∧ encode (.nop ⟨⟩) = some (32, 1 + 4 * 0x52)
  ∧ encode (.doneC ⟨⟩) = some (16, 2 * 0x1D) ∧ encode (.nopC ⟨⟩) = some (16, 2 * 0x1E)
  ∧ ∀ s,
    exec (.nop ⟨⟩) s = .next (after s 4 (cur s)) ∧ exec (.nopC ⟨⟩) s = .next (after s 2 (cur s))
    ∧ ∀ i : Instr, i = .done ⟨⟩ ∨ i = .doneC ⟨⟩ → ∃ t, exec i s = .next t
      ∧ (laneOf t s.sched.core s.sched.lane).firing.kind = .none
      ∧ (laneOf t s.sched.core s.sched.lane).status =
          (if (cur s).marks.xfull ||| 1 = BitVec.allOnes 32 ∧ (cur s).marks.vfull = BitVec.allOnes 32
            then LaneStatus.free else LaneStatus.draining)

/-- R103, R104: TRAP completes, so the PC and INSTCNT go on, and then freezes the lane with a packet that holds the
TRAP's address and its code; BRK does not complete. In a speculative task both are deferred faults (R331). -/
def Claims.TrapAndBreak : Prop :=
  ∀ s (o : CodeOp) (c : CCode),
    ((cur s).firing.spec = false →
      exec (.trap o) s = .next (freeze (after s 4 (cur s)) s.sched.core s.sched.lane
        (packetFor s s.sched.core s.sched.lane .softTrap 0 (o.code.setWidth 64))))
    ∧ ((cur s).firing.spec = true → exec (.trap o) s = .next (takeFault s .softTrap 0))
    ∧ exec (.brk o) s = .next (takeFault s .breakpoint 0) ∧ exec (.brkC c) s = .next (takeFault s .breakpoint 0)

/-- R211, R213 to R215, R217, R331: TAKING A FAULT. A lane with no result outstanding freezes at once: its registers and state
stand in its frame, and a packet with the code, its PC, the address and its core's next sequence number waits for the die's
ring. With results outstanding it is Blocked until the last has arrived. In a speculative task the fault is deferred. Memory
and every register are as before. -/
def Claims.FaultEntry : Prop :=
  ∀ s (code : FaultCode) (addr : X),
    let l := cur s
    let c := s.sched.core
    let d := dieNo c
    let t := takeFault s code addr
    (deferrable l code = true → t = setCur s { blocked l .earliest with frz := { l.frz with deferred := some code } })
    ∧ (deferrable l code = false → l.status ≠ .frozen → l.frz.pending = none →
      t.mem = s.mem ∧ (cur t).regs = l.regs ∧ (cur t).pc = l.pc ∧ (cur t).marks = l.marks ∧ (cur t).instcnt = l.instcnt
      ∧ (∀ e m, e ≠ c ∨ laneIx m ≠ laneIx s.sched.lane → laneOf t e m = laneOf s e m)
      ∧ (l.results = [] →
        (cur t).status = .frozen ∧ (cur t).frame.regs = l.regs
        ∧ bits (cur t).frame.st.toNat 0 48 = l.pc.toNat ∧ bits (cur t).frame.st.toNat 57 3 = 3
        ∧ (coreOf t c).ctl.faultSeq = (coreOf s c).ctl.faultSeq + 1
        ∧ ∃ p, (dieOf t d).fpqWait = queuePacket (dieOf s d).fpqWait p ∧ p.code = code ∧ p.lane = s.sched.lane ∧ p.src = c
          ∧ p.pc = l.pc.setWidth 64 ∧ p.addr = addr ∧ p.instr = s.sched.bits ∧ p.seq = (coreOf s c).ctl.faultSeq
          ∧ p.inc = (dieOf s d).inc ∧ p.nofrz = false ∧ p.poison = false ∧ p.engop = 0)
      ∧ (l.results ≠ [] → (cur t).status = .blocked ∧ (cur t).results = l.results ∧ dieOf t d = dieOf s d
        ∧ ∃ p, (cur t).frz.pending = some p ∧ p.code = code ∧ p.pc = l.pc.setWidth 64 ∧ p.addr = addr))

/-- `Claims.TrapAndBreak` (R103, R104); `Claims.FaultEntry` (R211, R213 to R215, R217, R331). -/
def Obligations.TakingFaults : Prop := Claims.TrapAndBreak ∧ Claims.FaultEntry

/-- R56: an instruction of hint space has no effect whatever its bits hold: it counts, and the PC goes on. Every word
whose op10 lies in 0x3C0 to 0x3FF is one. -/
def Claims.HintSpace : Prop :=
  (∀ s (o : HintOp), exec (.hintSpace o) s = .next (after s 8 (cur s)))
  ∧ ∀ w, w < 2 ^ 64 → w % 4 = 3 → 0x3C0 ≤ w / 4 % 1024 → ∃ o, decodeWord 64 w = .ok (.hintSpace o)

/-- R155, R157: WAITC completes when the counters are at most its numbers and waits otherwise; PREF reads its base and has
no other effect. -/
def Claims.CountersAndPrefetch : Prop :=
  (∀ s (o : WaitcOp), ((cur s).lcnt ≤ o.l.toNat ∧ (cur s).scnt ≤ o.s.toNat → exec (.waitc o) s = .next (after s 4 (cur s)))
    ∧ (¬ ((cur s).lcnt ≤ o.l.toNat ∧ (cur s).scnt ≤ o.s.toNat) →
      exec (.waitc o) s = .next (waiting s (.counters o.l.toNat o.s.toNat))))
  ∧ ∀ s (o : PrefOp), XReady (cur s) o.a → exec (.pref o) s = .next (after s 4 (kill (cur s) [.x o.a]))

/-- R271, R272: SHFENCE waits for scnt = 0 and then empties the core's record cache. SHPF waits for its operand while that is empty, and
for the way to the record; it puts the 192 bytes of the record, with the address and the context of its firing, first in the core's
record cache of 16, and changes no register. It never faults: a dead operand (log entry 36), a misaligned address and an address that
would fault fetch nothing. -/
def Claims.ShapeInstructions : Prop :=
  (∀ s (o : Z64), (cur s).scnt = 0 → ∃ t, exec (.shfence o) s = .next t ∧ (curCore t).ctl.records = [] ∧ t.mem = s.mem
    ∧ cur t = retire 8 (cur s))
  ∧ (∀ s (o : Z64), (cur s).scnt ≠ 0 → exec (.shfence o) s = .next (waiting s (.counters 63 0)))
  ∧ ∀ s (o : ShpfOp),
    let a := getX (cur s) o.xs
    let c := s.sched.core
    (o.xs ≠ 0 → (cur s).marks.xfull.getLsbD o.xs.val = false → (cur s).marks.xdead.getLsbD o.xs.val = false →
      exec (.shpf o) s = .next (waiting s (.xfull o.xs)))
    ∧ (o.xs ≠ 0 → (cur s).marks.xdead.getLsbD o.xs.val = true → exec (.shpf o) s = .next (after s 8 (cur s)))
    ∧ (XReady (cur s) (plain o.xs) →
      (a.toNat % 64 ≠ 0 → exec (.shpf o) s = .next (after s 8 (cur s)))
      ∧ (a.toNat % 64 = 0 → ∀ u v, readRecord s c (cur s) a = .ok (u, v) →
        exec (.shpf o) s = .next (after u 8 (cur u)) ∧ (coreOf u c).ctl.records.length ≤ 16
          ∧ (coreOf u c).ctl.records.head? = some (ctxOf s c (cur s), a.toNat, v))
      ∧ (a.toNat % 64 = 0 → ∀ code x, readRecord s c (cur s) a = .error (.fault code x) →
        exec (.shpf o) s = .next (after s 8 (cur s)))
      ∧ (a.toNat % 64 = 0 → ∀ w, readRecord s c (cur s) a = .error (.wait w) →
        exec (.shpf o) s = .next (setCur (startWait s w) { blocked (cur s) w with waitInstr := s.sched.bits })))

/-- `Claims.HintSpace` (R56); `Claims.CountersAndPrefetch` (R155, R157); `Claims.ShapeInstructions` (R271, R272). -/
def Obligations.HintsCountersAndShapes : Prop := Claims.HintSpace ∧ Claims.CountersAndPrefetch ∧ Claims.ShapeInstructions

/-! ### System registers and privilege -/

/-- R105, R106, R107: SYSR of the registers that are not metered, on any lane: the core ID and lane number, the firing's
description, INSTCNT, SRSTATE, the frequency, the launch number; GTIME and CYCLES are sampled at issue: how far they have run on is open
(log entry 7). On a supervisor core (R216, R217, R253, R339, R351, R418): the fault queue's registers, the number of packets that wait, and the
bases of the physical windows. FPQHEAD and FPQTAIL are kept modulo 2^32 (log entry 34). -/
def Claims.ReadSystemRegisters : Prop :=
  ∀ s (o : SysrOp), XFree (cur s) o.d → (getP (cur s) o.guard).getLsbD 0 = true →
    let l := cur s
    let reads := fun (v : X) => exec (.sysr o) s = .next (after s 8 (putX l o.d v))
    (o.num = 0x000 → reads (BitVec.ofNat 64 (s.sched.core + s.sched.lane * 2 ^ 12)))
    ∧ (o.num = 0x001 → reads (vcoreWord s))
    ∧ (o.num = 0x002 → reads (BitVec.ofNat 64 (kindCode l.firing.kind + l.firing.cls % 4 * 2 ^ 4 + l.firing.prio % 4 * 2 ^ 6
        + l.firing.spec.toNat * 2 ^ 8 + l.firing.domain % 2 ^ 16 * 2 ^ 16)))
    ∧ (o.num = 0x003 → reads (l.instcnt.setWidth 64)) ∧ (o.num = 0x004 → reads (l.sr.setWidth 64))
    ∧ (o.num = 0x00A → reads (BitVec.ofNat 64 (curCore s).ctl.freq))
    ∧ (o.num = 0x010 → reads (BitVec.ofNat 64 ((launchOf s s.sched.core l).elim 0 (·.1))))
    ∧ (o.num = 0x008 → exec (.sysr o) s = .next (after (sampleTime s) 8 (putX l o.d (sampleTime s).sched.gtime)))
    ∧ (o.num = 0x009 → let t := sampleCycles s s.sched.core
        exec (.sysr o) s = .next (after t 8 (putX (cur t) o.d (coreOf t s.sched.core).ctl.cycles)))
    ∧ (isSup s.sched.core = true →
      let d := dieNo s.sched.core
      let q := dieOf s d
      (o.num = 0x800 → reads q.fpqBase) ∧ (o.num = 0x801 → reads (BitVec.ofNat 64 q.fpqSize))
      ∧ (o.num = 0x802 → reads (BitVec.ofNat 64 q.fpqHead)) ∧ (o.num = 0x803 → reads (BitVec.ofNat 64 q.fpqTail))
      ∧ (o.num = 0x804 → reads (BitVec.ofNat 64 q.fpqWait.length))
      ∧ (o.num = 0x810 → reads 0xFF00000000000) ∧ (o.num = 0x811 → reads (BitVec.ofNat 64 (0xFF10000000000 + d * 0x1000000)))
      ∧ (o.num = 0x812 → reads 0xFF20000000000) ∧ (o.num = 0x813 → reads 0xFF30000000000) ∧ (o.num = 0x814 → reads 0xFF40000000000))

/-- R105, R106, R216, R444: SYSR of an energy register or of QTEMP is a long-latency producer of its value; what QTEMP shows is open (log
entry 4), and a supervisor core, which has no quad, reads QENERGY and QPOWER as 0 (log entry 45). The supervisor's queue
registers are written as R216 says, FPQHEAD modulo 2^32 (log entry 34); ENRD without a launch gives bit 63, and with one the account's CHARGED, what is left of
ALLOW, or PWR. -/
def Claims.MetersAndQueues : Prop :=
  ∀ s,
    (∀ o : SysrOp, (getP (cur s) o.guard).getLsbD 0 = true →
      XFree (cur s) o.d → o.num = 0x040 ∨ o.num = 0x041 →
      let q := quadOf s (quadNo s.sched.core)
      let v := if o.num = 0x040 then q.energy else q.power
      let t := produce s ⟨.x o.d, v.setWidth 1024, false, none, s.sched.bits, 0, siteOf s⟩
      exec (.sysr o) s = .next (after t 8 (cur t)))
    ∧ (∀ o : SysrOp, (getP (cur s) o.guard).getLsbD 0 = true → XFree (cur s) o.d → o.num = 0x042 →
      let t := produce (draw s) ⟨.x o.d, (Config.metered s.sched.freeCtr).setWidth 1024, false, none, s.sched.bits, 0, siteOf s⟩
      exec (.sysr o) s = .next (after t 8 (cur t)))
    ∧ (∀ o : SyswOp, isSup s.sched.core = true → (getP (cur s) o.guard).getLsbD 0 = true → (cur s).firing.spec = false →
      XReady (cur s) o.a → (dieOf s (dieNo s.sched.core)).fpqWait = [] →
      let v := getX (cur s) o.a.reg
      let d := dieOf s (dieNo s.sched.core)
      ∀ e : Die,
        (o.num = 0x800 ∧ e = { d with fpqBase := v &&& 0x7FFC0 })
        ∨ (o.num = 0x801 ∧ e = (if v = 0 ∨ ∃ i, i ≤ 10 ∧ v.toNat = 2 ^ i then { d with fpqSize := v.toNat } else d))
        ∨ (o.num = 0x802 ∧ e = { d with fpqHead := v.toNat % 2 ^ 32 }) →
        ∃ t, exec (.sysw o) s = .next t ∧ dieOf t (dieNo s.sched.core) = e
          ∧ cur t = retire 8 (kill (cur s) [.x o.a]) ∧ t.mem = s.mem)
    ∧ ∀ o : EnrdOp, (getP (cur s) o.guard).getLsbD 0 = true → XFree (cur s) o.d →
      (launchOf s s.sched.core (cur s) = none → exec (.enrd o) s = .next (after s 8 (putX (cur s) o.d (BitVec.ofNat 64 (2 ^ 63)))))
      ∧ ∀ x, launchOf s s.sched.core (cur s) = some x →
        let c := accountOf s x.2.account
        let rest := c.allow.toNat * 1000 - c.charged.toNat
        (o.sel = 1 → c.allow ≠ 0 → rest < 2 ^ 64) →
        let v := if o.sel = 0 then c.charged else if o.sel = 1 then (if c.allow = 0 then BitVec.allOnes 64 else BitVec.ofNat 64 rest)
          else c.pwr.setWidth 64
        ∃ t, exec (.enrd o) s = .next t ∧ cur t = retire 8 (putX (cur s) o.d v) ∧ t.mem = s.mem

/-- `Claims.ReadSystemRegisters` (R105, R106, R107); `Claims.MetersAndQueues` (R105, R106, R216, R444). -/
def Obligations.SystemRegisters : Prop := Claims.ReadSystemRegisters ∧ Claims.MetersAndQueues

/-- R105, R106: a register number above 0x7FF on a lane that is not on a supervisor core, a number the table does not
list, and SYSW of a read-only register raise the illegal-instruction fault, whatever the guard. -/
def Claims.SystemRegisterPrivilege : Prop :=
  ∀ s (o : SysrOp) (p : SyswOp),
    (0x800 ≤ o.num.toNat → isSup s.sched.core = false → exec (.sysr o) s = .next (takeFault s .illegal 0))
    ∧ (0x800 ≤ p.num.toNat → isSup s.sched.core = false → exec (.sysw p) s = .next (takeFault s .illegal 0))
    ∧ (o.num.toNat ∉ [0x000, 0x001, 0x002, 0x003, 0x004, 0x008, 0x009, 0x00A, 0x010, 0x040, 0x041, 0x042, 0x800, 0x801,
          0x802, 0x803, 0x804, 0x810, 0x811, 0x812, 0x813, 0x814] → exec (.sysr o) s = .next (takeFault s .illegal 0))
    ∧ (p.num.toNat < 0x800 → p.num ≠ 0x004 → exec (.sysw p) s = .next (takeFault s .illegal 0))

/-- R220, R266: LRESUME, LSTEP, LKILL and TLBI are legal on supervisor cores alone: anywhere else they raise the
illegal-instruction fault, whatever the guard. -/
def Claims.SupervisorOnly : Prop :=
  ∀ s, isSup s.sched.core = false →
    (∀ o, exec (.lresume o) s = .next (takeFault s .illegal 0)) ∧ (∀ o, exec (.lstep o) s = .next (takeFault s .illegal 0))
    ∧ (∀ o, exec (.lkill o) s = .next (takeFault s .illegal 0)) ∧ ∀ o, exec (.tlbi o) s = .next (takeFault s .illegal 0)

/-- `Claims.SystemRegisterPrivilege` (R105, R106); `Claims.SupervisorOnly` (R220, R266). -/
def Obligations.Privilege : Prop := Claims.SystemRegisterPrivilege ∧ Claims.SupervisorOnly

/-- R220, R217, R13, R14: THE RETURN TO A FROZEN LANE. LRESUME and LSTEP make a Frozen lane of the die Ready with the
registers, PC and loop state of its frame, comparators suppressed for one instruction, and answer 0; a target that is not a
Frozen lane, of no core of the die, or with a reserved bit set answers 1, 2 or 3 and changes nothing. LKILL frees a lane. -/
def Obligations.ReturnToFrozenLane : Prop :=
  ∀ s (o : LresumeOp) (k : LkillOp), isSup s.sched.core = true →
    let c := bits (getX (cur s) o.a.reg).toNat 0 12
    let l := bits (getX (cur s) o.a.reg).toNat 12 4
    let ofDie := namesCore c = true ∧ dieNo c = dieNo s.sched.core
    let self := c = s.sched.core ∧ l = laneIx s.sched.lane
    let x := laneOf s c l
    let answers := fun (i : Instr) (st : X) => exec i s = .next (after s 8 (putX (kill (cur s) [.x o.a]) o.d st))
    (getP (cur s) o.guard).getLsbD 0 = true → XReady (cur s) o.a → XFree (cur s) o.d → s.sched.lane < 16 →
    (k = ⟨o.d, o.a, o.guard⟩ →
      (bits (getX (cur s) o.a.reg).toNat 16 48 ≠ 0 → answers (.lresume o) 3 ∧ answers (.lstep o) 3 ∧ answers (.lkill k) 3)
      ∧ (bits (getX (cur s) o.a.reg).toNat 16 48 = 0 → ¬ ofDie → answers (.lresume o) 2 ∧ answers (.lstep o) 2 ∧ answers (.lkill k) 2)
      ∧ (bits (getX (cur s) o.a.reg).toNat 16 48 = 0 → ofDie → (self ∨ x.status ≠ .frozen) → answers (.lresume o) 1 ∧ answers (.lstep o) 1)
      ∧ (bits (getX (cur s) o.a.reg).toNat 16 48 = 0 → ofDie → (self ∨ x.status = .free) → answers (.lkill k) 1)
      ∧ (bits (getX (cur s) o.a.reg).toNat 16 48 = 0 → ofDie → ¬ self → x.status ≠ .free → x.status ≠ .draining →
          x.firing.task = none → x.group = none → x.firing.kind ≠ .actor → (∀ q ∈ (coreOf s c).msg.steals, q.lane ≠ l) →
          ∃ t, exec (.lkill k) s = .next t ∧ (laneOf t c l).status = .free ∧ (laneOf t c l).firing.kind = .none
            ∧ (laneOf t c l).results = [] ∧ cur t = retire 8 (putX (kill (cur s) [.x o.a]) o.d 0) ∧ t.mem = s.mem))
    ∧ (bits (getX (cur s) o.a.reg).toNat 16 48 = 0 → ofDie → ¬ self → x.status = .frozen → x.group = none →
        o.skip = false → ∀ i step, (i = .lresume o ∧ step = false) ∨ (i = .lstep o ∧ step = true) →
        ∃ t, exec i s = .next t ∧ cur t = retire 8 (putX (kill (cur s) [.x o.a]) o.d 0)
          ∧ (let y := laneOf t c l
             y.status = .ready ∧ y.regs = x.frame.regs ∧ y.pc = BitVec.ofNat 48 (bits x.frame.st.toNat 0 48 / 2 * 2)
             ∧ y.sr = BitVec.ofNat 32 (bits x.frame.st.toNat 352 32) ∧ y.loop.len = bits x.frame.st.toNat 210 6
             ∧ y.frz.suppr = true ∧ y.frz.step = step ∧ y.firing = x.firing)
          ∧ ∀ a b, (a ≠ c ∨ laneIx b ≠ laneIx l) → (a ≠ s.sched.core ∨ laneIx b ≠ laneIx s.sched.lane) →
              laneOf t a b = laneOf s a b)

/-- R221, R266: ICFLUSH, once scnt is 0, empties the L1I and the loop buffers of its core, or of every core of its die;
TLBI drops all entries, those of a context, or those that cover an address in a context, from the TLBs of its die and of
no other; its lane completes, or is Blocked while sectors in flight have used such an entry. -/
def Obligations.InvalidateFetchAndTlbs : Prop :=
  (∀ s (o : IcflushOp), (getP (cur s) o.guard).getLsbD 0 = true → (cur s).firing.spec = false → (cur s).scnt = 0 →
    ∃ t, exec (.icflush o) s = .next t ∧ t.mem = s.mem
      ∧ ∀ c, (c = s.sched.core ∨ (o.scope = 3 ∧ dieNo c = dieNo s.sched.core) →
            (coreOf t c).ctl.l1i = [] ∧ ∀ l, (laneOf t c l).loop.buf = [])
          ∧ (c ≠ s.sched.core → ¬ (o.scope = 3 ∧ dieNo c = dieNo s.sched.core) → coreOf t c = coreOf s c))
  ∧ ∀ s (o : TlbiOp), isSup s.sched.core = true → (getP (cur s) o.guard).getLsbD 0 = true → XReady (cur s) o.a →
    XReady (cur s) o.b → tlbiWaits (cur s) = false →
    let va := (getX (cur s) o.a.reg).toNat
    let ctx := (getX (cur s) o.b.reg).toNat % 256
    let d := dieNo s.sched.core
    let goes := fun (e : TlbEntry) => o.kind = 0 ∨ (o.kind = 1 ∧ e.ctx = ctx)
      ∨ (o.kind = 2 ∧ e.ctx = ctx ∧ va / 2 ^ pageShift e.level = e.page)
    let users := tlbUsers s d (if o.kind = 0 then none else some ctx)
    ∃ t, exec (.tlbi o) s = .next t ∧ t.mem = s.mem ∧ (users = [] → cur t = retire 8 (kill (cur s) [.x o.a, .x o.b]))
      ∧ (users ≠ [] → (cur t).status = .blocked ∧ (cur t).wait = some (.sectors users))
      ∧ (∀ c e, e ∈ (coreOf t c).ctl.tlb ↔ e ∈ (coreOf s c).ctl.tlb ∧ ¬ (dieNo c = d ∧ goes e))
      ∧ ∀ q e, q < 640 → (e ∈ (quadOf t q).tlb ↔ e ∈ (quadOf s q).tlb ∧ ¬ (q / 80 = d ∧ goes e))

/-! ### Vector instructions -/

/-- R113, R110, R51: addition, subtraction, multiplication and the fused forms, in the C, V and X formats: each active
element is the exact result of its sources' elements rounded once in the element's format, or that result modulo 2^W for
the integer types; the V fused forms read vd as their addend and the X forms read vc. -/
def Obligations.VectorArithmetic : Prop :=
  let add := fun g => arithValue g (fun x => addNum (g.rnd == .rd) (num x 0) (num x 1)) (fun x => int x 0 + int x 1) 0
  let sub := fun g => arithValue g (fun x => addNum (g.rnd == .rd) (num x 0) (negNum (num x 1))) (fun x => int x 0 - int x 1) 0
  let mul := fun g => arithValue g (fun x => mulNum (num x 0) (num x 1)) (fun x => int x 0 * int x 1) 0
  let fma := fun g => arithValue g (fun x => addNum (g.rnd == .rd) (mulNum (num x 0) (num x 1)) (num x 2))
    (fun x => int x 0 * int x 1 + int x 2) 0
  let fms := fun g => arithValue g (fun x => addNum (g.rnd == .rd) (mulNum (num x 0) (num x 1)) (negNum (num x 2)))
    (fun x => int x 0 * int x 1 - int x 2) 0
  let fnma := fun g => arithValue g (fun x => addNum (g.rnd == .rd) (num x 2) (negNum (mulNum (num x 0) (num x 1))))
    (fun x => int x 2 - int x 0 * int x 1) 0
  let two := fun (o : V2) => (⟨o.d, [o.a, o.b], 0, o.ty, .rne⟩ : VArgs)
  let three := fun (o : V2) => (⟨o.d, [o.a, o.b, plain o.d], 0, o.ty, .rne⟩ : VArgs)
  let twoX := fun (o : VX2) => (⟨o.d, [o.a, o.b], o.guard, o.ty, o.rnd⟩ : VArgs)
  let threeX := fun (o : VX3) => (⟨o.d, [o.a, o.b, o.c], o.guard, o.ty, o.rnd⟩ : VArgs)
  let twoC := fun (o : C2) => (⟨o.a, [plain o.a, plain o.b], 0, .f32, .rne⟩ : VArgs)
  (∀ o, ElementWise (.vadd o) 4 (two o) (add (two o))) ∧ (∀ o, ElementWise (.vaddX o) 8 (twoX o) (add (twoX o)))
  ∧ (∀ o, ElementWise (.vaddC o) 2 (twoC o) (add (twoC o)))
  ∧ (∀ o, ElementWise (.vsub o) 4 (two o) (sub (two o))) ∧ (∀ o, ElementWise (.vsubX o) 8 (twoX o) (sub (twoX o)))
  ∧ (∀ o, ElementWise (.vsubC o) 2 (twoC o) (sub (twoC o)))
  ∧ (∀ o, ElementWise (.vmul o) 4 (two o) (mul (two o))) ∧ (∀ o, ElementWise (.vmulX o) 8 (twoX o) (mul (twoX o)))
  ∧ (∀ o, ElementWise (.vmulC o) 2 (twoC o) (mul (twoC o)))
  ∧ (∀ o, ElementWise (.vfma o) 4 (three o) (fma (three o))) ∧ (∀ o, ElementWise (.vfmaX o) 8 (threeX o) (fma (threeX o)))
  ∧ (∀ o, ElementWise (.vfms o) 4 (three o) (fms (three o))) ∧ (∀ o, ElementWise (.vfmsX o) 8 (threeX o) (fms (threeX o)))
  ∧ (∀ o, ElementWise (.vfnma o) 4 (three o) (fnma (three o)))
  ∧ ∀ o, ElementWise (.vfnmaX o) 8 (threeX o) (fnma (threeX o))

/-- R75, R105: SYSW of the seed register writes SRSTATE, and a write of 0 stores 1; one step of the generator is the three
shifts and exclusive ors of R75, and its draw is the low 16 bits; it never reaches 0 from another value. -/
def Claims.StochasticGenerator : Prop :=
  (∀ s (o : SyswOp), o.num = 0x004 → (getP (cur s) o.guard).getLsbD 0 = true → (cur s).firing.spec = false →
    XReady (cur s) o.a →
    let v := (getX (cur s) o.a.reg).setWidth 32
    exec (.sysw o) s = .next (after s 8 { kill (cur s) [.x o.a] with sr := if v = 0 then 1 else v }))
  ∧ ∀ x : BitVec 32,
    let a := x ^^^ (x <<< 13)
    let b := a ^^^ (a >>> 17)
    let c := b ^^^ (b <<< 5)
    takeDraw .sr x = (c.toNat % 2 ^ 16, c) ∧ (x ≠ 0 → c ≠ 0)

/-- R76: under .sr the active elements of the guarded additions, products and fused forms take one draw each, in
ascending element order, and the generator ends that many steps further. -/
def Claims.StochasticRounding : Prop :=
  (∀ o : VX2, let g : VArgs := ⟨o.d, [o.a, o.b], o.guard, o.ty, o.rnd⟩
    StochasticWise (.vaddX o) 8 g (arithValue g (fun x => addNum false (num x 0) (num x 1)) (fun _ => 0))
    ∧ StochasticWise (.vsubX o) 8 g (arithValue g (fun x => addNum false (num x 0) (negNum (num x 1))) (fun _ => 0))
    ∧ StochasticWise (.vmulX o) 8 g (arithValue g (fun x => mulNum (num x 0) (num x 1)) (fun _ => 0)))
  ∧ ∀ o : VX3, let g : VArgs := ⟨o.d, [o.a, o.b, o.c], o.guard, o.ty, o.rnd⟩
    StochasticWise (.vfmaX o) 8 g (arithValue g (fun x => addNum false (mulNum (num x 0) (num x 1)) (num x 2)) (fun _ => 0))

/-- `Claims.StochasticGenerator` (R75, R105); `Claims.StochasticRounding` (R76). -/
def Obligations.StochasticDraws : Prop := Claims.StochasticGenerator ∧ Claims.StochasticRounding

/-- R115, R121, R110: reciprocal, reciprocal root, 2^a, log2 a and rounding to integral: each active element is rounded
once; VSQRT and VDIV are long-latency producers whose elements take their draws at issue. The exact values of 2^a and log2 a before the
rounding are those that the model computes, cut at 100 and 160 bits (log entry 11). -/
def Claims.VectorFunctions : Prop :=
  let one := fun (o : V1) => (⟨o.d, [o.a], 0, o.ty, .rne⟩ : VArgs)
  let oneX := fun (o : VX1) => (⟨o.d, [o.a], o.guard, o.ty, o.rnd⟩ : VArgs)
  let fn := fun (f : Machine.Num → Machine.Num) g => arithValue g (fun x => f (num x 0)) (fun _ => 0) 0
  (∀ o, ElementWise (.vrcp o) 4 (one o) (fn (divNum (intNum 1)) (one o)))
  ∧ (∀ o, ElementWise (.vrcpX o) 8 (oneX o) (fn (divNum (intNum 1)) (oneX o)))
  ∧ (∀ o, ElementWise (.vrsq o) 4 (one o) (fn rsqNum (one o))) ∧ (∀ o, ElementWise (.vrsqX o) 8 (oneX o) (fn rsqNum (oneX o)))
  ∧ (∀ o, ElementWise (.vexp2 o) 4 (one o) (fn exp2Num (one o))) ∧ (∀ o, ElementWise (.vexp2X o) 8 (oneX o) (fn exp2Num (oneX o)))
  ∧ (∀ o, ElementWise (.vlog2 o) 4 (one o) (fn log2Num (one o))) ∧ (∀ o, ElementWise (.vlog2X o) 8 (oneX o) (fn log2Num (oneX o)))
  ∧ (∀ o, ElementWise (.vround o) 8 (oneX o) (fun xs => (roundE (oneX o) xs 0).1))
  ∧ (∀ o : V1, LongV (.vsqrt o) 4 [.v o.a] o.d (elemResult (sqrtE (one o)) (one o)))
  ∧ (∀ o : VX1, LongV (.vsqrtX o) 8 [.v o.a] o.d (elemResult (sqrtE (oneX o)) (oneX o)))
  ∧ (∀ o : V2, LongV (.vdiv o) 4 [.v o.a, .v o.b] o.d (elemResult (divE (argsV2 o)) (argsV2 o)))
  ∧ ∀ o : VX2, LongV (.vdivX o) 8 [.v o.a, .v o.b] o.d (elemResult (divE (argsX2 o)) (argsX2 o))

/-- R113, R114, R119: negation, absolute value, minima and maxima, and clamping. A floating negation or absolute value
changes only the sign bit and gives the canonical NaN for a NaN; VMIN and VMAX give the canonical NaN when either operand
is a NaN, VMINN and VMAXN the other operand; −0 is less than +0; VCLAMP is min(max(a, b), c). -/
def Claims.VectorSignAndOrder : Prop :=
  let one := fun (o : V1) => (⟨o.d, [o.a], 0, o.ty, .rne⟩ : VArgs)
  let oneX := fun (o : VX1) => (⟨o.d, [o.a], o.guard, o.ty, o.rnd⟩ : VArgs)
  let two := fun (o : V2) => (⟨o.d, [o.a, o.b], 0, o.ty, .rne⟩ : VArgs)
  let twoX := fun (o : VX2) => (⟨o.d, [o.a, o.b], o.guard, o.ty, o.rnd⟩ : VArgs)
  let threeX := fun (o : VX3) => (⟨o.d, [o.a, o.b, o.c], o.guard, o.ty, o.rnd⟩ : VArgs)
  let neg := fun (g : VArgs) (xs : List Nat) => match tyFlt g.ty with
    | some f => if (decodeFlt f (arg xs 0 % 2 ^ f.width)).isNan then nanCode f
        else (arg xs 0 % 2 ^ f.width) ^^^ 2 ^ (f.width - 1)
    | none => wrap (tyW g.ty) (0 - elemInt g.ty (arg xs 0))
  let abs := fun (g : VArgs) (xs : List Nat) => match tyFlt g.ty with
    | some f => if (decodeFlt f (arg xs 0 % 2 ^ f.width)).isNan then nanCode f else arg xs 0 % 2 ^ (f.width - 1)
    | none => wrap (tyW g.ty) (elemInt g.ty (arg xs 0)).natAbs
  let sel := fun (great other : Bool) (g : VArgs) (xs : List Nat) => pick g.ty great other (arg xs 0) (arg xs 1)
  (∀ o, ElementWise (.vneg o) 4 (one o) (neg (one o))) ∧ (∀ o, ElementWise (.vnegX o) 8 (oneX o) (neg (oneX o)))
  ∧ (∀ o, ElementWise (.vabs o) 4 (one o) (abs (one o))) ∧ (∀ o, ElementWise (.vabsX o) 8 (oneX o) (abs (oneX o)))
  ∧ (∀ o, ElementWise (.vmin o) 4 (two o) (sel false false (two o))) ∧ (∀ o, ElementWise (.vminX o) 8 (twoX o) (sel false false (twoX o)))
  ∧ (∀ o, ElementWise (.vmax o) 4 (two o) (sel true false (two o))) ∧ (∀ o, ElementWise (.vmaxX o) 8 (twoX o) (sel true false (twoX o)))
  ∧ (∀ o, ElementWise (.vminn o) 4 (two o) (sel false true (two o))) ∧ (∀ o, ElementWise (.vminnX o) 8 (twoX o) (sel false true (twoX o)))
  ∧ (∀ o, ElementWise (.vmaxn o) 4 (two o) (sel true true (two o))) ∧ (∀ o, ElementWise (.vmaxnX o) 8 (twoX o) (sel true true (twoX o)))
  ∧ ∀ o, ElementWise (.vclamp o) 8 (threeX o) (fun xs =>
      pick o.ty false false (pick o.ty true false (arg xs 0) (arg xs 1)) (arg xs 2))

/-- `Claims.VectorFunctions` (R115, R121, R110); `Claims.VectorSignAndOrder` (R113, R114, R119). -/
def Obligations.VectorElementFunctions : Prop := Claims.VectorFunctions ∧ Claims.VectorSignAndOrder

/-- R116, R124, R126: bitwise operations and shifts over whole elements, the count of a shift taken modulo W; VPERM takes
the element that vb numbers modulo N; VLUT looks up each byte in the 128 bytes of vb. That VPERM copies a NaN as it stands is the model's
reading (log entry 15). -/
def Claims.VectorBitwise : Prop :=
  let two := fun (o : V2) => (⟨o.d, [o.a, o.b], 0, o.ty, .rne⟩ : VArgs)
  let twoX := fun (o : VX2) => (⟨o.d, [o.a, o.b], o.guard, o.ty, o.rnd⟩ : VArgs)
  let bin := fun (f : Nat → Nat → Nat) (xs : List Nat) => f (arg xs 0) (arg xs 1)
  let shl := fun (g : VArgs) (xs : List Nat) => arg xs 0 * 2 ^ (arg xs 1 % tyW g.ty)
  let shr := fun (g : VArgs) (xs : List Nat) => arg xs 0 / 2 ^ (arg xs 1 % tyW g.ty)
  let sra := fun (g : VArgs) (xs : List Nat) => wrap (tyW g.ty) (sgn (tyW g.ty) (arg xs 0) / 2 ^ (arg xs 1 % tyW g.ty))
  (∀ o, ElementWise (.vand o) 4 (two o) (bin (· &&& ·))) ∧ (∀ o, ElementWise (.vandX o) 8 (twoX o) (bin (· &&& ·)))
  ∧ (∀ o, ElementWise (.vor o) 4 (two o) (bin (· ||| ·))) ∧ (∀ o, ElementWise (.vorX o) 8 (twoX o) (bin (· ||| ·)))
  ∧ (∀ o, ElementWise (.vxor o) 4 (two o) (bin (· ^^^ ·))) ∧ (∀ o, ElementWise (.vxorX o) 8 (twoX o) (bin (· ^^^ ·)))
  ∧ (∀ o, ElementWise (.vshl o) 4 (two o) (shl (two o))) ∧ (∀ o, ElementWise (.vshlX o) 8 (twoX o) (shl (twoX o)))
  ∧ (∀ o, ElementWise (.vshr o) 4 (two o) (shr (two o))) ∧ (∀ o, ElementWise (.vshrX o) 8 (twoX o) (shr (twoX o)))
  ∧ (∀ o, ElementWise (.vsra o) 4 (two o) (sra (two o))) ∧ (∀ o, ElementWise (.vsraX o) 8 (twoX o) (sra (twoX o)))
  ∧ (∀ o : V2, PerElement (.vperm o) 4 [.v o.a, .v o.b] o.d (tyW o.ty) (fun _ => BitVec.allOnes 32) (fun l k =>
      elem (tyW o.ty) (getV l o.a) (elem (tyW o.ty) (getV l o.b) k % (1024 / tyW o.ty))))
  ∧ (∀ o : VX2, PerElement (.vpermX o) 8 [.v o.a, .v o.b] o.d (tyW o.ty) (fun l => getP l o.guard) (fun l k =>
      elem (tyW o.ty) (getV l o.a) (elem (tyW o.ty) (getV l o.b) k % (1024 / tyW o.ty))))
  ∧ (∀ o : R3, PerElement (.vlut o) 4 [.v o.a, .v o.b] o.d 32 (fun _ => BitVec.allOnes 32) (fun l k => lutAt [getV l o.a, getV l o.b] k))
  ∧ ∀ o : VX2, PerElement (.vlutX o) 8 [.v o.a, .v o.b] o.d 32 (fun l => getP l o.guard)
      (fun l k => lutAt [getV l o.a, getV l o.b] k)

/-- R117, R118, R122, R123, R124, R125: selection, splat, insertion, index vectors, slides, and packing and spreading by a
predicate; VEXTR and VCMP with their guard: bit 0 clear switches them off, all but the illegality of a payload register that is
named outside a handler firing (R47, R55). That VSEL, VSLIDE, VCOMP and VEXPD copy elements whole, a NaN as it stands, is the model's
reading (log entry 15). -/
def Claims.VectorMoves : Prop :=
  (∀ o : VselOp, PerElement (.vsel o) 8 [.v o.a, .v o.b] o.d (tyW o.ty) (fun l => getP l o.guard) (fun l k =>
      if (getP l o.c.reg).getLsbD k = true then elem (tyW o.ty) (getV l o.a) k else elem (tyW o.ty) (getV l o.b) k))
  ∧ (∀ o : XX1, PerElement (.vsplat o) 8 [.x o.a] o.d (tyW o.ty) (fun l => getP l o.guard) (fun l _ =>
      (getX l o.a.reg).toNat % 2 ^ tyVal o.ty))
  ∧ (∀ o : XX2, PerElement (.vins o) 8 [.x o.a, .x o.b] o.d (tyW o.ty) (fun l =>
      getP l o.guard &&& BitVec.twoPow 32 ((getX l o.b.reg).toNat % (1024 / tyW o.ty))) (fun l _ =>
      (getX l o.a.reg).toNat % 2 ^ tyVal o.ty))
  ∧ (∀ o : ViotaOp, PerElement (.viota o) 8 [] o.d (tyW o.ty) (fun l => getP l o.guard) (fun l k =>
      ((List.range k).filter (fun j => (getP l o.a.reg).getLsbD j)).length))
  ∧ (∀ o : VslideOp, PerElement (.vslide o) 8 [.v o.a, .v o.b] o.d (tyW o.ty) (fun l => getP l o.guard) (fun l k =>
      slideAt o.ty o.k.toInt (getV l o.a) (getV l o.b) k))
  ∧ (∀ o : VcompOp, PerElement (.vcomp o) 8 [.v o.a] o.d (tyW o.ty) (fun _ => BitVec.allOnes 32) (fun l k =>
      match ((List.range (1024 / tyW o.ty)).filter (fun j => (getP l o.b.reg).getLsbD j))[k]? with
      | some i => elem (tyW o.ty) (getV l o.a) i
      | none => elem (tyW o.ty) l.regs.v[o.d] k))
  ∧ (∀ o : VcompOp, PerElement (.vexpd o) 8 [.v o.a] o.d (tyW o.ty) (fun l => getP l o.b.reg) (fun l k =>
      elem (tyW o.ty) (getV l o.a) ((List.range k).filter (fun j => (getP l o.b.reg).getLsbD j)).length))
  ∧ (∀ (o : XX2) s,
      let e := elem (tyW o.ty) (getV (cur s) o.a) ((getX (cur s) o.b.reg).toNat % (1024 / tyW o.ty))
      let x : X := if o.ty = .i32 then (BitVec.ofNat 32 e).signExtend 64 else BitVec.ofNat 64 (e % 2 ^ tyVal o.ty)
      let bad := [Opnd.v o.a, .x o.b].any (opndIllegal (cur s))
      ((getP (cur s) o.guard).getLsbD 0 = true → Ready (cur s) [.v o.a, .x o.b] → XFree (cur s) o.d →
        exec (.vextr o) s = .next (after s 8 (putX (kill (cur s) [.v o.a, .x o.b]) o.d x)))
      ∧ ((getP (cur s) o.guard).getLsbD 0 = false → bad = false → exec (.vextr o) s = .next (after s 8 (cur s)))
      ∧ (bad = true → exec (.vextr o) s = .next (takeFault s .illegal 0)))
  ∧ ∀ (o : VcmpOp) s,
      let bad := [Opnd.v o.a, .v o.b].any (opndIllegal (cur s))
      ((getP (cur s) o.guard).getLsbD 0 = false → bad = false → exec (.vcmp o) s = .next (after s 8 (cur s)))
      ∧ (bad = true → exec (.vcmp o) s = .next (takeFault s .illegal 0))
      ∧ ((getP (cur s) o.guard).getLsbD 0 = true → Ready (cur s) [.v o.a, .v o.b] → ∃ p : P,
        exec (.vcmp o) s = .next (after s 8 (putP (kill (cur s) [.v o.a, .v o.b]) o.d p))
        ∧ ∀ k, k < 32 → p.getLsbD k = (decide (k < 1024 / tyW o.ty)
            && vcond o.ty o.cond (elem (tyW o.ty) (getV (cur s) o.a) k) (elem (tyW o.ty) (getV (cur s) o.b) k)))

/-- `Claims.VectorBitwise` (R116, R124, R126); `Claims.VectorMoves` (R117, R118, R122, R123, R124, R125, R47, R55). -/
def Obligations.VectorBitsAndMoves : Prop := Claims.VectorBitwise ∧ Claims.VectorMoves

/-- R120, R127 to R134: conversion, reductions, scans, dot products, distances, normalisation and top-k complete with the
vector and the generator that their rules give; VRED writes the root of the tree of R81 to every active element. That a lone NaN leaf
gives the canonical NaN, how many draws VCVT and VDIST.cos take, and that conversions to integers clamp are the model's readings (log
entry 15). -/
def Obligations.VectorReductions : Prop :=
  (∀ o : VcvtOp, ResultV (.vcvt o) 8 [.v o.a] o.d (fun l => vecMap (cvtW o) (getP l o.guard) l.regs.v[o.d] l.sr
      (fun i s => cvtElem o (elem (cvtW o) (getV l o.a) i) (elem (cvtW o) l.regs.v[o.d] i) s)))
  ∧ (∀ o : VredOp, ResultV (.vred o) 8 [.v o.a] o.d (fun l => spread o.ty (getP l o.guard) l.regs.v[o.d]
      (treeRoot (combine o.ty o.op o.rnd) (identity o.ty o.op) (tyLevels o.ty)
        (leaves o.ty (getP l o.guard) (fun i => canonElem o.ty (elem (tyW o.ty) (getV l o.a) i))) l.sr)))
  ∧ (∀ o : VscanOp, ResultV (.vscan o) 8 [.v o.a] o.d (fun l =>
      let r := scanFrom o (getP l o.guard) (getV l o.a) l.regs.v[o.d] (List.range (tyN o.ty)) (identity o.ty o.op) l.sr
      (BitVec.ofNat 1024 (packElems (tyW o.ty) r.1), r.2)))
  ∧ (∀ o : V2, ResultV (.vdot o) 4 [.v o.a, .v o.b] o.d (dotResult (argsV2 o)))
  ∧ (∀ o : VX2, ResultV (.vdotX o) 8 [.v o.a, .v o.b] o.d (dotResult (argsX2 o)))
  ∧ (∀ o : V2, ResultV (.vdistL2sq o) 4 [.v o.a, .v o.b] o.d (distResult sqDiff (argsV2 o)))
  ∧ (∀ o : VX2, ResultV (.vdistL2sqX o) 8 [.v o.a, .v o.b] o.d (distResult sqDiff (argsX2 o)))
  ∧ (∀ o : V2, ResultV (.vdistIp o) 4 [.v o.a, .v o.b] o.d (distResult mulNum (argsV2 o)))
  ∧ (∀ o : VX2, ResultV (.vdistIpX o) 8 [.v o.a, .v o.b] o.d (distResult mulNum (argsX2 o)))
  ∧ (∀ o : V2, ResultV (.vdistCos o) 4 [.v o.a, .v o.b] o.d (cosResult (argsV2 o)))
  ∧ (∀ o : VX2, ResultV (.vdistCosX o) 8 [.v o.a, .v o.b] o.d (cosResult (argsX2 o)))
  ∧ (∀ o : V1, ResultV (.vnorm o) 4 [.v o.a] o.d (normResult (argsV1 o)))
  ∧ (∀ o : VX1, ResultV (.vnormX o) 8 [.v o.a] o.d (normResult (argsX1 o)))
  ∧ (∀ o : TopkOp, LongV (.topk o) 8 [.v o.a, .v o.b] o.d (fun l =>
      (topkRecord o.ty (bestRanked o.ty o.max o.k.toNat (topkPairs (getV l o.a) (getV l o.b))), l.sr)))
  ∧ ∀ o : TopkOp, LongV (.topkm o) 8 [.v o.a, .v o.b] o.d (fun l =>
      (topkRecord o.ty (bestRanked o.ty o.max o.k.toNat (recordPairs (getV l o.a) ++ recordPairs (getV l o.b))), l.sr))

/-- R81, R127: on an integer type the sum of VRED does not depend on the tree: every active element gets the sum of the
active elements modulo 2^W, and with no active element vd keeps its value. -/
def Claims.IntegerReductionSum : Prop :=
  ∀ s (o : VredOp), o.op = .sum → tyFlt o.ty = none → VReady (cur s) o.a → VFree (cur s) o.d →
    let act := (List.range (1024 / tyW o.ty)).filter (fun k => (getP (cur s) o.guard).getLsbD k)
    ∃ v : V, exec (.vred o) s = .next (after s 8 (putV (kill (cur s) [.v o.a]) o.d v))
      ∧ ∀ k, k < 1024 / tyW o.ty → elem (tyW o.ty) v k =
          if k ∈ act then (act.map (elem (tyW o.ty) (getV (cur s) o.a))).sum % 2 ^ tyW o.ty
          else elem (tyW o.ty) (cur s).regs.v[o.d] k

/-- R132, R133: the entries that TOPK keeps are in rank order, at most k of them, and no candidate that is left out ranks
before one that is kept. -/
def Claims.TopkKeepsTheBest : Prop :=
  ∀ (t : ElemTy) (most : Bool) (k : Nat) (cs : List Ranked),
    let best := bestRanked t most k cs
    best.length = min k (cs.filter (fun c => c.2 ≠ emptyId)).length
    ∧ List.Pairwise (fun a b => rankedBefore t most b a = false) best
    ∧ (∀ c ∈ best, c ∈ cs)
    ∧ ∀ c ∈ cs, c.2 ≠ emptyId → c ∉ best → ∀ b ∈ best, rankedBefore t most c b = false

/-- R108, R110, R111, R116 to R134: WHERE THE VECTOR INSTRUCTIONS COMPLETE: in every rounding mode, with the sources readable and the
destination writable, the instruction answers a next state in which its destination holds its result, or, for the top-k forms,
the result is outstanding. -/
def Claims.VectorCompletion : Prop :=
  (∀ o : V2,
    CompletesV (.vand o) 4 [.v o.a, .v o.b] o.d ∧ CompletesV (.vor o) 4 [.v o.a, .v o.b] o.d
    ∧ CompletesV (.vxor o) 4 [.v o.a, .v o.b] o.d ∧ CompletesV (.vshl o) 4 [.v o.a, .v o.b] o.d
    ∧ CompletesV (.vshr o) 4 [.v o.a, .v o.b] o.d ∧ CompletesV (.vsra o) 4 [.v o.a, .v o.b] o.d
    ∧ CompletesV (.vperm o) 4 [.v o.a, .v o.b] o.d
    ∧ CompletesV (.vdot o) 4 [.v o.a, .v o.b] o.d ∧ CompletesV (.vdistL2sq o) 4 [.v o.a, .v o.b] o.d
    ∧ CompletesV (.vdistIp o) 4 [.v o.a, .v o.b] o.d ∧ CompletesV (.vdistCos o) 4 [.v o.a, .v o.b] o.d)
  ∧ (∀ o : VX2,
    CompletesV (.vandX o) 8 [.v o.a, .v o.b] o.d ∧ CompletesV (.vorX o) 8 [.v o.a, .v o.b] o.d
    ∧ CompletesV (.vxorX o) 8 [.v o.a, .v o.b] o.d ∧ CompletesV (.vshlX o) 8 [.v o.a, .v o.b] o.d
    ∧ CompletesV (.vshrX o) 8 [.v o.a, .v o.b] o.d ∧ CompletesV (.vsraX o) 8 [.v o.a, .v o.b] o.d
    ∧ CompletesV (.vpermX o) 8 [.v o.a, .v o.b] o.d ∧ CompletesV (.vlutX o) 8 [.v o.a, .v o.b] o.d
    ∧ CompletesV (.vdotX o) 8 [.v o.a, .v o.b] o.d ∧ CompletesV (.vdistL2sqX o) 8 [.v o.a, .v o.b] o.d
    ∧ CompletesV (.vdistIpX o) 8 [.v o.a, .v o.b] o.d ∧ CompletesV (.vdistCosX o) 8 [.v o.a, .v o.b] o.d
    ∧ CompletesV (.vaddX o) 8 [.v o.a, .v o.b] o.d ∧ CompletesV (.vsubX o) 8 [.v o.a, .v o.b] o.d
    ∧ CompletesV (.vmulX o) 8 [.v o.a, .v o.b] o.d)
  ∧ (∀ o : VX3,
    CompletesV (.vfmaX o) 8 [.v o.a, .v o.b, .v o.c] o.d ∧ CompletesV (.vfmsX o) 8 [.v o.a, .v o.b, .v o.c] o.d
    ∧ CompletesV (.vfnmaX o) 8 [.v o.a, .v o.b, .v o.c] o.d)
  ∧ (∀ o : VX1,
    CompletesV (.vnormX o) 8 [.v o.a] o.d ∧ CompletesV (.vrcpX o) 8 [.v o.a] o.d
    ∧ CompletesV (.vrsqX o) 8 [.v o.a] o.d ∧ CompletesV (.vexp2X o) 8 [.v o.a] o.d
    ∧ CompletesV (.vlog2X o) 8 [.v o.a] o.d ∧ CompletesV (.vround o) 8 [.v o.a] o.d)
  ∧ (∀ o : R3, CompletesV (.vlut o) 4 [.v o.a, .v o.b] o.d) ∧ (∀ o : V1, CompletesV (.vnorm o) 4 [.v o.a] o.d)
  ∧ (∀ o : VcvtOp, CompletesV (.vcvt o) 8 [.v o.a] o.d) ∧ (∀ o : VredOp, CompletesV (.vred o) 8 [.v o.a] o.d)
  ∧ (∀ o : VscanOp, CompletesV (.vscan o) 8 [.v o.a] o.d) ∧ (∀ o : VselOp, CompletesV (.vsel o) 8 [.v o.a, .v o.b] o.d)
  ∧ (∀ o : XX1, CompletesV (.vsplat o) 8 [.x o.a] o.d) ∧ (∀ o : XX2, CompletesV (.vins o) 8 [.x o.a, .x o.b] o.d)
  ∧ (∀ o : ViotaOp, CompletesV (.viota o) 8 [] o.d) ∧ (∀ o : VslideOp, CompletesV (.vslide o) 8 [.v o.a, .v o.b] o.d)
  ∧ (∀ o : VcompOp, CompletesV (.vcomp o) 8 [.v o.a] o.d ∧ CompletesV (.vexpd o) 8 [.v o.a] o.d)
  ∧ (∀ (o : XX2) s, (getP (cur s) o.guard).getLsbD 0 = true → Ready (cur s) [.v o.a, .x o.b] → XFree (cur s) o.d →
      ∃ x : X, exec (.vextr o) s = .next (after s 8 (putX (kill (cur s) [.v o.a, .x o.b]) o.d x)))
  ∧ (∀ (o : VcmpOp) s, (getP (cur s) o.guard).getLsbD 0 = true → Ready (cur s) [.v o.a, .v o.b] →
      ∃ p : P, exec (.vcmp o) s = .next (after s 8 (putP (kill (cur s) [.v o.a, .v o.b]) o.d p)))
  ∧ ∀ (o : TopkOp) s, Ready (cur s) [.v o.a, .v o.b] → VFree (cur s) o.d →
      let waits := fun (i : Instr) => ∃ v : V,
        let t := produce (setCur s (kill (cur s) [.v o.a, .v o.b])) ⟨.v o.d, v, false, none, s.sched.bits, 0, siteOf s⟩
        exec i s = .next (after t 8 (cur t))
      waits (.topk o) ∧ waits (.topkm o)

/-- `Claims.IntegerReductionSum` (R81, R127); `Claims.TopkKeepsTheBest` (R132, R133); `Claims.VectorCompletion` (R108, R110, R111,
R116 to R134). -/
def Obligations.ReductionSumAndTopk : Prop := Claims.IntegerReductionSum ∧ Claims.TopkKeepsTheBest ∧ Claims.VectorCompletion

/-! ### Memory instructions -/

/-- R147, R149, R151, R51: scalar loads from own LM in the C, M, R and X forms complete at once with the value extended as
their format says. -/
def Claims.LocalLoads : Prop :=
  let fmt : Fin 7 → Nat × Bool := fun f => match f.val with
    | 0 => (1, false) | 1 => (1, true) | 2 => (2, false) | 3 => (2, true) | 4 => (4, false) | 5 => (4, true) | _ => (8, false)
  (∀ o : LdOp, LoadsLocal (.ld o) 4 [.x o.a] o.d (fun l =>
      getX l o.a.reg + o.imm.signExtend 64 * BitVec.ofNat 64 (fmt o.f).1) (fmt o.f).1 (fmt o.f).2 (fun _ => True))
  ∧ (∀ o : LdxOp, LoadsLocal (.ldx o) 4 [.x o.a, .x o.b] o.d (fun l =>
      getX l o.a.reg + getX l o.b.reg * BitVec.ofNat 64 (fmt o.f).1) (fmt o.f).1 (fmt o.f).2 (fun _ => True))
  ∧ (∀ o : C2, LoadsLocal (.ldI64C o) 2 [.x (plain o.b)] o.a (fun l => getX l o.b) 8 false (fun _ => True))
  ∧ (∀ o : C2, LoadsLocal (.ldI32C o) 2 [.x (plain o.b)] o.a (fun l => getX l o.b) 4 true (fun _ => True))
  ∧ ∀ o : LdXOp, wf (.ldX o) = true → LoadsLocal (.ldX o) 8 [.x o.a] o.d (fun l =>
      getX l o.a.reg + o.off.signExtend 64 * BitVec.ofNat 64 (fmtWidth o.fmt / 8)) (fmtWidth o.fmt / 8)
      (fmtKind o.fmt == .sint) (fun l => (getP l o.guard).getLsbD 0 = true ∧ (o.order ≠ .plain → l.firing.spec = false))

/-- R147, R149, R151, R51: scalar stores to own LM in the C, M, R and X forms write the low bytes of their data register at
the address their form computes, and change no register and no other byte. -/
def Claims.LocalStores : Prop :=
  (∀ o : StOp, StoresLocal (.st o) 4 [.x o.a, .x (plain o.d)] (fun l =>
      getX l o.a.reg + o.imm.signExtend 64 * BitVec.ofNat 64 (2 ^ o.f.val)) (2 ^ o.f.val) (fun l => getX l o.d) (fun _ => True))
  ∧ (∀ o : StxOp, StoresLocal (.stx o) 4 [.x o.a, .x o.b, .x (plain o.d)] (fun l =>
      getX l o.a.reg + getX l o.b.reg * BitVec.ofNat 64 (2 ^ o.f.val)) (2 ^ o.f.val) (fun l => getX l o.d) (fun _ => True))
  ∧ (∀ o : C2, StoresLocal (.stI64C o) 2 [.x (plain o.a), .x (plain o.b)] (fun l => getX l o.b) 8 (fun l => getX l o.a) (fun _ => True))
  ∧ (∀ o : C2, StoresLocal (.stI32C o) 2 [.x (plain o.a), .x (plain o.b)] (fun l => getX l o.b) 4 (fun l => getX l o.a) (fun _ => True))
  ∧ ∀ o : StXOp, wf (.stX o) = true → StoresLocal (.stX o) 8 [.x o.a, .x o.b] (fun l =>
      getX l o.a.reg + o.off.signExtend 64 * BitVec.ofNat 64 (fmtWidth o.fmt / 8)) (fmtWidth o.fmt / 8)
      (fun l => getX l o.b.reg)
      (fun l => (getP l o.guard).getLsbD 0 = true ∧ (o.order ≠ .plain → l.firing.spec = false))

/-- `Claims.LocalLoads` (R147, R149, R151, R51); `Claims.LocalStores` (R147, R149, R151, R51). -/
def Obligations.LocalScalarAccesses : Prop := Claims.LocalLoads ∧ Claims.LocalStores

/-- R149, R151, R153, R264: scalar loads and stores of global memory and of Larder shared space in every form. A load is a
long-latency producer that lcnt counts; a store is counted in scnt and writes where the address translates to. -/
def Obligations.GlobalLoadsAndStores : Prop :=
  let fmt : Fin 7 → Nat × Bool := fun f => match f.val with
    | 0 => (1, false) | 1 => (1, true) | 2 => (2, false) | 3 => (2, true) | 4 => (4, false) | 5 => (4, true) | _ => (8, false)
  let on := fun (g : PReg) (r : Order) (l : Lane) => (getP l g).getLsbD 0 = true ∧ (r ≠ .plain → l.firing.spec = false)
  (∀ o : LdOp, LoadsGlobal (.ld o) 4 [.x o.a] o.d (fun l =>
      getX l o.a.reg + o.imm.signExtend 64 * BitVec.ofNat 64 (fmt o.f).1) (fmt o.f).1 (fmt o.f).2 (fun _ => True))
  ∧ (∀ o : LdxOp, LoadsGlobal (.ldx o) 4 [.x o.a, .x o.b] o.d (fun l =>
      getX l o.a.reg + getX l o.b.reg * BitVec.ofNat 64 (fmt o.f).1) (fmt o.f).1 (fmt o.f).2 (fun _ => True))
  ∧ (∀ o : C2, LoadsGlobal (.ldI64C o) 2 [.x (plain o.b)] o.a (fun l => getX l o.b) 8 false (fun _ => True))
  ∧ (∀ o : C2, LoadsGlobal (.ldI32C o) 2 [.x (plain o.b)] o.a (fun l => getX l o.b) 4 true (fun _ => True))
  ∧ (∀ o : LdXOp, wf (.ldX o) = true → LoadsGlobal (.ldX o) 8 [.x o.a] o.d (fun l =>
      getX l o.a.reg + o.off.signExtend 64 * BitVec.ofNat 64 (fmtWidth o.fmt / 8)) (fmtWidth o.fmt / 8)
      (fmtKind o.fmt == .sint) (on o.guard o.order))
  ∧ (∀ o : StOp, StoresGlobal (.st o) 4 [.x o.a, .x (plain o.d)] (fun l =>
      getX l o.a.reg + o.imm.signExtend 64 * BitVec.ofNat 64 (2 ^ o.f.val)) (2 ^ o.f.val) (fun l => getX l o.d) (fun _ => True))
  ∧ (∀ o : StxOp, StoresGlobal (.stx o) 4 [.x o.a, .x o.b, .x (plain o.d)] (fun l =>
      getX l o.a.reg + getX l o.b.reg * BitVec.ofNat 64 (2 ^ o.f.val)) (2 ^ o.f.val) (fun l => getX l o.d) (fun _ => True))
  ∧ (∀ o : C2, StoresGlobal (.stI64C o) 2 [.x (plain o.a), .x (plain o.b)] (fun l => getX l o.b) 8 (fun l => getX l o.a) (fun _ => True))
  ∧ (∀ o : C2, StoresGlobal (.stI32C o) 2 [.x (plain o.a), .x (plain o.b)] (fun l => getX l o.b) 4 (fun l => getX l o.a) (fun _ => True))
  ∧ ∀ o : StXOp, wf (.stX o) = true → StoresGlobal (.stX o) 8 [.x o.a, .x o.b] (fun l =>
      getX l o.a.reg + o.off.signExtend 64 * BitVec.ofNat 64 (fmtWidth o.fmt / 8)) (fmtWidth o.fmt / 8)
      (fun l => getX l o.b.reg) (on o.guard o.order)

/-- R154, R51: vector loads from own LM: consecutive elements, elements at a signed byte stride, and elements at the signed
offsets of a vector. -/
def Claims.VectorLoads : Prop :=
  let all := fun (_ : Lane) => BitVec.allOnes 32
  let row := fun (base : Lane → X) (w : Nat) (l : Lane) (k : Nat) => base l + BitVec.ofNat 64 (k * (w / 8))
  let at' := fun (a : Reg) (b : Src) (w : Nat) (l : Lane) (k : Nat) =>
    getX l a + (BitVec.ofNat w (elem w (getV l b) k)).signExtend 64
  (∀ o : RI, VectorLoadsLocal (.vld o) 4 [.x o.a] o.d 32 all (row (fun l => getX l o.a.reg + o.imm.signExtend 64 * 128) 32))
  ∧ (∀ o : C2, VectorLoadsLocal (.vldC o) 2 [.x (plain o.b)] o.a 32 all (row (fun l => getX l o.b) 32))
  ∧ (∀ o : VldXOp, wf (.vldX o) = true → VectorLoadsLocal (.vldX o) 8 [.x o.a] o.d (fmtWidth o.fmt) (fun l => getP l o.guard)
      (row (fun l => getX l o.a.reg + o.off.signExtend 64 * 128) (fmtWidth o.fmt)))
  ∧ (∀ o : V2, VectorLoadsLocal (.vlds o) 4 [.x o.a, .x o.b] o.d (tyW o.ty) all (fun l k =>
      getX l o.a.reg + BitVec.ofNat 64 k * getX l o.b.reg))
  ∧ (∀ o : V2, VectorLoadsLocal (.vgth o) 4 [.x o.a, .v o.b] o.d (tyW o.ty) all (at' o.a.reg o.b (tyW o.ty)))
  ∧ ∀ o : VgthXOp, wf (.vgthX o) = true → VectorLoadsLocal (.vgthX o) 8 [.x o.a, .v o.b] o.d (fmtWidth o.fmt)
      (fun l => getP l o.guard) (at' o.a.reg o.b (fmtWidth o.fmt))

/-- R154, R51: vector stores and scatter-adds to own LM write the active elements in ascending order at the addresses
of the corresponding loads, and no other byte; VSCTA adds modulo 2^W, or rounds once to nearest even. -/
def Claims.VectorStores : Prop :=
  let all := fun (_ : Lane) => BitVec.allOnes 32
  let row := fun (base : Lane → X) (w : Nat) (l : Lane) (k : Nat) => base l + BitVec.ofNat 64 (k * (w / 8))
  let at' := fun (a : Reg) (b : Src) (w : Nat) (l : Lane) (k : Nat) =>
    getX l a + (BitVec.ofNat w (elem w (getV l b) k)).signExtend 64
  let sum := fun (f : Fmt) (a b : Nat) => match fmtKind f with
    | .flt x => roundFlt x .rne 0 (addNum false (decodeFlt x a) (decodeFlt x b))
    | _ => (a + b) % 2 ^ fmtWidth f
  (∀ o : RI, VectorStoresLocal (.vst o) 4 [.x o.a, .v (plain o.d)] 32 all
      (row (fun l => getX l o.a.reg + o.imm.signExtend 64 * 128) 32) (fun l => l.regs.v[o.d]))
  ∧ (∀ o : C2, VectorStoresLocal (.vstC o) 2 [.v (plain o.a), .x (plain o.b)] 32 all (row (fun l => getX l o.b) 32)
      (fun l => l.regs.v[o.a]))
  ∧ (∀ o : VstXOp, wf (.vstX o) = true → VectorStoresLocal (.vstX o) 8 [.x o.a, .v o.b] (fmtWidth o.fmt) (fun l => getP l o.guard)
      (row (fun l => getX l o.a.reg + o.off.signExtend 64 * 128) (fmtWidth o.fmt)) (fun l => getV l o.b))
  ∧ (∀ o : V2, VectorStoresLocal (.vsts o) 4 [.x o.a, .x o.b, .v (plain o.d)] (tyW o.ty) all (fun l k =>
      getX l o.a.reg + BitVec.ofNat 64 k * getX l o.b.reg) (fun l => l.regs.v[o.d]))
  ∧ (∀ o : V2, VectorStoresLocal (.vsct o) 4 [.x o.a, .v o.b, .v (plain o.d)] (tyW o.ty) all
      (at' o.a.reg o.b (tyW o.ty)) (fun l => l.regs.v[o.d]))
  ∧ (∀ o : VsctXOp, wf (.vsctX o) = true → VectorStoresLocal (.vsctX o) 8 [.x o.a, .v o.b, .v o.c] (fmtWidth o.fmt)
      (fun l => getP l o.guard) (at' o.a.reg o.b (fmtWidth o.fmt)) (fun l => getV l o.c))
  ∧ (∀ o : V2, VectorAddsLocal (.vscta o) 4 [.x o.a, .v o.b, .v (plain o.d)] (tyW o.ty) all (at' o.a.reg o.b (tyW o.ty))
      (fun l => l.regs.v[o.d]) (sum (tyFmt o.ty)))
  ∧ ∀ o : VsctaXOp, wf (.vsctaX o) = true → VectorAddsLocal (.vsctaX o) 8 [.x o.a, .v o.b, .v o.c] (fmtWidth o.fmt)
      (fun l => getP l o.guard) (at' o.a.reg o.b (fmtWidth o.fmt)) (fun l => getV l o.c) (sum o.fmt)

/-- `Claims.VectorLoads` (R154, R51); `Claims.VectorStores` (R154, R51). -/
def Obligations.LocalVectorAccesses : Prop := Claims.VectorLoads ∧ Claims.VectorStores

/-- R154, R51, R149, R153: the vector loads, stores and scatter-adds of global memory, in every form. That VSCTA leaves an element that
reads poisoned data as it is, is the model's reading (log entry 17). -/
def Obligations.VectorGlobal : Prop :=
  let all := fun (_ : Lane) => BitVec.allOnes 32
  let row := fun (base : Lane → X) (w : Nat) (l : Lane) (k : Nat) => base l + BitVec.ofNat 64 (k * (w / 8))
  let at' := fun (a : Reg) (b : Src) (w : Nat) (l : Lane) (k : Nat) =>
    getX l a + (BitVec.ofNat w (elem w (getV l b) k)).signExtend 64
  let stride := fun (a b : Src) (l : Lane) (k : Nat) => getX l a.reg + BitVec.ofNat 64 k * getX l b.reg
  let sum := fun (f : Fmt) (a b : Nat) => match fmtKind f with
    | .flt x => roundFlt x .rne 0 (addNum false (decodeFlt x a) (decodeFlt x b))
    | _ => (a + b) % 2 ^ fmtWidth f
  (∀ o : RI, VectorLoadsGlobal (.vld o) 4 [.x o.a] o.d 32 all (row (fun l => getX l o.a.reg + o.imm.signExtend 64 * 128) 32)
    ∧ VectorStoresGlobal (.vst o) 4 [.x o.a, .v (plain o.d)] 32 all (row (fun l => getX l o.a.reg + o.imm.signExtend 64 * 128) 32)
      (fun l => l.regs.v[o.d]))
  ∧ (∀ o : C2, VectorLoadsGlobal (.vldC o) 2 [.x (plain o.b)] o.a 32 all (row (fun l => getX l o.b) 32)
    ∧ VectorStoresGlobal (.vstC o) 2 [.v (plain o.a), .x (plain o.b)] 32 all (row (fun l => getX l o.b) 32) (fun l => l.regs.v[o.a]))
  ∧ (∀ o : VldXOp, wf (.vldX o) = true → VectorLoadsGlobal (.vldX o) 8 [.x o.a] o.d (fmtWidth o.fmt) (fun l => getP l o.guard)
      (row (fun l => getX l o.a.reg + o.off.signExtend 64 * 128) (fmtWidth o.fmt)))
  ∧ (∀ o : VstXOp, wf (.vstX o) = true → VectorStoresGlobal (.vstX o) 8 [.x o.a, .v o.b] (fmtWidth o.fmt) (fun l => getP l o.guard)
      (row (fun l => getX l o.a.reg + o.off.signExtend 64 * 128) (fmtWidth o.fmt)) (fun l => getV l o.b))
  ∧ (∀ o : V2, let w := tyW o.ty
    VectorLoadsGlobal (.vlds o) 4 [.x o.a, .x o.b] o.d w all (stride o.a o.b)
    ∧ VectorLoadsGlobal (.vgth o) 4 [.x o.a, .v o.b] o.d w all (at' o.a.reg o.b w)
    ∧ VectorStoresGlobal (.vsts o) 4 [.x o.a, .x o.b, .v (plain o.d)] w all (stride o.a o.b) (fun l => l.regs.v[o.d])
    ∧ VectorStoresGlobal (.vsct o) 4 [.x o.a, .v o.b, .v (plain o.d)] w all (at' o.a.reg o.b w) (fun l => l.regs.v[o.d])
    ∧ VectorAddsGlobal (.vscta o) 4 [.x o.a, .v o.b, .v (plain o.d)] w all (at' o.a.reg o.b w) (fun l => l.regs.v[o.d])
      (sum (tyFmt o.ty)))
  ∧ (∀ o : VgthXOp, wf (.vgthX o) = true → VectorLoadsGlobal (.vgthX o) 8 [.x o.a, .v o.b] o.d (fmtWidth o.fmt)
      (fun l => getP l o.guard) (at' o.a.reg o.b (fmtWidth o.fmt)))
  ∧ (∀ o : VsctXOp, wf (.vsctX o) = true → VectorStoresGlobal (.vsctX o) 8 [.x o.a, .v o.b, .v o.c] (fmtWidth o.fmt)
      (fun l => getP l o.guard) (at' o.a.reg o.b (fmtWidth o.fmt)) (fun l => getV l o.c))
  ∧ ∀ o : VsctaXOp, wf (.vsctaX o) = true → VectorAddsGlobal (.vsctaX o) 8 [.x o.a, .v o.b, .v o.c] (fmtWidth o.fmt)
      (fun l => getP l o.guard) (at' o.a.reg o.b (fmtWidth o.fmt)) (fun l => getV l o.c) (sum o.fmt)

/-- R156, R153: AMO and CAS, on own LM at once and on global memory as long-latency producers: xd gets the old value, and
the word becomes the sum, the bitwise operation, the signed or unsigned minimum or maximum, or the new value; CAS writes
xc when the old value is xb. That poisoned global data leave the word as it is, is the model's reading (log entry 17). -/
def Obligations.Atomics : Prop :=
  let pre := fun (g : PReg) (l : Lane) => (getP l g).getLsbD 0 = true ∧ l.firing.spec = false
  let new := fun (op : AmoFn) (w old b : Nat) =>
    let x := BitVec.ofNat w old
    let y := BitVec.ofNat w b
    match op with
    | .add => (x + y).toNat
    | .and => (x &&& y).toNat
    | .or => (x ||| y).toNat
    | .xor => (x ^^^ y).toNat
    | .min => (if y.toInt < x.toInt then y else x).toNat
    | .max => (if x.toInt < y.toInt then y else x).toNat
    | .minu => min x.toNat y.toNat
    | .maxu => max x.toNat y.toNat
    | .swap => y.toNat
    | .faddF32 => scatterSum .f32 x.toNat y.toNat
    | .faddBf16x2 => scatterSum .bf16 (x.toNat % 65536) (y.toNat % 65536)
        + 65536 * scatterSum .bf16 (x.toNat / 65536) (y.toNat / 65536)
  (∀ o : AmoOp, wf (.amo o) = true →
    let w := if o.fmt = .bf16 then 32 else fmtWidth o.fmt
    let addr := fun l => getX l o.a.reg + o.off.signExtend 64 * BitVec.ofNat 64 (w / 8)
    let f := fun l old => new o.op w old (getX l o.b.reg).toNat
    AtomicLocal (.amo o) [.x o.a, .x o.b] o.d addr (w / 8) (o.fmt == .i32 || o.fmt == .i64) f (pre o.guard)
    ∧ AtomicGlobal (.amo o) [.x o.a, .x o.b] o.d addr (w / 8) (o.fmt == .i32 || o.fmt == .i64) f (pre o.guard))
  ∧ ∀ o : CasOp, wf (.cas o) = true →
    let w := fmtWidth o.fmt
    let addr := fun l => getX l o.a.reg + o.off.signExtend 64 * BitVec.ofNat 64 (w / 8)
    let f := fun l (old : Nat) => if BitVec.ofNat w old = (getX l o.b.reg).setWidth w then ((getX l o.c.reg).setWidth w).toNat else old
    AtomicLocal (.cas o) [.x o.a, .x o.b, .x o.c] o.d addr (w / 8) (o.fmt == .i32 || o.fmt == .i64) f (pre o.guard)
    ∧ AtomicGlobal (.cas o) [.x o.a, .x o.b, .x o.c] o.d addr (w / 8) (o.fmt == .i32 || o.fmt == .i64) f (pre o.guard)

/-- R138, R212, R152: where LD, ST and AMO trap, in the order of R138: own LM from the Attic on is protected; then alignment; a
poisoned word of own LM for a load; a global address without a translation; an address of no class that a lane may reach; and an
atomic on a page of type 10. -/
def Claims.AccessFaults : Prop :=
  (∀ s (o : LdOp), XReady (cur s) o.a → XFree (cur s) o.d →
    let n : Nat := match o.f.val with
      | 0 => 1 | 1 => 1 | 2 => 2 | 3 => 2 | 4 => 4 | 5 => 4 | _ => 8
    let a := getX (cur s) o.a.reg + o.imm.signExtend 64 * BitVec.ofNat 64 n
    let stops := fun (code : FaultCode) => exec (.ld o) s = .next (takeFault s code a)
    (∀ off, classOf s s.sched.core a = .ownLm off →
      (0x6C000 ≤ off → stops .lmProtection) ∧ (off < 0x6C000 → a.toNat % n ≠ 0 → stops .misaligned)
      ∧ (off < 0x6C000 → a.toNat % n = 0 → NoConflict s off n false → poisoned s (lmKey s.sched.core off) n = true → stops .poisoned))
    ∧ (∀ off, classOf s s.sched.core a = .shared off → a.toNat % n ≠ 0 → stops .misaligned)
    ∧ (a.toNat < 2 ^ 56 → (a.toNat % n ≠ 0 → stops .misaligned)
      ∧ (a.toNat % n = 0 → transWay s s.sched.core (ctxOf s s.sched.core (cur s)) a.toNat .load = .opened →
          translate s s.sched.core (ctxOf s s.sched.core (cur s)) a.toNat .load = none → stops .translation))
    ∧ (∀ e off, classOf s s.sched.core a = .otherLm e off → stops .address)
    ∧ (classOf s s.sched.core a = .unmapped → stops .address))
  ∧ (∀ s (o : StOp), XReady (cur s) o.a → XReady (cur s) (plain o.d) →
    let n : Nat := 2 ^ o.f.val
    let a := getX (cur s) o.a.reg + o.imm.signExtend 64 * BitVec.ofNat 64 n
    let stops := fun (code : FaultCode) => exec (.st o) s = .next (takeFault s code a)
    (∀ off, classOf s s.sched.core a = .ownLm off →
      (0x6C000 ≤ off → stops .lmProtection) ∧ (off < 0x6C000 → a.toNat % n ≠ 0 → stops .misaligned))
    ∧ (∀ off, classOf s s.sched.core a = .shared off → a.toNat % n ≠ 0 → stops .misaligned)
    ∧ (a.toNat < 2 ^ 56 → (a.toNat % n ≠ 0 → stops .misaligned)
      ∧ (a.toNat % n = 0 → transWay s s.sched.core (ctxOf s s.sched.core (cur s)) a.toNat .store = .opened →
          translate s s.sched.core (ctxOf s s.sched.core (cur s)) a.toNat .store = none → stops .translation))
    ∧ (∀ e off, classOf s s.sched.core a = .otherLm e off → stops .address)
    ∧ (classOf s s.sched.core a = .unmapped → stops .address))
  ∧ ∀ s (o : AmoOp) t pa de, (getP (cur s) o.guard).getLsbD 0 = true → (cur s).firing.spec = false → XReady (cur s) o.a →
    XReady (cur s) o.b → XFree (cur s) o.d → o.fmt = .ui64 → let a := getX (cur s) o.a.reg + o.off.signExtend 64 * 8
    a.toNat < 2 ^ 56 → a.toNat % 8 = 0 → transWay s s.sched.core (ctxOf s s.sched.core (cur s)) a.toNat .atomic = .opened →
    translate s s.sched.core (ctxOf s s.sched.core (cur s)) a.toNat .atomic = some (t, pa, 2, de) →
    exec (.amo o) s = .next (takeFault s .accessType a)

/-- R322 to R325, R328: what an access of a speculative task does at the line's home. A line's four signature bits are those of the
worked example, and a line that was inserted hits. On a page without DE or of another type the task waits until it is earliest;
alone in its domain, a read enters the line in the read signature, the first write of a line also logs the line's 64 bytes, and
the sixty-fifth written line waits; a later task that has read the line, and that an abort may reach, is aborted before the write. The undo
entries stand in the state and no byte of the undo region is written (log entry 26), and a task keeps the physical lines that it has read
beside its signature (log entry 55): both are the model's choices. -/
def Claims.OrderedAccess : Prop :=
  sigBits 0x40 = [1265, 1557, 178, 1071] ∧ sigBits 0x80 = [483, 1067, 357, 94] ∧ sigBits 0x100 = [966, 86, 714, 189]
  ∧ (∀ g va, sigHits (sigInsert g va) va = true) ∧ (∀ g va vb, sigHits g vb = true → sigHits (sigInsert g va) vb = true)
  ∧ ∀ s n (t : Task) va pa, taskOf s n = some t → t.spec = true →
    (∀ mt de w, de = false ∨ mt ≠ 0 → lineAccess s ⟨some n, none⟩ va pa mt de w = .error (.wait .earliest))
    ∧ (domainTasks s t.domain = [(n, t)] →
      (holder s t.domain (some va) (lineOf pa) false = none → lineAccess s ⟨some n, none⟩ va pa 0 true false
        = .ok (setTask s n { t with
            rsig := sigInsert t.rsig va
            rset := if t.rset.contains (lineOf va, lineOf pa) then t.rset else (lineOf va, lineOf pa) :: t.rset }))
      ∧ (holder s t.domain (some va) (lineOf pa) true = none →
        (lineOf pa ∉ t.wset → t.wset.length < 64 → lineAccess s ⟨some n, none⟩ va pa 0 true true
          = .ok (setTask s n { t with
              undo := (lineOf pa, memRead s.mem (lineOf pa) 64) :: t.undo
              wset := insertNat t.wset (lineOf pa), wsig := sigInsert t.wsig va }))
        ∧ (lineOf pa ∈ t.wset → lineAccess s ⟨some n, none⟩ va pa 0 true true = .ok (setTask s n t))
        ∧ (lineOf pa ∉ t.wset → 64 ≤ t.wset.length → lineAccess s ⟨some n, none⟩ va pa 0 true true = .error (.wait .earliest))))
    ∧ ∀ m (u : Task), m ≠ n → domainTasks s t.domain = [(n, t), (m, u)] → taskOf s m = some u → u.state = .running → spared s m u = false →
      taskKey t < taskKey u → sigHits u.rsig va = true → holder s t.domain (some va) (lineOf pa) true = none →
      lineOf pa ∉ t.wset → t.wset.length < 64 → lineAccess s ⟨some n, none⟩ va pa 0 true true
        = .ok (setTask (abortStep s m false) n { t with
            undo := (lineOf pa, memRead (abortStep s m false).mem (lineOf pa) 64) :: t.undo,
            wset := insertNat t.wset (lineOf pa), wsig := sigInsert t.wsig va })

/-- `Claims.AccessFaults` (R138, R212, R152); `Claims.OrderedAccess` (R322 to R325, R328). -/
def Obligations.AccessChecks : Prop := Claims.AccessFaults ∧ Claims.OrderedAccess

/-! ### Messages, tasks and streams -/

/-- R160 to R164: SEND, SENDV and SENDO. SEND's payload is one vector with xb in bytes 0 to 7; the others send registers vb,
vb+1, …; SENDO's destination owns the address in xd. -/
def Claims.SendInstructions : Prop :=
  (∀ o : S2, Sends (.send o) [.x o.a, .x o.b] o.a none (fun l => [(getX l o.b.reg).setWidth 1024]))
  ∧ (∀ o : SendvOp, Sends (.sendv o) (.x o.a :: payloadRun o.b o.n.val) o.a none (fun l =>
      (List.range o.n.val).map (fun i => getV l ⟨⟨(o.b.reg.val + i) % 32, Nat.mod_lt _ (by decide)⟩, o.b.last, o.b.trap⟩)))
  ∧ ∀ o : SendoOp, Sends (.sendo o) (.x o.a :: payloadRun o.b o.n.val ++ [.x (plain o.d)]) o.a (some o.d) (fun l =>
      (List.range o.n.val).map (fun i => getV l ⟨⟨(o.b.reg.val + i) % 32, Nat.mod_lt _ (by decide)⟩, o.b.last, o.b.trap⟩))

/-- R167 to R172: SPAWN queues its record; SPAWNC also adds 1 to its join counter and names the counter in the record; JOINAT
registers its record on a counter that is not zero, and spawns it at once on one that is. -/
def Claims.SpawnInstructions : Prop :=
  (∀ s (o : S1), VReady (cur s) o.b →
    let r := (getV (cur s) o.b).toNat % 2 ^ 512
    recordOk r = true → (curCore s).msg.spawnQ.length < 16 →
    ∃ t, exec (.spawn o) s = .next t ∧ cur t = retire 4 (kill (cur s) [.v o.b]) ∧ t.mem = s.mem
      ∧ (curCore t).msg.spawnQ = (curCore s).msg.spawnQ ++ [spawned s r false]
      ∧ t.sched.agenda = s.sched.agenda ++ [.due (.taskAccept s.sched.core)])
  ∧ (∀ s u key (o : S2), (cur s).firing.spec = false → XReady (cur s) o.a → VReady (cur s) o.b →
    let r := (getV (cur s) o.b).toNat % 2 ^ 512
    recordOk r = true → MemoryOk u → GlobalAt s u .atomic (fun mt => mt = 0) (getX (cur s) o.a.reg) 8 key →
    (curCore u).msg.spawnQ.length < 16 → (memRead u.mem key 8 + 1) % 2 ^ 64 ≠ 0 →
    ∃ t q, exec (.spawnc o) s = .next t ∧ Stored u t key 8 (memRead u.mem key 8 + 1)
      ∧ (curCore t).msg.spawnQ = (curCore u).msg.spawnQ ++ [q] ∧ t.pkg.joins = u.pkg.joins
      ∧ bits q.record 384 64 = (getX (cur s) o.a.reg).toNat ∧ bit q.record 468 = true
      ∧ (∀ b, b < 512 → b ≠ 468 → (b < 384 ∨ 448 ≤ b) → bit q.record b = bit r b)
      ∧ q.core = s.sched.core ∧ q.lane = s.sched.lane ∧ q.origin = (cur u).firing.task)
  ∧ ∀ s u key (o : S2), (cur s).firing.spec = false → XReady (cur s) o.a → VReady (cur s) o.b →
    let r := (getV (cur s) o.b).toNat % 2 ^ 512
    recordOk r = true → GlobalAt s u .atomic (fun mt => mt = 0) (getX (cur s) o.a.reg) 8 key →
    u.pkg.joins.length < 8192 →
    ∃ t, exec (.joinat o) s = .next t ∧ t.mem = u.mem ∧ cur t = retire 4 (kill (cur u) [.x o.a, .v o.b])
      ∧ (memRead u.mem key 8 ≠ 0 → t.pkg.joins = u.pkg.joins ++ [⟨key, spawned u r true⟩]
          ∧ (curCore t).msg.spawnQ = (curCore u).msg.spawnQ)
      ∧ (memRead u.mem key 8 = 0 → t.pkg.joins = u.pkg.joins
          ∧ (curCore t).msg.spawnQ = (curCore u).msg.spawnQ ++ [spawned u r true])

/-- `Claims.SendInstructions` (R160 to R164); `Claims.SpawnInstructions` (R167 to R172). -/
def Obligations.MessagesAndSpawns : Prop := Claims.SendInstructions ∧ Claims.SpawnInstructions

/-- R174, R175, R38, R326: TSRD gives the firing's timestamp. ABORTT and ABORTT.drop write 0 in a firing that is no speculative ordered
task, and in the earliest task of its domain, whose SPEC may still be 1, where R175 alone would abort it: no abort reaches it (R38, R326),
which is the model's reading (log entry 26). In any other speculative one, they end it by the abort step of R327. -/
def Claims.TimestampAndAbort : Prop :=
  ∀ o : D1, ResultX (.tsrd o) 4 [] o.d (fun l => l.firing.tstamp)
    ∧ ∀ s, (((cur s).firing.spec = false ∨ ∀ n t, (cur s).firing.task = some n → taskOf s n = some t → isEarliest s t = true) →
        XFree (cur s) o.d →
        exec (.abortt o) s = .next (after s 4 (putX (cur s) o.d 0))
        ∧ exec (.aborttDrop o) s = .next (after s 4 (putX (cur s) o.d 0)))
      ∧ ∀ n t, (cur s).firing.spec = true → (cur s).firing.task = some n → taskOf s n = some t → isEarliest s t = false →
        exec (.abortt o) s = .next (abortStep s n false) ∧ exec (.aborttDrop o) s = .next (abortStep s n true)

/-- R327, R175: the abort of a running task on which no other task depends and that has no children: its lane becomes Free,
its signatures, write set and held spawns are emptied, its domain counts the abort, and it is queued again, or finished with
no effect for ABORTT.drop. Unless a record of its quad must then be spilled (R320) or a write of the host has waited for it (R333), its
undo log is all that memory changes by, and no other task changes. That its lane is Free at once is the model's reading (log entry 26). -/
def Claims.AbortOfOneTask : Prop :=
  ∀ s n drop (t : Task), taskOf s n = some t → t.state = .running →
    (∀ e ∈ s.hearth.tasks, e.2.parent ≠ some n ∧ n ∉ e.2.deps) →
    let u := abortStep s n drop
    (drop = true ∨ (t.spilled = false ∧ queuedAt s t.quad false < 2048 ∧ recordsOf s t.quad t.domain true = []) →
      (∀ pa k v, Turn.due (.hostMemWrite pa k v) ∉ s.sched.agenda) → u.mem = applyUndo s.mem t.undo ∧ ∀ m, m ≠ n → taskOf u m = taskOf s m)
    ∧ (laneOf u t.core t.lane).status = .free ∧ (laneOf u t.core t.lane).firing.kind = .none
    ∧ (∃ t', taskOf u n = some t' ∧ t'.state = (if drop then TaskState.finished else TaskState.queued) ∧ t'.dropped = drop
        ∧ t'.undo = [] ∧ t'.wset = [] ∧ t'.rset = [] ∧ t'.deps = [] ∧ t'.rsig = 0 ∧ t'.wsig = 0 ∧ t'.held = [] ∧ t'.spec = true
        ∧ t'.ts = t.ts ∧ t'.tb = t.tb ∧ t'.record = t.record)
    ∧ ∀ k d, smGet s.hearth.domains k = some d → ∃ d', smGet u.hearth.domains k = some d' ∧
        d'.aborts = (if d.live = true ∧ d.id = t.domain then satInc d.aborts else d.aborts)

/-- `Claims.TimestampAndAbort` (R174, R175, R38, R326); `Claims.AbortOfOneTask` (R327, R175). -/
def Obligations.TimestampAndAborts : Prop := Claims.TimestampAndAbort ∧ Claims.AbortOfOneTask

/-- R176 to R178: RANGE sets NEXT and END, an empty range when xb is not above xa; CHUNK takes the lesser of what is asked and
what is left from the front, gives its start and size, and gives 0 and 0 from a register of another domain or not valid.
The registers lie in LM, and no byte outside them changes. -/
def Claims.RangeInstructions : Prop :=
  (∀ s (o : RangeOp), (cur s).firing.spec = false → MemoryOk s → XReady (cur s) o.a → XReady (cur s) o.b →
    (rangeGet s s.sched.core o.k.val).stealing = false → (cur s).firing.domain < 65536 →
    let a := getX (cur s) o.a.reg
    let b := getX (cur s) o.b.reg
    let r := rangeGet s s.sched.core o.k.val
    ∃ t, exec (.range o) s = .next t ∧ cur t = retire 4 (kill (cur s) [.x o.a, .x o.b]) ∧ MachineKept s t
      ∧ rangeGet t s.sched.core o.k.val = { r with
          next := a, stop := if a.toNat < b.toNat then b else a, grain := 1, domain := (cur s).firing.domain, valid := true }
      ∧ ∀ x, x < lmKey s.sched.core (0x7F000 + 32 * o.k.val) ∨ lmKey s.sched.core (0x7F000 + 32 * o.k.val) + 32 ≤ x →
          memGet t.mem x = memGet s.mem x)
  ∧ ∀ s (o : ChunkOp), (cur s).firing.spec = false → MemoryOk s → XReady (cur s) o.a → XFree (cur s) o.d → XFree (cur s) (o.d + 1) →
    (rangeGet s s.sched.core o.k.val).stealing = false →
    let r := rangeGet s s.sched.core o.k.val
    let n : X := if getX (cur s) o.a.reg = 0 then 1 else getX (cur s) o.a.reg
    let k := kill (cur s) [.x o.a]
    (r.valid = false ∨ r.domain ≠ (cur s).firing.domain →
      exec (.chunk o) s = .next (after s 4 (putX (putX k o.d 0) (o.d + 1) 0)))
    ∧ (r.valid = true → r.domain = (cur s).firing.domain →
      let c : X := if n.toNat ≤ (r.stop - r.next).toNat then n else r.stop - r.next
      ∃ t, exec (.chunk o) s = .next t ∧ cur t = retire 4 (putX (putX k o.d r.next) (o.d + 1) c) ∧ MachineKept s t
        ∧ rangeGet t s.sched.core o.k.val = { r with
            next := r.next + c, grain := BitVec.ofNat 32 (min n.toNat 0xFFFFFFFF) }
        ∧ ∀ x, x < lmKey s.sched.core (0x7F000 + 32 * o.k.val) ∨ lmKey s.sched.core (0x7F000 + 32 * o.k.val) + 32 ≤ x →
            memGet t.mem x = memGet s.mem x)

/-- R179, R180: STEAL of a register that holds elements answers their number at once; otherwise the lane waits and the first
victim is asked. A victim gives the upper half of its largest eligible range; the grant fills the thief's register and
completes the STEAL, and the last refusal completes it with 0. -/
def Claims.Stealing : Prop :=
  ∀ s (o : StealOp), (cur s).firing.spec = false → XFree (cur s) o.d → (rangeGet s s.sched.core o.k.val).stealing = false →
    let r := rangeGet s s.sched.core o.k.val
    let c := s.sched.core
    (r.next.toNat < r.stop.toNat → exec (.steal o) s = .next (after s 4 (putX (cur s) o.d (r.stop - r.next))))
    ∧ (r.stop.toNat ≤ r.next.toNat → MemoryOk s →
      ∃ t, exec (.steal o) s = .next t ∧ cur t = blocked (cur s) (.stealAnswer o.k.val o.d)
        ∧ rangeGet t c o.k.val = { r with stealing := true }
        ∧ (curCore t).msg.steals = (curCore s).msg.steals
            ++ [⟨s.sched.lane, o.k.val, (cur s).firing.domain, stealVictims s c (cur s).firing.domain, none⟩])
    ∧ (∀ v dom k a, MemoryOk s → eligibleRange s v dom = some (k, a) → 2 ≤ rangeLeft a → 2 * a.grain.toNat ≤ rangeLeft a →
      (quadOf s (quadNo v)).vacating = false →
      let mid := a.next + BitVec.ofNat 64 ((rangeLeft a + 1) / 2)
      (victimAnswer s v dom).2 = some (mid, a.stop, a.grain)
      ∧ rangeGet (victimAnswer s v dom).1 v k = { a with stop := mid, lent := satInc a.lent })
    ∧ ∀ core lane (q : StealReq) d, stealOf s core lane = some q → MemoryOk s → q.k < 4 → q.domain < 65536 →
      (laneOf s core lane).status = .blocked → (laneOf s core lane).wait = some (.stealAnswer q.k d) →
      (∀ x ∈ (coreOf s core).msg.steals, x.lane = lane → x = q) →
      let l := laneOf s core lane
      (∀ a b g, q.answer = some (some (a, b, g)) →
        ∃ t, exec (.stealAnswer core lane) s = .next t
          ∧ laneOf t core lane = retire 4 { putX l d (b - a) with status := .ready, wait := none }
          ∧ (rangeGet t core q.k).next = a ∧ (rangeGet t core q.k).stop = b ∧ (rangeGet t core q.k).valid = true
          ∧ (rangeGet t core q.k).domain = q.domain ∧ (rangeGet t core q.k).stealing = false)
      ∧ (q.answer = some none → q.victims = [] →
        ∃ t, exec (.stealAnswer core lane) s = .next t
          ∧ laneOf t core lane = retire 4 { putX l d 0 with status := .ready, wait := none }
          ∧ (rangeGet t core q.k).next = (rangeGet s core q.k).next ∧ (rangeGet t core q.k).stop = (rangeGet s core q.k).stop)
      ∧ (q.answer = none → ∀ v rest, q.victims = v :: rest →
        ∃ t a, exec (.stealRequest core lane) s = .next t
          ∧ stealOf t core lane = some { q with victims := rest, answer := some a })

/-- `Claims.RangeInstructions` (R176 to R178); `Claims.Stealing` (R179, R180). -/
def Obligations.RangesAndStealing : Prop := Claims.RangeInstructions ∧ Claims.Stealing

/-- R182 to R185, R187, R190: SBCFG, PUSH and POP of an own stream buffer, PUSH to another core as a message, ACTOR and HVW:
each writes exactly the LM bytes that its rule names, and every other byte reads as before. -/
def Obligations.StreamInstructions : Prop :=
  ∀ s, (cur s).firing.spec = false → MemoryOk s →
    let c := s.sched.core
    let l := cur s
    (∀ o : S2, XReady l o.a → XReady l o.b →
      let a := (getX l o.a.reg).toNat
      let b := (getX l o.b.reg).toNat
      let q : StreamBuf := ⟨0, 0, bits b 32 16, bits b 0 19, bits b 19 3⟩
      a < 16 → bits b 22 10 = 0 → bits b 48 16 = 0 → q.esz < 6 → q.base % (4 * 2 ^ q.esz) = 0 →
      q.base + q.size * (4 * 2 ^ q.esz) ≤ 0x6C000 →
      ∃ t, exec (.sbcfg o) s = .next t ∧ streamGet t c a = q
        ∧ ∀ x, x < lmKey c (0x7F100 + 32 * a) ∨ lmKey c (0x7F100 + 32 * a) + 32 ≤ x → memGet t.mem x = memGet s.mem x)
    ∧ (∀ o : S2, XReady l o.a → VReady l o.b → (getX l o.a.reg).toNat < 16 → (curCore s).eng.sb = [] →
      let b := (getX l o.a.reg).toNat
      let q := streamGet s c b
      let at' := q.base + q.tail % q.size * (4 * 2 ^ q.esz)
      streamCount q < q.size → q.base + q.size * (4 * 2 ^ q.esz) ≤ 0x6C000 →
      ∃ t, exec (.push o) s = .next t ∧ streamGet t c b = { q with tail := (q.tail + 1) % 2 ^ 32 }
        ∧ memRead t.mem (lmKey c at') (4 * 2 ^ q.esz) = (getV l o.b).toNat % 2 ^ (32 * 2 ^ q.esz)
        ∧ ∀ x, x < lmKey c at' ∨ lmKey c at' + 4 * 2 ^ q.esz ≤ x →
            x < lmKey c (0x7F100 + 32 * b) ∨ lmKey c (0x7F100 + 32 * b) + 32 ≤ x → memGet t.mem x = memGet s.mem x)
    ∧ (∀ o : S2, XReady l o.a → VReady l o.b →
      let a := (getX l o.a.reg).toNat
      bit a 28 = true → bits a 29 35 = 0 → bits a 4 12 = 0 → namesCore (bits a 16 12) = true → (curCore s).msg.sendQ.length < 32 →
      let k := (curCore s).msg
      let m : Message := ⟨bits a 16 12, 0, 0, false, k.sendSeq, c, s.sched.lane, (dieOf s (dieNo c)).inc, some (bits a 0 4),
        [getV l o.b], none, none, (launchOf s c l).map (·.1)⟩
      ∃ t, exec (.push o) s = .next t ∧ (curCore t).msg = { k with sendQ := k.sendQ ++ [.msg m], sendSeq := k.sendSeq + 1 }
        ∧ t.mem = s.mem)
    ∧ (∀ o : R2, XReady l o.a → VFree l o.d → (getX l o.a.reg).toNat < 16 → (curCore s).eng.sb = [] →
      let b := (getX l o.a.reg).toNat
      let q := streamGet s c b
      let at' := q.base + q.head % q.size * (4 * 2 ^ q.esz)
      q.size ≠ 0 → 0 < streamCount q → poisoned s (lmKey c at') (4 * 2 ^ q.esz) = false →
      ∃ t, exec (.pop o) s = .next t ∧ streamGet t c b = { q with head := (q.head + 1) % 2 ^ 32 }
        ∧ (cur t).regs.v[o.d] = BitVec.ofNat 1024 (memRead s.mem (lmKey c at') (4 * 2 ^ q.esz))
        ∧ ∀ x, x < lmKey c (0x7F100 + 32 * b) ∨ lmKey c (0x7F100 + 32 * b) + 32 ≤ x → memGet t.mem x = memGet s.mem x)
    ∧ (∀ o : S2, XReady l o.a → VReady l o.b →
      let a := (getX l o.a.reg).toNat
      let r := (getV l o.b).toNat % 2 ^ 512
      a < 16 → (bit r 52 = true → actorOk s c a r = true) →
      ∃ t, exec (.actor o) s = .next t ∧ Stored s t (lmKey c (0x7F400 + 64 * a)) 64 r
        ∧ ∀ n, n < 16 → smGet (curCore t).msg.actorWaiting n = match smGet (curCore s).msg.actorWaiting n with
            | some w => some w
            | none => if n ∉ (curCore s).msg.actorRunning ∧ actorReady t c (actorReg t c n) = true then some (actorReg t c n)
              else none)
    ∧ ∀ o : S2, XReady l o.a → VReady l o.b → (getX l o.a.reg).toNat < 256 →
      ∃ t, exec (.hvw o) s = .next t ∧ cur t = retire 4 (kill l [.x o.a, .v o.b]) ∧ MachineKept s t
        ∧ Stored s t (lmKey c (0x7E000 + 16 * (getX l o.a.reg).toNat)) 16 ((getV l o.b).toNat % 2 ^ 128)

/-! ### Barriers and engines -/

/-- R273 to R275: TXINIT, TXARR and TXEXP change exactly the 16 bytes of an own-LM barrier, at once, by the update and the
evaluation of R274; a barrier in global memory is updated when the update reaches its home. TXWAIT completes when the phase
has moved on or ERR is set and waits otherwise; TXTEST and TXTEST.err write all ones or 0 and do not wait. -/
def Claims.TransactionBarriers : Prop :=
  let sends := fun (i : Instr) (s u : State) (a : X) (key : Nat) (what : TxDo) =>
    (2 ^ 45 ≤ key → MemoryOk s → txUnderflow (memRead s.mem key 16) what = false →
      ∃ t, exec i s = .next t ∧ cur t = retire 8 (cur s) ∧ MachineKept s t
        ∧ Stored s t key 16 (txEvaluate (txApply (memRead s.mem key 16) what)))
    ∧ (key < 2 ^ 45 → ∃ t, exec i s = .next t ∧ cur t = retire 8 (cur u) ∧ t.mem = u.mem
        ∧ (curCore t).eng.tx = (curCore u).eng.tx ++ [⟨s.sched.lane, a, key, what,
            ⟨ctxOf u s.sched.core (cur u), (cur u).firing.task, ownerOf u (cur u).firing.task⟩⟩]
        ∧ t.sched.agenda = u.sched.agenda ++ [.due (.txBarrierUpdate s.sched.core)])
  (∀ s u key (o : TxinitOp), Ready (cur s) [.x (plain o.xb), .x (plain o.xn)] → BarrierAt s u true (getX (cur s) o.xb) key →
    (getX (cur s) o.xn).toNat < 2 ^ 16 →
    sends (.txinit o) s u (getX (cur s) o.xb) key (.init o.ph.toNat (getX (cur s) o.xn).toNat))
  ∧ (∀ s u key (o : TxarrOp), Ready (cur s) [.x (plain o.xb)] → BarrierAt s u true (getX (cur s) o.xb) key →
    sends (.txarr o) s u (getX (cur s) o.xb) key (.arrive o.n.toNat))
  ∧ (∀ s u key (o : TxexpOp), Ready (cur s) [.x (plain o.xb), .x (plain o.xn)] → BarrierAt s u true (getX (cur s) o.xb) key →
    sends (.txexp o) s u (getX (cur s) o.xb) key (.expect (bits (getX (cur s) o.xn).toNat 0 32 + o.n.toNat)))
  ∧ ∀ s u key (w : TxwaitOp) (p : TxtestOp) (e : TxtestErrOp),
    (∀ x ∈ (curCore u).eng.tx, x.lane ≠ s.sched.lane ∨ x.key ≠ key) →
    let b := memRead u.mem key 16
    (Ready (cur s) [.x (plain w.xb)] → BarrierAt s u false (getX (cur s) w.xb) key →
      (txPhase b ≠ w.ph.toNat ∨ txErr b = true → exec (.txwait w) s = .next (after u 8 (cur u)))
      ∧ (txPhase b = w.ph.toNat → txErr b = false → exec (.txwait w) s = .next (waiting s (.txPhase key w.ph.toNat))))
    ∧ (Ready (cur s) [.x (plain p.xb)] → BarrierAt s u false (getX (cur s) p.xb) key →
      exec (.txtest p) s = .next (after u 8 (putP (cur u) p.p (if txPhase b ≠ p.ph.toNat then 0xFFFFFFFF else 0))))
    ∧ (Ready (cur s) [.x (plain e.xb)] → BarrierAt s u false (getX (cur s) e.xb) key →
      exec (.txtestErr e) s = .next (after u 8 (putP (cur u) e.p (if txErr b = true then 0xFFFFFFFF else 0))))

/-- R273 to R275: the fields of a transaction barrier after each update, before and after the evaluation: TXINIT sets PHASE
and both arrival counts and clears the rest; an arrival subtracts from PARR; an expectation and a sector count change PSECT
modulo 2^32; when PARR and PSECT are both 0 the phase advances and PARR is EXPECT again. -/
def Claims.TransactionBarrierFields : Prop :=
  ∀ b ph n, b < 2 ^ 128 → ph < 16 → n < 2 ^ 16 →
    let c0 := txApply b (.init ph n)
    let c1 := txApply b (.arrive n)
    let c2 := txApply b (.expect n)
    let c3 := txSectors b n
    let c4 := txEvaluate b
    (txPhase c0 = ph ∧ txErr c0 = false ∧ txParr c0 = n ∧ txExpect c0 = n ∧ txPsect c0 = 0 ∧ txFail c0 = 0)
    ∧ (n ≤ txParr b → txParr c1 = txParr b - n ∧ txPsect c1 = txPsect b ∧ txPhase c1 = txPhase b ∧ txExpect c1 = txExpect b
        ∧ txErr c1 = txErr b)
    ∧ (txPsect c2 = (txPsect b + n) % 2 ^ 32 ∧ txParr c2 = txParr b ∧ txPhase c2 = txPhase b ∧ txErr c2 = txErr b)
    ∧ (txPsect c3 = (txPsect b + (2 ^ 32 - n)) % 2 ^ 32 ∧ txParr c3 = txParr b ∧ txPhase c3 = txPhase b)
    ∧ (txParr b = 0 → txPsect b = 0 → txPhase c4 = (txPhase b + 1) % 16 ∧ txParr c4 = txExpect b ∧ txExpect c4 = txExpect b
        ∧ txPsect c4 = 0 ∧ txErr c4 = txErr b)
    ∧ (txParr b ≠ 0 ∨ txPsect b ≠ 0 → txEvaluate b = b)

/-- `Claims.TransactionBarriers` (R273 to R275); `Claims.TransactionBarrierFields` (R273 to R275). -/
def Obligations.TransactionBarrierInstructions : Prop := Claims.TransactionBarriers ∧ Claims.TransactionBarrierFields

/-- R368 to R370: BAR, BARA and BARW at a core or quad barrier. The first arrival sets the count of arrivals; an arrival that
is not the last leaves BAR's lane waiting and completes BARA with the phase as it was; the last one advances the phase, which
BAR answers; BARW completes when the phase is no longer the one in xa[3:0]. A wrong count answers status 2. -/
def Claims.CoreAndQuadBarriers : Prop :=
  ∀ s (o : BarOp), (o.scope = .core ∨ o.scope = .quad) → (getP (cur s) o.guard).getLsbD 0 = true → (cur s).firing.spec = false →
    XReady (cur s) o.a → XFree (cur s) o.d →
    let c := s.sched.core
    let id := o.id.toNat
    let b := barrierOf s c o.scope id
    let a := (getX (cur s) o.a.reg).toNat
    let n := a % 2 ^ 16
    let k := kill (cur s) [.x o.a]
    let word := fun (status phase : Nat) => BitVec.ofNat 64 (status * 2 ^ 60 + phase)
    let limit := if o.scope = .core then 16 else 64
    let bad := n = 0 ∨ limit < n ∨ (0 < b.count ∧ n ≠ b.expect)
    (bad → exec (.bar o) s = .next (after s 8 (putX k o.d (word 2 0))) ∧ exec (.bara o) s = .next (after s 8 (putX k o.d (word 2 0))))
    ∧ (¬ bad → (cur s).lcnt = 0 → (cur s).scnt = 0 → b.phase < 16 →
      (b.count + 1 = n → ∃ t u, exec (.bar o) s = .next t ∧ exec (.bara o) s = .next u
        ∧ barrierOf t c o.scope id = ⟨(b.phase + 1) % 16, 0, n⟩ ∧ barrierOf u c o.scope id = ⟨(b.phase + 1) % 16, 0, n⟩
        ∧ cur t = retire 8 (putX k o.d (word 0 ((b.phase + 1) % 16))) ∧ cur u = retire 8 (putX k o.d (word 0 b.phase)))
      ∧ (b.count + 1 ≠ n → ∃ t u, exec (.bar o) s = .next t ∧ exec (.bara o) s = .next u
        ∧ barrierOf t c o.scope id = ⟨b.phase, b.count + 1, n⟩ ∧ barrierOf u c o.scope id = ⟨b.phase, b.count + 1, n⟩
        ∧ cur t = blocked k (.barrier o.scope (dieNo c) id b.phase o.d) ∧ cur u = retire 8 (putX k o.d (word 0 b.phase))))
    ∧ (b.phase < 16 → (b.phase ≠ a % 16 → exec (.barw o) s = .next (after s 8 (putX k o.d (word 0 b.phase))))
      ∧ (b.phase = a % 16 → exec (.barw o) s = .next (setCur s (blocked k (.barrier o.scope (dieNo c) id (a % 16) o.d)))))

/-- R368, R370: BAR, BARA and BARW at a barrier of a die, the package or the pod. One that is not granted answers status 1; the
last arrival of a die's or the package's barrier advances the phase; any other arrival is counted, and BAR waits; BARW waits
while the phase is the one in xa[3:0]. -/
def Claims.NetBarriers : Prop :=
  ∀ s (o : BarOp), (o.scope = .die ∨ o.scope = .pkg ∨ o.scope = .pod) → (getP (cur s) o.guard).getLsbD 0 = true →
    (cur s).firing.spec = false → XReady (cur s) o.a → XFree (cur s) o.d →
    let c := s.sched.core
    let id := o.id.toNat
    let b := barrierOf s c o.scope id
    let a := (getX (cur s) o.a.reg).toNat
    let k := kill (cur s) [.x o.a]
    let answer := fun (status phase : Nat) => retire 8 (putX k o.d (BitVec.ofNat 64 (status * 2 ^ 60 + phase)))
    (barrierGranted s o.scope id = false → exec (.bar o) s = .next (setCur s (answer 1 0)) ∧ exec (.bara o) s = .next (setCur s (answer 1 0))
      ∧ exec (.barw o) s = .next (setCur s (answer 1 0)))
    ∧ (barrierGranted s o.scope id = true → (cur s).lcnt = 0 → (cur s).scnt = 0 → b.phase < 16 →
      (b.count + 1 = b.expect → o.scope ≠ .pod → ∃ t u, exec (.bar o) s = .next t ∧ exec (.bara o) s = .next u
        ∧ barrierOf t c o.scope id = ⟨(b.phase + 1) % 16, 0, b.expect⟩ ∧ barrierOf u c o.scope id = ⟨(b.phase + 1) % 16, 0, b.expect⟩
        ∧ cur t = answer 0 ((b.phase + 1) % 16) ∧ cur u = answer 0 b.phase ∧ t.mem = s.mem ∧ u.mem = s.mem)
      ∧ ((b.count + 1 ≠ b.expect ∨ o.scope = .pod) → b.count ≠ b.expect → ∃ t u, exec (.bar o) s = .next t ∧ exec (.bara o) s = .next u
        ∧ barrierOf t c o.scope id = ⟨b.phase, b.count + 1, b.expect⟩ ∧ barrierOf u c o.scope id = ⟨b.phase, b.count + 1, b.expect⟩
        ∧ cur t = blocked k (.barrier o.scope (dieNo c) id b.phase o.d) ∧ cur u = answer 0 b.phase ∧ t.mem = s.mem ∧ u.mem = s.mem))
    ∧ (barrierGranted s o.scope id = true → b.phase < 16 →
      (b.phase ≠ a % 16 → exec (.barw o) s = .next (setCur s (answer 0 b.phase)))
      ∧ (b.phase = a % 16 → exec (.barw o) s = .next (setCur s (blocked k (.barrier o.scope (dieNo c) id (a % 16) o.d)))))

/-- `Claims.CoreAndQuadBarriers` (R368 to R370); `Claims.NetBarriers` (R368, R370). -/
def Obligations.Barriers : Prop := Claims.CoreAndQuadBarriers ∧ Claims.NetBarriers

/-- R277 to R282: the data movers. With readable operands, an LM start below the Attic, a valid record and a valid barrier
address or none, the command is accepted. -/
def Claims.DataMoversAccepted : Prop :=
  (∀ o : XcopyOp, let xl := if o.sb then none else some o.xl
    MoverAccepted (.xcopyIn o) (.copyIn o) o.xs o.xc o.xb xl none o.nosb true
    ∧ MoverAccepted (.xcopyOut o) (.copyOut o) o.xs o.xc o.xb xl none o.nosb true)
  ∧ (∀ o : XgatherOp, MoverAccepted (.xgather o) (.gather o) o.xs o.xc o.xb (some o.xl) (some o.xn) o.nosb false
    ∧ MoverAccepted (.xscatter o) (.scatter o) o.xs o.xc o.xb (some o.xl) (some o.xn) o.nosb false)
  ∧ (∀ o : XredOp, MoverAccepted (.xred o) (.red o) o.xs o.xc o.xb (if o.sb then none else some o.xl) none o.nosb false)
  ∧ (∀ o : XfillOp, MoverAccepted (.xfill o) (.fill o) o.xs o.xc o.xb none none o.nosb false)
  ∧ ∀ s u v w bar ra rb slot (o : XxOp), (cur s).firing.spec = false →
    PlainReady (cur s) (o.xs :: coordRegs o.xc ++ [o.xb] ++ [o.xn]) →
    recordAddr s (getX (cur s) o.xs) = .ok () → recordAddr s (getX (cur s) o.xn) = .ok () →
    barPlace s (getX (cur s) o.xb) = .ok (u, bar) →
    readRecord u s.sched.core (cur s) (getX (cur s) o.xs) = .ok (v, ra) →
    readRecord v s.sched.core (cur s) (getX (cur s) o.xn) = .ok (w, rb) →
    recordValid true ra = true → recordValid true rb = true → (shapeOf ra).fmt = (shapeOf rb).fmt →
    (shapeOf ra).rank = (shapeOf rb).rank →
    let op := newOp w (.copyXx o) (getX (cur s) o.xs) 0 (getX (cur s) o.xn) (getX (cur s) o.xb) (coordsOf (cur s) o.xc) ra rb bar
    acceptError w op = none → RoomFor w (if o.nosb then 0 else (moverEntries w op).length) slot → Accepts s (.xcopyXx o) w op slot

/-- R354, R355, R416, R417, R419, R420, R423: the bank operations, the pod operations, the collectives and the storage operations are
accepted when their operands pass the checks of their rules; a pod operation takes its target's package, and a collective those of its
other members, from the member table as it stands then. -/
def Claims.PackageOperationsAccepted : Prop :=
  (∀ s u bar slot (o : BopOp) (e : BvecOp) a b, (cur s).firing.spec = false → o.xs = e.xs → o.xn = e.xn → o.xb = e.xb → o.n = e.n →
    PlainReady (cur s) [o.xs, o.xb, o.xn] → sharedRange s (getX (cur s) o.xs) (o.n.toNat + 1) = .ok a →
    barPlace s (getX (cur s) o.xb) = .ok (u, bar) → RoomFor u 0 slot →
    let op := fun k => newOp u k (getX (cur s) o.xs) 0 (getX (cur s) o.xn) (getX (cur s) o.xb) [] 0 0 bar
    Accepts s (.bop o) u (op (.bop o)) slot
    ∧ (sharedRange s (getX (cur s) o.xn) (o.n.toNat + 1) = .ok b → (a = b ∨ a + 32 * (o.n.toNat + 1) ≤ b ∨ b + 32 * (o.n.toNat + 1) ≤ a) →
      Accepts s (.bvec e) u (op (.bvec e)) slot))
  ∧ (∀ s u bar slot (o : BredOp) a b, (cur s).firing.spec = false → PlainReady (cur s) [o.xs, o.xl, o.xb] →
    sharedRange s (getX (cur s) o.xs) (o.n.toNat + 1) = .ok a → lmRange s (getX (cur s) o.xl) (o.n.toNat + 1) = .ok b →
    barPlace s (getX (cur s) o.xb) = .ok (u, bar) → RoomFor u (if o.nosb then 0 else 1) slot →
    Accepts s (.bred o) u (newOp u (.bred o) (getX (cur s) o.xs) (getX (cur s) o.xl) 0 (getX (cur s) o.xb) [] 0 0 bar) slot)
  ∧ (∀ s u x bar slot i kind (xl xs xn xb : Reg) n nosb, (cur s).firing.spec = false → PlainReady (cur s) [xs, xl, xb, xn] →
    ((∃ o : GetOp, i = .get o ∧ kind = .get o ∧ xl = o.xl ∧ xs = o.xs ∧ xn = o.xn ∧ xb = o.xb ∧ n = o.n.toNat + 1 ∧ nosb = o.nosb)
      ∨ (∃ o : PutOp, i = .put o ∧ kind = .put o ∧ xl = o.xl ∧ xs = o.xs ∧ xn = o.xn ∧ xb = o.xb ∧ n = o.n.toNat + 1 ∧ nosb = o.nosb)
      ∨ ∃ o : RamoOp, i = .ramo o ∧ kind = .ramo o ∧ xl = o.xl ∧ xs = o.xs ∧ xn = o.xn ∧ xb = o.xb ∧ n = o.n.toNat + 1 ∧ nosb = o.nosb) →
    podLaunch s = .ok x → (getX (cur s) xn).toNat < 2 ^ 14 → localEnd s (getX (cur s) xl) n = .ok () →
    remoteEnd s (getX (cur s) xs) 32 = .ok () → barPlace s (getX (cur s) xb) = .ok (u, bar) →
    memberOk u x (getX (cur s) xn).toNat = true → RoomFor u (if nosb then 0 else 1) slot →
    Accepts s i u { newOp u kind (getX (cur s) xs) (getX (cur s) xl) (getX (cur s) xn) (getX (cur s) xb) [] 0 0 bar with
      peers := [memberPackage u x (getX (cur s) xn).toNat] } slot)
  ∧ (∀ s u v w x bar d ranks slot i (kind : EngKind) (o : CollOp), (cur s).firing.spec = false → PlainReady (cur s) [o.xs, o.xb] →
    ((i = .collAllred o ∧ kind = .allred o) ∨ (i = .collAllgth o ∧ kind = .allgth o) ∨ (i = .collRedsct o ∧ kind = .redsct o)
      ∨ (i = .collBar o ∧ kind = .cbar o)) →
    podLaunch s = .ok x → remoteEnd s (getX (cur s) o.xs) 64 = .ok () → barPlace s (getX (cur s) o.xb) = .ok (u, bar) →
    loadBytes u (getX (cur s) o.xs) 64 64 = .ok (v, d) → readRanks (bits d 256 16) v (bits d 192 64) = .ok (w, ranks) →
    collValid d (kind == .cbar o) ((ranks[bits d 272 16]?).getD 0) x.rank = true →
    let op := { newOp w kind (getX (cur s) o.xs) 0 0 (getX (cur s) o.xb) [] d 0 bar with
      peers := otherPackages w x ranks (bits d 272 16) }
    (∀ e ∈ collsInFlight w op.launch, collTag e.2.2.recA ≠ collTag d) → RoomFor w 0 slot → Accepts s i w op slot)
  ∧ ∀ s u v bar k slot (o : XblkOp), (cur s).firing.spec = false → recordAddr s (getX (cur s) o.xs) = .ok () →
    barPlace s (getX (cur s) o.xb) = .ok (u, bar) → recordPlace u s.sched.core (cur s) (getX (cur s) o.xs) = .ok (v, k) →
    let d := memRead v.mem k 64
    let a := getX (cur s) o.xl
    blkDescOk d = true → bits d 312 3 = dieNo s.sched.core → RoomFor v (if o.nosb then 0 else 1) slot →
    (PlainReady (cur s) [o.xs, o.xb] →
      Accepts s (.xblkFlush o) v (newOp v (.blkFlush o) (getX (cur s) o.xs) 0 0 (getX (cur s) o.xb) [] d 0 bar) slot)
    ∧ (PlainReady (cur s) [o.xs, o.xl, o.xb, o.xn] → a.toNat < 2 ^ 56 → a.toNat % 4 = 0 →
      (∀ x ∈ translate v s.sched.core (ctxOf v s.sched.core (cur v)) a.toNat .load, x.2.2.1 = 0) →
      ∀ i kind, (i = .xblkRd o ∧ kind = .blkRd o) ∨ (i = .xblkWr o ∧ kind = .blkWr o) →
        Accepts s i v (newOp v kind (getX (cur s) o.xs) a (getX (cur s) o.xn) (getX (cur s) o.xb) [] d 0 bar) slot)

/-- `Claims.DataMoversAccepted` (R277 to R282); `Claims.PackageOperationsAccepted` (R354, R355, R416, R417, R419, R420, R423). -/
def Obligations.EnginesAccept : Prop := Claims.DataMoversAccepted ∧ Claims.PackageOperationsAccepted

/-- R142, R281, R283, R289, R357, R418, R421, R424: an accepted operation starts when no earlier scoreboard entry conflicts; each sector
is performed and counted once, that of another package's only after it has left; an all-reduce writes what the member's own elements and
the others' come to; a sector that a home or a bank has applied, within its window of 64 beyond the lowest not yet counted,
is not applied again. That a pod sector leaves, in order, when its port's window has room is the model's reading (log entry 37), and what
floating sums of three members and more come to is open (log entry 4). -/
def Claims.EngineSectors : Prop :=
  ∀ s c slot op, engOp s c slot = some op →
    (op.state = .queued → mayStart (coreOf s c) op.sb = true → streamOk s c op = true → streamBusy s c slot op = false →
      startRoom s c op = true → wayOf op.kind ≠ .outside →
      ∃ t b, exec (.asyncOpStart c 0 slot) s = .next t ∧ t.mem = s.mem
        ∧ engOp t c slot = some { op with state := .running, sbase := b })
    ∧ (op.state = .queued → mayStart (coreOf s c) op.sb = false → exec (.asyncOpStart c 0 slot) s = .next s)
    ∧ ∀ q, op.state = .running → q < opSectors op → q ∉ op.counted →
      (wayOf op.kind = .engine → rowCount op.kind = 0 → secondPartHeld s c op q = false →
        ∀ u, performGroup c op s [q] = .ok (u, none) → ∀ data,
        ∃ t, exec (.engineSectorComplete c slot q data) s = .next t ∧ SectorCounted u t c slot op q)
      ∧ ((wayOf op.kind = .reduce ∨ wayOf op.kind = .bank) → sectorApplied s c slot op q = true → ∀ data,
        ∃ t, exec (.engineSectorComplete c slot q data) s = .next t ∧ SectorCounted s t c slot op q)
      ∧ (∀ o, op.kind = .get o → q < op.sent → ∀ u data, writeOutside s c op (op.xl.toNat + 32 * q) 32 data = .ok u →
        ∃ t, exec (.engineSectorComplete c slot q data) s = .next t ∧ SectorCounted u t c slot op q)
      ∧ (∀ o, op.kind = .put o → q < op.sent → ∀ u data, readOutside s c op q = .ok (u, none) →
        ∃ t, exec (.engineSectorComplete c slot q data) s = .next t ∧ SectorCounted u t c slot op q)
      ∧ (isPod op.kind = true → op.sent ≤ q → ∀ data, exec (.engineSectorComplete c slot q data) s = .next s)
      ∧ (∀ o, op.kind = .allred o → ∀ u v w data own n,
          n = collBytes op false o.fmt q → bits op.recA 64 64 + 32 * q + n ≤ 2 ^ 56 →
          ownBits s c op (256 * q) (min 256 (bits op.recA 128 32 * fmtWidth o.fmt - 256 * q)) = .ok (u, own, none) →
          v = reduced u op o.fmt o.op own (BitVec.toNat data) →
          writeOutside { u with sched := { u.sched with freeCtr := u.sched.freeCtr + bits op.recA 256 16 } } c op
            (bits op.recA 64 64 + 32 * q) n (BitVec.ofNat 256 v) = .ok w →
          ∃ t, exec (.engineSectorComplete c slot q data) s = .next t ∧ SectorCounted w t c slot op q)
      ∧ (wayOf op.kind = .reduce → sectorApplied s c slot op q = false →
        q ≤ ((List.range (opSectors op)).find? (fun k => !op.counted.contains k)).getD 0 + 64 →
        ∀ u, performGroup c op s [q] = .ok (u, none) →
        ∃ t, exec (.reduceSectorApply c slot q) s = .next t ∧ t.mem = u.mem ∧ sectorApplied t c slot op q = true)
      ∧ (wayOf op.kind = .bank → sectorApplied s c slot op q = false →
        q ≤ ((List.range (opSectors op)).find? (fun k => !op.counted.contains k)).getD 0 + 64 →
        let off := op.xs.toNat % 2 ^ 48 + 32 * q
        bankPending s c off op.seq = false → pathShared s (dieNo c) off = .opened → (bankSource s c op q).2 = none → MemoryOk s →
        ∃ t, exec (.bankSectorApply c slot q) s = .next t ∧ sectorApplied t c slot op q = true
          ∧ Stored s t (2 ^ 44 + off) 32 (bankResult op (memRead s.mem (2 ^ 44 + off) 32) (bankSource s c op q).1))
      ∧ (sectorApplied s c slot op q = true →
        (wayOf op.kind = .reduce → ∃ t, exec (.reduceSectorApply c slot q) s = .next t ∧ t.mem = s.mem)
        ∧ (wayOf op.kind = .bank → ∃ t, exec (.bankSectorApply c slot q) s = .next t ∧ t.mem = s.mem))

/-- R274, R284, R285, R333, R417, R421, R425: a barrier update that reaches its home performs there, and one that something holds stays on
its way; a supervisor's replay and fail of a suspended operation, a storage operation then issuing its commands; a completion entry frees
its slot; operations that get no answer end in error with their code. That the commands of a storage operation complete in the order of
their numbers is the model's choice (log entry 20). -/
def Claims.EngineEnds : Prop :=
  (∀ s c u rest, (coreOf s c).eng.tx = u :: rest →
    let left := onCore s c (fun k => { k with eng := { k.eng with tx := rest } })
    (∀ v, txReady left c u = .ok v → u.what ≠ .join → u.key ≠ voidKey → MemoryOk v →
      txUnderflow (memRead v.mem u.key 16) u.what = false →
      ∃ t, exec (.txBarrierUpdate c) s = .next t ∧ (coreOf t c).eng.tx = (coreOf v c).eng.tx
        ∧ Stored v t u.key 16 (txEvaluate (txApply (memRead v.mem u.key 16) u.what)))
    ∧ (∀ v, joinTry left c u.src u.addr = .ok v → u.what = .join → exec (.txBarrierUpdate c) s = .next v)
    ∧ ∀ w, txTry left c u = .error (.wait w) → rest = [] →
      ∃ t, exec (.txBarrierUpdate c) s = .next t ∧ t.mem = s.mem ∧ (coreOf t c).eng.tx = [u])
  ∧ ∀ s c slot op, engOp s c slot = some op →
    (∀ who, isSup who = true → dieNo who = dieNo c → op.state = .suspended →
      (let o := { op with state := .running, faulted := none, faultAt := 0 }
       ((∀ b, op.kind ≠ .blkRd b ∧ op.kind ≠ .blkWr b) →
          ∃ t, exec (.engctlReplay who c slot) s = .next t ∧ t.mem = s.mem ∧ engOp t c slot = some o)
       ∧ ∀ b, op.kind = .blkRd b ∨ op.kind = .blkWr b →
          exec (.engctlReplay who c slot) s = .next (startKind (setEngOp s c slot o) c slot o))
      ∧ ∃ t, exec (.engctlFail who c slot) s = .next t ∧ EndedInError s t c slot op .engineError)
    ∧ (op.state = .running → (∃ o, op.kind = .get o) ∨ (∃ o, op.kind = .put o) ∨ (∃ o, op.kind = .ramo o) →
      ∃ t, exec (.podOpTimeout c slot) s = .next t ∧ EndedInError s t c slot op .dieUnresponsive)
    ∧ (isColl op.kind = true → ∃ t, exec (.collTimeout c slot) s = .next t ∧ EndedInError s t c slot op .dieUnresponsive)
    ∧ (let q := blkQueue s (dieNo c) op.recA
       ∀ cid, q.inflight.find? (fun e => e.2 == (c, slot)) = some (cid, (c, slot)) →
        (∃ t, exec (.xblkTimeout c slot) s = .next t ∧ EndedInError s t c slot op .engineError)
        ∧ (∀ status, status ≠ 0 → ∃ t, exec (.nvmeCompletion c slot status) s = .next t ∧ EndedInError s t c slot op .engineError
            ∧ ∀ e ∈ (blkQueue t (dieNo c) op.recA).inflight, e.2 ≠ (c, slot))
        ∧ (op.counted.length + commandSectors op = opSectors op → 0 < commandSectors op →
          ∃ t, exec (.nvmeCompletion c slot 0) s = .next t ∧ engOp t c slot = none
            ∧ (blkQueue t (dieNo c) op.recA).head = (q.head + 1) % bits op.recA 288 16
            ∧ smGet (blkQueue t (dieNo c) op.recA).inflight cid = none))

/-- `Claims.EngineSectors` (R281, R283, R289, R357, R418, R421, R424); `Claims.EngineEnds` (R274, R284, R285, R333, R417, R421, R425). -/
def Obligations.EngineProgress : Prop := Claims.EngineSectors ∧ Claims.EngineEnds

/-- R421, R422, R289, R333, R366: a packet of another package's operation that is current, with its way open: a PUT sector is written at
the place its address translates to and a RAMO sector is combined there once, each answered as applied; a GET sector is answered with the
bytes there; on poisoned data a GET and a RAMO sector answer that it is poisoned, and that the RAMO sector then changes nothing is the
model's reading (log entry 17). A sector whose check fails is refused; one whose line a speculative task holds, or whose way leads over
a Drowsy or Waking flue, comes again, which is the model's reading too (log entry 24). A packet that is not current has no effect; an own
operation that a target refuses ends in error. -/
def Obligations.PodPackets : Prop :=
  ∀ s x (p : PodPacket), groupLaunch s p.group = some x →
    let answers := fun (t : State) (r : PodReply) => t.pkg.podAnswer = some ⟨p.src, p.opId, p.sector, r⟩
    (podCurrent s x p = false → exec (.podPacketReceive p) s = .next s)
    ∧ (podCurrent s x p = true →
      (∀ d u key, p.what = .put d → podWay s x .store p.addr = .opened → podHeld s x .store p.addr = none → podTarget s x .store p.addr = some (u, key) → MemoryOk u →
        ∃ t, exec (.podPacketReceive p) s = .next t ∧ Stored u t key 32 d.toNat ∧ answers t .applied)
      ∧ (∀ op f d u key, p.what = .ramo op f d → podWay s x .atomic p.addr = .opened → podHeld s x .atomic p.addr = none →
        podTarget s x .atomic p.addr = some (u, key) → MemoryOk u →
        let done := fun (v : State) => (smGetD v.pkg.applied (ramoId p) []).contains p.sector
        (done u = true → ∃ t, exec (.podPacketReceive p) s = .next t ∧ t.mem = u.mem ∧ answers t .applied)
        ∧ (done u = false → poisoned u key 32 = true → ∃ t, exec (.podPacketReceive p) s = .next t ∧ t.mem = u.mem ∧ answers t .poisoned)
        ∧ (done u = false → poisoned u key 32 = false → ∃ t, exec (.podPacketReceive p) s = .next t ∧ done t = true ∧ answers t .applied
            ∧ Stored u t key 32 (redSector op f (memRead u.mem key 32) d.toNat)))
      ∧ (p.what = .get → podWay s x .load p.addr = .opened → podHeld s x .load p.addr = none →
        (podTarget s x .load p.addr = none → ∃ t, exec (.podPacketReceive p) s = .next t ∧ t.mem = s.mem ∧ answers t .refused)
        ∧ ∀ u key, podTarget s x .load p.addr = some (u, key) → ∃ t, exec (.podPacketReceive p) s = .next t ∧ t.mem = u.mem
            ∧ t.hearth = s.hearth
            ∧ answers t (if poisoned u key 32 then .poisoned else .data (BitVec.ofNat 256 (memRead u.mem key 32))))
      ∧ (∀ line, p.what = .get → podWay s x .load p.addr = .opened → podHeld s x .load p.addr = some line →
          recallWaits s none line false = [] → exec (.podPacketReceive p) s = .next (dueEvent s (.podPacketReceive p line false)))
      ∧ (∀ f, p.what = .get → podWay s x .load p.addr = .waking f →
          exec (.podPacketReceive p) s = .next (dueEvent (wakeFlue s f) (.podPacketReceive p voidKey false)))
      ∧ ∀ c slot op, p.what = .refused → c = p.opId / 2 ^ 20 → slot = p.opId / 2 ^ 15 % 32 → engOp s c slot = some op →
          opId c slot op = p.opId → op.state = .running → p.sector < opSectors op → p.sector ∉ op.counted → isPod op.kind = true →
          p.sector < op.sent → ∃ t, exec (.podPacketReceive p) s = .next t ∧ EndedInError s t c slot op .engineError)

/-! ### Tiles and gangs -/

/-- R222 to R232: the tile instructions of a firing that owns a seat. TCFG clamps its rows and columns; TROW and TSETROW move one
row at once; MSK sets one mask; TLD, TST, TZERO, GACC and GACCZ enter the seat queue. -/
def Claims.TileInstructions : Prop :=
  ∀ s i, InSeat s i →
    let l := cur s
    let c := s.sched.core
    (∀ o : TcfgOp, PlainReady l [o.xa, o.xb] → ∃ t, exec (.tcfg o) s = .next t ∧ t.mem = s.mem ∧ cur t = retire 8 l
      ∧ (curCore t).stove.cfg[4 * i.val + o.ta.val]? = some ⟨o.fmt, min (max (getX l o.xa).toNat 1) 64,
          min (max (getX l o.xb).toNat 1) (if o.fmt = .lg6 then 168 else 1024 / fmtWidth o.fmt)⟩)
    ∧ (∀ o : TrowOp, PlainReady l [o.xa] → VFree l o.vd → (curCore s).eng.sb = [] →
      exec (.trow o) s = .next (after s 8 (putV l o.vd
        (BitVec.ofNat 1024 (memRead s.mem (tileKey c (4 * i.val + o.ta.val) (128 * ((getX l o.xa).toNat % 64))) 128)))))
    ∧ (∀ o : TsetrowOp, PlainReady l [o.xa] → VReady l o.vb → (curCore s).eng.sb = [] → MemoryOk s →
      ∃ t, exec (.tsetrow o) s = .next t ∧ cur t = retire 8 (kill l [.v o.vb])
        ∧ Stored s t (tileKey c (4 * i.val + o.ta.val) (128 * ((getX l o.xa).toNat % 64))) 128 (getV l o.vb).toNat)
    ∧ (∀ o : MskOp, PlainReady l [o.xa] →
      let m := (curCore s).stove.masks[i]
      let v := getX l o.xa
      ∃ t, exec (.msk o) s = .next t ∧ cur t = retire 8 l ∧ t.mem = s.mem
        ∧ (curCore t).stove.masks[i] = (if o.mask = 0 then { m with row := v }
            else if o.mask = 1 then { m with col := v &&& 0xFFFF } else { m with k := v }))
    ∧ (∀ (o : TldOp) off, PlainReady l [o.xa, o.xb] → SeatRoom s i o.nosb →
      let cfg := cfgOf (curCore s) (4 * i.val + o.ta.val)
      let st := (getX l o.xb).toNat
      classOf s c (getX l o.xa) = .ownLm off → off % 4 = 0 → st % 4 = 0 → st ≤ 0x7FFFF →
      off + (cfg.rows - 1) * st + rowBytes cfg - 1 < 0x6C000 →
      SeatQueued s (.tld o) i (.tld o) (getX l o.xa) (getX l o.xb) [] ∧ SeatQueued s (.tst o) i (.tst o) (getX l o.xa) (getX l o.xb) [])
    ∧ (∀ o : TzeroOp, SeatRoom s i o.nosb → SeatQueued s (.tzero o) i (.tzero o) 0 0 [])
    ∧ (∀ o : GaccOp, PlainReady l [o.xa] → SeatRoom s i o.nosb → SeatQueued s (.gacc o) i (.gacc o) (getX l o.xa) 0 [])
    ∧ (∀ o : GacczOp, l.firing.spec = false → SeatRoom s i o.nosb → SeatQueued s (.gaccz o) i (.gaccz o) 0 0 [])

/-- R227, R236 to R240: the gang instructions of a firing that owns a seat enter its queue; GMMAG reads its group table at
issue. The scale block of a GMMAS is as long as the pattern of the seat's last queued GWLD makes it, which is the model's reading (log
entry 19). -/
def Claims.GangInstructions : Prop :=
  ∀ s i, InSeat s i → (cur s).firing.spec = false →
    let l := cur s
    (∀ o : GwldOp, PlainReady l [o.xb] → SeatRoom s i o.nosb → ScalesOk s (o.pat.val == 0) o.fmt (getX l o.xb) (16 * fmtK o.fmt / 32) →
      SeatQueued s (.gwld o) i (.gwld o) 0 (getX l o.xb) [])
    ∧ (∀ o : GmmaOp, PlainReady l [o.xa, o.xb] → SeatRoom s i o.nosb →
      let feeds := s.sched.core % 4 == o.feeder.val
      let m := (getX l o.xa).toNat
      (ScalesOk s feeds o.fmt (getX l o.xb) (m * (fmtK o.fmt / 32)) → SeatQueued s (.gmma o) i (.gmma o) (getX l o.xa) (getX l o.xb) [])
      ∧ (ScalesOk s feeds o.fmt (getX l o.xb) (m * (expansion (queuedPattern (curCore s) i) * fmtK o.fmt / 32)) →
        SeatQueued s (.gmmas o) i (.gmmas o) (getX l o.xa) (getX l o.xb) []))
    ∧ ∀ (o : GmmagOp) off, PlainReady l [o.xa, o.xb] → SeatRoom s i o.nosb → (curCore s).eng.sb = [] →
      let n := 16 * (o.g.val + 1)
      let table := (List.range (o.g.val + 1)).map (fun k => memRead s.mem (lmKey s.sched.core (off + 16 * k)) 16)
      classOf s s.sched.core (getX l o.xa) = .ownLm off → off % 16 = 0 → off + n ≤ 0x6C000 →
      poisoned s (lmKey s.sched.core off) n = false → (∀ e ∈ table, entryOk o.fmt e = true) → (table.map entryRows).sum ≤ 64 →
      ScalesOk s (s.sched.core % 4 == o.feeder.val) o.fmt (getX l o.xb) ((table.map entryRows).sum * (fmtK o.fmt / 32)) →
      SeatQueued s (.gmmag o) i (.gmmag o) (getX l o.xa) (getX l o.xb) table

/-- `Claims.TileInstructions` (R222 to R232); `Claims.GangInstructions` (R227, R236 to R240). -/
def Obligations.SeatInstructions : Prop := Claims.TileInstructions ∧ Claims.GangInstructions

/-- R233 to R235, R247 to R249: a tile operation that may start runs; a gang instance that may start arrives at its barrier; four
arrived instances that agree and pass their checks form a gang in its turn. While a gang of the quad has formed and not taken effect no
other forms, nor does one before its turn; the gang that formed first takes effect and its instances leave their queues. A timeout
and an expiry end the wait for instances that do not come. -/
def Obligations.GangFormation : Prop :=
  (∀ s c (i : Fin 2) p, nextSeatOp (coreOf s c).stove.seats[i] = some p → p.held = none →
    aheadStarted (coreOf s c).stove.seats[i] = true → mayStart (coreOf s c) p.sb = true →
    (∀ x ∈ (coreOf s c).stove.seats[i], x.age = p.age → x = p) → (quadOf s (quadNo c)).opened = [] →
    ∃ t, exec (.asyncOpStart c (i.val + 1) p.age) s = .next t ∧ t.mem = s.mem
      ∧ { p with started := true, formed := !isGang p.kind } ∈ (coreOf t c).stove.seats[i]
      ∧ (isGang p.kind = false → .due (.tileOpComplete c i.val) ∈ t.sched.agenda)
      ∧ (isGang p.kind = true → isSup c = false → .due (.gangForm (quadNo c) i.val) ∈ t.sched.agenda))
  ∧ (∀ s q (i : Fin 2), (arrivedAll s q i).length = 4 → (quadOf s q).formed = [] →
    (formingSeats (noteForming s q i) q).head? = some i.val → gangCheck s q i (arrivedAll s q i) = none →
    ∃ t, exec (.gangForm q i.val) s = .next t ∧ t.mem = s.mem ∧ .due (.gangComplete q) ∈ t.sched.agenda
      ∧ (quadOf t q).formed = [(i.val, (arrivedAll s q i).map (fun e => e.2.age))])
  ∧ (∀ s q (i : Fin 2), (quadOf s q).formed ≠ [] ∨ (formingSeats (noteForming s q i) q).head? ≠ some i.val →
    ∃ t, exec (.gangForm q i.val) s = .next t ∧ t = noteForming s q i ∧ t.mem = s.mem ∧ t.cores = s.cores
      ∧ (quadOf t q).formed = (quadOf s q).formed)
  ∧ (∀ s q (i : Fin 2) (ages : List Nat) rest (p : Fin 4 → SeatOp), q < 640 → (quadOf s q).formed = (i.val, ages) :: rest →
    ages = [(p 0).age, (p 1).age, (p 2).age, (p 3).age] →
    (∀ j : Fin 4, (coreOf s (quadCore q j.val)).stove.seats[i].find? (fun x => x.age == (p j).age) = some (p j)) →
    ∃ t, exec (.gangComplete q) s = .next t ∧ (quadOf t q).formed = rest
      ∧ ∀ j : Fin 4, ∀ x ∈ (coreOf t (quadCore q j.val)).stove.seats[i], x.age ≠ (p j).age)
  ∧ (∀ s q (i : Fin 2), 0 < (arrivedAll s q i).length → (arrivedAll s q i).length < 4 →
    ∃ t, exec (.gangTimeout q i.val) s = .next t ∧ t.mem = s.mem
      ∧ bits ((quadOf t q).gstat[i]).toNat 0 32 = min (bits ((quadOf s q).gstat[i]).toNat 0 32 + 1) (2 ^ 32 - 1)
      ∧ bits ((quadOf t q).gstat[i]).toNat 44 4 = ((arrivedAll s q i).map (fun e => 2 ^ e.1)).sum)
  ∧ ∀ s q seat o, (quadOf s q).opened.find? (fun o => o.seat == seat) = some o →
    ∃ t, exec (.gangPositionExpiry q seat) s = .next t ∧ t.mem = s.mem
      ∧ (quadOf t q).opened = (quadOf s q).opened.filter (fun y => !(y.seat == seat && y.group == o.group))

/-- R229, R230, R243, R246: the oldest running tile operation of a seat takes effect and leaves the queue: TZERO clears its tile;
TLD reads the tile's rows from LM, and leaves the rows beyond the configured ones; GACCZ clears its accumulators. -/
def Claims.TileOperations : Prop :=
  ∀ s c (i : Fin 2) p, c < 4096 → MemoryOk s →
    (coreOf s c).stove.seats[i].find? (fun p => p.started && !isGang p.kind) = some p →
    ∃ t, exec (.tileOpComplete c i.val) s = .next t ∧ (∀ x ∈ (coreOf t c).stove.seats[i], x.age ≠ p.age)
      ∧ (∀ o, p.kind = .tzero o → ∀ r, r < 64 → tileRow t c (4 * i.val + o.ta.val) r = 0)
      ∧ (∀ o, p.kind = .tld o → p.cfg.rows ≤ 64 → rowBytes p.cfg ≤ 128 → p.xb.toNat ≤ 0x7FFFF → ∀ r, r < 64 →
          tileRow t c (4 * i.val + o.ta.val) r =
            (if r < p.cfg.rows then memRead s.mem (lmKey c (p.xa.toNat % 2 ^ 19 + r * p.xb.toNat)) (rowBytes p.cfg)
             else tileRow s c (4 * i.val + o.ta.val) r))
      ∧ (∀ o, p.kind = .gaccz o → ∀ a : Fin 4, o.mask.getLsbD a.val = true →
          (coreOf t c).stove.acc[a] = .none ∧ ∀ m n, m < 64 → n < 16 → memRead t.mem (cellKey c a.val m n) 8 = 0)

/-- R236, R238, R82: the effect of a gang. GWLD without scales latches the sixteen rows of each slice's tile; a dense GMMA
whose feeder reads no scales adds, in each selected cell of each slice, the products of the row's activations and the column's
weights, and leaves the cells that the masks do not select. -/
def Claims.GangEffect : Prop :=
  ∀ s q (i : Fin 2) (ages : List Nat) rest (p : Fin 4 → SeatOp), q < 640 → MemoryOk s → (quadOf s q).formed = (i.val, ages) :: rest →
    ages = [(p 0).age, (p 1).age, (p 2).age, (p 3).age] →
    (∀ j : Fin 4, (coreOf s (quadCore q j.val)).stove.seats[i].find? (fun x => x.age == (p j).age) = some (p j)) →
    ∃ t, exec (.gangComplete q) s = .next t ∧ (quadOf t q).formed = rest
      ∧ (∀ o : Fin 4 → GwldOp, (∀ j, (p j).kind = .gwld (o j) ∧ (o j).pat = 0 ∧ (p j).xb = 0) →
          ∀ j : Fin 4, (coreOf t (quadCore q j.val)).stove.weights[i] = ⟨some (o j).fmt, 0,
            (List.range 16).map (tileRow s (quadCore q j.val) (4 * i.val + (o j).ta.val)), []⟩)
      ∧ (∀ (o : Fin 4 → GmmaOp) (f : Fin 4) fa cls m, (∀ j, (p j).kind = .gmma (o j) ∧ (o j).fmt = fa ∧ (o j).feeder = f ∧ (p j).xa.toNat = m) →
          fmtClass fa = some cls → m ≤ 64 → (p f).xb = 0 →
          (∀ j : Fin 4, (coreOf s (quadCore q j.val)).stove.weights[i].pattern = 0
            ∧ (coreOf s (quadCore q j.val)).stove.acc[(o j).acc] = classKind cls) →
          ∀ (j : Fin 4) r n, r < 64 → n < 16 →
            let c := quadCore q j.val
            let w := (coreOf s c).stove.weights[i]
            let key := cellKey c (o j).acc.val r n
            let act := fun k => bits (tileRow s (quadCore q f.val) (4 * i.val + (o f).ta.val) r) (k * fmtWidth fa) (fmtWidth fa)
            let ps : List Product := (List.range (classK cls)).map (fun k =>
              if (p j).masks.k.getLsbD (64 * k / classK cls) = true then
                (weightAt w (w.fmt.getD fa) (classK cls) n k).map (fun x => (act k, 127, x.1, x.2)) else none)
            memRead t.mem key 8 =
              if r < m ∧ (p j).masks.row.getLsbD r = true ∧ (p j).masks.col.getLsbD n = true then
                accumulate cls fa (w.fmt.getD fa) (if (o j).z then 0 else memRead s.mem key 8) ps % 2 ^ 64
              else memRead s.mem key 8)

/-- `Claims.TileOperations` (R229, R230, R243, R246); `Claims.GangEffect` (R236, R238, R82). -/
def Obligations.SeatEffects : Prop := Claims.TileOperations ∧ Claims.GangEffect

/-! ### Neuron banks -/

/-- R204 to R209: EVCFG and EVWR write the 32 and 16 bytes that they name; EVRD and EVSTAT read; EVINJ queues an event with the
core's next event sequence number; EVFAN writes its bank's control register. Each is legal only in a firing of slot class 2. That EVSTAT's NEXT
of an empty queue reads 2^32, with its low bits 0, is the model's choice (log entry 60). -/
def Obligations.EventInstructions : Prop :=
  ∀ s, (cur s).firing.spec = false →
    let c := s.sched.core
    let l := cur s
    (l.firing.cls ≠ 2 →
      (∀ o, exec (.evcfg o) s = .next (takeFault s .illegal 0)) ∧ (∀ o, exec (.evinj o) s = .next (takeFault s .illegal 0))
      ∧ (∀ o, exec (.evrd o) s = .next (takeFault s .illegal 0)) ∧ (∀ o, exec (.evwr o) s = .next (takeFault s .illegal 0))
      ∧ (∀ o, exec (.evfan o) s = .next (takeFault s .illegal 0)) ∧ ∀ o, exec (.evstat o) s = .next (takeFault s .illegal 0))
    ∧ (l.firing.cls = 2 → MemoryOk s →
      (∀ o : EvcfgOp, VReady l o.a →
        let p := (getV l o.a).toNat % 2 ^ 256
        bits p 106 150 = 0 → bit p 95 = false →
        ∃ t, exec (.evcfg o) s = .next t ∧ cur t = retire 8 (kill l [.v o.a]) ∧ MachineKept s t
          ∧ Stored s t (lmKey c (0x7F800 + 32 * o.n.val)) 32 p)
      ∧ (∀ o : EvwrOp, XReady l o.a → VReady l o.b → (curCore s).ev.delivering = none →
        let n := (getX l o.a.reg).toNat
        let w := (getV l o.b).toNat % 2 ^ 128
        n < 2 ^ 13 → bits w 89 7 = 0 → bits w 80 8 ≤ 15 →
        ∃ t, exec (.evwr o) s = .next t ∧ cur t = retire 8 (kill l [.x o.a, .v o.b]) ∧ MachineKept s t
          ∧ Stored s t (bankKey c (16 * n)) 16 w)
      ∧ (∀ o : EvrdOp, XReady l o.a → VFree l o.d → (curCore s).ev.delivering = none → (getX l o.a.reg).toNat < 2 ^ 13 →
        exec (.evrd o) s = .next (after s 8 (putV (kill l [.x o.a]) o.d
          (BitVec.ofNat 1024 (memRead s.mem (bankKey c (16 * (getX l o.a.reg).toNat)) 16)))))
      ∧ (∀ o : EvstatOp, XReady l o.a → XFree l o.d → (getX l o.a.reg).toNat < 4 →
        let ev := (curCore s).ev
        let bank := (getX l o.a.reg).toNat
        let answers := fun (v : Nat) => exec (.evstat o) s = .next (after s 8 (putX (kill l [.x o.a]) o.d (BitVec.ofNat 64 v)))
        (o.sel = 0 → answers (ev.queue.length + ev.spill.length)) ∧ (o.sel = 1 → ev.queue = [] → ev.spill = [] → answers (2 ^ 32))
        ∧ (∀ e q, o.sel = 1 → ev.queue = e :: q → answers e.time)
        ∧ (∀ e k q, o.sel = 1 → ev.queue = [] → ev.spill = (e, k) :: q → answers e.time)
        ∧ (o.sel = 2 → answers (safeOf s c (bankDomain s c bank))) ∧ (o.sel = 3 → answers ev.deliv.toNat)
        ∧ (o.sel = 4 → answers ev.fired.toNat) ∧ (o.sel = 5 → answers ev.late.toNat) ∧ (o.sel = 6 → answers ev.drop.toNat)
        ∧ (o.sel = 7 → answers ev.fanerr.toNat) ∧ (o.sel = 8 → answers (bankCtl s c bank)))
      ∧ (∀ o : EvinjOp, XReady l o.a → XReady l o.b → XReady l o.c → (curCore s).msg.sendQ.length < 32 →
        let a := (getX l o.a.reg).toNat
        let b := (getX l o.b.reg).toNat
        a < 2 ^ 25 → b < 2 ^ 32 → namesCore (bits a 13 12) = true →
        let e : Event := ⟨(dieOf s (dieNo c)).inc, c, (curCore s).ev.evSeq, bits a 13 12, bits a 11 2, bits a 0 11,
          (getX l o.c.reg).setWidth 32, b, 0⟩
        ∃ t, exec (.evinj o) s = .next t ∧ cur t = retire 8 (kill l [.x o.a, .x o.b, .x o.c]) ∧ t.mem = s.mem
          ∧ (curCore t).msg.sendQ = (curCore s).msg.sendQ ++ [.ev e true]
          ∧ (curCore t).ev.evSeq = ((curCore s).ev.evSeq + 1) % 2 ^ 16)
      ∧ (∀ o : EvfanOp, XReady l o.a → XReady l o.b → (curCore s).ev.delivering = none →
        let a := (getX l o.a.reg).toNat
        let b := (getX l o.b.reg).toNat
        a < 2 ^ 19 → b < 2 ^ 17 → (bit b 16 = true → bindOk s a b = true) →
        ∃ t, exec (.evfan o) s = .next t ∧ cur t = retire 8 (kill l [.x o.a, .x o.b]) ∧ t.mem = s.mem
          ∧ (curCore t).ev.bankCtl[o.k] = BitVec.ofNat 64 (a + bits b 16 1 * 2 ^ 19 + bits b 0 16 * 2 ^ 48)))

/-- R197 to R203: an event is accepted in key order; the head is discarded, or delivered when its time is safe, one at a time; a
fire emits its fanout records one by one and then posts its message. That spilled events return together, in key order while the queue of
1,024 has room, and that a fire message follows the core's earlier messages to itself, is the model's reading (log entry 25). -/
def Claims.EventSteps : Prop :=
  ∀ s c, (∀ e q, (coreOf s c).ev.delivering = none → (coreOf s c).ev.queue = e :: q →
      (headDrops s c e = true → ∃ t, exec (.eventDiscard c) s = .next t ∧ t.mem = s.mem ∧ (coreOf t c).ev.queue = q
        ∧ (coreOf t c).ev.drop = satInc (coreOf s c).ev.drop)
      ∧ (headDrops s c e = false → e.time ≤ safeOf s c (bankDomain s c e.bank) → e.time < 2 ^ 32 → MemoryOk s →
        let st := neuronGet s c e.bank e.neuron
        let r := deliver st (paramGet s c (st.pset % 16)) e.time e.weight
        ∃ t, exec (.eventDelivery c) s = .next t ∧ (coreOf t c).ev.queue = q
          ∧ (coreOf t c).ev.deliv = (coreOf s c).ev.deliv + 1 ∧ neuronGet t c e.bank e.neuron = r.1
          ∧ (coreOf t c).ev.fired = (coreOf s c).ev.fired + (if r.2.isSome then 1 else 0)))
    ∧ ((coreOf s c).ev.queue.length ≤ 1024 →
      (∀ e ∈ (coreOf s c).ev.spill, ∀ a, spillAddr s e.1.domain e.2 = some a →
        stackWay s (dieNo c) a = .opened ∧ { eventOf (memRead s.mem a 32) with core := e.1.core } = e.1) →
      ∃ t, exec (.eventSpillReturn c) s = .next t ∧ t.mem = s.mem
      ∧ (coreOf t c).ev.queue ++ (coreOf t c).ev.spill.map (·.1) = (coreOf s c).ev.queue ++ (coreOf s c).ev.spill.map (·.1)
      ∧ ((coreOf s c).ev.spill ≠ [] → (coreOf t c).ev.queue.length = min 1024 ((coreOf s c).ev.queue.length + (coreOf s c).ev.spill.length)))
    ∧ (∀ d, (coreOf s c).ev.delivering = some d → 0 < d.left →
      let r := memRead s.mem (lmKey c d.next) 16
      let d' := { d with next := d.next + 16, left := d.left - 1 }
      (recordSkips d.next r d.time = true → ∃ t, exec (.fanoutEmit c) s = .next t ∧ t.mem = s.mem
        ∧ (coreOf t c).ev.fanerr = satInc (coreOf s c).ev.fanerr
        ∧ (coreOf t c).ev.delivering = (if d'.left = 0 ∧ d'.post = none then none else some d'))
      ∧ (recordSkips d.next r d.time = false → bits r 45 12 ≠ c → (coreOf s c).msg.sendQ.length < 32 →
        ∃ t e, exec (.fanoutEmit c) s = .next t ∧ t.mem = s.mem ∧ (coreOf t c).msg.sendQ = (coreOf s c).msg.sendQ ++ [.ev e false]
          ∧ e.core = bits r 45 12 ∧ e.bank = bits r 43 2 ∧ e.neuron = bits r 32 11 ∧ e.weight = BitVec.ofNat 32 r
          ∧ e.time = d.time + bits r 64 16 ∧ e.seq = (coreOf s c).ev.evSeq
          ∧ (coreOf t c).ev.delivering = (if d'.left = 0 ∧ d'.post = none then none else some d')))
    ∧ (∀ d ty v, (coreOf s c).ev.delivering = some d → d.left = 0 → d.post = some (ty, v) →
      channelHead s c c false = none → handlerOk (handlerEntry s c ty).1 = true →
      (coreOf s c).msg.arrival.length < 64 →
      ((coreOf s c).msg.arrival.map (fun x => x.payload.length)).sum + payloadKept (coreOf s c) < 128 →
      ∃ t m, exec (.fireMessagePost c) s = .next t ∧ t.mem = s.mem ∧ (coreOf t c).msg.arrival = (coreOf s c).msg.arrival ++ [m]
        ∧ m.type = ty ∧ m.flags = 0x80 ∧ m.src = c ∧ m.seq = (coreOf s c).msg.sendSeq ∧ (coreOf t c).ev.delivering = none)
    ∧ ∀ src ix e inj, channelHead s src c true = some (ix, .ev e inj) → e.inc = (dieOf s (dieNo src)).inc →
      (dieOf s (dieNo c)).rst = 0 → cannotArrive s src c = false → (coreOf s c).ev.spill = [] →
      (coreOf s c).ev.queue.length < 1024 → src ≠ c →
      ∃ t e', exec (.eventAccept src c) s = .next t ∧ t.mem = s.mem ∧ (coreOf t c).ev.queue = eventInsert id (coreOf s c).ev.queue e'
        ∧ e'.core = e.core ∧ e'.bank = e.bank ∧ e'.neuron = e.neuron ∧ e'.weight = e.weight ∧ e.time ≤ e'.time
        ∧ (coreOf t src).msg.sendQ = (coreOf s src).msg.sendQ.eraseIdx ix

/-- R200: one delivery to a neuron. The potential leaks, takes the weight and saturates; at or above the threshold and outside
its refractory time the neuron fires and takes its reset potential; without leak nothing is lost, and ROM[0] is 65,536. -/
def Claims.NeuronDelivery : Prop :=
  leakRom 0 = 65536
  ∧ (∀ (v : Int) dt, -(2 ^ 31) ≤ v → v < 2 ^ 31 → leaked v dt 0 = v)
  ∧ ∀ (st : Neuron) p time (w : BitVec 32), bits p 64 16 = 0 → -(2 ^ 31) ≤ st.v → st.v < 2 ^ 31 → st.rf = false →
    let sum := st.v + w.toInt
    let v := if sum < -(2 ^ 31) then -(2 ^ 31) else if 2 ^ 31 ≤ sum then 2 ^ 31 - 1 else sum
    let r := deliver st p time w
    r.1.tlast = max st.tlast time ∧ r.1.pset = st.pset
    ∧ (sgn 32 p ≤ v → r.2 = some v ∧ r.1.v = sgn 32 (bits p 32 32) ∧ r.1.fires = min (st.fires + 1) (2 ^ 32 - 1)
        ∧ r.1.rf = decide (bits p 80 15 ≠ 0))
    ∧ (v < sgn 32 p → r.2 = none ∧ r.1.v = v ∧ r.1.fires = st.fires ∧ r.1.rf = false)

/-- `Claims.EventSteps` (R197 to R203); `Claims.NeuronDelivery` (R200). -/
def Obligations.EventStepsAndNeurons : Prop := Claims.EventSteps ∧ Claims.NeuronDelivery

/-! ### Events of the machine -/

/-- R26, R149, R24, R32, R213, R218, R216, R17: a result arrives in its register and sets it full; a poisoned one is zero and
freezes the lane before its next issue; a store that has performed leaves scnt; a lane whose condition has cleared is Ready, a
Draining one with every register full is Free; a faulting lane with no result outstanding freezes; the oldest packet enters the
ring when it has room. That its slot is the tail modulo the ring's size, the tail itself running freely, is the model's choice (log entry
34), and so is that a slot past the end of LM wraps (log entry 59). -/
def Claims.LaneEvents : Prop :=
  ∀ s c l,
    let x := laneOf s c l
    (∀ ix r, x.results[ix]? = some r →
      let y := { x with results := x.results.eraseIdx ix, lcnt := if r.counted then x.lcnt - 1 else x.lcnt }
      (r.poisonAt = none → x.status ≠ .draining → x.frz.pending = none →
        exec (.resultArrival c l ix) s = .next (setLane s c l (fillDest y r.dest r.value)))
      ∧ (∀ a, r.poisonAt = some a → x.status ≠ .draining → x.frz.pending = none →
        ∃ t, exec (.resultArrival c l ix) s = .next t ∧ (laneOf t c l).regs = (fillDest y r.dest 0).regs
          ∧ (laneOf t c l).marks = (fillDest y r.dest 0).marks ∧ (laneOf t c l).frz.poisoned = some (x.frz.poisoned.getD (a, r.instr)))
      ∧ (∀ p, x.frz.pending = some p → x.results.length = 1 → x.status ≠ .draining → r.poisonAt = none →
        ∃ t, exec (.resultArrival c l ix) s = .next t ∧ laneOf t c l = fillDest y r.dest r.value
          ∧ .due (.faultFreeze c l) ∈ t.sched.agenda))
    ∧ exec (.storePerformed c l) s = .next (setLane s c l
        (if x.oldStores = 0 then { x with scnt := x.scnt - 1 } else { x with oldStores := x.oldStores - 1 }))
    ∧ (x.status = .ready → exec (.laneAged c l) s = .next (setLane s c l { x with aged := true, waitCount := max x.waitCount 64 }))
    ∧ (let ready := { x with status := .ready, wait := none, waitCount := 0 }
       (∀ r, x.status = .blocked → x.wait = some (.xfull r) → x.frz.pending = none →
          exec (.laneUnblock c l) s = .next (if r = 0 ∨ x.marks.xfull.getLsbD r.val = true then setLane s c l ready else s))
       ∧ (∀ r, x.status = .blocked → x.wait = some (.vfull r) → x.frz.pending = none →
          exec (.laneUnblock c l) s = .next (if x.marks.vfull.getLsbD r.val = true then setLane s c l ready else s))
       ∧ (∀ a b, x.status = .blocked → x.wait = some (.counters a b) → x.frz.pending = none →
          exec (.laneUnblock c l) s = .next (if x.lcnt ≤ a ∧ x.scnt ≤ b then setLane s c l ready else s))
       ∧ (∀ sc d id ph r, x.status = .blocked → x.wait = some (.barrier sc d id ph r) → x.frz.pending = none →
          let b := barrierOf s c sc id
          exec (.laneUnblock c l) s = .next (if b.phase ≠ ph then
            setLane s c l (retire 8 (putX ready r (BitVec.ofNat 64 (b.phase % 16)))) else s)))
    ∧ (x.status = .draining → x.marks.xfull ||| 1 = BitVec.allOnes 32 → x.marks.vfull = BitVec.allOnes 32 → x.firing.join = none →
        ∃ t, exec (.laneUnblock c l) s = .next t ∧ (laneOf t c l).status = .free ∧ t.mem = s.mem)
    ∧ (∀ p, x.frz.pending = some p → x.results = [] → x.status ≠ .frozen →
        ∃ t, exec (.faultFreeze c l) s = .next t ∧ (laneOf t c l).status = .frozen ∧ (laneOf t c l).frame.regs = x.regs
          ∧ t.mem = s.mem ∧ ∃ q, (dieOf t (dieNo c)).fpqWait = queuePacket (dieOf s (dieNo c)).fpqWait q ∧ q.code = p.code
            ∧ q.pc = p.pc ∧ q.addr = p.addr ∧ q.seq = (coreOf s c).ctl.faultSeq)
    ∧ (x.frz.pending = none → x.frz.frzreq = true → x.status = .ready → x.results = [] →
        ∃ t, exec (.faultFreeze c l) s = .next t ∧ (laneOf t c l).status = .frozen ∧ (laneOf t c l).frz.frzreq = false
          ∧ t.mem = s.mem ∧ ∃ q, (dieOf t (dieNo c)).fpqWait = queuePacket (dieOf s (dieNo c)).fpqWait q ∧ q.code = .comparator
            ∧ q.aux = 0xFF ∧ q.lane = l)
    ∧ ∀ d p rest,
        let e := dieOf s d
        e.fpqWait = p :: rest → MemoryOk s →
        let at' := lmKey (supCore d 0) ((e.fpqBase.toNat + 64 * (e.fpqTail % e.fpqSize)) % 2 ^ 19)
        (e.fpqSize ≠ 0 → (e.fpqTail + 2 ^ 32 - e.fpqHead) % 2 ^ 32 < e.fpqSize →
          ∃ t, exec (.faultRingWrite d) s = .next t ∧ Stored s t at' 64 (packetBytes p)
            ∧ dieOf t d = { e with fpqWait := rest, fpqTail := (e.fpqTail + 1) % 2 ^ 32 })
        ∧ (e.fpqSize = 0 ∨ e.fpqSize ≤ (e.fpqTail + 2 ^ 32 - e.fpqHead) % 2 ^ 32 → exec (.faultRingWrite d) s = .next s)

/-- R16, R17, R25, R443: the dispatcher starts the best waiting firing on the lowest Free lane: its registers are full and live, its
arguments stand in x1 to x5, SRSTATE is kept, and every other register is 0; with nothing that may start, nothing starts. That a core
whose launch is over its cap samples its clock first is the model's choice (log entry 7). -/
def Claims.Dispatch : Prop :=
  ∀ s c,
    let u := capClock (if isSup c then s else commitPressure s (quadNo c)) c
    (overCap (if isSup c then s else commitPressure s (quadNo c)) c = false → u = if isSup c then s else commitPressure s (quadNo c))
    ∧ (freeLaneOf (coreOf u c) = none ∨ coreHeld u c = true → exec (.dispatch c) s = .next u)
    ∧ ∀ l, freeLaneOf (coreOf u c) = some l → coreHeld u c = false →
      let best := bestBy (candBefore u c) ((candidates u c).filter (classOpen u c))
      let old := laneOf u c l
      (best = none → exec (.dispatch c) s = .next u)
      ∧ (∀ n k, best = some (.task n k) →
        ∃ t, exec (.dispatch c) s = .next t ∧ t.mem = u.mem
          ∧ (let x := laneOf t c l
             x.status = .ready ∧ x.pc = BitVec.ofNat 48 (recField k.record 8 0 48) ∧ x.sr = old.sr ∧ x.instcnt = 0
             ∧ x.marks = ⟨BitVec.allOnes 32, BitVec.allOnes 32, 0, 0⟩ ∧ x.lcnt = 0 ∧ x.scnt = 0 ∧ x.loop.len = 0
             ∧ (∀ r : Reg, x.regs.x[r] = if 1 ≤ r.val ∧ r.val ≤ 4 then BitVec.ofNat 64 (bits k.record (128 + 64 * r.val) 64)
                  else if r = 5 then BitVec.ofNat 64 (bits k.record 128 64) else 0)
             ∧ (∀ r : Reg, x.regs.v[r] = 0) ∧ (∀ p : PReg, x.regs.p[p] = if p = 0 then BitVec.allOnes 32 else 0)
             ∧ x.firing.domain = k.domain ∧ x.firing.cls = recField k.record 56 16 2 ∧ x.firing.prio = recField k.record 56 18 2
             ∧ x.firing.task = (if k.ordered then some n else none)))
      ∧ (∀ n r, best = some (.actor n r) → ∃ t, exec (.dispatch c) s = .next t ∧ t.mem = u.mem
          ∧ (let x := laneOf t c l
             x.status = .ready ∧ x.pc = BitVec.ofNat 48 (bits r 0 48) ∧ x.firing.kind = .actor ∧ x.firing.actor = n
             ∧ x.regs.x[(1 : Reg)] = BitVec.ofNat 64 (bits r 64 64) ∧ x.regs.x[(2 : Reg)] = BitVec.ofNat 64 n))
      ∧ (∀ ix m, best = some (.handler ix m) → handlerOk (handlerEntry u c m.type).1 = false →
          exec (.dispatch c) s = .next (discardMessage u c ix m))
      ∧ ∀ ix m, best = some (.handler ix m) → handlerOk (handlerEntry u c m.type).1 = true →
        ∃ t, exec (.dispatch c) s = .next t ∧ t.mem = u.mem ∧ (coreOf t c).msg.arrival = (coreOf u c).msg.arrival.eraseIdx ix
          ∧ (let x := laneOf t c l
             let e := handlerEntry u c m.type
             x.status = .ready ∧ x.pc = BitVec.ofNat 48 (bits e.1 0 48) ∧ x.firing.kind = .handler
             ∧ x.regs.x[(1 : Reg)] = BitVec.ofNat 64 e.2 ∧ x.regs.x[(2 : Reg)] = BitVec.ofNat 64 (m.src + m.srcLane * 2 ^ 12)
             ∧ x.regs.x[(3 : Reg)] = m.seq.setWidth 64 ∧ x.regs.x[(4 : Reg)] = BitVec.ofNat 64 (m.type + m.flags * 2 ^ 8))

/-- `Claims.LaneEvents` (R26, R149, R24, R32, R213, R218, R216, R17); `Claims.Dispatch` (R16, R17, R25, R443). -/
def Obligations.LanesAndDispatch : Prop := Claims.LaneEvents ∧ Claims.Dispatch

/-- R164, R185, R19, R320, R327, R333: a message whose handler entry is valid joins the arrival buffer when it has room, and is
offered again when it has none; one of an earlier incarnation is dropped; a remote push appends its element; a record reaches
its quad and is queued; spilled records return over an open way, and wake a Drowsy one; an abort step; a hold that has ended leaves
everything as it is. Where a spilled record lies (at 64 times its slot), which tasks no abort reaches and when an access counts as held
are the model's choice (log entry 26), and so is that a message waits while its core's contents are out (log entry 33). -/
def Obligations.MessageAndTaskEvents : Prop :=
  (∀ s src dst ix (m : Message), channelHead s src dst false = some (ix, .msg m) →
    (m.push = none →
      (m.inc ≠ (dieOf s (dieNo m.src)).inc → ∃ t, exec (.messageAccept src dst) s = .next t ∧ t.mem = s.mem
        ∧ (coreOf t src).msg.sendQ = (coreOf s src).msg.sendQ.eraseIdx ix ∧ ∀ c, (coreOf t c).msg.arrival = (coreOf s c).msg.arrival)
      ∧ (m.inc = (dieOf s (dieNo m.src)).inc → (dieOf s (dieNo m.dest)).rst = 0 →
        let k := (coreOf s m.dest).msg
        let room := turnedAway s src m = false ∧ k.arrival.length < 64
          ∧ (k.arrival.map (fun x => x.payload.length)).sum + payloadKept (coreOf s m.dest) + m.payload.length ≤ 128
        (room → handlerOk (handlerEntry s m.dest m.type).1 = true → ∃ t, exec (.messageAccept src dst) s = .next t ∧ t.mem = s.mem
          ∧ (coreOf t m.dest).msg.arrival = k.arrival ++ [m] ∧ (coreOf t src).msg.sendQ = (coreOf s src).msg.sendQ.eraseIdx ix)
        ∧ (room → handlerOk (handlerEntry s m.dest m.type).1 = true → channelHead s src dst true = none →
          ∃ t, exec (.sendQueueReoffer src dst) s = .next t ∧ t.mem = s.mem ∧ (coreOf t m.dest).msg.arrival = k.arrival ++ [m]
            ∧ (coreOf t src).msg.sendQ = (coreOf s src).msg.sendQ.eraseIdx ix)
        ∧ (¬ room → ∃ t, exec (.messageAccept src dst) s = .next t ∧ t.cores = s.cores ∧ t.mem = s.mem
          ∧ .due (.sendQueueReoffer src m.dest) ∈ t.sched.agenda)))
    ∧ ∀ b, m.push = some b → b < 16 → m.inc = (dieOf s (dieNo m.src)).inc → (dieOf s (dieNo m.dest)).rst = 0 → MemoryOk s →
      turnedAway s src m = false → (coreOf s m.dest).eng.sb = [] →
      let q := streamGet s m.dest b
      let at' := lmKey m.dest (elemAt q q.tail)
      q.size ≠ 0 → streamCount q < q.size → q.base + q.size * esize q ≤ 0x6C000 →
      ∃ t, exec (.remotePushAccept src dst) s = .next t ∧ streamGet t m.dest b = { q with tail := (q.tail + 1) % 2 ^ 32 }
        ∧ memRead t.mem at' (esize q) = ((m.payload.head?).getD 0).toNat % 2 ^ (8 * esize q)
        ∧ (coreOf t src).msg.sendQ = (coreOf s src).msg.sendQ.eraseIdx ix)
  ∧ (∀ s src dst, channelHead s src dst false = none → channelHead s src dst true = none →
      exec (.sendQueueReoffer src dst) s = .next s ∧ exec (.messageAccept src dst) s = .next s)
  ∧ (∀ s core q rest slot d quad, core ≠ 0xFFF → (coreOf s core).msg.spawnQ = q :: rest → q.host = false → q.parent = none →
    domainOf s (recField q.record 56 0 16) = some (slot, d) → q.launch = some d.launch → recordOk q.record = true →
    d.ordered = false → placeQuad s d (some (dieNo q.core)) (recField q.record 16 0 64) = some quad → queuedAt s quad false < 2048 →
    recordsOf s quad d.id true = [] →
    ∃ t x, exec (.taskAccept core) s = .next t ∧ (coreOf t core).msg.spawnQ = rest ∧ t.mem = s.mem
      ∧ taskOf t s.hearth.nextTask = some x ∧ t.hearth.nextTask = s.hearth.nextTask + 1
      ∧ x.record = putBits q.record 480 32 0 ∧ x.state = .queued ∧ x.quad = quad ∧ x.domain = d.id ∧ x.ordered = false
      ∧ x.ts = BitVec.ofNat 64 (recField q.record 0 0 64)
      ∧ x.join = (if bit q.record 468 then some (BitVec.ofNat 64 (bits q.record 384 64)) else none))
  ∧ (∀ s quad, (∃ t, exec (.taskSpillReturn quad) s = .next t ∧ t.mem = s.mem ∧ t.cores = s.cores)
      ∧ (2048 ≤ queuedAt s quad false ∨ nextSpilled s quad = none → exec (.taskSpillReturn quad) s = .next s)
      ∧ (∀ i x slot d f, queuedAt s quad false < 2048 → nextSpilled s quad = some (i, x, slot, d) → spillWay s d quad x.slot = .waking f →
        exec (.taskSpillReturn quad) s = .next (dueEvent (wakeFlue s f) (.taskSpillReturn quad)))
      ∧ ∀ i x slot d, queuedAt s quad false < 2048 → nextSpilled s quad = some (i, x, slot, d) → spillWay s d quad x.slot = .opened →
        ∃ u, u.mem = s.mem ∧ u.cores = s.cores ∧ (∀ j, j ≠ i → taskOf u j = taskOf s j)
          ∧ taskOf u i = some { x with spilled := false, record := memRead s.mem (d.tspill.toNat + 64 * x.slot) 64 }
          ∧ smGet u.hearth.domains slot = some { d with spillf := false }
          ∧ exec (.taskSpillReturn quad) s = .next (unspill quad (s.hearth.tasks.length - 1) u))
  ∧ (∀ s n x, taskOf s n = some x →
      (x.ordered = true → x.spec = true → x.state ≠ .queued → spared s n x = false → abortCause s n x = true →
        exec (.taskAbort n) s = .next (abortStep s n false))
      ∧ (x.spec = false ∨ x.state = .queued ∨ spared s n x = true ∨ abortCause s n x = false → exec (.taskAbort n) s = .next s))
  ∧ ∀ s c l, (heldAccess s c l = none → exec (.holdTimeout c l) s = .next s)
    ∧ ∀ h, heldAccess s c l = some h →
      let holds := fun (u : State) => u.hearth.tasks.find? (fun e =>
        holdsLine h.dom (h.va.elim (virtualsOf u h.line) (fun a => [a])) h.line h.write e.2 && !spared u e.1 e.2)
      (holds s = none → exec (.holdTimeout c l) s = .next s)
      ∧ ∀ e, holds s = some e → holds (abortStep s e.1 false) = none →
        exec (.holdTimeout c l) s = .next (abortStep s e.1 false)

/-- R255 to R257, R264, R353, R366, R410: a request gives its core the tokens that its access needs (all 512 with the owner token for a
write) when the die is granted the line, and stays otherwise; a failed attempt is counted up to 8; after eight the request
joins its slice's table in order of arrival, is active when it is its line's oldest there, and leaves when its access has performed; the
directory grants a line for writing to one die alone, and takes it back, over a flue that it wakes; the host gives up its copy. None of
these changes a byte of memory. A page walk of a core, under the context of the launch that holds it, writes at most the entry of its
table that it touches. That a walk on a core of no launch takes the firmware's context is the model's reading (log entry 6), and that a
request stays while a lane has yet to make its access too (log entry 28). -/
def Obligations.TokenProtocol : Prop :=
  ∀ s,
    (∀ c line, lineCore c line = true →
      let d := dieNo c
      let t0 := tokensOf s d line
      (dieCan s d line true = true → activeAsk s d line = none → ∃ t, exec (.transientRequest c line true) s = .next t ∧ t.mem = s.mem
        ∧ (tokensOf t d line).owner = some c ∧ (tokensOf t d line).caches = [(c, 512)] ∧ (tokensOf t d line).home = 0)
      ∧ (dieCan s d line false = true → activeAsk s d line = none → 1 ≤ t0.home → ∃ t, exec (.transientRequest c line false) s = .next t
        ∧ t.mem = s.mem ∧ 1 ≤ smGetD (tokensOf t d line).caches c 0)
      ∧ (∀ w, dieCan s d line w = false → asks t0.transient c = false → persists s c line = false →
        ∃ t, exec (.transientRequest c line w) s = .next t ∧ t.mem = s.mem ∧ tokensOf t d line = { t0 with transient := t0.transient ++ [⟨c, w, 0⟩] })
      ∧ (asks t0.transient c = true → ∃ t, exec (.transientTimeout c line) s = .next t ∧ t.mem = s.mem
        ∧ (tokensOf t d line).transient = t0.transient.map (fun r => if r.core = c then { r with attempts := min 8 (r.attempts + 1) } else r))
      ∧ (∀ r, t0.transient.find? (fun r => r.core == c && decide (8 ≤ r.attempts)) = some r →
        ∃ t, exec (.persistentRequest c line) s = .next t ∧ t.mem = s.mem
          ∧ asksOf t d line = asksOf s d line ++ [⟨line, some c, r.write⟩]
          ∧ (tokensOf t d line).transient = t0.transient.filter (fun x => x.core ≠ c)
          ∧ (activeAsk s d line = none → (asksOf s d line).length < 64 → activeAsk t d line = some ⟨line, some c, r.write⟩)))
    ∧ (∀ d line l c w, activeAsk s d line = some ⟨l, some c, w⟩ → (∀ r ∈ asksOf s d line, r.core.isSome = true) →
      (laneAsks s c line = true → exec (.persistentDeactivate d line) s = .next (dueEvent s (.persistentDeactivate d line)))
      ∧ (laneAsks s c line = false → dieCan s d line w = true → ∃ t, exec (.persistentDeactivate d line) s = .next t ∧ t.mem = s.mem
        ∧ asksOf t d line = (asksOf s d line).eraseP (· == ⟨l, some c, w⟩))
      ∧ (laneAsks s c line = false → dieCan s d line w = false → exec (.persistentDeactivate d line) s = .next s))
    ∧ (∀ d line w, d < 8 → line < 2 ^ 40 → line % 64 = 0 → (dieOf s d).rst ≠ 2 → dieCan s d line w = false →
      (∀ f, pathPhys s d line 0 w = .waking f →
        exec (.directoryRequest d line w) s = .next (dueEvent (wakeFlue s f) (.directoryRequest d line w)))
      ∧ (pathPhys s d line 0 w = .opened → recallWaits s (some d) line w = [] →
        activeAsk s d line = none → ∃ t, exec (.directoryRequest d line w) s = .next t ∧ t.mem = s.mem
        ∧ (tokensOf t d line).granted = true ∧ d ∈ (directoryOf t line).dies
        ∧ (w = true → directoryOf t line = ⟨[d], true, false, some d⟩
          ∧ (directoryOf (roomL2 s d line) line = directoryOf s line →
            ∀ e, e ≠ d → e ∈ (directoryOf s line).dies → (tokensOf t e line).granted = false))))
    ∧ (∀ d line, (tokensOf s d line).granted = true → flueOpen s d .opened = .opened → askRuns s d line = false →
      (∃ t, exec (.directoryRecall d line true) s = .next t ∧ t.mem = s.mem ∧ (tokensOf t d line).granted = false
        ∧ d ∉ (directoryOf t line).dies)
      ∧ ∃ t, exec (.directoryRecall d line false) s = .next t ∧ t.mem = s.mem ∧ (tokensOf t d line).granted = true
        ∧ (tokensOf t d line).dirty = false ∧ (directoryOf t line).exclusive = false)
    ∧ (∀ line, line < 2 ^ 40 → (directoryOf s (lineOf line)).host = true →
      ∃ t, exec (.backInvalidate line) s = .next t ∧ t.mem = s.mem ∧ (directoryOf t (lineOf line)).host = false)
    ∧ ∀ c va acc ctx, (launchAt s c).elim s.sched.fwCtx (fun x => some (ctxOnDie x.2 (dieNo c))) = some ctx → namesCore c = true →
      va.toNat < 2 ^ 56 →
      (walkWay s c ctx va.toNat ≠ .opened ∨ pageWalk s c ctx va.toNat acc = none → exec (.pageWalkComplete c va acc) s = .next s)
      ∧ ∀ u e, walkWay s c ctx va.toNat = .opened → pageWalk s c ctx va.toNat acc = some (u, e) → exec (.pageWalkComplete c va acc) s = .next u
        ∧ ∃ root lvl at' p, ctxRoot s (dieNo c) ctx = some root ∧ walkFrom s.mem va.toNat acc 4 1 root = some (lvl, at', p)
          ∧ (u.mem = s.mem ∨ u.mem = memWrite s.mem at' 8 (pteTouched p acc))

/-- R216, R217, R218, R371, R427: a supervisor of the die holds dispatch, freezes and flushes lanes, and writes the frames of
Frozen lanes; a forced barrier advances and its waiters are released with status 3; what others write is ignored. That RCFLUSH writes back
every lane but a Frozen one, a Free one too, is the model's reading (log entry 36); that FORCE leaves PCOUNT, and that a release of a pod
barrier whose own arrivals are not complete is ignored, are its reading too (log entry 27). -/
def Claims.SupervisorWindows : Prop :=
  ∀ s who c,
    (reachesCore who c = false → ∀ l h off n v, exec (.cctlHold who c h) s = .next s ∧ exec (.cctlFrzall who c) s = .next s
      ∧ exec (.cctlRcflush who c) s = .next s ∧ exec (.lctlFrzreq who c l h) s = .next s
      ∧ exec (.debugFrameWrite who c l off n v) s = .next s)
    ∧ (reachesCore who c = true →
      (∀ h, ∃ t, exec (.cctlHold who c h) s = .next t ∧ (coreOf t c).ctl.hold = h ∧ t.mem = s.mem ∧ ∀ l, laneOf t c l = laneOf s c l)
      ∧ (∃ t, exec (.cctlRcflush who c) s = .next t ∧ t.mem = s.mem ∧ ∀ l, let x := laneOf s c l
          laneOf t c l = if x.status = .frozen then x else { x with frame := ⟨x.regs, laneState x, false⟩ })
      ∧ (∃ t, exec (.cctlFrzall who c) s = .next t ∧ t.mem = s.mem ∧ ∀ l, let x := laneOf s c l
          laneOf t c l = { x with frz := { x.frz with frzreq := decide (x.status ≠ .free ∧ x.status ≠ .draining) } })
      ∧ (∀ l req, l < 16 → ∃ t, exec (.lctlFrzreq who c l req) s = .next t ∧ t.mem = s.mem ∧
          let x := laneOf s c l
          laneOf t c l = { x with frz := { x.frz with frzreq := req && decide (x.status ≠ .free ∧ x.status ≠ .draining) } })
      ∧ (∀ l off n v, l < 16 → (laneOf s c l).status ≠ .frozen → exec (.debugFrameWrite who c l off n v) s = .next s)
      ∧ ∀ l v, l < 16 → (laneOf s c l).status = .frozen →
          (∀ r : Reg, r ≠ 0 → ∃ t, exec (.debugFrameWrite who c l (8 * r.val) 8 v) s = .next t ∧ t.mem = s.mem
            ∧ (laneOf t c l).frame.regs.x[r] = v ∧ ∀ q : Reg, q ≠ r → (laneOf t c l).frame.regs.x[q] = (laneOf s c l).frame.regs.x[q])
          ∧ ∃ t, exec (.debugFrameWrite who c l (8 * 548) 8 v) s = .next t
            ∧ bits (laneOf t c l).frame.st.toNat 1 47 = bits v.toNat 1 47 ∧ bits (laneOf t c l).frame.st.toNat 0 1 = bits (laneOf s c l).frame.st.toNat 0 1)
    ∧ (isSup who = true → ∀ id, id < 64 →
      (∀ sc d, d < 8 → (sc = .die ∧ id < 32 ∨ sc = .pkg) →
        let b := netBarrier s sc d id
        ∃ t, exec (.barrierForce who sc d id) s = .next t ∧ t.mem = s.mem
          ∧ netBarrier t sc d id = { b with bar := { b.bar with phase := (b.bar.phase + 1) % 16, count := 0 } }
          ∧ ∀ e l ph r, (laneOf s e l).wait = some (.barrier sc d id ph r) →
              (laneOf t e l).wait = some (.barrierForced sc d id r))
      ∧ (let b := netBarrier s .pod 0 id
         ∃ t, exec (.podBarrierForce who id) s = .next t ∧ t.mem = s.mem
          ∧ netBarrier t .pod 0 id = { b with bar := { b.bar with phase := (b.bar.phase + 1) % 16, count := 0 } }))
    ∧ (isSup who = false → ∀ sc d id, exec (.barrierForce who sc d id) s = .next s ∧ exec (.podBarrierForce who id) s = .next s)
    ∧ ∀ id,
      let b := netBarrier s .pod 0 id
      (b.v = true → launchRank s b.launch = some 0 →
        (b.pcount + 1 ≤ b.npkg → ∃ t, exec (.podBarrierArrival id) s = .next t ∧ netBarrier t .pod 0 id = { b with pcount := b.pcount + 1 })
        ∧ (b.npkg < b.pcount + 1 → ∃ t, exec (.podBarrierArrival id) s = .next t ∧ netBarrier t .pod 0 id = { b with pcount := 0 }
            ∧ .due (.podBarrierRelease id) ∈ t.sched.agenda))
      ∧ (b.v = true → b.bar.count = b.bar.expect → b.bar.expect ≠ 0 → ∃ t, exec (.podBarrierRelease id) s = .next t
          ∧ netBarrier t .pod 0 id = { b with bar := { b.bar with phase := (b.bar.phase + 1) % 16, count := 0 } })
      ∧ (b.bar.count ≠ b.bar.expect → exec (.podBarrierRelease id) s = .next s)

/-- R10, R11, R163, R219, R262, R351, R339: REGISTER_WRITE: a core that is no supervisor changes nothing, and neither does a
write outside the windows; a supervisor's doubleword sets HROUND when it lies in 256 to 4,096, a translation context's IN USE
bit and root, or the address and the enables of a breakpoint comparator of its die. -/
def Claims.RegisterWrites : Prop :=
  ∀ s who,
    (isSup who = false → ∀ pa n v, exec (.registerWrite who pa n v) s = .next s)
    ∧ (∀ pa n v, isWindow pa = false → exec (.registerWrite who pa n v) s = .next s)
    ∧ (isSup who = true →
      (∀ v, let r := v.toNat % 2 ^ 13
        (256 ≤ r → r ≤ 4096 → ∃ t, exec (.registerWrite who (0xFF2 * 2 ^ 40) 8 v) s = .next t ∧ t.hearth.hround = r ∧ t.mem = s.mem)
        ∧ (r < 256 ∨ 4096 < r → exec (.registerWrite who (0xFF2 * 2 ^ 40) 8 v) s = .next s))
      ∧ (∀ k v, k < 256 → let d := dieNo who
        ∃ t, exec (.registerWrite who (0xFF1 * 2 ^ 40 + d * 2 ^ 24 + 0x50000 + 16 * k) 8 v) s = .next t ∧ t.mem = s.mem
          ∧ ctxRoot t d k = (if v.getLsbD 63 = true then some (bits v.toNat 14 38 * 2 ^ 14) else none)
          ∧ ∀ j, j ≠ k → ctxRoot t d j = ctxRoot s d j)
      ∧ ∀ c (i : Fin 8) v, reachesCore who c = true →
        ∃ t, exec (.registerWrite who (0xFF0 * 2 ^ 40 + c * 2 ^ 20 + 0x1000 + 32 * i.val) 8 v) s = .next t ∧ t.mem = s.mem
          ∧ (coreOf t c).ctl.comparators[i] = { (coreOf s c).ctl.comparators[i] with
              addr := BitVec.ofNat 48 (v.toNat % 2 ^ 48 / 2 * 2), en := v.getLsbD 48, icen := v.getLsbD 49, lmen := v.getLsbD 50 })

/-- `Claims.SupervisorWindows` (R216, R217, R218, R371, R427); `Claims.RegisterWrites` (R10, R11, R163, R219, R262, R351, R339). -/
def Obligations.SupervisorWrites : Prop := Claims.SupervisorWindows ∧ Claims.RegisterWrites

/-- R334 to R337, R340 to R342: a round takes the reports, forms each live domain's GVT key at or below every report and never
lowers a safe time, and is complete when its last quad has the values; a descriptor that is valid becomes a live domain, any
other sets DERR; suspension spills the domain's queued records over an open way; retirement clears V. That the only record of a spill
region lies at its slot 0 is the model's choice (log entry 26). -/
def Obligations.HearthEvents : Prop :=
  ∀ s,
    (s.hearth.phase ≠ .idle → exec .hearthRoundStart s = .next s)
    ∧ (s.hearth.phase = .idle → ∃ t, exec .hearthRoundStart s = .next t ∧ t.mem = s.mem ∧ t.hearth.phase = .reported
        ∧ .due .hearthRootForm ∈ t.sched.agenda)
    ∧ (s.hearth.phase = .reported → ∃ t, exec .hearthRootForm s = .next t ∧ t.mem = s.mem ∧ t.hearth.phase = .formed
        ∧ t.hearth.pendingQuads = List.range 640
        ∧ ∀ i d, smGet s.hearth.domains i = some d → ∃ e, smGet t.hearth.domains i = some e ∧ e.id = d.id ∧ d.safe.toNat ≤ e.safe.toNat
            ∧ (d.live = true → d.ordered = true → d.susp = false → d.id ∈ s.hearth.doms → ∀ r ∈ s.hearth.reports, r.2.1 = d.id → ∀ k, r.2.2.1 = some k →
                gvtKey e ≤ k))
    ∧ (∀ q, s.hearth.phase = .formed → q ∈ s.hearth.pendingQuads → ∃ t, exec (.hearthValuesArrive q) s = .next t
        ∧ t.hearth.pendingQuads = s.hearth.pendingQuads.filter (· ≠ q)
        ∧ ((∀ x ∈ s.hearth.pendingQuads, x = q) → t.hearth.phase = .idle ∧ t.hearth.rounds = s.hearth.rounds + 1)
        ∧ ((∃ x ∈ s.hearth.pendingQuads, x ≠ q) → t.hearth.phase = .formed ∧ t.hearth.rounds = s.hearth.rounds))
    ∧ ∀ who slot, isSup who = true → slot < 4096 →
      let d := slotOf' s slot
      (d.live = false → ∀ v : X, v.getLsbD 16 = true →
        let e := { d with id := bits v.toNat 0 16, ordered := v.getLsbD 17, susp := v.getLsbD 18, launch := bits v.toNat 32 32 }
        (descriptorOk s slot e (bits v.toNat 19 13) = true → ∃ t, exec (.domainCreate who slot v) s = .next t ∧ t.mem = s.mem
          ∧ (slotOf' t slot).live = true ∧ (slotOf' t slot).id = e.id ∧ (slotOf' t slot).launch = e.launch
          ∧ (slotOf' t slot).gvt = 0 ∧ (slotOf' t slot).commits = 0 ∧ (slotOf' t slot).safe = 0)
        ∧ (descriptorOk s slot e (bits v.toNat 19 13) = false → ∃ t, exec (.domainCreate who slot v) s = .next t ∧ t.mem = s.mem
          ∧ (slotOf' t slot).live = false ∧ (slotOf' t slot).derr = true))
      ∧ (d.live = true → d.susp = false → ∃ t, exec (.domainSuspend who slot) s = .next t ∧ (slotOf' t slot).susp = true
          ∧ ∀ n x, s.hearth.tasks = [(n, x)] → MemoryOk s → x.domain = d.id → x.state = .queued → x.spilled = false → x.unfixed = false →
            64 ≤ d.tssize.toNat → spillWay s d x.quad 0 = .opened → taskOf t n = some { x with spilled := true, slot := 0 }
              ∧ memRead t.mem d.tspill.toNat 64 = x.record % 2 ^ 512)
      ∧ (d.live = true → d.susp = true → ∃ t, exec (.domainResume who slot) s = .next t ∧ (slotOf' t slot).susp = false
          ∧ (slotOf' t slot).live = true
          ∧ ((∀ e ∈ s.hearth.tasks, e.2.domain = d.id → e.2.state = .queued → e.2.spilled = true) → t.mem = s.mem))
      ∧ (d.live = true → ∃ t, exec (.domainRetire who slot) s = .next t ∧ (slotOf' t slot).live = false ∧ t.mem = s.mem
          ∧ ∀ q, smGet (quadOf t q).floors d.id = none ∧ smGet (quadOf t q).safes d.id = none)

/-- R333, R396, R409 to R412, R415, R437, R449: what the host writes stands in memory and what it reads is what stands there; an access
that something holds waits; a spawn window
takes a record for its live domain; LSTAT, SPWSTAT and ATTDROP clear as they are read, the ready and failed maps and SPWLAST read as they
are, and a spawn window as zero; a launch or attestation command is taken
or counted as dropped; a report is written with its signature and its STATUS reads 1. That an attestation command with a misaligned result
or one outside HBM is dropped is the model's choice (log entry 62). -/
def Claims.HostEvents : Prop :=
  ∀ s,
    (∀ pa n v, hostReach pa n = true → MemoryOk s → hostOpen s pa true = true →
      ∃ t, exec (.hostMemWrite pa n v) s = .next t ∧ Stored s t pa n v.toNat ∧ t.cores = s.cores)
    ∧ (∀ pa n, hostReach pa n = true → hostOpen s pa false = true → poisoned s pa n = false →
      ∃ t, exec (.hostMemRead pa n) s = .next t ∧ t.pkg.host.answer = BitVec.ofNat 512 (memRead s.mem pa n) ∧ t.mem = s.mem
        ∧ t.cores = s.cores)
    ∧ (∀ pa n, hostReach pa n = true →
      (∀ v, (hostWay s pa true = .opened ∧ hostOpen s pa true = false ∨ ∃ f, hostWay s pa true = .waking f) →
        ∃ t, exec (.hostMemWrite pa n v) s = .next t ∧ t.mem = s.mem ∧ t.cores = s.cores ∧ .due (.hostMemWrite pa n v) ∈ t.sched.agenda)
      ∧ ((hostWay s pa false = .opened ∧ hostOpen s pa false = false ∨ ∃ f, hostWay s pa false = .waking f) →
        ∃ t, exec (.hostMemRead pa n) s = .next t ∧ t.mem = s.mem ∧ t.cores = s.cores ∧ t.pkg.host = s.pkg.host
          ∧ .due (.hostMemRead pa n) ∈ t.sched.agenda))
    ∧ (let reads := fun (bar off : Nat) => (barRead s bar off).pkg.host.answer.toNat
       (∀ i, i < 38 → reads 0 (0x2000 + 8 * i) = bits s.pkg.ready (64 * i) 64 ∧ reads 0 (0x2180 + 8 * i) = bits s.pkg.failed (64 * i) 64)
       ∧ (∀ i, i < 8 → reads 0 (0x1040 + 8 * i) = bits s.pkg.host.spwlast.toNat (64 * i) 64 ∧ reads 0 (8 * i) = 0)
       ∧ reads 0 0x2300 = s.pkg.host.bootstat.toNat ∧ ∀ off, reads 2 off = 0)
    ∧ (∀ pa n v, hostReach pa n = false → exec (.hostMemWrite pa n v) s = .next s ∧ exec (.hostMemRead pa n) s = .next s)
    ∧ (∀ id (v : BitVec 512), 0 < id → id < 0xFFFF → recField v.toNat 56 0 16 = id → recordOk v.toNat = true → (domainOf s id).isSome = true →
      ∃ t q, exec (.spawnWindowStore (64 * id) 64 v) s = .next t ∧ t.mem = s.mem ∧ t.pkg.host.spawnQ = s.pkg.host.spawnQ ++ [q]
        ∧ q.record = putBits v.toNat 480 32 0 ∧ q.host = true ∧ .due (.taskAccept 0xFFF) ∈ t.sched.agenda)
    ∧ (∀ off n v, n ≠ 64 → bits s.pkg.host.spwstat.toNat 0 32 < 2 ^ 32 - 1 → ∃ t, exec (.spawnWindowStore off n v) s = .next t
        ∧ t.pkg.host.spwstat = s.pkg.host.spwstat + 1 ∧ t.pkg.host.spawnQ = s.pkg.host.spawnQ)
    ∧ (∀ v : BitVec 512, let req := v.toNat % 2 ^ 64
        v.toNat / 2 ^ 96 = 0 → req % 512 = 0 → req + 512 ≤ 2 ^ 40 →
        (s.pkg.host.busy = false → ∃ t, exec (.launchCommand 0 64 v) s = .next t ∧ t.mem = s.mem ∧ t.pkg.host.busy = true
          ∧ t.pkg.host.command = some (v.setWidth 64, (v >>> 64).setWidth 32))
        ∧ (s.pkg.host.busy = true → s.pkg.host.ldrop ≠ BitVec.allOnes 16 → ∃ t, exec (.launchCommand 0 64 v) s = .next t
          ∧ t.pkg.host.ldrop = s.pkg.host.ldrop + 1 ∧ t.pkg.host.command = s.pkg.host.command))
    ∧ (∃ t, exec .lstatRead s = .next t ∧ t.mem = s.mem ∧ t.pkg.host.ldrop = 0
        ∧ t.pkg.host.answer = BitVec.ofNat 512 (s.pkg.host.busy.toNat + s.pkg.host.ldrop.toNat * 2 ^ 16 + s.pkg.host.taken.toNat * 2 ^ 32))
    ∧ (∃ t, exec .spwstatRead s = .next t ∧ t.mem = s.mem ∧ t.pkg.host.spwstat = 0
        ∧ t.pkg.host.answer = s.pkg.host.spwstat.setWidth 512)
    ∧ (∃ t, exec .attdropRead s = .next t ∧ t.mem = s.mem ∧ t.pkg.host.attdrop = 0
        ∧ t.pkg.host.answer = s.pkg.host.attdrop.setWidth 512)
    ∧ (∀ v : BitVec 512, let a := v.toNat % 2 ^ 64
        let bad := s.pkg.host.attest.isSome = true ∨ v.toNat / 2 ^ 320 ≠ 0 ∨ a % 512 ≠ 0 ∨ 2 ^ 40 ≤ a
        (bad → ∃ t, exec (.attreq v) s = .next t ∧ t.pkg.host.attdrop = s.pkg.host.attdrop + 1 ∧ t.pkg.host.attest = s.pkg.host.attest)
        ∧ (¬ bad → ∃ t, exec (.attreq v) s = .next t ∧ t.pkg.host.attest = some (v.setWidth 64, (v >>> 64).setWidth 256)
          ∧ .due .attestationReport ∈ t.sched.agenda))
    ∧ ∀ a nonce, s.pkg.host.attest = some (a, nonce) →
      (s.pkg.identity = none → exec .attestationReport s = .next s)
      ∧ ∀ key, s.pkg.identity = some key → MemoryOk s → ∃ t, exec .attestationReport s = .next t
        ∧ memRead t.mem a.toNat 4 = 1 ∧ t.pkg.host.attest = none
        ∧ (let r := reportBody s nonce
           memRead t.mem (a.toNat + 4) 508 = (r + (ed448Sign key.secretKey (shake256 r 300)).toNat * 2 ^ 2400) % 2 ^ 4064)

/-- R34, R414: a waiting command whose request is refused gets STATUS 3 with the reason; one that is accepted becomes a live
launch with STATUS 1 and its root domain's ID in ROOT; a launch that has drained ends with STATUS 2 and is no longer live, and one that has not goes on. -/
def Claims.LaunchEvents : Prop :=
  ∀ s, MemoryOk s →
    (∀ plan, s.pkg.host.command = none → exec (.launchTake plan) s = .next s)
    ∧ (∀ plan req tag, s.pkg.host.command = some (req, tag) →
      let r := memRead s.mem req.toNat 512
      (∀ why, refusal s r plan = some why → ∃ t, exec (.launchTake plan) s = .next t ∧ memRead t.mem req.toNat 4 = (3 + 256 * why) % 2 ^ 32
        ∧ memRead t.mem (req.toNat + 36) 4 = tag.toNat ∧ t.pkg.host.busy = false ∧ t.pkg.host.command = none
        ∧ t.pkg.host.taken = s.pkg.host.taken + 1 ∧ t.pkg.launches = s.pkg.launches)
      ∧ (refusal s r plan = none → planOk s r plan = true → ∃ t x, exec (.launchTake plan) s = .next t
        ∧ memRead t.mem req.toNat 4 = 1 ∧ memRead t.mem (req.toNat + 4) 4 = plan.launch % 2 ^ 32
        ∧ memRead t.mem (req.toNat + 184) 2 = plan.domain % 2 ^ 16 ∧ t.pkg.host.busy = false ∧ smGet t.pkg.launches plan.launch = some x
        ∧ x.quads = mapQuads s (reqField r 8 0 64) ∧ x.ctx = plan.ctx ∧ x.account = plan.account ∧ x.request = req))
    ∧ ∀ n x, smGet s.pkg.launches n = some x →
      (drained s n x = false → ∀ v, exec (.launchEnd n v) s = .next s)
      ∧ (drained s n x = true → x.paired = false → ∀ v : Fin 3, ∃ t, exec (.launchEnd n v) s = .next t
        ∧ smGet t.pkg.launches n = none ∧ memRead t.mem x.request.toNat 4 = (if v = 2 then 5 else 2)
        ∧ (accountOf t x.account).v = false)

/-- `Claims.HostEvents` (R396, R409 to R412, R415, R449); `Claims.LaunchEvents` (R34, R414). -/
def Obligations.HostAndLaunches : Prop := Claims.HostEvents ∧ Claims.LaunchEvents

/-- R252, R291 to R294: DMA_SAVE and DMA_RESTORE start a row that is not busy; a save waits for what runs on the quad and leaves its
lanes Free, and either reads done, or error; a spatial pre-emption marks the quads that are to be vacated, and at its deadline, with no finished task left to
commit, the launch holds the others alone, once the way to the Cellar is open. That a busy row ignores a command, that a save waits for
what runs on the quad and leaves its lanes Free, and that the deadline waits for the finished tasks are the model's reading (log entry
33). -/
def Obligations.ImagesAndPreemption : Prop :=
  ∀ s,
    (∀ who row, isSup who = true → row < 10 →
      let d := dieNo who
      let b := dmaOf s d row
      (b.stat ≠ 1 → (∃ t, exec (.dmaSave who row) s = .next t ∧ t.mem = s.mem ∧ dmaOf t d row = { b with op := 1, stat := 1 }
            ∧ .due (.dmaDone d row true) ∈ t.sched.agenda)
          ∧ ∃ t, exec (.dmaRestore who row) s = .next t ∧ t.mem = s.mem ∧ dmaOf t d row = { b with op := 2, stat := 1 })
      ∧ (b.stat = 1 → exec (.dmaSave who row) s = .next s ∧ exec (.dmaRestore who row) s = .next s))
    ∧ (∀ d row,
      let b := dmaOf s d row
      (b.stat ≠ 1 → ∀ ok, exec (.dmaDone d row ok) s = .next s)
      ∧ (b.stat = 1 → (∃ t, exec (.dmaDone d row false) s = .next t ∧ t.mem = s.mem ∧ dmaOf t d row = { b with stat := 3 })
        ∧ (b.op = 1 → quadQuiet s (d * 80 + row * 8 + b.col) = true → dmaWay s d = .opened →
          ∃ t, exec (.dmaDone d row true) s = .next t ∧ dmaOf t d row = { b with stat := 2 }
            ∧ ∀ j l, j < 4 → (laneOf t (quadCore (d * 80 + row * 8 + b.col) j) l).status = .free)
        ∧ (b.op = 1 → quadQuiet s (d * 80 + row * 8 + b.col) = false →
          ∃ t, exec (.dmaDone d row true) s = .next t ∧ t.mem = s.mem ∧ dmaOf t d row = b ∧ .due (.dmaDone d row true) ∈ t.sched.agenda)
        ∧ (b.op = 2 → ∀ f, dmaWay s d = .waking f → exec (.dmaDone d row true) s = .next (dueEvent (wakeFlue s f) (.dmaDone d row true)))
        ∧ (b.op = 2 → dmaWay s d = .opened → (∀ v ∈ b.vc.toList, imagePoisoned s b.cellBase.toNat v = false) →
            ∃ t, exec (.dmaDone d row true) s = .next t ∧ dmaOf t d row = { b with stat := 2 })))
    ∧ ∀ n x, smGet s.pkg.launches n = some x →
      (∀ quads, x.elastic = true → x.vacate = [] → quads ≠ [] → (∀ q ∈ quads, q ∈ x.quads) → (∃ q ∈ x.quads, q ∉ quads) →
        ∃ t, exec (.spatialPreempt n quads) s = .next t ∧ smGet t.pkg.launches n = some { x with vacate := quads }
          ∧ ∀ q ∈ quads, (quadOf t q).vacating = true)
      ∧ (x.vacate ≠ [] →
        let u := abortOn s x.vacate
        (∀ e ∈ u.hearth.tasks, e.2.quad ∈ x.vacate → e.2.ordered = true → e.2.state ≠ .finished) →
        (x.vacate.filter (parks u)).all (quadQuiet u) = true → (∀ q ∈ x.vacate.filter (parks u), dmaWay u (q / 80) = .opened) →
        ∃ t y, exec (.preemptDeadline n) s = .next t ∧ smGet t.pkg.launches n = some y
          ∧ y.quads = x.quads.filter (fun q => !x.vacate.contains q) ∧ y.vacate = []
          ∧ ∀ q ∈ x.vacate, (quadOf t q).vacating = false)

/-- R373 to R377, R446, R136, R360, R437, R438: a normal reset drains its die, an abrupt one resets it at once: its cores and its
LM then hold their reset values, its flues are Down and an operation that it was running has ended with ECODE 5 in its barrier; an abrupt
reset of a die on which nothing runs poisons the lines of which it held the only dirty copy, and no others; rejoin takes the next
incarnation; a package reset keeps the low 2^41 bytes of memory and the
time base and clears the cores and launches; self-tests set one bit of a map, and none before an image has been accepted; a struck word or
line is poisoned. What a package reset keeps, its next incarnation and the identity key as the trace of an accepted image are the model's
reading (log entry 31), and so is that an error in a block stored as all-zero poisons nothing (log entry 38). -/
def Claims.ResetsAndErrors : Prop :=
  ∀ s,
    (∀ who d, isSup who = true → d < 8 →
      let x := dieOf s d
      let asReset := fun (t : State) => (dieOf t d).rst = 2 ∧ (∀ f ∈ dieFlues d, (flueOf t f).pwr = 3) ∧ (∀ c, dieNo c = d → coreOf t c = Core.reset)
        ∧ ∀ c o, c < 4096 → dieNo c = d → o < 2 ^ 19 → memGet t.mem (lmKey c o) = lmReset o
      (x.rst = 0 →
        (∃ t, exec (.dieNormalReset who d) s = .next t ∧ exec (.thermalDieReset d) s = .next t ∧ dieOf t d = { x with rst := 1 }
          ∧ t.mem = s.mem ∧ .due (.dieResetEnter d) ∈ t.sched.agenda)
        ∧ ∃ t, exec (.dieAbruptReset who d) s = .next t ∧ asReset t
          ∧ (s.hearth.tasks = [] → (∀ c, (coreOf s c).eng.queue = []) → ∀ p, p < 2 ^ 40 →
              (p ∈ t.poison ↔ p ∈ s.poison ∨ ∃ e, (p, e) ∈ x.tokens ∧ e.granted = true ∧ e.dirty = true)))
      ∧ (x.rst ≠ 0 → exec (.dieNormalReset who d) s = .next s ∧ exec (.dieAbruptReset who d) s = .next s)
      ∧ (x.rst = 1 → ∃ t, exec (.dieResetEnter d) s = .next t ∧ asReset t
          ∧ (s.hearth.tasks = [] → (∀ c, (coreOf s c).eng.queue = []) → ∀ p, p < 2 ^ 40 → (p ∈ t.poison ↔ p ∈ s.poison))
          ∧ ∀ c slot op k v, dieNo c = d → (coreOf s c).eng.queue = [(slot, op)] → (∀ e, e ≠ c → (coreOf s e).eng.queue = []) →
              s.hearth.tasks = [] → op.bar = some k → k < 2 ^ 40 →
              let qs := (List.range (opSectors op)).filter (fun q => !op.counted.contains q)
              fillUndone s c op qs = s → txReady s c (barUpdate op k qs.length (undoneCount op qs) (some 5)) = .ok v → MemoryOk v →
              memRead t.mem k 16 = txEvaluate (txApply (memRead v.mem k 16) (.engine qs.length (undoneCount op qs) (some 5))) % 2 ^ 128)
      ∧ (x.rst = 2 → ∃ t, exec (.dieRejoin who d) s = .next t ∧ t.mem = s.mem
          ∧ dieOf t d = { x with inc := (x.inc + 1) % 16, rst := 3 } ∧ .due (.dieRejoinComplete d) ∈ t.sched.agenda)
      ∧ (x.rst = 3 → ∃ t, exec (.dieRejoinComplete d) s = .next t ∧ t.mem = s.mem ∧ dieOf t d = { x with rst := 0 }))
    ∧ (MemoryOk s → ∀ v : Fin 4, ∃ t, exec (.packageReset v) s = .next t ∧ (∀ a, a < 2 ^ 41 → memGet t.mem a = memGet s.mem a)
        ∧ (∀ a, 2 ^ 41 ≤ a → memGet t.mem a = unlisted a) ∧ t.cores = [] ∧ t.quads = [] ∧ t.dies = [] ∧ t.hearth = State.reset.hearth
        ∧ t.pkg.launches = [] ∧ t.pkg.inc = (s.pkg.inc + 1) % 16 ∧ t.pkg.host.bootstat = BitVec.ofNat 64 (bootVerdict (v != 3)) ∧ t.pkg.ready = 0
        ∧ (v = 3 → t.pkg.host.bootstat = 3) ∧ (t.pkg.host.bootstat ≠ 0 → t.pkg.identity = none)
        ∧ t.sched.gtime = s.sched.gtime)
    ∧ (∀ i, i < 640 ∨ (1024 ≤ i ∧ i < 2432) →
      (s.pkg.identity = none → exec (.functionReady i) s = .next s)
      ∧ (bit s.pkg.failed i = false → s.pkg.identity.isSome = true → ∃ t, exec (.functionReady i) s = .next t
        ∧ (∀ j, bit t.pkg.ready j = (decide (j = i) || bit s.pkg.ready j)) ∧ t.pkg.failed = s.pkg.failed)
      ∧ (bit s.pkg.ready i = false → ∃ t, exec (.functionFailed i) s = .next t
        ∧ (∀ j, bit t.pkg.failed j = (decide (j = i) || bit s.pkg.failed j)) ∧ t.pkg.ready = s.pkg.ready))
    ∧ (∀ c w, namesCore c = true → w < 2 ^ 17 → ∃ t, exec (.lmDoubleBitError c w) s = .next t ∧ t.mem = s.mem
        ∧ ∀ p, p ∈ t.poison ↔ p ∈ s.poison ∨ p = lmKey c (4 * w))
    ∧ ∀ a, a < 2 ^ 40 → ∃ t, exec (.hbmUncorrectableError a) s = .next t ∧ t.mem = s.mem
        ∧ (∀ p ∈ s.poison, p ∈ t.poison) ∧ (∀ p ∈ t.poison, p ∉ s.poison → p / 256 = a / 256)
        ∧ (blockOf s (a / 256) = .raw → ∀ p, p ∈ t.poison ↔ p ∈ s.poison ∨ p = lineOf a)
        ∧ (blockOf s (a / 256) = .half ∨ blockOf s (a / 256) = .quarter → ∀ i, i < 4 → a / 256 * 256 + 64 * i ∈ t.poison)
        ∧ (blockOf s (a / 256) = .zero → t.poison = s.poison)

/-- R441 to R445: energy is added to the quad island's counter and to its launch's account, that of a shared island to its meter and to the
one launch that moved sectors through it, or to none; PWR is the mean of the latest 64 intervals, and a CAP takes effect with a charge; a
supervisor sets an allowance and a cap; an
island whose turn it is goes down by 50 MHz to no less than 600 while the power limit is exceeded, a hot one to 600, and a cooled one to 1,700; a change takes
effect on the four cores; at 125 °C every die is reset and the package powers down. How the meters' readings and the moved sectors come,
PWR before 64 charges and the steps back to full speed are the model's reading (log entry 32). -/
def Claims.EnergyAndTemperature : Prop :=
  ∀ s,
    (∀ k e p, k < 640 → ∃ t, exec (.energyCharge [(k, e, p)]) s = .next t ∧ t.mem = s.mem
      ∧ (quadOf t k).energy = (quadOf s k).energy + BitVec.ofNat 64 e ∧ (quadOf t k).power = BitVec.ofNat 64 p
      ∧ ∀ n x, s.pkg.launches.find? (fun l => l.2.quads.contains k) = some (n, x) → (accountOf s x.account).v = true →
          (accountOf t x.account).charged = (accountOf s x.account).charged + BitVec.ofNat 64 e)
    ∧ (∀ k e p, 640 ≤ k → k < 1024 → ∃ t, exec (.energyCharge [(k, e, p)]) s = .next t ∧ t.mem = s.mem ∧ t.quads = s.quads
      ∧ (let m := smGetD s.pkg.islands k (0, 0)
         smGet t.pkg.islands k = some (m.1 + BitVec.ofNat 64 e, BitVec.ofNat 64 p))
      ∧ ∀ a, (accountOf t a).charged = (accountOf s a).charged)
    ∧ (∀ k e p n x m, 640 ≤ k → k < 1024 → s.pkg.launches = [(n, x)] → (accountOf s x.account).v = true →
        (accountOf s x.account).rest.1 < (accountOf s x.account).rest.2 → 0 < m →
        ∃ t, exec (.energyCharge [(k, e, p), (1024 + 1024 * n + k, m, 0)]) s = .next t
          ∧ (accountOf t x.account).charged = (accountOf s x.account).charged + BitVec.ofNat 64 e)
    ∧ (∀ a x, s.pkg.accounts = [(a, x)] → x.v = true → ∃ t, exec (.energyCharge []) s = .next t
      ∧ (accountOf t a).recent = (0 :: x.recent).take 64
      ∧ (accountOf t a).pwr = BitVec.ofNat 32 (min ((accountOf t a).recent.sum * 1000 / 64) (2 ^ 32 - 1)) ∧ (accountOf t a).capNow = x.cap)
    ∧ (∀ who a v, isSup who = true → a < 256 → ∃ t, exec (.energyAccountWrite who a 8 8 v) s = .next t ∧ t.mem = s.mem
        ∧ (accountOf t a).allow = v.setWidth 64 ∧ (accountOf t a).charged = (accountOf s a).charged
        ∧ (accountOf t a).cap = (accountOf s a).cap)
    ∧ (∀ who a v, isSup who = true → a < 256 → ∃ t, exec (.energyAccountWrite who a 20 4 v) s = .next t ∧ t.mem = s.mem
        ∧ (accountOf t a).cap = v.setWidth 32 ∧ (accountOf t a).capNow = (accountOf s a).capNow
        ∧ (accountOf t a).charged = (accountOf s a).charged)
    ∧ (∀ who a o n v, isSup who = false → exec (.energyAccountWrite who a o n v) s = .next s)
    ∧ (∀ q, q < 640 →
      let x := quadOf s q
      let now := (coreOf s (quadCore q 0)).ctl.freq
      (throttleTurn s q = true → ∃ t, exec (.powerLimitThrottle q) s = .next t ∧ t.mem = s.mem ∧ (quadOf t q).target = some (max 600 (x.target.getD now - 50))
        ∧ .due (.freqChangeDone q) ∈ t.sched.agenda)
      ∧ (throttleTurn s q = false → exec (.powerLimitThrottle q) s = .next s)
      ∧ (∃ t, exec (.thermalThrottle q) s = .next t ∧ (quadOf t q).target = some 600 ∧ (quadOf t q).hot = true)
      ∧ (x.hot = true → ∃ t, exec (.thermalThrottleEnd q) s = .next t ∧ (quadOf t q).target = some 1700 ∧ (quadOf t q).hot = false)
      ∧ (x.hot = false → exec (.thermalThrottleEnd q) s = .next s)
      ∧ (∀ f, x.target = some f → ∃ t, exec (.freqChangeDone q) s = .next t ∧ t.mem = s.mem ∧ (quadOf t q).target = none
          ∧ (∀ j, j < 4 → (coreOf t (quadCore q j)).ctl.freq = f) ∧ ∀ c l, laneOf t c l = laneOf s c l)
      ∧ (x.target = none → exec (.freqChangeDone q) s = .next s))
    ∧ ∃ t, exec .thermalShutdown s = .next t ∧ t.pkg.down = true
      ∧ (s.hearth.tasks = [] → (∀ c, (coreOf s c).eng.queue = []) →
          ∀ d, d < 8 → (dieOf t d).rst = 2 ∧ ∀ c, dieNo c = d → coreOf t c = Core.reset)

/-- `Claims.ResetsAndErrors` (R373 to R377, R446, R136, R360, R437, R438); `Claims.EnergyAndTemperature` (R441 to R445). -/
def Obligations.ResetsEnergyAndTemperature : Prop := Claims.ResetsAndErrors ∧ Claims.EnergyAndTemperature

/-- R361 to R367, R418: FTURN and FLCMD queue a command that passes their checks, in order; a turn reverses one group at a time
up to its count; packets and flits are delivered in sequence alone, and one that is delivered has been sent; the sixteenth consecutive
retry takes a flue or a port
Down; an idle flue goes Drowsy, a Waking one becomes Active or, when its training fails, Down; a lane whose request got no
answer is Ready at that access, with the request marked as failing, and no register changed; one that waits for a flue has sent nothing.
Which acknowledgements reach the sender is open, and that a packet and those before it have been sent when it arrives, what a lane keeps
that has gone on past its request, and that a Horn port's flit is acknowledged as it is delivered are the model's reading (log entry
37). -/
def Obligations.LinkEvents : Prop :=
  ∀ s,
    (∀ o : FturnOp, (getP (cur s) o.guard).getLsbD 0 = true → (cur s).firing.spec = false → XReady (cur s) o.a → XFree (cur s) o.d →
      let d := dieNo s.sched.core
      let f := if o.sel = 0 then d else if o.sel = 1 then 8 + d else 8 + (d + 7) % 8
      let n := (getX (cur s) o.a.reg).toNat
      let x := flueOf s f
      let queue := if o.sel = 2 then x.qb else x.qa
      let groups := if f < 8 then 16 else 8
      let answered := fun (t : State) (st : X) => cur t = retire 8 (putX (kill (cur s) [.x o.a]) o.d st) ∧ t.mem = s.mem
      (flueGranted s d = false → ∃ t, exec (.fturn o) s = .next t ∧ answered t 1 ∧ flueOf t f = { x with drops := min (x.drops + 1) 0xFFFF })
      ∧ (flueGranted s d = true →
        (x.pwr = 3 → ∃ t, exec (.fturn o) s = .next t ∧ answered t 4)
        ∧ (x.pwr ≠ 3 → (n < 2 ∨ groups - 2 < n) → ∃ t, exec (.fturn o) s = .next t ∧ answered t 3)
        ∧ (x.pwr ≠ 3 → 2 ≤ n → n ≤ groups - 2 → 4 ≤ queue.length → ∃ t, exec (.fturn o) s = .next t ∧ answered t 2)
        ∧ (x.pwr ≠ 3 → 2 ≤ n → n ≤ groups - 2 → queue.length < 4 → ∃ t, exec (.fturn o) s = .next t ∧ answered t 0
          ∧ (if o.sel = 2 then (flueOf t f).qb = x.qb ++ [n] ∧ (flueOf t f).qa = x.qa else (flueOf t f).qa = x.qa ++ [n] ∧ (flueOf t f).qb = x.qb)
          ∧ (flueOf t f).pwr = (if x.pwr = 1 then 2 else x.pwr))))
    ∧ (∀ f,
      let x := flueOf s f
      (∀ who v, isSup who = true → f < 16 → x.pwr = 0 → 2 ≤ v.toNat % 32 → v.toNat % 32 ≤ 6 → v.getLsbD 5 = false → x.qa.length < 4 →
        ∃ t, exec (.flcmdWrite who f v) s = .next t ∧ t.mem = s.mem ∧ flueOf t f = { x with qa := x.qa ++ [v.toNat % 32] }
          ∧ .due (.flueTurnStart f) ∈ t.sched.agenda)
      ∧ (∀ who v, isSup who = false → exec (.flcmdWrite who f v) s = .next s)
      ∧ (∀ g rest, x.turning = none → x.pwr = 0 → x.started = none → x.qb = [] → x.qa = g :: rest →
          let n := (if f < 8 then 16 else 8) - g
          ∃ t, exec (.flueTurnStart f) s = .next t ∧ t.mem = s.mem ∧ (flueOf t f).qa = rest ∧ (flueOf t f).lastb = false
            ∧ (flueOf t f).turning = (if n = x.gab then none else some n) ∧ (flueOf t f).gab = x.gab)
      ∧ (∀ g, x.turning = some g → g ≠ x.gab →
          let n := if x.gab < g then x.gab + 1 else x.gab - 1
          ∃ t, exec (.flueGroupTurned f) s = .next t ∧ t.mem = s.mem ∧ (flueOf t f).gab = n
            ∧ (flueOf t f).turning = (if n = g then none else some g)
            ∧ (flueOf t f).turns = (if n = g then min (x.turns + 1) 0xFFFF else x.turns))
      ∧ (x.pwr = 0 → ∀ b, let e := linkOf x b
          let heard := Config.ackArrives s.sched.freeCtr
          (∀ q, (q = e.recv → (q - e.ack).toNat < 512 → ∃ t, exec (.linkPacketReceive f b q) s = .next t ∧ t.mem = s.mem
              ∧ linkOf (flueOf t f) b = ⟨if e.send = q then q + 1 else e.send, q + 1, if heard then q + 1 else e.ack,
                  if heard then 0 else e.fails⟩
              ∧ linkOf (flueOf t f) (!b) = linkOf x (!b))
            ∧ (q ≠ e.recv → (q - e.recv).toNat < 512 → ∃ t, exec (.linkPacketReceive f b q) s = .next t ∧ t.mem = s.mem
              ∧ linkOf (flueOf t f) b = { e with send := if (e.send - e.recv).toNat ≤ (q - e.recv).toNat then q + 1 else e.send }
              ∧ linkOf (flueOf t f) (!b) = linkOf x (!b))
            ∧ (512 ≤ (q - e.recv).toNat → ∃ t, exec (.linkPacketReceive f b q) s = .next t ∧ t.mem = s.mem
              ∧ (linkOf (flueOf t f) b).recv = e.recv ∧ (linkOf (flueOf t f) b).send = e.send
              ∧ linkOf (flueOf t f) (!b) = linkOf x (!b)))
          ∧ (e.send = e.ack → exec (.linkRetry f b) s = .next s)
          ∧ (e.send ≠ e.ack → e.fails < 15 → ∃ t, exec (.linkRetry f b) s = .next t ∧ t.mem = s.mem
              ∧ flueOf t f = withLink x b { e with fails := e.fails + 1 })
          ∧ (e.send ≠ e.ack → 15 ≤ e.fails → ∃ t, exec (.linkRetry f b) s = .next t ∧ t.mem = s.mem ∧ (flueOf t f).pwr = 3
              ∧ (flueOf t f).qa = [] ∧ (flueOf t f).qb = []))
      ∧ (x.pwr = 0 → x.pin = false → x.idle ≠ 0 → x.qa = [] → x.qb = [] → x.turning = none →
          ∃ t, exec (.flueDrowsy f) s = .next t ∧ flueOf t f = { x with pwr := 1 })
      ∧ (x.pin = true → exec (.flueDrowsy f) s = .next s)
      ∧ (x.pwr = 2 → (∃ t, exec (.flueTrained f) s = .next t ∧ flueOf t f = { x with pwr := 0 } ∧ .due (.flueTurnStart f) ∈ t.sched.agenda)
          ∧ ∃ t, exec (.flueWakeTimeout f) s = .next t ∧ (flueOf t f).pwr = 3)
      ∧ (x.pwr ≠ 2 → exec (.flueTrained f) s = .next s ∧ exec (.flueWakeTimeout f) s = .next s))
    ∧ (∀ c l, l < 16 →
      let x := laneOf s c l
      let stands := fun (t : State) (a : X) (i : X) => (laneOf t c l).status = .ready ∧ (laneOf t c l).wait = none
        ∧ (laneOf t c l).regs = x.regs ∧ (laneOf t c l).frz.failing = some ⟨a, i, true⟩ ∧ t.mem = s.mem
      (x.results = [] → (x.wait = none ∨ ∃ f a, x.wait = some (.link f a)) → exec (.dieUnresponsive c l) s = .next s)
      ∧ (∀ i a, x.results = [] → x.wait = some (.functionReady i a) → x.frz.pending = none →
          ∃ t, exec (.dieUnresponsive c l) s = .next t ∧ stands t a x.waitInstr ∧ (laneOf t c l).pc = x.pc)
      ∧ ∀ r, x.results = [r] → r.counted = true → x.frz.pending = none → x.frz.failing = none → x.status ≠ .draining →
          ∃ t, exec (.dieUnresponsive c l) s = .next t ∧ stands t r.addr r.instr ∧ (laneOf t c l).pc = r.site.pc
            ∧ (laneOf t c l).loop = r.site.loop ∧ (laneOf t c l).results = [])
    ∧ ∀ p,
      let x := portOf s p
      (x.state = 0 → ∀ q, (q = x.recvSeq → ∃ t, exec (.hornFlitReceive p q) s = .next t ∧ t.mem = s.mem
            ∧ portOf t p = { x with recvSeq := q + 1, ackSeq := x.sendSeq, fails := 0 })
        ∧ (q ≠ x.recvSeq → exec (.hornFlitReceive p q) s = .next s))
      ∧ (x.sendSeq = x.ackSeq → exec (.hornRetry p) s = .next s)
      ∧ (x.state = 0 → x.sendSeq ≠ x.ackSeq → (x.fails < 15 → ∃ t, exec (.hornRetry p) s = .next t
            ∧ portOf t p = { x with retry := min (x.retry + 1) 0xFFFF, fails := x.fails + 1 })
          ∧ (15 ≤ x.fails → ∃ t, exec (.hornRetry p) s = .next t ∧ (portOf t p).state = 3 ∧ (portOf t p).downs = min (x.downs + 1) 0xFFFF))
      ∧ (x.state = 3 → p < 64 → ∃ t, exec (.hornRetrain p) s = .next t ∧ portOf t p = { x with state := 1 })
      ∧ (x.state = 1 → ∃ t, exec (.hornPortTrained p) s = .next t ∧ portOf t p = { x with state := 0 })

/-! ### Frames, the step, the encoding and the whole machine -/

/-- R22, R26, R27, R44, R99: THE FRAME of the instructions whose result statement names `after` of a lane with one register
written: memory, the other lanes, and the rest of the package are as before, and so are all registers but the destination;
x0 and p0 discard writes, x0 reads as 0 and p0 as all ones; a last-use source is dead afterwards unless it is the destination. A
long-latency producer changes no register until its result arrives. -/
def Claims.Frames : Prop :=
  (∀ s n l, OthersKept s (after s n l) ∧ MachineKept s (after s n l)) ∧ (∀ s a l, OthersKept s (afterJump s a l) ∧ MachineKept s (afterJump s a l))
  ∧ (∀ n l srcs d v, LaneKept l (retire n (putX (kill l srcs) d v)) (some d) none none)
  ∧ (∀ n l srcs d v sr, LaneKept l (retire n { putV (kill l srcs) d v with sr := sr }) none (some d) none)
  ∧ (∀ n l srcs d v, LaneKept l (retire n (putP (kill l srcs) d v)) none none (some d))
  ∧ (∀ n l, LaneKept l (retire n l) none none none)
  ∧ (∀ n l srcs d (v : X), (retire n (putX (kill l srcs) d v)).sr = l.sr)
  ∧ (∀ (l : Lane) v w, putX l 0 v = l ∧ putP l 0 w = l ∧ getX l 0 = 0 ∧ getP l 0 = BitVec.allOnes 32)
  ∧ (∀ (l : Lane) d v w, (d ≠ 0 → getX (putX l d v) d = v ∧ (putX l d v).marks.xdead.getLsbD d.val = false)
      ∧ (putV l d w).regs.v[d] = w ∧ (putV l d w).marks.vdead.getLsbD d.val = false)
  ∧ (∀ (l : Lane) srcs (r : Reg),
      ((kill l srcs).marks.xdead.getLsbD r.val = true ↔ l.marks.xdead.getLsbD r.val = true
        ∨ (r ≠ 0 ∧ ∃ a, Opnd.x a ∈ srcs ∧ a.last = true ∧ a.reg = r))
      ∧ ((kill l srcs).marks.vdead.getLsbD r.val = true ↔ l.marks.vdead.getLsbD r.val = true
        ∨ ∃ a, Opnd.v a ∈ srcs ∧ a.last = true ∧ a.trap = false ∧ a.reg = r))
  ∧ ∀ s srcs n (r : Result), let t := produce (setCur s (kill (cur s) srcs)) r
      OthersKept s (after t n (cur t)) ∧ MachineKept s (after t n (cur t)) ∧ (cur (after t n (cur t))).regs = (cur s).regs
      ∧ (cur (after t n (cur t))).results = (cur s).results ++ [r]
      ∧ (cur (after t n (cur t))).lcnt = (cur s).lcnt + (if r.counted then 1 else 0)
      ∧ (∀ q : Reg, (cur (after t n (cur t))).marks.xfull.getLsbD q.val =
          if r.dest = .x q ∧ q ≠ 0 then false else (cur s).marks.xfull.getLsbD q.val)
      ∧ ∀ q : Reg, (cur (after t n (cur t))).marks.vfull.getLsbD q.val =
          if r.dest = .v q then false else (cur s).marks.vfull.getLsbD q.val

/-- R47: with bit 0 of the guard clear, a guarded instruction counts and advances the PC, and has no other effect; its operands
are not read, so that empty and dead ones do not stop it; a payload register named outside a handler firing is illegal all the same
(R55). -/
def Claims.GuardOff : Prop :=
  ∀ s (g : PReg), (getP (cur s) g).getLsbD 0 = false →
    let none' := fun (i : Instr) => exec i s = .next (after s 8 (cur s))
    (∀ o : LdXOp, o.guard = g → none' (.ldX o)) ∧ (∀ o : StXOp, o.guard = g → none' (.stX o))
    ∧ (∀ o : AmoOp, o.guard = g → none' (.amo o)) ∧ (∀ o : CasOp, o.guard = g → none' (.cas o))
    ∧ (∀ o : SysrOp, o.guard = g → o.num.toNat ∈ [0x000, 0x001, 0x002, 0x003, 0x004, 0x008, 0x009, 0x00A, 0x010, 0x040, 0x041, 0x042] →
        none' (.sysr o))
    ∧ (∀ o : SyswOp, o.guard = g → o.num = 0x004 → none' (.sysw o)) ∧ (∀ o : EnrdOp, o.guard = g → none' (.enrd o))
    ∧ (∀ o : BarOp, o.guard = g → none' (.bar o) ∧ none' (.bara o) ∧ none' (.barw o))
    ∧ (∀ o : IcflushOp, o.guard = g → none' (.icflush o)) ∧ (∀ o : FturnOp, o.guard = g → none' (.fturn o))
    ∧ (∀ o : VcmpOp, o.guard = g → [Opnd.v o.a, .v o.b].any (opndIllegal (cur s)) = false → none' (.vcmp o))
    ∧ (∀ o : XX2, o.guard = g → [Opnd.v o.a, .x o.b].any (opndIllegal (cur s)) = false → none' (.vextr o))
    ∧ (∀ o : VcmpOp, o.guard = g → [Opnd.v o.a, .v o.b].any (opndIllegal (cur s)) = true → exec (.vcmp o) s = .next (takeFault s .illegal 0))
    ∧ (isSup s.sched.core = true → (∀ o : LresumeOp, o.guard = g → none' (.lresume o) ∧ none' (.lstep o))
      ∧ (∀ o : LkillOp, o.guard = g → none' (.lkill o)) ∧ ∀ o : TlbiOp, o.guard = g → none' (.tlbi o))

/-- `Claims.Frames` (R22, R26, R27, R44, R99); `Claims.GuardOff` (R47). -/
def Obligations.FramesAndGuards : Prop := Claims.Frames ∧ Claims.GuardOff

/-- R40, R41, R212, R219, R55: A STEP RUNS THE DECODED INSTRUCTION. When a lane's turn is next and nothing holds the lane back,
the instruction at its PC is fetched; a word that decodes runs as `exec` says, with the lane in focus, and outside a LOOP body
nothing else changes before it; a fetch that fails, a comparator that matches and a word that is no instruction take their
faults. A halfword comes from the loop buffer, or from memory at the address's translation. -/
def Obligations.StepRunsDecoded : Prop :=
  (∀ s c l rest, s.sched.agenda = .lane c l :: rest → s.pkg.down = false →
    let r := { s with sched := { s.sched with agenda := rest } }
    (laneOf r c l).status = .ready → heldBack r c l = none →
    (∀ e, fetchInstr r c l = .error e → step s = .next (fetchStopped r c l e)
      ∧ ((∃ a, e = .fault .fetch a) → (∀ v, fetchHalf r c l (laneOf r c l).pc.toNat ≠ .ok v) →
          step s = .next (takeFault (focusOn r c l 0) .fetch 0)))
    ∧ ∀ u n w, fetchInstr r c l = .ok (u, n, w) →
      (∀ h hs, hits u c l = h :: hs → step s = .next (hitFreeze u c l w (h :: hs)))
      ∧ (hits u c l = [] → (∀ i, decodeWord n w = .ok i → step s = exec i (readied u c l n w))
        ∧ ∀ e, decodeWord n w = .error e → step s = .next (illegalIssue (readied u c l n w) n w)))
  ∧ (∀ s c l n w, (laneOf s c l).loop.len = 0 → readied s c l n w = focusOn s c l w)
  ∧ (∀ s c l u n w, fetchInstr s c l = .ok (u, n, w) →
      ∃ v h, fetchHalf s c l (laneOf s c l).pc.toNat = .ok (v, h) ∧ n = lengthOf h)
  ∧ (∀ s c l a h, (laneOf s c l).loop.len ≠ 0 → smGet (laneOf s c l).loop.buf a = some h → fetchHalf s c l a = .ok (s, h))
  ∧ ∀ s c l a u pa mt de, (laneOf s c l).loop.len = 0 ∨ smGet (laneOf s c l).loop.buf a = none → a < 2 ^ 48 →
      transWay s c (ctxOf s c (laneOf s c l)) a .fetch = .opened →
      translate s c (ctxOf s c (laneOf s c l)) a .fetch = some (u, pa, mt, de) → pa < 2 ^ 41 → pa % 2 = 0 →
      (∀ line, smGet (coreOf u c).ctl.l1i (pa / 64 * 64) = some line → ∃ t, fetchHalf s c l a = .ok (t, line / 2 ^ (8 * (pa % 64)) % 2 ^ 16))
      ∧ (smGet (coreOf u c).ctl.l1i (pa / 64 * 64) = none → pathPhys u (dieNo c) pa mt false = .opened →
          ∃ t, fetchHalf s c l a = .ok (t, memRead u.mem pa 2) ∧ t.mem = u.mem)

/-- R42 to R56 and the worked encodings: words written out from the encodings of spec/ decode to the instructions they stand
for. -/
def Obligations.DecodeWords : Prop :=
  decodeWord 32 0x00531C01 = .ok (.add ⟨7, ⟨6, true, false⟩, plain 1⟩)
  ∧ decodeWord 16 0xEA52 = .ok (.addiC ⟨9, BitVec.ofInt 5 (-3)⟩)
  ∧ decodeWord 32 0xFFA20D09 = .ok (.br ⟨3, 4, BitVec.ofInt 12 (-6), .lt⟩)
  ∧ decodeWord 64 0x000048D3860A400F = .ok (.vfmaX ⟨4, plain 5, plain 6, ⟨7, true, false⟩, 3, .f32, .sr⟩)
  ∧ decodeWord 32 0x29419201 = .ok (.vadd ⟨4, plain 3, ⟨5, true, false⟩, .ui32⟩)
  ∧ decodeWord 64 0x00018800274C80BF = .ok (.topkm ⟨8, ⟨6, true, false⟩, ⟨7, true, false⟩, .f32, 3, false⟩)
  ∧ decodeWord 32 0x000001D9 = .ok (.waitc ⟨0, 0⟩) ∧ decodeWord 32 0x001F81D9 = .ok (.waitc ⟨63, 0⟩)
  ∧ decodeWord 64 0x028600000006910B = .ok (.bfx ⟨9, plain 3, 0, 12, 20⟩)
  ∧ decodeWord 64 0x00000000000A2A0B = .ok (.evrd ⟨2, plain 5⟩)
  ∧ decodeWord 64 0x00000000000E2C13 = .ok (.lresume ⟨2, plain 7, 0, false⟩)
  ∧ decodeWord 64 0x0001000901401823 = .ok (.gmma ⟨1, 0, 0, 5, 0, .bf16, false, true⟩)
  ∧ decodeWord 64 0x0000000A0201082F = .ok (.gacc ⟨2, 0, 8, .f32, .rne, false, false⟩)
  ∧ decodeWord 64 0x018000074B004607 = .ok (.xgather ⟨4, 0, 12, 7, 9, .none, false, 24⟩)
  ∧ decodeWord 64 0x007A00004B004B27 = .ok (.bred ⟨4, 12, 9, false, .add, .f32, 7⟩)
  ∧ decodeWord 64 0x0041C8000012040B = .ok (.amo ⟨0, plain 9, plain 0, 0, .pkg, .acqrel, .ui64, .swap, 0⟩)
  ∧ decodeWord 64 0x0006000048005B1F = .ok (.collAllred ⟨5, 9, .i32, .add⟩)
  ∧ decodeWord 64 0x00008000000C5B0F = .ok (.fturn ⟨5, plain 6, 0, 1⟩)
  ∧ decodeWord 64 0x0081800000000B03 = .ok (.bar ⟨0, plain 0, 0, 3, .pkg⟩)
  ∧ decodeWord 64 0x0000000000005C0F = .ok (.enrd ⟨5, 0, 0⟩) ∧ decodeWord 64 0x0001000000005C0F = .ok (.enrd ⟨5, 0, 2⟩)
  ∧ decodeWord 16 0x003A = .ok (.doneC ⟨⟩)

/-- R40 to R56: DECODING AN ENCODED INSTRUCTION GIVES IT BACK, for every well-formed instruction that has words, with every operand
at every value that its encoding admits; the word has the length that its low bits announce. -/
def Obligations.EncodeDecode : Prop :=
  ∀ i n w, wf i = true → encode i = some (n, w) → decodeWord n w = .ok i ∧ w < 2 ^ n ∧ lengthOf (w % 65536) = n

/-- R55: A WORD THAT DECODES IS THE ENCODING of a well-formed instruction, so that no two words decode to one instruction and no
reserved encoding is accepted as another. -/
def Obligations.DecodeEncode : Prop :=
  ∀ i n w, (n = 16 ∨ n = 32 ∨ n = 64) → w < 2 ^ n → lengthOf (w % 65536) = n → decodeWord n w = .ok i →
    wf i = true ∧ encode i = some (n, w)

/-- EVERY STEP KEEPS THE CANONICAL FORM OF MEMORY, whatever the state, the instruction or the event. -/
def Obligations.MemoryStaysCanonical : Prop := ∀ s t, MemoryOk s → step s = .next t → MemoryOk t

/-- The memory at reset is canonical, and the reset values that spec/ gives: R23 the lane state, R13 Free lanes, R215 and R216 the
fault counters and the ring, R218 and R219 no hold and no comparator, R224 empty weight sets, R249 GSTAT, R339 HROUND, R361 and
R365 the flues, R376 the incarnations. -/
def Obligations.ResetState : Prop :=
  MemoryOk State.reset
  ∧ (∀ c l, let x := laneOf State.reset c l
      x.status = .free ∧ laneState x = BitVec.ofNat 512 (0xFFFFFFFFFFFFFFFF * 2 ^ 64 + 2 ^ 352)
      ∧ x.frz.frzreq = false ∧ x.frz.suppr = false ∧ x.frz.step = false)
  ∧ (∀ c, let k := coreOf State.reset c
      k.ctl.hold = false ∧ k.ctl.faultSeq = 0 ∧ k.ctl.cycles = 0 ∧ k.eng.sb = [] ∧ k.msg.arrival = []
      ∧ (∀ i : Fin 8, k.ctl.comparators[i] = ⟨0, 0, 0, false, false, false, 0⟩)
      ∧ ∀ i : Fin 2, k.stove.weights[i].fmt = none)
  ∧ (∀ d, let x := dieOf State.reset d
      x.fpqBase = 0 ∧ x.fpqSize = 0 ∧ x.fpqHead = 0 ∧ x.fpqTail = 0 ∧ x.fpqWait = [] ∧ x.inc = 0)
  ∧ (∀ q, (quadOf State.reset q).energy = 0 ∧ ∀ i : Fin 2, (quadOf State.reset q).gstat[i] = 0)
  ∧ (∀ f, (flueOf State.reset f).pwr = 3 ∧ (flueOf State.reset f).gab = (if f < 8 then 8 else 4)
      ∧ (flueOf State.reset f).drops = 0 ∧ (flueOf State.reset f).turns = 0)
  ∧ State.reset.hearth.hround = 512 ∧ State.reset.hearth.rounds = 0 ∧ State.reset.pkg.inc = 0 ∧ State.reset.pkg.launches = []

/-- R9: memory holds what was last written to it: a read of the bytes just written gives their value, a byte elsewhere is as it
was, and a write keeps the canonical form; a memory in that form is determined by what it reads as. -/
def Obligations.ReadAfterWrite : Prop :=
  (∀ (m : Memory) a n v, m.wf = true → memRead (memWrite m a n v) a n = v % 256 ^ n ∧ (memWrite m a n v).wf = true
    ∧ ∀ b, memGet (memWrite m a n v) b = if a ≤ b ∧ b < a + n then BitVec.ofNat 8 (v / 256 ^ (b - a)) else memGet m b)
  ∧ ∀ m m' : Memory, m.wf = true → m'.wf = true → (∀ a, memGet m a = memGet m' a) → m = m'

/-- NO STEP IS REFUSED: every instruction of the opcode table and every event has a meaning. -/
def Obligations.NeverRefused : Prop := ∀ s r, step s ≠ .refused r
end

