-- ==== Sys2Proof/Laws/State.lean ====
section
/-! SUPPORT. What each update of the state and of a lane leaves alone: one lemma per field per update, so that no later
proof unfolds a record update. -/

namespace Sys2Proof.Machine

/-! ### Updates of the machine -/

@[simp] theorem setCore_mem (s : State) (c : Nat) (k : Core) : (setCore s c k).mem = s.mem := rfl
@[simp] theorem setCore_poison (s : State) (c : Nat) (k : Core) : (setCore s c k).poison = s.poison := rfl
@[simp] theorem setCore_cores (s : State) (c : Nat) (k : Core) : (setCore s c k).cores = smSet s.cores c k := rfl
@[simp] theorem setCore_quads (s : State) (c : Nat) (k : Core) : (setCore s c k).quads = s.quads := rfl
@[simp] theorem setCore_dies (s : State) (c : Nat) (k : Core) : (setCore s c k).dies = s.dies := rfl
@[simp] theorem setCore_hearth (s : State) (c : Nat) (k : Core) : (setCore s c k).hearth = s.hearth := rfl
@[simp] theorem setCore_pkg (s : State) (c : Nat) (k : Core) : (setCore s c k).pkg = s.pkg := rfl
@[simp] theorem setCore_sched (s : State) (c : Nat) (k : Core) : (setCore s c k).sched = s.sched := rfl

@[simp] theorem onCore_mem (s : State) (c : Nat) (f : Core → Core) : (onCore s c f).mem = s.mem := rfl
@[simp] theorem onCore_poison (s : State) (c : Nat) (f : Core → Core) : (onCore s c f).poison = s.poison := rfl
@[simp] theorem onCore_cores (s : State) (c : Nat) (f : Core → Core) : (onCore s c f).cores = smSet s.cores c (f (coreOf s c)) := rfl
@[simp] theorem onCore_quads (s : State) (c : Nat) (f : Core → Core) : (onCore s c f).quads = s.quads := rfl
@[simp] theorem onCore_dies (s : State) (c : Nat) (f : Core → Core) : (onCore s c f).dies = s.dies := rfl
@[simp] theorem onCore_hearth (s : State) (c : Nat) (f : Core → Core) : (onCore s c f).hearth = s.hearth := rfl
@[simp] theorem onCore_pkg (s : State) (c : Nat) (f : Core → Core) : (onCore s c f).pkg = s.pkg := rfl
@[simp] theorem onCore_sched (s : State) (c : Nat) (f : Core → Core) : (onCore s c f).sched = s.sched := rfl

@[simp] theorem setLane_mem (s : State) (c l : Nat) (x : Lane) : (setLane s c l x).mem = s.mem := rfl
@[simp] theorem setLane_poison (s : State) (c l : Nat) (x : Lane) : (setLane s c l x).poison = s.poison := rfl
@[simp] theorem setLane_cores (s : State) (c l : Nat) (x : Lane) : (setLane s c l x).cores = smSet s.cores c (setLaneC (coreOf s c) l x) := rfl
@[simp] theorem setLane_quads (s : State) (c l : Nat) (x : Lane) : (setLane s c l x).quads = s.quads := rfl
@[simp] theorem setLane_dies (s : State) (c l : Nat) (x : Lane) : (setLane s c l x).dies = s.dies := rfl
@[simp] theorem setLane_hearth (s : State) (c l : Nat) (x : Lane) : (setLane s c l x).hearth = s.hearth := rfl
@[simp] theorem setLane_pkg (s : State) (c l : Nat) (x : Lane) : (setLane s c l x).pkg = s.pkg := rfl
@[simp] theorem setLane_sched (s : State) (c l : Nat) (x : Lane) : (setLane s c l x).sched = s.sched := rfl

@[simp] theorem onLaneAt_mem (s : State) (c l : Nat) (f : Lane → Lane) : (onLaneAt s c l f).mem = s.mem := rfl
@[simp] theorem onLaneAt_poison (s : State) (c l : Nat) (f : Lane → Lane) : (onLaneAt s c l f).poison = s.poison := rfl
@[simp] theorem onLaneAt_quads (s : State) (c l : Nat) (f : Lane → Lane) : (onLaneAt s c l f).quads = s.quads := rfl
@[simp] theorem onLaneAt_dies (s : State) (c l : Nat) (f : Lane → Lane) : (onLaneAt s c l f).dies = s.dies := rfl
@[simp] theorem onLaneAt_hearth (s : State) (c l : Nat) (f : Lane → Lane) : (onLaneAt s c l f).hearth = s.hearth := rfl
@[simp] theorem onLaneAt_pkg (s : State) (c l : Nat) (f : Lane → Lane) : (onLaneAt s c l f).pkg = s.pkg := rfl
@[simp] theorem onLaneAt_sched (s : State) (c l : Nat) (f : Lane → Lane) : (onLaneAt s c l f).sched = s.sched := rfl

@[simp] theorem setCur_mem (s : State) (x : Lane) : (setCur s x).mem = s.mem := rfl
@[simp] theorem setCur_poison (s : State) (x : Lane) : (setCur s x).poison = s.poison := rfl
@[simp] theorem setCur_quads (s : State) (x : Lane) : (setCur s x).quads = s.quads := rfl
@[simp] theorem setCur_dies (s : State) (x : Lane) : (setCur s x).dies = s.dies := rfl
@[simp] theorem setCur_hearth (s : State) (x : Lane) : (setCur s x).hearth = s.hearth := rfl
@[simp] theorem setCur_pkg (s : State) (x : Lane) : (setCur s x).pkg = s.pkg := rfl
@[simp] theorem setCur_sched (s : State) (x : Lane) : (setCur s x).sched = s.sched := rfl

@[simp] theorem onCurCore_mem (s : State) (f : Core → Core) : (onCurCore s f).mem = s.mem := rfl
@[simp] theorem onCurCore_poison (s : State) (f : Core → Core) : (onCurCore s f).poison = s.poison := rfl
@[simp] theorem onCurCore_quads (s : State) (f : Core → Core) : (onCurCore s f).quads = s.quads := rfl
@[simp] theorem onCurCore_dies (s : State) (f : Core → Core) : (onCurCore s f).dies = s.dies := rfl
@[simp] theorem onCurCore_hearth (s : State) (f : Core → Core) : (onCurCore s f).hearth = s.hearth := rfl
@[simp] theorem onCurCore_pkg (s : State) (f : Core → Core) : (onCurCore s f).pkg = s.pkg := rfl
@[simp] theorem onCurCore_sched (s : State) (f : Core → Core) : (onCurCore s f).sched = s.sched := rfl

@[simp] theorem onQuad_mem (s : State) (q : Nat) (f : Quad → Quad) : (onQuad s q f).mem = s.mem := rfl
@[simp] theorem onQuad_poison (s : State) (q : Nat) (f : Quad → Quad) : (onQuad s q f).poison = s.poison := rfl
@[simp] theorem onQuad_cores (s : State) (q : Nat) (f : Quad → Quad) : (onQuad s q f).cores = s.cores := rfl
@[simp] theorem onQuad_quads (s : State) (q : Nat) (f : Quad → Quad) : (onQuad s q f).quads = smSet s.quads q (f (quadOf s q)) := rfl
@[simp] theorem onQuad_dies (s : State) (q : Nat) (f : Quad → Quad) : (onQuad s q f).dies = s.dies := rfl
@[simp] theorem onQuad_hearth (s : State) (q : Nat) (f : Quad → Quad) : (onQuad s q f).hearth = s.hearth := rfl
@[simp] theorem onQuad_pkg (s : State) (q : Nat) (f : Quad → Quad) : (onQuad s q f).pkg = s.pkg := rfl
@[simp] theorem onQuad_sched (s : State) (q : Nat) (f : Quad → Quad) : (onQuad s q f).sched = s.sched := rfl

@[simp] theorem onDie_mem (s : State) (d : Nat) (f : Die → Die) : (onDie s d f).mem = s.mem := rfl
@[simp] theorem onDie_poison (s : State) (d : Nat) (f : Die → Die) : (onDie s d f).poison = s.poison := rfl
@[simp] theorem onDie_cores (s : State) (d : Nat) (f : Die → Die) : (onDie s d f).cores = s.cores := rfl
@[simp] theorem onDie_quads (s : State) (d : Nat) (f : Die → Die) : (onDie s d f).quads = s.quads := rfl
@[simp] theorem onDie_dies (s : State) (d : Nat) (f : Die → Die) : (onDie s d f).dies = smSet s.dies d (f (dieOf s d)) := rfl
@[simp] theorem onDie_hearth (s : State) (d : Nat) (f : Die → Die) : (onDie s d f).hearth = s.hearth := rfl
@[simp] theorem onDie_pkg (s : State) (d : Nat) (f : Die → Die) : (onDie s d f).pkg = s.pkg := rfl
@[simp] theorem onDie_sched (s : State) (d : Nat) (f : Die → Die) : (onDie s d f).sched = s.sched := rfl

@[simp] theorem onHearth_mem (s : State) (f : Hearth → Hearth) : (onHearth s f).mem = s.mem := rfl
@[simp] theorem onHearth_poison (s : State) (f : Hearth → Hearth) : (onHearth s f).poison = s.poison := rfl
@[simp] theorem onHearth_cores (s : State) (f : Hearth → Hearth) : (onHearth s f).cores = s.cores := rfl
@[simp] theorem onHearth_quads (s : State) (f : Hearth → Hearth) : (onHearth s f).quads = s.quads := rfl
@[simp] theorem onHearth_dies (s : State) (f : Hearth → Hearth) : (onHearth s f).dies = s.dies := rfl
@[simp] theorem onHearth_hearth (s : State) (f : Hearth → Hearth) : (onHearth s f).hearth = f s.hearth := rfl
@[simp] theorem onHearth_pkg (s : State) (f : Hearth → Hearth) : (onHearth s f).pkg = s.pkg := rfl
@[simp] theorem onHearth_sched (s : State) (f : Hearth → Hearth) : (onHearth s f).sched = s.sched := rfl

@[simp] theorem onPkg_mem (s : State) (f : Pkg → Pkg) : (onPkg s f).mem = s.mem := rfl
@[simp] theorem onPkg_poison (s : State) (f : Pkg → Pkg) : (onPkg s f).poison = s.poison := rfl
@[simp] theorem onPkg_cores (s : State) (f : Pkg → Pkg) : (onPkg s f).cores = s.cores := rfl
@[simp] theorem onPkg_quads (s : State) (f : Pkg → Pkg) : (onPkg s f).quads = s.quads := rfl
@[simp] theorem onPkg_dies (s : State) (f : Pkg → Pkg) : (onPkg s f).dies = s.dies := rfl
@[simp] theorem onPkg_hearth (s : State) (f : Pkg → Pkg) : (onPkg s f).hearth = s.hearth := rfl
@[simp] theorem onPkg_pkg (s : State) (f : Pkg → Pkg) : (onPkg s f).pkg = f s.pkg := rfl
@[simp] theorem onPkg_sched (s : State) (f : Pkg → Pkg) : (onPkg s f).sched = s.sched := rfl

@[simp] theorem onMem_mem (s : State) (f : Memory → Memory) : (onMem s f).mem = f s.mem := rfl
@[simp] theorem onMem_poison (s : State) (f : Memory → Memory) : (onMem s f).poison = s.poison := rfl
@[simp] theorem onMem_cores (s : State) (f : Memory → Memory) : (onMem s f).cores = s.cores := rfl
@[simp] theorem onMem_quads (s : State) (f : Memory → Memory) : (onMem s f).quads = s.quads := rfl
@[simp] theorem onMem_dies (s : State) (f : Memory → Memory) : (onMem s f).dies = s.dies := rfl
@[simp] theorem onMem_hearth (s : State) (f : Memory → Memory) : (onMem s f).hearth = s.hearth := rfl
@[simp] theorem onMem_pkg (s : State) (f : Memory → Memory) : (onMem s f).pkg = s.pkg := rfl
@[simp] theorem onMem_sched (s : State) (f : Memory → Memory) : (onMem s f).sched = s.sched := rfl

@[simp] theorem due_mem (s : State) (t : Turn) : (due s t).mem = s.mem := rfl
@[simp] theorem due_poison (s : State) (t : Turn) : (due s t).poison = s.poison := rfl
@[simp] theorem due_cores (s : State) (t : Turn) : (due s t).cores = s.cores := rfl
@[simp] theorem due_quads (s : State) (t : Turn) : (due s t).quads = s.quads := rfl
@[simp] theorem due_dies (s : State) (t : Turn) : (due s t).dies = s.dies := rfl
@[simp] theorem due_hearth (s : State) (t : Turn) : (due s t).hearth = s.hearth := rfl
@[simp] theorem due_pkg (s : State) (t : Turn) : (due s t).pkg = s.pkg := rfl

@[simp] theorem dueEvent_mem (s : State) (d : Due) : (dueEvent s d).mem = s.mem := rfl
@[simp] theorem dueEvent_poison (s : State) (d : Due) : (dueEvent s d).poison = s.poison := rfl
@[simp] theorem dueEvent_cores (s : State) (d : Due) : (dueEvent s d).cores = s.cores := rfl
@[simp] theorem dueEvent_quads (s : State) (d : Due) : (dueEvent s d).quads = s.quads := rfl
@[simp] theorem dueEvent_dies (s : State) (d : Due) : (dueEvent s d).dies = s.dies := rfl
@[simp] theorem dueEvent_hearth (s : State) (d : Due) : (dueEvent s d).hearth = s.hearth := rfl
@[simp] theorem dueEvent_pkg (s : State) (d : Due) : (dueEvent s d).pkg = s.pkg := rfl

@[simp] theorem draw_mem (s : State) : (draw s).mem = s.mem := rfl
@[simp] theorem draw_poison (s : State) : (draw s).poison = s.poison := rfl
@[simp] theorem draw_cores (s : State) : (draw s).cores = s.cores := rfl
@[simp] theorem draw_quads (s : State) : (draw s).quads = s.quads := rfl
@[simp] theorem draw_dies (s : State) : (draw s).dies = s.dies := rfl
@[simp] theorem draw_hearth (s : State) : (draw s).hearth = s.hearth := rfl
@[simp] theorem draw_pkg (s : State) : (draw s).pkg = s.pkg := rfl

@[simp] theorem sampleTime_mem (s : State) : (sampleTime s).mem = s.mem := rfl
@[simp] theorem sampleTime_poison (s : State) : (sampleTime s).poison = s.poison := rfl
@[simp] theorem sampleTime_cores (s : State) : (sampleTime s).cores = s.cores := rfl
@[simp] theorem sampleTime_quads (s : State) : (sampleTime s).quads = s.quads := rfl
@[simp] theorem sampleTime_dies (s : State) : (sampleTime s).dies = s.dies := rfl
@[simp] theorem sampleTime_hearth (s : State) : (sampleTime s).hearth = s.hearth := rfl
@[simp] theorem sampleTime_pkg (s : State) : (sampleTime s).pkg = s.pkg := rfl

@[simp] theorem setFlue_mem (s : State) (f : Nat) (x : Flue) : (setFlue s f x).mem = s.mem := rfl
@[simp] theorem setFlue_poison (s : State) (f : Nat) (x : Flue) : (setFlue s f x).poison = s.poison := rfl
@[simp] theorem setFlue_cores (s : State) (f : Nat) (x : Flue) : (setFlue s f x).cores = s.cores := rfl
@[simp] theorem setFlue_quads (s : State) (f : Nat) (x : Flue) : (setFlue s f x).quads = s.quads := rfl
@[simp] theorem setFlue_dies (s : State) (f : Nat) (x : Flue) : (setFlue s f x).dies = s.dies := rfl
@[simp] theorem setFlue_hearth (s : State) (f : Nat) (x : Flue) : (setFlue s f x).hearth = s.hearth := rfl
@[simp] theorem setFlue_sched (s : State) (f : Nat) (x : Flue) : (setFlue s f x).sched = s.sched := rfl

/-! ### Updates of a lane -/

@[simp] theorem putX_pc (l : Lane) (r : Reg) (a : X) : (putX l r a).pc = l.pc := by unfold putX; split <;> rfl
@[simp] theorem putX_firing (l : Lane) (r : Reg) (a : X) : (putX l r a).firing = l.firing := by unfold putX; split <;> rfl
@[simp] theorem putX_loop (l : Lane) (r : Reg) (a : X) : (putX l r a).loop = l.loop := by unfold putX; split <;> rfl
@[simp] theorem putX_lcnt (l : Lane) (r : Reg) (a : X) : (putX l r a).lcnt = l.lcnt := by unfold putX; split <;> rfl
@[simp] theorem putX_scnt (l : Lane) (r : Reg) (a : X) : (putX l r a).scnt = l.scnt := by unfold putX; split <;> rfl
@[simp] theorem putX_oldStores (l : Lane) (r : Reg) (a : X) : (putX l r a).oldStores = l.oldStores := by unfold putX; split <;> rfl
@[simp] theorem putX_instcnt (l : Lane) (r : Reg) (a : X) : (putX l r a).instcnt = l.instcnt := by unfold putX; split <;> rfl
@[simp] theorem putX_sr (l : Lane) (r : Reg) (a : X) : (putX l r a).sr = l.sr := by unfold putX; split <;> rfl
@[simp] theorem putX_status (l : Lane) (r : Reg) (a : X) : (putX l r a).status = l.status := by unfold putX; split <;> rfl
@[simp] theorem putX_wait (l : Lane) (r : Reg) (a : X) : (putX l r a).wait = l.wait := by unfold putX; split <;> rfl
@[simp] theorem putX_results (l : Lane) (r : Reg) (a : X) : (putX l r a).results = l.results := by unfold putX; split <;> rfl
@[simp] theorem putX_aged (l : Lane) (r : Reg) (a : X) : (putX l r a).aged = l.aged := by unfold putX; split <;> rfl
@[simp] theorem putX_waitCount (l : Lane) (r : Reg) (a : X) : (putX l r a).waitCount = l.waitCount := by unfold putX; split <;> rfl
@[simp] theorem putX_frz (l : Lane) (r : Reg) (a : X) : (putX l r a).frz = l.frz := by unfold putX; split <;> rfl
@[simp] theorem putX_ras (l : Lane) (r : Reg) (a : X) : (putX l r a).ras = l.ras := by unfold putX; split <;> rfl
@[simp] theorem putX_frame (l : Lane) (r : Reg) (a : X) : (putX l r a).frame = l.frame := by unfold putX; split <;> rfl
@[simp] theorem putX_firstTry (l : Lane) (r : Reg) (a : X) : (putX l r a).firstTry = l.firstTry := by unfold putX; split <;> rfl
@[simp] theorem putX_group (l : Lane) (r : Reg) (a : X) : (putX l r a).group = l.group := by unfold putX; split <;> rfl
@[simp] theorem putX_waitInstr (l : Lane) (r : Reg) (a : X) : (putX l r a).waitInstr = l.waitInstr := by unfold putX; split <;> rfl

@[simp] theorem putV_pc (l : Lane) (r : Reg) (a : V) : (putV l r a).pc = l.pc := rfl
@[simp] theorem putV_firing (l : Lane) (r : Reg) (a : V) : (putV l r a).firing = l.firing := rfl
@[simp] theorem putV_loop (l : Lane) (r : Reg) (a : V) : (putV l r a).loop = l.loop := rfl
@[simp] theorem putV_lcnt (l : Lane) (r : Reg) (a : V) : (putV l r a).lcnt = l.lcnt := rfl
@[simp] theorem putV_scnt (l : Lane) (r : Reg) (a : V) : (putV l r a).scnt = l.scnt := rfl
@[simp] theorem putV_oldStores (l : Lane) (r : Reg) (a : V) : (putV l r a).oldStores = l.oldStores := rfl
@[simp] theorem putV_instcnt (l : Lane) (r : Reg) (a : V) : (putV l r a).instcnt = l.instcnt := rfl
@[simp] theorem putV_sr (l : Lane) (r : Reg) (a : V) : (putV l r a).sr = l.sr := rfl
@[simp] theorem putV_status (l : Lane) (r : Reg) (a : V) : (putV l r a).status = l.status := rfl
@[simp] theorem putV_wait (l : Lane) (r : Reg) (a : V) : (putV l r a).wait = l.wait := rfl
@[simp] theorem putV_results (l : Lane) (r : Reg) (a : V) : (putV l r a).results = l.results := rfl
@[simp] theorem putV_aged (l : Lane) (r : Reg) (a : V) : (putV l r a).aged = l.aged := rfl
@[simp] theorem putV_waitCount (l : Lane) (r : Reg) (a : V) : (putV l r a).waitCount = l.waitCount := rfl
@[simp] theorem putV_frz (l : Lane) (r : Reg) (a : V) : (putV l r a).frz = l.frz := rfl
@[simp] theorem putV_ras (l : Lane) (r : Reg) (a : V) : (putV l r a).ras = l.ras := rfl
@[simp] theorem putV_frame (l : Lane) (r : Reg) (a : V) : (putV l r a).frame = l.frame := rfl
@[simp] theorem putV_firstTry (l : Lane) (r : Reg) (a : V) : (putV l r a).firstTry = l.firstTry := rfl
@[simp] theorem putV_group (l : Lane) (r : Reg) (a : V) : (putV l r a).group = l.group := rfl
@[simp] theorem putV_waitInstr (l : Lane) (r : Reg) (a : V) : (putV l r a).waitInstr = l.waitInstr := rfl

@[simp] theorem putP_marks (l : Lane) (r : PReg) (a : P) : (putP l r a).marks = l.marks := by unfold putP; split <;> rfl
@[simp] theorem putP_pc (l : Lane) (r : PReg) (a : P) : (putP l r a).pc = l.pc := by unfold putP; split <;> rfl
@[simp] theorem putP_firing (l : Lane) (r : PReg) (a : P) : (putP l r a).firing = l.firing := by unfold putP; split <;> rfl
@[simp] theorem putP_loop (l : Lane) (r : PReg) (a : P) : (putP l r a).loop = l.loop := by unfold putP; split <;> rfl
@[simp] theorem putP_lcnt (l : Lane) (r : PReg) (a : P) : (putP l r a).lcnt = l.lcnt := by unfold putP; split <;> rfl
@[simp] theorem putP_scnt (l : Lane) (r : PReg) (a : P) : (putP l r a).scnt = l.scnt := by unfold putP; split <;> rfl
@[simp] theorem putP_oldStores (l : Lane) (r : PReg) (a : P) : (putP l r a).oldStores = l.oldStores := by unfold putP; split <;> rfl
@[simp] theorem putP_instcnt (l : Lane) (r : PReg) (a : P) : (putP l r a).instcnt = l.instcnt := by unfold putP; split <;> rfl
@[simp] theorem putP_sr (l : Lane) (r : PReg) (a : P) : (putP l r a).sr = l.sr := by unfold putP; split <;> rfl
@[simp] theorem putP_status (l : Lane) (r : PReg) (a : P) : (putP l r a).status = l.status := by unfold putP; split <;> rfl
@[simp] theorem putP_wait (l : Lane) (r : PReg) (a : P) : (putP l r a).wait = l.wait := by unfold putP; split <;> rfl
@[simp] theorem putP_results (l : Lane) (r : PReg) (a : P) : (putP l r a).results = l.results := by unfold putP; split <;> rfl
@[simp] theorem putP_aged (l : Lane) (r : PReg) (a : P) : (putP l r a).aged = l.aged := by unfold putP; split <;> rfl
@[simp] theorem putP_waitCount (l : Lane) (r : PReg) (a : P) : (putP l r a).waitCount = l.waitCount := by unfold putP; split <;> rfl
@[simp] theorem putP_frz (l : Lane) (r : PReg) (a : P) : (putP l r a).frz = l.frz := by unfold putP; split <;> rfl
@[simp] theorem putP_ras (l : Lane) (r : PReg) (a : P) : (putP l r a).ras = l.ras := by unfold putP; split <;> rfl
@[simp] theorem putP_frame (l : Lane) (r : PReg) (a : P) : (putP l r a).frame = l.frame := by unfold putP; split <;> rfl
@[simp] theorem putP_firstTry (l : Lane) (r : PReg) (a : P) : (putP l r a).firstTry = l.firstTry := by unfold putP; split <;> rfl
@[simp] theorem putP_group (l : Lane) (r : PReg) (a : P) : (putP l r a).group = l.group := by unfold putP; split <;> rfl
@[simp] theorem putP_waitInstr (l : Lane) (r : PReg) (a : P) : (putP l r a).waitInstr = l.waitInstr := by unfold putP; split <;> rfl

@[simp] theorem killOpnd_regs (l : Lane) (o : Opnd) : (killOpnd l o).regs = l.regs := by unfold killOpnd; cases o <;> dsimp only <;> split <;> rfl
@[simp] theorem killOpnd_pc (l : Lane) (o : Opnd) : (killOpnd l o).pc = l.pc := by unfold killOpnd; cases o <;> dsimp only <;> split <;> rfl
@[simp] theorem killOpnd_firing (l : Lane) (o : Opnd) : (killOpnd l o).firing = l.firing := by unfold killOpnd; cases o <;> dsimp only <;> split <;> rfl
@[simp] theorem killOpnd_loop (l : Lane) (o : Opnd) : (killOpnd l o).loop = l.loop := by unfold killOpnd; cases o <;> dsimp only <;> split <;> rfl
@[simp] theorem killOpnd_lcnt (l : Lane) (o : Opnd) : (killOpnd l o).lcnt = l.lcnt := by unfold killOpnd; cases o <;> dsimp only <;> split <;> rfl
@[simp] theorem killOpnd_scnt (l : Lane) (o : Opnd) : (killOpnd l o).scnt = l.scnt := by unfold killOpnd; cases o <;> dsimp only <;> split <;> rfl
@[simp] theorem killOpnd_oldStores (l : Lane) (o : Opnd) : (killOpnd l o).oldStores = l.oldStores := by unfold killOpnd; cases o <;> dsimp only <;> split <;> rfl
@[simp] theorem killOpnd_instcnt (l : Lane) (o : Opnd) : (killOpnd l o).instcnt = l.instcnt := by unfold killOpnd; cases o <;> dsimp only <;> split <;> rfl
@[simp] theorem killOpnd_sr (l : Lane) (o : Opnd) : (killOpnd l o).sr = l.sr := by unfold killOpnd; cases o <;> dsimp only <;> split <;> rfl
@[simp] theorem killOpnd_status (l : Lane) (o : Opnd) : (killOpnd l o).status = l.status := by unfold killOpnd; cases o <;> dsimp only <;> split <;> rfl
@[simp] theorem killOpnd_wait (l : Lane) (o : Opnd) : (killOpnd l o).wait = l.wait := by unfold killOpnd; cases o <;> dsimp only <;> split <;> rfl
@[simp] theorem killOpnd_results (l : Lane) (o : Opnd) : (killOpnd l o).results = l.results := by unfold killOpnd; cases o <;> dsimp only <;> split <;> rfl
@[simp] theorem killOpnd_aged (l : Lane) (o : Opnd) : (killOpnd l o).aged = l.aged := by unfold killOpnd; cases o <;> dsimp only <;> split <;> rfl
@[simp] theorem killOpnd_waitCount (l : Lane) (o : Opnd) : (killOpnd l o).waitCount = l.waitCount := by unfold killOpnd; cases o <;> dsimp only <;> split <;> rfl
@[simp] theorem killOpnd_frz (l : Lane) (o : Opnd) : (killOpnd l o).frz = l.frz := by unfold killOpnd; cases o <;> dsimp only <;> split <;> rfl
@[simp] theorem killOpnd_ras (l : Lane) (o : Opnd) : (killOpnd l o).ras = l.ras := by unfold killOpnd; cases o <;> dsimp only <;> split <;> rfl
@[simp] theorem killOpnd_frame (l : Lane) (o : Opnd) : (killOpnd l o).frame = l.frame := by unfold killOpnd; cases o <;> dsimp only <;> split <;> rfl
@[simp] theorem killOpnd_firstTry (l : Lane) (o : Opnd) : (killOpnd l o).firstTry = l.firstTry := by unfold killOpnd; cases o <;> dsimp only <;> split <;> rfl
@[simp] theorem killOpnd_group (l : Lane) (o : Opnd) : (killOpnd l o).group = l.group := by unfold killOpnd; cases o <;> dsimp only <;> split <;> rfl
@[simp] theorem killOpnd_waitInstr (l : Lane) (o : Opnd) : (killOpnd l o).waitInstr = l.waitInstr := by unfold killOpnd; cases o <;> dsimp only <;> split <;> rfl

@[simp] theorem kill_regs (l : Lane) (o : List Opnd) : (kill l o).regs = l.regs := by
  induction o generalizing l with
  | nil => rfl
  | cons a t ih => simp only [kill, List.foldl_cons] at ih ⊢; rw [ih]; simp
@[simp] theorem kill_pc (l : Lane) (o : List Opnd) : (kill l o).pc = l.pc := by
  induction o generalizing l with
  | nil => rfl
  | cons a t ih => simp only [kill, List.foldl_cons] at ih ⊢; rw [ih]; simp
@[simp] theorem kill_firing (l : Lane) (o : List Opnd) : (kill l o).firing = l.firing := by
  induction o generalizing l with
  | nil => rfl
  | cons a t ih => simp only [kill, List.foldl_cons] at ih ⊢; rw [ih]; simp
@[simp] theorem kill_loop (l : Lane) (o : List Opnd) : (kill l o).loop = l.loop := by
  induction o generalizing l with
  | nil => rfl
  | cons a t ih => simp only [kill, List.foldl_cons] at ih ⊢; rw [ih]; simp
@[simp] theorem kill_lcnt (l : Lane) (o : List Opnd) : (kill l o).lcnt = l.lcnt := by
  induction o generalizing l with
  | nil => rfl
  | cons a t ih => simp only [kill, List.foldl_cons] at ih ⊢; rw [ih]; simp
@[simp] theorem kill_scnt (l : Lane) (o : List Opnd) : (kill l o).scnt = l.scnt := by
  induction o generalizing l with
  | nil => rfl
  | cons a t ih => simp only [kill, List.foldl_cons] at ih ⊢; rw [ih]; simp
@[simp] theorem kill_oldStores (l : Lane) (o : List Opnd) : (kill l o).oldStores = l.oldStores := by
  induction o generalizing l with
  | nil => rfl
  | cons a t ih => simp only [kill, List.foldl_cons] at ih ⊢; rw [ih]; simp
@[simp] theorem kill_instcnt (l : Lane) (o : List Opnd) : (kill l o).instcnt = l.instcnt := by
  induction o generalizing l with
  | nil => rfl
  | cons a t ih => simp only [kill, List.foldl_cons] at ih ⊢; rw [ih]; simp
@[simp] theorem kill_sr (l : Lane) (o : List Opnd) : (kill l o).sr = l.sr := by
  induction o generalizing l with
  | nil => rfl
  | cons a t ih => simp only [kill, List.foldl_cons] at ih ⊢; rw [ih]; simp
@[simp] theorem kill_status (l : Lane) (o : List Opnd) : (kill l o).status = l.status := by
  induction o generalizing l with
  | nil => rfl
  | cons a t ih => simp only [kill, List.foldl_cons] at ih ⊢; rw [ih]; simp
@[simp] theorem kill_wait (l : Lane) (o : List Opnd) : (kill l o).wait = l.wait := by
  induction o generalizing l with
  | nil => rfl
  | cons a t ih => simp only [kill, List.foldl_cons] at ih ⊢; rw [ih]; simp
@[simp] theorem kill_results (l : Lane) (o : List Opnd) : (kill l o).results = l.results := by
  induction o generalizing l with
  | nil => rfl
  | cons a t ih => simp only [kill, List.foldl_cons] at ih ⊢; rw [ih]; simp
@[simp] theorem kill_aged (l : Lane) (o : List Opnd) : (kill l o).aged = l.aged := by
  induction o generalizing l with
  | nil => rfl
  | cons a t ih => simp only [kill, List.foldl_cons] at ih ⊢; rw [ih]; simp
@[simp] theorem kill_waitCount (l : Lane) (o : List Opnd) : (kill l o).waitCount = l.waitCount := by
  induction o generalizing l with
  | nil => rfl
  | cons a t ih => simp only [kill, List.foldl_cons] at ih ⊢; rw [ih]; simp
@[simp] theorem kill_frz (l : Lane) (o : List Opnd) : (kill l o).frz = l.frz := by
  induction o generalizing l with
  | nil => rfl
  | cons a t ih => simp only [kill, List.foldl_cons] at ih ⊢; rw [ih]; simp
@[simp] theorem kill_ras (l : Lane) (o : List Opnd) : (kill l o).ras = l.ras := by
  induction o generalizing l with
  | nil => rfl
  | cons a t ih => simp only [kill, List.foldl_cons] at ih ⊢; rw [ih]; simp
@[simp] theorem kill_frame (l : Lane) (o : List Opnd) : (kill l o).frame = l.frame := by
  induction o generalizing l with
  | nil => rfl
  | cons a t ih => simp only [kill, List.foldl_cons] at ih ⊢; rw [ih]; simp
@[simp] theorem kill_firstTry (l : Lane) (o : List Opnd) : (kill l o).firstTry = l.firstTry := by
  induction o generalizing l with
  | nil => rfl
  | cons a t ih => simp only [kill, List.foldl_cons] at ih ⊢; rw [ih]; simp
@[simp] theorem kill_group (l : Lane) (o : List Opnd) : (kill l o).group = l.group := by
  induction o generalizing l with
  | nil => rfl
  | cons a t ih => simp only [kill, List.foldl_cons] at ih ⊢; rw [ih]; simp
@[simp] theorem kill_waitInstr (l : Lane) (o : List Opnd) : (kill l o).waitInstr = l.waitInstr := by
  induction o generalizing l with
  | nil => rfl
  | cons a t ih => simp only [kill, List.foldl_cons] at ih ⊢; rw [ih]; simp

@[simp] theorem emptyDest_regs (l : Lane) (d : Dest) : (emptyDest l d).regs = l.regs := by unfold emptyDest; cases d <;> dsimp only <;> (try split) <;> rfl
@[simp] theorem emptyDest_pc (l : Lane) (d : Dest) : (emptyDest l d).pc = l.pc := by unfold emptyDest; cases d <;> dsimp only <;> (try split) <;> rfl
@[simp] theorem emptyDest_firing (l : Lane) (d : Dest) : (emptyDest l d).firing = l.firing := by unfold emptyDest; cases d <;> dsimp only <;> (try split) <;> rfl
@[simp] theorem emptyDest_loop (l : Lane) (d : Dest) : (emptyDest l d).loop = l.loop := by unfold emptyDest; cases d <;> dsimp only <;> (try split) <;> rfl
@[simp] theorem emptyDest_lcnt (l : Lane) (d : Dest) : (emptyDest l d).lcnt = l.lcnt := by unfold emptyDest; cases d <;> dsimp only <;> (try split) <;> rfl
@[simp] theorem emptyDest_scnt (l : Lane) (d : Dest) : (emptyDest l d).scnt = l.scnt := by unfold emptyDest; cases d <;> dsimp only <;> (try split) <;> rfl
@[simp] theorem emptyDest_oldStores (l : Lane) (d : Dest) : (emptyDest l d).oldStores = l.oldStores := by unfold emptyDest; cases d <;> dsimp only <;> (try split) <;> rfl
@[simp] theorem emptyDest_instcnt (l : Lane) (d : Dest) : (emptyDest l d).instcnt = l.instcnt := by unfold emptyDest; cases d <;> dsimp only <;> (try split) <;> rfl
@[simp] theorem emptyDest_sr (l : Lane) (d : Dest) : (emptyDest l d).sr = l.sr := by unfold emptyDest; cases d <;> dsimp only <;> (try split) <;> rfl
@[simp] theorem emptyDest_status (l : Lane) (d : Dest) : (emptyDest l d).status = l.status := by unfold emptyDest; cases d <;> dsimp only <;> (try split) <;> rfl
@[simp] theorem emptyDest_wait (l : Lane) (d : Dest) : (emptyDest l d).wait = l.wait := by unfold emptyDest; cases d <;> dsimp only <;> (try split) <;> rfl
@[simp] theorem emptyDest_results (l : Lane) (d : Dest) : (emptyDest l d).results = l.results := by unfold emptyDest; cases d <;> dsimp only <;> (try split) <;> rfl
@[simp] theorem emptyDest_aged (l : Lane) (d : Dest) : (emptyDest l d).aged = l.aged := by unfold emptyDest; cases d <;> dsimp only <;> (try split) <;> rfl
@[simp] theorem emptyDest_waitCount (l : Lane) (d : Dest) : (emptyDest l d).waitCount = l.waitCount := by unfold emptyDest; cases d <;> dsimp only <;> (try split) <;> rfl
@[simp] theorem emptyDest_frz (l : Lane) (d : Dest) : (emptyDest l d).frz = l.frz := by unfold emptyDest; cases d <;> dsimp only <;> (try split) <;> rfl
@[simp] theorem emptyDest_ras (l : Lane) (d : Dest) : (emptyDest l d).ras = l.ras := by unfold emptyDest; cases d <;> dsimp only <;> (try split) <;> rfl
@[simp] theorem emptyDest_frame (l : Lane) (d : Dest) : (emptyDest l d).frame = l.frame := by unfold emptyDest; cases d <;> dsimp only <;> (try split) <;> rfl
@[simp] theorem emptyDest_firstTry (l : Lane) (d : Dest) : (emptyDest l d).firstTry = l.firstTry := by unfold emptyDest; cases d <;> dsimp only <;> (try split) <;> rfl
@[simp] theorem emptyDest_group (l : Lane) (d : Dest) : (emptyDest l d).group = l.group := by unfold emptyDest; cases d <;> dsimp only <;> (try split) <;> rfl
@[simp] theorem emptyDest_waitInstr (l : Lane) (d : Dest) : (emptyDest l d).waitInstr = l.waitInstr := by unfold emptyDest; cases d <;> dsimp only <;> (try split) <;> rfl

@[simp] theorem fillDest_pc (l : Lane) (d : Dest) (a : V) : (fillDest l d a).pc = l.pc := by unfold fillDest; cases d <;> dsimp only <;> (try split) <;> rfl
@[simp] theorem fillDest_firing (l : Lane) (d : Dest) (a : V) : (fillDest l d a).firing = l.firing := by unfold fillDest; cases d <;> dsimp only <;> (try split) <;> rfl
@[simp] theorem fillDest_loop (l : Lane) (d : Dest) (a : V) : (fillDest l d a).loop = l.loop := by unfold fillDest; cases d <;> dsimp only <;> (try split) <;> rfl
@[simp] theorem fillDest_lcnt (l : Lane) (d : Dest) (a : V) : (fillDest l d a).lcnt = l.lcnt := by unfold fillDest; cases d <;> dsimp only <;> (try split) <;> rfl
@[simp] theorem fillDest_scnt (l : Lane) (d : Dest) (a : V) : (fillDest l d a).scnt = l.scnt := by unfold fillDest; cases d <;> dsimp only <;> (try split) <;> rfl
@[simp] theorem fillDest_oldStores (l : Lane) (d : Dest) (a : V) : (fillDest l d a).oldStores = l.oldStores := by unfold fillDest; cases d <;> dsimp only <;> (try split) <;> rfl
@[simp] theorem fillDest_instcnt (l : Lane) (d : Dest) (a : V) : (fillDest l d a).instcnt = l.instcnt := by unfold fillDest; cases d <;> dsimp only <;> (try split) <;> rfl
@[simp] theorem fillDest_sr (l : Lane) (d : Dest) (a : V) : (fillDest l d a).sr = l.sr := by unfold fillDest; cases d <;> dsimp only <;> (try split) <;> rfl
@[simp] theorem fillDest_status (l : Lane) (d : Dest) (a : V) : (fillDest l d a).status = l.status := by unfold fillDest; cases d <;> dsimp only <;> (try split) <;> rfl
@[simp] theorem fillDest_wait (l : Lane) (d : Dest) (a : V) : (fillDest l d a).wait = l.wait := by unfold fillDest; cases d <;> dsimp only <;> (try split) <;> rfl
@[simp] theorem fillDest_results (l : Lane) (d : Dest) (a : V) : (fillDest l d a).results = l.results := by unfold fillDest; cases d <;> dsimp only <;> (try split) <;> rfl
@[simp] theorem fillDest_aged (l : Lane) (d : Dest) (a : V) : (fillDest l d a).aged = l.aged := by unfold fillDest; cases d <;> dsimp only <;> (try split) <;> rfl
@[simp] theorem fillDest_waitCount (l : Lane) (d : Dest) (a : V) : (fillDest l d a).waitCount = l.waitCount := by unfold fillDest; cases d <;> dsimp only <;> (try split) <;> rfl
@[simp] theorem fillDest_frz (l : Lane) (d : Dest) (a : V) : (fillDest l d a).frz = l.frz := by unfold fillDest; cases d <;> dsimp only <;> (try split) <;> rfl
@[simp] theorem fillDest_ras (l : Lane) (d : Dest) (a : V) : (fillDest l d a).ras = l.ras := by unfold fillDest; cases d <;> dsimp only <;> (try split) <;> rfl
@[simp] theorem fillDest_frame (l : Lane) (d : Dest) (a : V) : (fillDest l d a).frame = l.frame := by unfold fillDest; cases d <;> dsimp only <;> (try split) <;> rfl
@[simp] theorem fillDest_firstTry (l : Lane) (d : Dest) (a : V) : (fillDest l d a).firstTry = l.firstTry := by unfold fillDest; cases d <;> dsimp only <;> (try split) <;> rfl
@[simp] theorem fillDest_group (l : Lane) (d : Dest) (a : V) : (fillDest l d a).group = l.group := by unfold fillDest; cases d <;> dsimp only <;> (try split) <;> rfl
@[simp] theorem fillDest_waitInstr (l : Lane) (d : Dest) (a : V) : (fillDest l d a).waitInstr = l.waitInstr := by unfold fillDest; cases d <;> dsimp only <;> (try split) <;> rfl

@[simp] theorem counted_regs (l : Lane) : (counted l).regs = l.regs := rfl
@[simp] theorem counted_marks (l : Lane) : (counted l).marks = l.marks := rfl
@[simp] theorem counted_pc (l : Lane) : (counted l).pc = l.pc := rfl
@[simp] theorem counted_firing (l : Lane) : (counted l).firing = l.firing := rfl
@[simp] theorem counted_loop (l : Lane) : (counted l).loop = l.loop := rfl
@[simp] theorem counted_lcnt (l : Lane) : (counted l).lcnt = l.lcnt := rfl
@[simp] theorem counted_scnt (l : Lane) : (counted l).scnt = l.scnt := rfl
@[simp] theorem counted_oldStores (l : Lane) : (counted l).oldStores = l.oldStores := rfl
@[simp] theorem counted_sr (l : Lane) : (counted l).sr = l.sr := rfl
@[simp] theorem counted_status (l : Lane) : (counted l).status = l.status := rfl
@[simp] theorem counted_wait (l : Lane) : (counted l).wait = l.wait := rfl
@[simp] theorem counted_results (l : Lane) : (counted l).results = l.results := rfl
@[simp] theorem counted_ras (l : Lane) : (counted l).ras = l.ras := rfl
@[simp] theorem counted_frame (l : Lane) : (counted l).frame = l.frame := rfl
@[simp] theorem counted_group (l : Lane) : (counted l).group = l.group := rfl
@[simp] theorem counted_waitInstr (l : Lane) : (counted l).waitInstr = l.waitInstr := rfl

@[simp] theorem loopStep_regs (l : Lane) (n : BitVec 48) : (loopStep l n).regs = l.regs := by unfold loopStep; split <;> (try split) <;> rfl
@[simp] theorem loopStep_marks (l : Lane) (n : BitVec 48) : (loopStep l n).marks = l.marks := by unfold loopStep; split <;> (try split) <;> rfl
@[simp] theorem loopStep_firing (l : Lane) (n : BitVec 48) : (loopStep l n).firing = l.firing := by unfold loopStep; split <;> (try split) <;> rfl
@[simp] theorem loopStep_lcnt (l : Lane) (n : BitVec 48) : (loopStep l n).lcnt = l.lcnt := by unfold loopStep; split <;> (try split) <;> rfl
@[simp] theorem loopStep_scnt (l : Lane) (n : BitVec 48) : (loopStep l n).scnt = l.scnt := by unfold loopStep; split <;> (try split) <;> rfl
@[simp] theorem loopStep_oldStores (l : Lane) (n : BitVec 48) : (loopStep l n).oldStores = l.oldStores := by unfold loopStep; split <;> (try split) <;> rfl
@[simp] theorem loopStep_instcnt (l : Lane) (n : BitVec 48) : (loopStep l n).instcnt = l.instcnt := by unfold loopStep; split <;> (try split) <;> rfl
@[simp] theorem loopStep_sr (l : Lane) (n : BitVec 48) : (loopStep l n).sr = l.sr := by unfold loopStep; split <;> (try split) <;> rfl
@[simp] theorem loopStep_status (l : Lane) (n : BitVec 48) : (loopStep l n).status = l.status := by unfold loopStep; split <;> (try split) <;> rfl
@[simp] theorem loopStep_wait (l : Lane) (n : BitVec 48) : (loopStep l n).wait = l.wait := by unfold loopStep; split <;> (try split) <;> rfl
@[simp] theorem loopStep_results (l : Lane) (n : BitVec 48) : (loopStep l n).results = l.results := by unfold loopStep; split <;> (try split) <;> rfl
@[simp] theorem loopStep_aged (l : Lane) (n : BitVec 48) : (loopStep l n).aged = l.aged := by unfold loopStep; split <;> (try split) <;> rfl
@[simp] theorem loopStep_waitCount (l : Lane) (n : BitVec 48) : (loopStep l n).waitCount = l.waitCount := by unfold loopStep; split <;> (try split) <;> rfl
@[simp] theorem loopStep_frz (l : Lane) (n : BitVec 48) : (loopStep l n).frz = l.frz := by unfold loopStep; split <;> (try split) <;> rfl
@[simp] theorem loopStep_ras (l : Lane) (n : BitVec 48) : (loopStep l n).ras = l.ras := by unfold loopStep; split <;> (try split) <;> rfl
@[simp] theorem loopStep_frame (l : Lane) (n : BitVec 48) : (loopStep l n).frame = l.frame := by unfold loopStep; split <;> (try split) <;> rfl
@[simp] theorem loopStep_firstTry (l : Lane) (n : BitVec 48) : (loopStep l n).firstTry = l.firstTry := by unfold loopStep; split <;> (try split) <;> rfl
@[simp] theorem loopStep_group (l : Lane) (n : BitVec 48) : (loopStep l n).group = l.group := by unfold loopStep; split <;> (try split) <;> rfl
@[simp] theorem loopStep_waitInstr (l : Lane) (n : BitVec 48) : (loopStep l n).waitInstr = l.waitInstr := by unfold loopStep; split <;> (try split) <;> rfl

@[simp] theorem retire_regs (n : Nat) (l : Lane) : (retire n l).regs = l.regs := by simp [retire]
@[simp] theorem retire_marks (n : Nat) (l : Lane) : (retire n l).marks = l.marks := by simp [retire]
@[simp] theorem retire_firing (n : Nat) (l : Lane) : (retire n l).firing = l.firing := by simp [retire]
@[simp] theorem retire_lcnt (n : Nat) (l : Lane) : (retire n l).lcnt = l.lcnt := by simp [retire]
@[simp] theorem retire_scnt (n : Nat) (l : Lane) : (retire n l).scnt = l.scnt := by simp [retire]
@[simp] theorem retire_oldStores (n : Nat) (l : Lane) : (retire n l).oldStores = l.oldStores := by simp [retire]
@[simp] theorem retire_sr (n : Nat) (l : Lane) : (retire n l).sr = l.sr := by simp [retire]
@[simp] theorem retire_status (n : Nat) (l : Lane) : (retire n l).status = l.status := by simp [retire]
@[simp] theorem retire_wait (n : Nat) (l : Lane) : (retire n l).wait = l.wait := by simp [retire]
@[simp] theorem retire_results (n : Nat) (l : Lane) : (retire n l).results = l.results := by simp [retire]
@[simp] theorem retire_ras (n : Nat) (l : Lane) : (retire n l).ras = l.ras := by simp [retire]
@[simp] theorem retire_frame (n : Nat) (l : Lane) : (retire n l).frame = l.frame := by simp [retire]
@[simp] theorem retire_group (n : Nat) (l : Lane) : (retire n l).group = l.group := by simp [retire]
@[simp] theorem retire_waitInstr (n : Nat) (l : Lane) : (retire n l).waitInstr = l.waitInstr := by simp [retire]

@[simp] theorem retireTo_regs (p : BitVec 48) (l : Lane) : (retireTo p l).regs = l.regs := rfl
@[simp] theorem retireTo_marks (p : BitVec 48) (l : Lane) : (retireTo p l).marks = l.marks := rfl
@[simp] theorem retireTo_firing (p : BitVec 48) (l : Lane) : (retireTo p l).firing = l.firing := rfl
@[simp] theorem retireTo_loop (p : BitVec 48) (l : Lane) : (retireTo p l).loop = l.loop := rfl
@[simp] theorem retireTo_lcnt (p : BitVec 48) (l : Lane) : (retireTo p l).lcnt = l.lcnt := rfl
@[simp] theorem retireTo_scnt (p : BitVec 48) (l : Lane) : (retireTo p l).scnt = l.scnt := rfl
@[simp] theorem retireTo_oldStores (p : BitVec 48) (l : Lane) : (retireTo p l).oldStores = l.oldStores := rfl
@[simp] theorem retireTo_sr (p : BitVec 48) (l : Lane) : (retireTo p l).sr = l.sr := rfl
@[simp] theorem retireTo_status (p : BitVec 48) (l : Lane) : (retireTo p l).status = l.status := rfl
@[simp] theorem retireTo_wait (p : BitVec 48) (l : Lane) : (retireTo p l).wait = l.wait := rfl
@[simp] theorem retireTo_results (p : BitVec 48) (l : Lane) : (retireTo p l).results = l.results := rfl
@[simp] theorem retireTo_ras (p : BitVec 48) (l : Lane) : (retireTo p l).ras = l.ras := rfl
@[simp] theorem retireTo_frame (p : BitVec 48) (l : Lane) : (retireTo p l).frame = l.frame := rfl
@[simp] theorem retireTo_group (p : BitVec 48) (l : Lane) : (retireTo p l).group = l.group := rfl
@[simp] theorem retireTo_waitInstr (p : BitVec 48) (l : Lane) : (retireTo p l).waitInstr = l.waitInstr := rfl

@[simp] theorem blocked_regs (l : Lane) (w : Wait) : (blocked l w).regs = l.regs := rfl
@[simp] theorem blocked_marks (l : Lane) (w : Wait) : (blocked l w).marks = l.marks := rfl
@[simp] theorem blocked_pc (l : Lane) (w : Wait) : (blocked l w).pc = l.pc := rfl
@[simp] theorem blocked_firing (l : Lane) (w : Wait) : (blocked l w).firing = l.firing := rfl
@[simp] theorem blocked_loop (l : Lane) (w : Wait) : (blocked l w).loop = l.loop := rfl
@[simp] theorem blocked_lcnt (l : Lane) (w : Wait) : (blocked l w).lcnt = l.lcnt := rfl
@[simp] theorem blocked_scnt (l : Lane) (w : Wait) : (blocked l w).scnt = l.scnt := rfl
@[simp] theorem blocked_oldStores (l : Lane) (w : Wait) : (blocked l w).oldStores = l.oldStores := rfl
@[simp] theorem blocked_instcnt (l : Lane) (w : Wait) : (blocked l w).instcnt = l.instcnt := rfl
@[simp] theorem blocked_sr (l : Lane) (w : Wait) : (blocked l w).sr = l.sr := rfl
@[simp] theorem blocked_results (l : Lane) (w : Wait) : (blocked l w).results = l.results := rfl
@[simp] theorem blocked_aged (l : Lane) (w : Wait) : (blocked l w).aged = l.aged := rfl
@[simp] theorem blocked_frz (l : Lane) (w : Wait) : (blocked l w).frz = l.frz := rfl
@[simp] theorem blocked_ras (l : Lane) (w : Wait) : (blocked l w).ras = l.ras := rfl
@[simp] theorem blocked_frame (l : Lane) (w : Wait) : (blocked l w).frame = l.frame := rfl
@[simp] theorem blocked_group (l : Lane) (w : Wait) : (blocked l w).group = l.group := rfl
@[simp] theorem blocked_waitInstr (l : Lane) (w : Wait) : (blocked l w).waitInstr = l.waitInstr := rfl

@[simp] theorem writeBack_regs (l : Lane) : (writeBack l).regs = l.regs := rfl
@[simp] theorem writeBack_marks (l : Lane) : (writeBack l).marks = l.marks := rfl
@[simp] theorem writeBack_pc (l : Lane) : (writeBack l).pc = l.pc := rfl
@[simp] theorem writeBack_firing (l : Lane) : (writeBack l).firing = l.firing := rfl
@[simp] theorem writeBack_loop (l : Lane) : (writeBack l).loop = l.loop := rfl
@[simp] theorem writeBack_lcnt (l : Lane) : (writeBack l).lcnt = l.lcnt := rfl
@[simp] theorem writeBack_scnt (l : Lane) : (writeBack l).scnt = l.scnt := rfl
@[simp] theorem writeBack_oldStores (l : Lane) : (writeBack l).oldStores = l.oldStores := rfl
@[simp] theorem writeBack_instcnt (l : Lane) : (writeBack l).instcnt = l.instcnt := rfl
@[simp] theorem writeBack_sr (l : Lane) : (writeBack l).sr = l.sr := rfl
@[simp] theorem writeBack_status (l : Lane) : (writeBack l).status = l.status := rfl
@[simp] theorem writeBack_wait (l : Lane) : (writeBack l).wait = l.wait := rfl
@[simp] theorem writeBack_results (l : Lane) : (writeBack l).results = l.results := rfl
@[simp] theorem writeBack_aged (l : Lane) : (writeBack l).aged = l.aged := rfl
@[simp] theorem writeBack_waitCount (l : Lane) : (writeBack l).waitCount = l.waitCount := rfl
@[simp] theorem writeBack_frz (l : Lane) : (writeBack l).frz = l.frz := rfl
@[simp] theorem writeBack_ras (l : Lane) : (writeBack l).ras = l.ras := rfl
@[simp] theorem writeBack_firstTry (l : Lane) : (writeBack l).firstTry = l.firstTry := rfl
@[simp] theorem writeBack_group (l : Lane) : (writeBack l).group = l.group := rfl
@[simp] theorem writeBack_waitInstr (l : Lane) : (writeBack l).waitInstr = l.waitInstr := rfl

@[simp] theorem frozen_regs (l : Lane) : (frozen l).regs = l.regs := rfl
@[simp] theorem frozen_marks (l : Lane) : (frozen l).marks = l.marks := rfl
@[simp] theorem frozen_pc (l : Lane) : (frozen l).pc = l.pc := rfl
@[simp] theorem frozen_firing (l : Lane) : (frozen l).firing = l.firing := rfl
@[simp] theorem frozen_loop (l : Lane) : (frozen l).loop = l.loop := rfl
@[simp] theorem frozen_lcnt (l : Lane) : (frozen l).lcnt = l.lcnt := rfl
@[simp] theorem frozen_scnt (l : Lane) : (frozen l).scnt = l.scnt := rfl
@[simp] theorem frozen_oldStores (l : Lane) : (frozen l).oldStores = l.oldStores := rfl
@[simp] theorem frozen_instcnt (l : Lane) : (frozen l).instcnt = l.instcnt := rfl
@[simp] theorem frozen_sr (l : Lane) : (frozen l).sr = l.sr := rfl
@[simp] theorem frozen_results (l : Lane) : (frozen l).results = l.results := rfl
@[simp] theorem frozen_aged (l : Lane) : (frozen l).aged = l.aged := rfl
@[simp] theorem frozen_ras (l : Lane) : (frozen l).ras = l.ras := rfl
@[simp] theorem frozen_group (l : Lane) : (frozen l).group = l.group := rfl
@[simp] theorem frozen_waitInstr (l : Lane) : (frozen l).waitInstr = l.waitInstr := rfl

end Sys2Proof.Machine
end

