-- ==== Sys2Proof/Laws/Tables.lean ====
section
/-! SUPPORT. Read after write: sparse tables, and the parts of the state that are read through them. -/

namespace Sys2Proof.Machine

@[simp] theorem smGet_smSet_same {α : Type} (m : SMap α) (n : Nat) (v : α) : smGet (smSet m n v) n = some v := by
  induction m with
  | nil => simp [smSet, smGet]
  | cons e t ih =>
    obtain ⟨k, w⟩ := e
    unfold smSet
    split
    · simp [smGet]
    · split
      · simp [smGet]
      · next h1 h2 => simp [smGet, h1, h2, ih]

theorem smGet_smSet_other {α : Type} (m : SMap α) {n i : Nat} (v : α) (h : n ≠ i) :
    smGet (smSet m n v) i = smGet m i := by
  induction m with
  | nil => simp [smSet, smGet, h]
  | cons e t ih =>
    obtain ⟨k, w⟩ := e
    unfold smSet
    split
    · next hk =>
      subst hk
      simp only [smGet]
      rw [if_neg h, if_neg h]
    · split
      · next h1 h2 =>
        simp only [smGet]
        rw [if_neg h]
        by_cases hi : i < n
        · rw [if_pos hi, if_neg (by omega), if_pos (by omega)]
        · rw [if_neg hi]
      · simp only [smGet, ih]

@[simp] theorem smGetD_smSet_same {α : Type} (m : SMap α) (n : Nat) (v d : α) : smGetD (smSet m n v) n d = v := by
  simp [smGetD]

theorem smGetD_smSet_other {α : Type} (m : SMap α) {n i : Nat} (v d : α) (h : n ≠ i) :
    smGetD (smSet m n v) i d = smGetD m i d := by
  simp [smGetD, smGet_smSet_other m v h]

theorem smSet_smSet_same {α : Type} (m : SMap α) (n : Nat) (v w : α) : smSet (smSet m n v) n w = smSet m n w := by
  induction m with
  | nil => simp [smSet]
  | cons e t ih =>
    obtain ⟨k, u⟩ := e
    rw [smSet]
    split
    · next hk => subst hk; simp [smSet]
    · split
      · next h1 h2 => simp [smSet, h1, h2]
      · next h1 h2 => simp [smSet, h1, h2, ih]

/-! ### Cores -/

@[simp] theorem coreOf_setCore_same (s : State) (c : Nat) (k : Core) : coreOf (setCore s c k) c = k := by
  simp [coreOf]

theorem coreOf_setCore_other (s : State) {c d : Nat} (k : Core) (h : c ≠ d) : coreOf (setCore s c k) d = coreOf s d := by
  simp [coreOf, smGetD_smSet_other _ _ _ h]

@[simp] theorem coreOf_onCore_same (s : State) (c : Nat) (f : Core → Core) : coreOf (onCore s c f) c = f (coreOf s c) := by
  simp [onCore]

theorem coreOf_onCore_other (s : State) {c d : Nat} (f : Core → Core) (h : c ≠ d) :
    coreOf (onCore s c f) d = coreOf s d := by
  simp [onCore, coreOf_setCore_other s _ h]

theorem coreOf_congr {s t : State} (h : t.cores = s.cores) (c : Nat) : coreOf t c = coreOf s c := by
  simp [coreOf, h]

@[simp] theorem coreOf_due (s : State) (t : Turn) (c : Nat) : coreOf (due s t) c = coreOf s c := rfl
@[simp] theorem coreOf_dueEvent (s : State) (d : Due) (c : Nat) : coreOf (dueEvent s d) c = coreOf s c := rfl
@[simp] theorem coreOf_draw (s : State) (c : Nat) : coreOf (draw s) c = coreOf s c := rfl
@[simp] theorem coreOf_sampleTime (s : State) (c : Nat) : coreOf (sampleTime s) c = coreOf s c := rfl
@[simp] theorem coreOf_onMem (s : State) (f : Memory → Memory) (c : Nat) : coreOf (onMem s f) c = coreOf s c := rfl
@[simp] theorem coreOf_onQuad (s : State) (q : Nat) (f : Quad → Quad) (c : Nat) : coreOf (onQuad s q f) c = coreOf s c := rfl
@[simp] theorem coreOf_onDie (s : State) (d : Nat) (f : Die → Die) (c : Nat) : coreOf (onDie s d f) c = coreOf s c := rfl
@[simp] theorem coreOf_onHearth (s : State) (f : Hearth → Hearth) (c : Nat) : coreOf (onHearth s f) c = coreOf s c := rfl
@[simp] theorem coreOf_onPkg (s : State) (f : Pkg → Pkg) (c : Nat) : coreOf (onPkg s f) c = coreOf s c := rfl

/-! ### Lanes -/

@[simp] theorem setLaneC_lanes (k : Core) (l : Nat) (x : Lane) : (setLaneC k l x).lanes = k.lanes.set (laneIx l) x := rfl
@[simp] theorem setLaneC_ctl (k : Core) (l : Nat) (x : Lane) : (setLaneC k l x).ctl = k.ctl := rfl
@[simp] theorem setLaneC_msg (k : Core) (l : Nat) (x : Lane) : (setLaneC k l x).msg = k.msg := rfl
@[simp] theorem setLaneC_ev (k : Core) (l : Nat) (x : Lane) : (setLaneC k l x).ev = k.ev := rfl
@[simp] theorem setLaneC_eng (k : Core) (l : Nat) (x : Lane) : (setLaneC k l x).eng = k.eng := rfl
@[simp] theorem setLaneC_stove (k : Core) (l : Nat) (x : Lane) : (setLaneC k l x).stove = k.stove := rfl

@[simp] theorem coreOf_setLane_same (s : State) (c l : Nat) (x : Lane) :
    coreOf (setLane s c l x) c = setLaneC (coreOf s c) l x := by
  simp [setLane]

theorem coreOf_setLane_other (s : State) {c d : Nat} (l : Nat) (x : Lane) (h : c ≠ d) :
    coreOf (setLane s c l x) d = coreOf s d := by
  simp [setLane, coreOf_onCore_other s _ h]

@[simp] theorem laneOf_setLane_same (s : State) (c l : Nat) (x : Lane) : laneOf (setLane s c l x) c l = x := by
  simp [laneOf]

theorem laneOf_setLane_other (s : State) {c d l m : Nat} (x : Lane) (h : c ≠ d ∨ laneIx l ≠ laneIx m) :
    laneOf (setLane s c l x) d m = laneOf s d m := by
  by_cases hc : c = d
  · subst hc
    have hl : laneIx l ≠ laneIx m := h.resolve_left (fun h => h rfl)
    have hv : (laneIx l).val ≠ (laneIx m).val := fun e => hl (Fin.ext e)
    simp [laneOf, hv]
  · simp [laneOf, coreOf_setLane_other s l x hc]

theorem laneOf_congr {s t : State} (h : t.cores = s.cores) (c l : Nat) : laneOf t c l = laneOf s c l := by
  simp [laneOf, coreOf_congr h]

@[simp] theorem cur_setCur (s : State) (x : Lane) : cur (setCur s x) = x := by
  simp [cur, setCur]

theorem laneOf_setCur_other (s : State) {c l : Nat} (x : Lane) (h : s.sched.core ≠ c ∨ laneIx s.sched.lane ≠ laneIx l) :
    laneOf (setCur s x) c l = laneOf s c l := laneOf_setLane_other s x h

@[simp] theorem cur_onMem (s : State) (f : Memory → Memory) : cur (onMem s f) = cur s := rfl
@[simp] theorem cur_onPkg (s : State) (f : Pkg → Pkg) : cur (onPkg s f) = cur s := rfl
@[simp] theorem cur_onDie (s : State) (d : Nat) (f : Die → Die) : cur (onDie s d f) = cur s := rfl
@[simp] theorem cur_onQuad (s : State) (q : Nat) (f : Quad → Quad) : cur (onQuad s q f) = cur s := rfl
@[simp] theorem cur_dueEvent (s : State) (d : Due) : cur (dueEvent s d) = cur s := rfl
@[simp] theorem cur_draw (s : State) : cur (draw s) = cur s := rfl

/-! ### Quads and dies -/

@[simp] theorem quadOf_onQuad_same (s : State) (q : Nat) (f : Quad → Quad) : quadOf (onQuad s q f) q = f (quadOf s q) := by
  simp [quadOf]

theorem quadOf_onQuad_other (s : State) {q r : Nat} (f : Quad → Quad) (h : q ≠ r) : quadOf (onQuad s q f) r = quadOf s r := by
  simp [quadOf, smGetD_smSet_other _ _ _ h]

@[simp] theorem dieOf_onDie_same (s : State) (d : Nat) (f : Die → Die) : dieOf (onDie s d f) d = f (dieOf s d) := by
  simp [dieOf]

theorem dieOf_onDie_other (s : State) {d e : Nat} (f : Die → Die) (h : d ≠ e) : dieOf (onDie s d f) e = dieOf s e := by
  simp [dieOf, smGetD_smSet_other _ _ _ h]

end Sys2Proof.Machine
end

