-- ==== Sys2Proof/Laws/Memory.lean ====
section
/-! SUPPORT. The canonical memory: what its operations read back, and that every one of them keeps the canonical form. -/

namespace Sys2Proof.Machine

/-! ### The canonical form -/

theorem memWfFrom_cons {lo : Option Nat} {k : Nat} {b : Byte} {t : Memory} :
    memWfFrom lo ((k, b) :: t) = true ↔ (∀ x, lo = some x → x < k) ∧ b ≠ unlisted k ∧ memWfFrom (some k) t = true := by
  cases lo <;> simp [memWfFrom, and_assoc]

theorem memWfFrom_weaken {x y : Nat} {m : Memory} (h : memWfFrom (some y) m = true) (hxy : x ≤ y) :
    memWfFrom (some x) m = true := by
  cases m with
  | nil => rfl
  | cons e t =>
    obtain ⟨k, b⟩ := e
    rw [memWfFrom_cons] at h ⊢
    refine ⟨fun z hz => ?_, h.2⟩
    cases hz
    exact Nat.lt_of_le_of_lt hxy (h.1 y rfl)

theorem memWfFrom_none {x : Nat} {m : Memory} (h : memWfFrom (some x) m = true) : memWfFrom none m = true := by
  cases m with
  | nil => rfl
  | cons e t =>
    obtain ⟨k, b⟩ := e
    rw [memWfFrom_cons] at h ⊢
    exact And.intro (fun z (hz : none = some z) => nomatch hz) h.2

/-- A list whose first key is below every later one stays canonical when entries are dropped. -/
theorem memWfFrom_filter (p : Host.Cell → Bool) {lo : Option Nat} {m : Memory} (h : memWfFrom lo m = true) :
    memWfFrom lo (m.filter p) = true := by
  induction m generalizing lo with
  | nil => exact h
  | cons e t ih =>
    obtain ⟨k, b⟩ := e
    rw [memWfFrom_cons] at h
    rw [List.filter_cons]
    split
    · rw [memWfFrom_cons]; exact ⟨h.1, h.2.1, ih h.2.2⟩
    · have h2 := ih h.2.2
      cases lo with
      | none => exact memWfFrom_none h2
      | some x => exact memWfFrom_weaken h2 (Nat.le_of_lt (h.1 x rfl))

theorem memSet_wfFrom {lo : Option Nat} {m : Memory} (h : memWfFrom lo m = true) (a : Nat) (b : Byte)
    (ha : ∀ x, lo = some x → x < a) : memWfFrom lo (memSet m a b) = true := by
  induction m generalizing lo with
  | nil =>
    unfold memSet
    split
    · rfl
    · next hb => rw [memWfFrom_cons]; exact ⟨ha, hb, rfl⟩
  | cons e t ih =>
    obtain ⟨k, v⟩ := e
    have h' := memWfFrom_cons.1 h
    unfold memSet
    split
    · next hk =>
      subst hk
      split
      · have h2 := h'.2.2
        cases lo with
        | none => exact memWfFrom_none h2
        | some x => exact memWfFrom_weaken h2 (Nat.le_of_lt (h'.1 x rfl))
      · next hb => rw [memWfFrom_cons]; exact ⟨ha, hb, h'.2.2⟩
    · next hk =>
      split
      · next hlt =>
        split
        · exact h
        · next hb =>
          rw [memWfFrom_cons]
          refine ⟨ha, hb, ?_⟩
          rw [memWfFrom_cons]
          refine ⟨fun z hz => ?_, h'.2⟩
          cases hz
          exact hlt
      · next hlt =>
        rw [memWfFrom_cons]
        exact ⟨h'.1, h'.2.1, ih h'.2.2 (fun x hx => (Option.some.inj hx) ▸ (by omega))⟩

/-- Setting a byte keeps the canonical form. -/
theorem memSet_wf {m : Memory} (h : m.wf = true) (a : Nat) (b : Byte) : (memSet m a b).wf = true :=
  memSet_wfFrom h a b (fun _ hx => nomatch hx)

/-- Writing bytes keeps the canonical form. -/
theorem memWrite_wf {m : Memory} (h : m.wf = true) (a n v : Nat) : (memWrite m a n v).wf = true := by
  induction n generalizing m a v with
  | zero => exact h
  | succ n ih => exact ih (memSet_wf h _ _) _ _

/-- Writing cells keeps the canonical form. -/
theorem memWriteCells_wf {m : Memory} (h : m.wf = true) (cells : List Host.Cell) : (memWriteCells m cells).wf = true := by
  induction cells generalizing m with
  | nil => exact h
  | cons c t ih => exact ih (memSet_wf h _ _)

/-- Dropping entries keeps the canonical form. -/
theorem memFilter_wf {m : Memory} (h : m.wf = true) (p : Host.Cell → Bool) : Memory.wf (m.filter p) = true :=
  memWfFrom_filter p h

/-- Copying keeps the canonical form. -/
theorem memCopy_wf {m : Memory} (h : m.wf = true) (src dst n : Nat) : (memCopy m src dst n).wf = true :=
  memWriteCells_wf (memFilter_wf h _) _

/-- Clearing keeps the canonical form. -/
theorem memClear_wf {m : Memory} (h : m.wf = true) (a n : Nat) : (memClear m a n).wf = true := memFilter_wf h _

/-- The empty memory is canonical. -/
theorem memNil_wf : Memory.wf [] = true := rfl

/-- The memory at reset is canonical. -/
theorem reset_mem_wf : State.reset.mem.wf = true := rfl

/-! ### Read after write -/

/-- Nothing below the bound of a canonical list is listed. -/
theorem memGet_below {lo : Nat} {m : Memory} (h : memWfFrom (some lo) m = true) {a : Nat} (ha : a ≤ lo) :
    memGet m a = unlisted a := by
  cases m with
  | nil => rfl
  | cons e t =>
    obtain ⟨k, b⟩ := e
    have hk := (memWfFrom_cons.1 h).1 lo rfl
    unfold memGet
    rw [if_neg (by omega), if_pos (by omega)]

/-- A set byte reads back. -/
theorem memGet_memSet_same {lo : Option Nat} {m : Memory} (h : memWfFrom lo m = true) (a : Nat) (b : Byte) :
    memGet (memSet m a b) a = b := by
  induction m generalizing lo with
  | nil =>
    unfold memSet
    split
    · next hb => simp [memGet, hb]
    · simp [memGet]
  | cons e t ih =>
    obtain ⟨k, v⟩ := e
    have h' := memWfFrom_cons.1 h
    unfold memSet
    split
    · next hk =>
      subst hk
      split
      · next hb => rw [memGet_below h'.2.2 (Nat.le_refl _), hb]
      · simp [memGet]
    · next hk =>
      split
      · next hlt =>
        split
        · next hb => simp [memGet, hk, hlt, hb]
        · simp [memGet]
      · next hlt => simp [memGet, hk, hlt, ih h'.2.2]

/-- Setting a byte leaves every other byte. -/
theorem memGet_memSet_other {lo : Option Nat} {m : Memory} (h : memWfFrom lo m = true) {a i : Nat} (b : Byte)
    (hi : a ≠ i) : memGet (memSet m a b) i = memGet m i := by
  induction m generalizing lo with
  | nil =>
    unfold memSet
    split
    · rfl
    · simp [memGet, hi]
  | cons e t ih =>
    obtain ⟨k, v⟩ := e
    have h' := memWfFrom_cons.1 h
    unfold memSet
    split
    · next hk =>
      subst hk
      split
      · simp only [memGet]
        rw [if_neg hi]
        by_cases hlt : i < k
        · rw [if_pos hlt, memGet_below h'.2.2 (Nat.le_of_lt hlt)]
        · rw [if_neg hlt]
      · simp only [memGet]
        rw [if_neg hi, if_neg hi]
    · next hk =>
      split
      · next hlt =>
        split
        · rfl
        · simp only [memGet]
          rw [if_neg hi]
          by_cases hia : i < a
          · rw [if_pos hia, if_neg (by omega), if_pos (by omega)]
          · rw [if_neg hia]
      · simp only [memGet, ih h'.2.2]

/-- A write leaves every byte outside it. -/
theorem memGet_memWrite_other {m : Memory} (h : m.wf = true) (a n v : Nat) {i : Nat} (hi : i < a ∨ a + n ≤ i) :
    memGet (memWrite m a n v) i = memGet m i := by
  induction n generalizing m a v with
  | zero => rfl
  | succ n ih =>
    simp only [memWrite]
    rw [ih (memSet_wf h _ _) _ _ (by omega), memGet_memSet_other h _ (by omega)]

/-- Reading `n` bytes depends on those bytes only. -/
theorem memRead_congr {m m' : Memory} {a n : Nat} (h : ∀ i, a ≤ i → i < a + n → memGet m i = memGet m' i) :
    memRead m a n = memRead m' a n := by
  induction n generalizing a with
  | zero => rfl
  | succ n ih => simp only [memRead]; rw [h a (Nat.le_refl _) (by omega), ih (fun i h1 h2 => h i (by omega) (by omega))]

/-- What is written reads back, modulo the width. -/
theorem memRead_memWrite_same {m : Memory} (h : m.wf = true) (a n v : Nat) :
    memRead (memWrite m a n v) a n = v % 256 ^ n := by
  induction n generalizing m a v with
  | zero => simp [memRead, Nat.mod_one]
  | succ n ih =>
    simp only [memRead, memWrite]
    rw [memGet_memWrite_other (memSet_wf h _ _) _ _ _ (by omega), memGet_memSet_same h, ih (memSet_wf h _ _)]
    rw [Nat.pow_succ, Nat.mul_comm (256 ^ n) 256, Nat.mod_mul]
    simp

theorem memRead_lt (m : Memory) (a n : Nat) : memRead m a n < 256 ^ n := by
  induction n generalizing a with
  | zero => simp [memRead]
  | succ n ih =>
    simp only [memRead]
    have h1 := (memGet m a).isLt
    have h2 := ih (a + 1)
    rw [Nat.pow_succ]
    omega

end Sys2Proof.Machine
end

