-- ==== Sys2Proof/Laws/Ops.lean ====
section
/-! SUPPORT. What the shared operations do: the operand gate, the shapes of instructions, waiting and taking a fault. -/

namespace Sys2Proof.Machine

open Sys2Proof.Safety

/-! ### The operand gate (R27, R212) -/

theorem xReady_plain {l : Lane} {a : Src} (h : XReady l a) : xFull l a.reg = true ∧ xDead l a.reg = false := by
  unfold XReady at h
  unfold xFull xDead
  rcases h with h | ⟨h1, h2⟩
  · simp [h]
  · constructor
    · simp only [Bool.or_eq_true]; exact Or.inr h1
    · simp only [Bool.and_eq_false_iff]; exact Or.inr h2

theorem vReady_plain {l : Lane} {a : Src} (h : VReady l a) :
    (isPayload a = true ∧ l.firing.kind = .handler) ∨
    (isPayload a = false ∧ vFull l a.reg = true ∧ vDead l a.reg = false) := by
  unfold VReady at h
  by_cases hp : a.last = true ∧ a.trap = true
  · rw [if_pos hp] at h
    exact Or.inl ⟨by simp [isPayload, hp.1, hp.2], h⟩
  · rw [if_neg hp] at h
    refine Or.inr ⟨?_, h.1, h.2⟩
    simpa [isPayload] using hp

theorem opndWait_ready {l : Lane} {srcs : List Opnd} (h : Ready l srcs) {o : Opnd} (ho : o ∈ srcs) :
    opndIllegal l o = false ∧ opndWait l o = none ∧ opndFault l o = none := by
  have h1 := h o ho
  cases o with
  | x a =>
    have := xReady_plain h1
    simp [opndIllegal, opndWait, opndFault, this.1, this.2]
  | v a =>
    rcases vReady_plain h1 with ⟨hp, hk⟩ | ⟨hp, hf, hd⟩
    · simp [opndIllegal, opndWait, opndFault, hp, hk]
    · simp [opndIllegal, opndWait, opndFault, hp, hf, hd]

theorem dstWait_free {l : Lane} {dsts : List Dst} (h : Free l dsts) {d : Dst} (hd : d ∈ dsts) : dstWait l d = none := by
  have h1 := h d hd
  cases d with
  | x r =>
    have h1 : XFree l r := h1
    have : xFull l r = true := by
      unfold XFree at h1
      unfold xFull
      rcases h1 with h1 | h1
      · simp [h1]
      · simp only [Bool.or_eq_true]; exact Or.inr h1
    simp [dstWait, this]
  | v r =>
    have h1 : vFull l r = true := h1
    simp [dstWait, h1]

/-- Operands that can be used at once pass the gate. -/
theorem gate_ok {l : Lane} {srcs : List Opnd} {dsts : List Dst} (hs : Ready l srcs) (hd : Free l dsts) :
    gate l srcs dsts = .ok () := by
  have h1 : srcs.any (opndIllegal l) = false := by
    rw [List.any_eq_false]
    intro o ho
    simp [(opndWait_ready hs ho).1]
  have h2 : srcs.findSome? (opndWait l) = none := by
    rw [List.findSome?_eq_none_iff]
    exact fun o ho => (opndWait_ready hs ho).2.1
  have h3 : dsts.findSome? (dstWait l) = none := by
    rw [List.findSome?_eq_none_iff]
    exact fun d h => dstWait_free hd h
  have h4 : srcs.findSome? (opndFault l) = none := by
    rw [List.findSome?_eq_none_iff]
    exact fun o ho => (opndWait_ready hs ho).2.2
  simp [gate, h1, h2, h3, h4]

theorem ready_nil (l : Lane) : Ready l [] := fun _ h => nomatch h

theorem free_nil (l : Lane) : Free l [] := fun _ h => nomatch h

theorem ready_cons {l : Lane} {o : Opnd} {t : List Opnd} : Ready l (o :: t) ↔ OpndReady l o ∧ Ready l t := by
  simp [Ready]

theorem free_cons {l : Lane} {d : Dst} {t : List Dst} : Free l (d :: t) ↔ DstFree l d ∧ Free l t := by
  simp [Free]

/-! ### Shapes of instructions -/

@[simp] theorem finish_ok (s t : State) : finish s (.ok t) = .next t := rfl

@[simp] theorem finish_error (s : State) (e : Stop) : finish s (.error e) = takeStop s e := rfl

theorem laneOp_ok {n : Nat} {f : Lane → Except Stop Lane} {s : State} {l : Lane} (h : f (cur s) = .ok l) :
    laneOp n f s = .next (after s n l) := by
  simp [laneOp, h, Except.map, after]

theorem laneOp_error {n : Nat} {f : Lane → Except Stop Lane} {s : State} {e : Stop} (h : f (cur s) = .error e) :
    laneOp n f s = takeStop s e := by
  simp [laneOp, h, Except.map]

theorem stateOp_ok {n : Nat} {f : State → Except Stop State} {s t : State} (h : f s = .ok t) :
    stateOp n f s = .next (after t n (cur t)) := by
  simp [stateOp, h, Except.map, after]

theorem stateOp_error {n : Nat} {f : State → Except Stop State} {s : State} {e : Stop} (h : f s = .error e) :
    stateOp n f s = takeStop s e := by
  simp [stateOp, h, Except.map]

theorem guardedLaneOp_on {n : Nat} {g : PReg} {f : Lane → Except Stop Lane} {s : State} (h : guardOn (cur s) g = true) :
    guardedLaneOp n g f s = laneOp n f s := by
  simp [guardedLaneOp, laneOp, h]

theorem guardedLaneOp_off {n : Nat} {g : PReg} {f : Lane → Except Stop Lane} {s : State} (h : guardOn (cur s) g = false) :
    guardedLaneOp n g f s = .next (after s n (cur s)) := by
  unfold guardedLaneOp
  exact laneOp_ok (by simp [h])

theorem guardedStateOp_on {n : Nat} {g : PReg} {f : State → Except Stop State} {s : State}
    (h : guardOn (cur s) g = true) : guardedStateOp n g f s = stateOp n f s := by
  simp [guardedStateOp, stateOp, h]

theorem guardedStateOp_off {n : Nat} {g : PReg} {f : State → Except Stop State} {s : State}
    (h : guardOn (cur s) g = false) : guardedStateOp n g f s = .next (after s n (cur s)) := by
  unfold guardedStateOp
  exact stateOp_ok (by simp [h])

/-! ### What stopping keeps -/

@[simp] theorem sendPacket_mem (s : State) (c : Nat) (e : Bool) (p : Packet) : (sendPacket s c e p).mem = s.mem := rfl
@[simp] theorem sendPacket_poison (s : State) (c : Nat) (e : Bool) (p : Packet) : (sendPacket s c e p).poison = s.poison := rfl
@[simp] theorem sendPacket_quads (s : State) (c : Nat) (e : Bool) (p : Packet) : (sendPacket s c e p).quads = s.quads := rfl
@[simp] theorem sendPacket_hearth (s : State) (c : Nat) (e : Bool) (p : Packet) : (sendPacket s c e p).hearth = s.hearth := rfl
@[simp] theorem sendPacket_pkg (s : State) (c : Nat) (e : Bool) (p : Packet) : (sendPacket s c e p).pkg = s.pkg := rfl

/-- A packet changes nothing of any core but a sequence counter. -/
theorem coreOf_sendPacket (s : State) (c : Nat) (e : Bool) (p : Packet) (d : Nat) :
    (coreOf (sendPacket s c e p) d).lanes = (coreOf s d).lanes ∧ (coreOf (sendPacket s c e p) d).msg = (coreOf s d).msg
    ∧ (coreOf (sendPacket s c e p) d).ev = (coreOf s d).ev
    ∧ (coreOf (sendPacket s c e p) d).stove = (coreOf s d).stove := by
  unfold sendPacket
  simp only [coreOf_dueEvent, coreOf_onDie]
  by_cases h : c = d
  · subst h
    rw [coreOf_onCore_same]
    cases e <;> simp
  · rw [coreOf_onCore_other _ _ h]
    simp

theorem laneOf_sendPacket (s : State) (c : Nat) (e : Bool) (p : Packet) (d l : Nat) :
    laneOf (sendPacket s c e p) d l = laneOf s d l := by
  simp only [laneOf, (coreOf_sendPacket s c e p d).1]

@[simp] theorem freeze_mem (s : State) (c l : Nat) (p : Packet) : (freeze s c l p).mem = s.mem := by
  unfold freeze; dsimp only; split <;> (try split) <;> (try split) <;> simp

@[simp] theorem freeze_poison (s : State) (c l : Nat) (p : Packet) : (freeze s c l p).poison = s.poison := by
  unfold freeze; dsimp only; split <;> (try split) <;> (try split) <;> simp

@[simp] theorem freeze_quads (s : State) (c l : Nat) (p : Packet) : (freeze s c l p).quads = s.quads := by
  unfold freeze; dsimp only; split <;> (try split) <;> (try split) <;> simp

@[simp] theorem freeze_hearth (s : State) (c l : Nat) (p : Packet) : (freeze s c l p).hearth = s.hearth := by
  unfold freeze; dsimp only; split <;> (try split) <;> (try split) <;> simp

@[simp] theorem freeze_pkg (s : State) (c l : Nat) (p : Packet) : (freeze s c l p).pkg = s.pkg := by
  unfold freeze; dsimp only; split <;> (try split) <;> (try split) <;> simp

/-- Freezing a lane leaves every other lane. -/
theorem laneOf_freeze_other (s : State) (c l : Nat) (p : Packet) {d m : Nat} (h : c ≠ d ∨ laneIx l ≠ laneIx m) :
    laneOf (freeze s c l p) d m = laneOf s d m := by
  unfold freeze
  dsimp only
  split
  · rw [laneOf_sendPacket]
  · split
    · rfl
    · split
      · rw [laneOf_sendPacket, laneOf_setLane_other _ _ h]
      · rw [laneOf_setLane_other _ _ h]

@[simp] theorem takeFault_mem (s : State) (code : FaultCode) (a : X) : (takeFault s code a).mem = s.mem := by
  unfold takeFault; dsimp only; split <;> simp

@[simp] theorem takeFault_poison (s : State) (code : FaultCode) (a : X) : (takeFault s code a).poison = s.poison := by
  unfold takeFault; dsimp only; split <;> simp

@[simp] theorem takeFault_quads (s : State) (code : FaultCode) (a : X) : (takeFault s code a).quads = s.quads := by
  unfold takeFault; dsimp only; split <;> simp

@[simp] theorem takeFault_hearth (s : State) (code : FaultCode) (a : X) : (takeFault s code a).hearth = s.hearth := by
  unfold takeFault; dsimp only; split <;> simp

@[simp] theorem takeFault_pkg (s : State) (code : FaultCode) (a : X) : (takeFault s code a).pkg = s.pkg := by
  unfold takeFault; dsimp only; split <;> simp

/-- Taking a fault leaves every other lane. -/
theorem laneOf_takeFault_other (s : State) (code : FaultCode) (a : X) {d m : Nat}
    (h : s.sched.core ≠ d ∨ laneIx s.sched.lane ≠ laneIx m) : laneOf (takeFault s code a) d m = laneOf s d m := by
  unfold takeFault
  dsimp only
  split
  · exact laneOf_setCur_other s _ h
  · exact laneOf_freeze_other s _ _ _ h

/-- Events made due leave memory alone, however many. -/
theorem dueEvents_mem {α : Type} (l : List α) (f : α → Due) (s : State) :
    (l.foldl (fun u d => dueEvent u (f d)) s).mem = s.mem := by
  induction l generalizing s with
  | nil => rfl
  | cons d l ih => exact ih (dueEvent s (f d))

/-- What waiting starts leaves memory alone. -/
@[simp] theorem startWait_mem (s : State) (w : Wait) : (startWait s w).mem = s.mem := by
  unfold startWait
  split
  · unfold wakeFlue; split <;> simp
  · rfl
  · exact dueEvents_mem _ _ _
  · rfl

/-- An instruction that stops leaves memory alone. -/
theorem takeStop_mem {s t : State} {e : Stop} (h : takeStop s e = .next t) : t.mem = s.mem := by
  cases e with
  | fault c a => simp only [takeStop, Host.Outcome.next.injEq] at h; rw [← h]; simp
  | wait w =>
    simp only [takeStop, Host.Outcome.next.injEq] at h
    rw [← h, setCur_mem, startWait_mem]
  | stuck f => simp [takeStop] at h

end Sys2Proof.Machine
end

