-- ==== Sys2Proof/Laws/Access.lean ====
section
/-! SUPPORT. What an access of own LM does: its checks pass, and a load or a store answers with the memory that its rule gives. -/

namespace Sys2Proof.Machine

open Sys2Proof.Safety

/-- An address of own LM below the Attic is in that class (R137). -/
theorem classOf_local {s : State} {c : Nat} {a : X} {n o : Nat} (h : LocalAt a n o) : classOf s c a = .ownLm o := by
  obtain ⟨h1, h2, -⟩ := h
  unfold classOf
  have e : 0xFF80 * 2 ^ 48 = 18410715276690587648 := by decide
  rw [e] at h1 ⊢
  simp only [h1]
  rw [if_neg (by omega), if_pos (by omega)]
  congr 1; omega

/-- An aligned access of own LM passes every check of its address (R138). -/
theorem resolve_local {s : State} {c : Nat} {ctx acc a n o} (h : LocalAt a n o) (hn : ∃ k ≤ 48, n = 2 ^ k) :
    resolve s c ctx acc false a n = .ok (s, .lm o) := by
  have hc := classOf_local (s := s) (c := c) h
  obtain ⟨h1, h2, h3⟩ := h
  obtain ⟨k, hk, rfl⟩ := hn
  have hpos : 0 < 2 ^ k := Nat.two_pow_pos k
  have hal : a.toNat % 2 ^ k = 0 := by
    rw [h1, Nat.add_mod, h3]
    have : 2 ^ 48 = 2 ^ k * 2 ^ (48 - k) := by rw [← Nat.pow_add]; congr 1; omega
    have h4 : 0xFF80 * 2 ^ 48 % 2 ^ k = 0 := by rw [this]; exact Nat.mod_eq_zero_of_dvd ⟨0xFF80 * 2 ^ (48 - k), by rw [Nat.mul_left_comm]⟩
    rw [h4]; simp
  unfold resolve locate
  simp only [hc]
  have h5 : ¬ (atticBase ≤ o) := by unfold atticBase; omega
  rw [if_neg h5, if_neg (by simpa using hal)]
  rfl

/-- No poisoned word among local places, no fault (R138). -/
theorem localPoison_ok {s : State} {c n o : Nat} (h : poisoned s (lmKey c o) n = false) : localPoison s c n [(0, .lm o)] = .ok () := by
  unfold localPoison
  simp [Place.isLocal, placeKey, h]

/-- The granules of one access, in order or not, meet the same entries. -/
theorem entryBlocks_insert (g h tiles : Nat) (w : Bool) (e : SbEntry) :
    entryBlocks (insertNat (insertNat [] g) h) tiles w e = entryBlocks [g, h] tiles w e := by
  unfold entryBlocks
  congr 2
  have : insertNat [] g = [g] := rfl
  rw [this]; unfold insertNat
  split
  · next hh => subst hh; simp
  · split
    · simp [Bool.or_comm]
    · simp [insertNat]

/-- No conflicting entry, no wait at the scoreboard (R142). -/
theorem sbGate_ok {s : State} {o n w} (h : NoConflict s o n w) : sbGate s (localGranules n [(0, .lm o)]) 0 w = .ok () := by
  unfold sbGate localGranules
  simp only [List.foldl]
  have (b : Nat) : (curCore s).eng.sb.any (fun e => decide (e.2.age < b) &&
      entryBlocks (insertNat (insertNat [] (granule o)) (granule (o + n - 1))) 0 w e.2) = false := by
    rw [List.any_eq_false]
    intro e he
    rw [entryBlocks_insert, h e he]; simp
  rw [this]; rfl

/-- The extension of a loaded value (R151). -/
theorem ext_eq (n : Nat) (b : Bool) (v : Nat) : extended n b v = loaded n b v := by
  unfold extended loaded
  split
  · rw [BitVec.signExtend]
    congr 1
  · apply BitVec.eq_of_toNat_eq; simp

/-- A local access passes the checks at its place. -/
theorem scalarPlace_local {s : State} {acc : Access} {a : X} {n o : Nat} {load store : Bool} (hl : LocalAt a n o)
    (hn : ∃ k ≤ 48, n = 2 ^ k) (hc : NoConflict s o n (acc != .load))
    (hp : acc ≠ .store → poisoned s (lmKey s.sched.core o) n = false) :
    scalarPlace s acc a n load store = .ok (s, .lm o) := by
  unfold scalarPlace
  have h2 := resolve_local (s := s) (c := s.sched.core) (ctx := ctxOf s s.sched.core (cur s)) (acc := acc) hl hn
  have h3 := sbGate_ok hc
  simp only [h2, bind, Except.bind, domainCheck, Place.isLocal, ite_true, h3]
  by_cases ha : acc = .store
  · subst ha; rfl
  · rw [if_pos (by simp [ha]), localPoison_ok (hp ha)]

/-- The tail of an `Except` block whose first action succeeds. -/
theorem bind_ok {α β : Type} (a : α) (f : α → Except Stop β) : ((.ok a : Except Stop α) >>= f) = f a := rfl

/-- Writing a place of own LM. -/
theorem writePlace_lm (dev : Devices) (s : State) (c n v o : Nat) : writePlace dev s c n v (.lm o) = storeKey s (lmKey c o) n v := rfl

/-- A load of own LM answers at once (R149, R151). -/
theorem loadOp_local {s : State} {g : LoadArgs} {o : Nat} (hs : Ready (cur s) g.srcs) (hd : XFree (cur s) g.d)
    (hsp : g.ordered = true → (cur s).firing.spec = false) (hl : LocalAt (g.addr (cur s)) g.size o)
    (hn : ∃ k ≤ 48, g.size = 2 ^ k) (hc : NoConflict s o g.size false)
    (hp : poisoned s (lmKey s.sched.core o) g.size = false) :
    loadOp g s = .ok (setCur s (putX (kill (cur s) g.srcs) g.d
      (loaded g.size g.signed (memRead s.mem (lmKey s.sched.core o) g.size)))) := by
  have h1 : gate (cur s) g.srcs [.x g.d] = .ok () := gate_ok hs (free_cons.2 ⟨hd, free_nil _⟩)
  have h2 := scalarPlace_local (acc := .load) (load := true) (store := false) hl hn hc (fun _ => hp)
  have h4 : g.ordered = true → irrevocable (cur s) = .ok () := fun h => by simp [irrevocable, hsp h, await]
  unfold loadOp
  cases ho : g.ordered
  · simp only [h1, h2, bind_ok, Place.isLocal, if_true, Bool.false_eq_true, if_false, readPlace, placeKey, ext_eq]
  · simp only [h1, h2, h4 ho, bind_ok, Place.isLocal, if_true, readPlace, placeKey, ext_eq]

/-- What each byte reads as after a write. -/
theorem memGet_memWrite {m : Memory} (hm : m.wf = true) (a n v b : Nat) :
    memGet (memWrite m a n v) b = if a ≤ b ∧ b < a + n then BitVec.ofNat 8 (v / 256 ^ (b - a)) else memGet m b := by
  induction n generalizing m a v with
  | zero => rw [if_neg (by omega)]; rfl
  | succ n ih =>
    have hw : Memory.wf (memSet m a (BitVec.ofNat 8 v)) = true := memSet_wf hm _ _
    show memGet (memWrite (memSet m a (BitVec.ofNat 8 v)) (a + 1) n (v / 256)) b = _
    rw [ih hw]
    by_cases h : a = b
    · subst h
      rw [if_neg (by omega), if_pos (by omega)]
      simp [memGet_memSet_same hm]
    · have e : memGet (memSet m a (BitVec.ofNat 8 v)) b = memGet m b := memGet_memSet_other hm _ h
      rw [e]
      by_cases h1 : a + 1 ≤ b ∧ b < a + 1 + n
      · rw [if_pos h1, if_pos (by omega), Nat.div_div_eq_div_mul]
        have : b - a = (b - (a + 1)) + 1 := by omega
        rw [this, Nat.pow_succ, Nat.mul_comm]
      · rw [if_neg h1, if_neg (by omega)]

/-- A store to own LM writes its bytes (R149, R151). -/
theorem storeOp_local {s : State} {g : StoreArgs} {o : Nat} (hs : Ready (cur s) g.srcs)
    (hsp : g.ordered = true → (cur s).firing.spec = false) (hl : LocalAt (g.addr (cur s)) g.size o)
    (hn : ∃ k ≤ 48, g.size = 2 ^ k) (hc : NoConflict s o g.size true) :
    storeOp g s = .ok (storeKey (setCur s (kill (cur s) g.srcs)) (lmKey s.sched.core o) g.size (g.data (cur s)).toNat) := by
  have h1 : gate (cur s) g.srcs [] = .ok () := gate_ok hs (free_nil _)
  have h2 := scalarPlace_local (acc := .store) (load := false) (store := true) hl hn hc (fun h => absurd rfl h)
  have h4 : g.ordered = true → irrevocable (cur s) = .ok () := fun h => by simp [irrevocable, hsp h, await]
  unfold storeOp
  cases ho : g.ordered
  · simp only [h1, h2, bind_ok, writePlace_lm, Place.isLocal, if_true, Bool.false_eq_true, if_false]
  · simp only [h1, h2, h4 ho, bind_ok, writePlace_lm, Place.isLocal, if_true]

/-! ### Writing a memory -/

/-- Bytes written are written, and nothing else of the list. -/
theorem putBytes_mem (s : State) (a n v : Nat) : (putBytes s a n v).mem = memWrite s.mem a n v := by
  have h (t : State) : (rawBlocks t a n).mem = t.mem := by unfold rawBlocks; split <;> rfl
  have h' (t : State) (u : List Nat) : (if t.poison.isEmpty then t else { t with poison := u }).mem = t.mem := by split <;> rfl
  unfold putBytes
  by_cases hl : a < 2 ^ 40
  · rw [if_pos hl]; exact (h _).trans (h' _ _)
  · rw [if_neg hl]; exact h' _ _

/-- A write performed at a memory writes its bytes and nothing else of the list. -/
theorem storeKey_mem (s : State) (a n v : Nat) : (storeKey s a n v).mem = memWrite s.mem a n v := by
  have h (t : State) (d : Nat) (l : List Nat) : (l.foldl (fun t e => surrender t d e) t).mem = t.mem := by
    induction l generalizing t with
    | nil => rfl
    | cons e r ih => rw [List.foldl_cons, ih]; rfl
  have h2 (t : State) (k : Option Nat) (d : Nat) : (recallOthers t k d).mem = t.mem := by
    unfold recallOthers
    simp only
    split
    · rfl
    · exact h _ _ _
  have h3 (t : State) (d : Nat) (x : DirLine) : (if (directoryOf t d).host then setDirectory t d x else t).mem = t.mem := by
    split <;> rfl
  unfold storeKey
  by_cases hlow : a < 2 ^ 40
  · rw [if_pos hlow]
    exact (h3 _ _ _).trans ((h2 _ _ _).trans (putBytes_mem s a n v))
  · rw [if_neg hlow]
    exact putBytes_mem s a n v

/-- A write keeps the canonical form. -/
theorem storeKey_memoryOk {s : State} (h : MemoryOk s) (a n v : Nat) : MemoryOk (storeKey s a n v) := by
  unfold MemoryOk
  rw [storeKey_mem]
  exact memWrite_wf h _ _ _

end Sys2Proof.Machine
end

