-- ==== Sys2Proof/Tests/Slice0.lean ====
section
/-! SUPPORT. Tests: operands that the well-formedness check refuses, words written out from the encodings of spec/, single steps
whose results are worked out from spec/, and for each statement states that meet its hypotheses. -/

namespace Sys2Proof.Tests

open Sys2Proof Sys2Proof.Machine Sys2Proof.Safety

-- One proof at a time: each waits for the kernel, and many that wait at once ask for more threads than there is room for.
set_option Elab.async false

/-! ### The well-formedness check refuses what each of its tests is for -/

/-- R45: v5 as a payload register. -/
theorem test_ill_payload : wf (.vadd ⟨1, ⟨5, true, true⟩, plain 2, .f32⟩) = false := by decide
/-- R162: a run past v31. -/
theorem test_ill_run : wf (.sendv ⟨plain 6, plain 30, 4⟩) = false := by decide
/-- R162: a run of none names no register. -/
theorem test_ill_empty_run : wf (.sendo ⟨4, plain 6, plain 1, 0⟩) = false := by decide
/-- R99: a LOOP body of 33 instructions, and of none. -/
theorem test_ill_loop : wf (.loop ⟨plain 1, 33⟩) = false ∧ wf (.loop ⟨plain 1, 0⟩) = false := by decide
/-- R178: CHUNK of x31 and the register after it, and of x0. -/
theorem test_ill_chunk : wf (.chunk ⟨31, plain 3, 1⟩) = false ∧ wf (.chunk ⟨0, plain 3, 1⟩) = false := by decide
/-- R109: a reciprocal of integers, a shift of floats, indexes of floats. -/
theorem test_ill_types : wf (.vrcp ⟨1, plain 2, .i32⟩) = false ∧ wf (.vshl ⟨1, plain 2, plain 3, .f32⟩) = false
    ∧ wf (.viota ⟨1, ⟨2, false, false⟩, 0, .f16⟩) = false := by decide
/-- R109: a rounding mode on integers, and on an instruction that rounds nothing. -/
theorem test_ill_round : wf (.vaddX ⟨1, plain 2, plain 3, 0, .i32, .rz⟩) = false ∧ wf (.vnegX ⟨1, plain 2, 0, .f32, .sr⟩) = false := by
  decide
/-- R126: VLUT takes the type .i32 alone. -/
theorem test_ill_lut : wf (.vlutX ⟨1, plain 2, plain 3, 0, .ui32, .rne⟩) = false := by decide
/-- R117: VCMP has four conditions. -/
theorem test_ill_vcmp : wf (.vcmp ⟨1, plain 2, plain 3, 0, .i32, .ltu⟩) = false := by decide
/-- R120: a part outside the element. -/
theorem test_ill_part : wf (.vcvt ⟨1, plain 2, 0, .rne, .f16, .f32, 2, 0⟩) = false := by decide
/-- R124: a slide by the whole vector. -/
theorem test_ill_slide : wf (.vslide ⟨1, plain 2, plain 3, 0, .f64, 16⟩) = false := by decide
/-- R127: an exclusive or of floats, and a rounded minimum. -/
theorem test_ill_fold : wf (.vred ⟨1, plain 2, 0, .f32, .rne, .xor⟩) = false ∧ wf (.vred ⟨1, plain 2, 0, .f32, .rz, .min⟩) = false := by
  decide
/-- R132: a record of 17 entries, of none, and of a type without an order. -/
theorem test_ill_topk : wf (.topk ⟨1, plain 2, plain 3, .f32, 17, false⟩) = false ∧ wf (.topk ⟨1, plain 2, plain 3, .f32, 0, false⟩) = false
    ∧ wf (.topk ⟨1, plain 2, plain 3, .f64, 3, false⟩) = false := by decide
/-- R94: a bit field past bit 63, and an empty one. -/
theorem test_ill_field : wf (.bfx ⟨9, plain 3, 0, 60, 5⟩) = false ∧ wf (.bfx ⟨9, plain 3, 0, 0, 0⟩) = false := by decide
/-- R147, R52: a load of floats, an order without a scope, a load with .rel and a store with .acq. -/
theorem test_ill_order : wf (.ldX ⟨1, plain 2, 0, .none, .plain, .f32, 0⟩) = false
    ∧ wf (.ldX ⟨1, plain 2, 0, .none, .acq, .ui64, 0⟩) = false ∧ wf (.ldX ⟨1, plain 2, 0, .die, .rel, .ui64, 0⟩) = false
    ∧ wf (.stX ⟨plain 2, plain 3, 0, .die, .acq, .ui64, 0⟩) = false := by decide
/-- R156: an AMO of bytes, one without a scope, and a floating sum on words. -/
theorem test_ill_amo : wf (.amo ⟨1, plain 2, plain 3, 0, .die, .plain, .ui8, .add, 0⟩) = false
    ∧ wf (.amo ⟨1, plain 2, plain 3, 0, .none, .plain, .ui64, .add, 0⟩) = false
    ∧ wf (.amo ⟨1, plain 2, plain 3, 0, .die, .plain, .ui32, .faddF32, 0⟩) = false := by decide
/-- R147: a vector load of halfwords, and a scatter-add without a scope. -/
theorem test_ill_lane : wf (.vldX ⟨1, plain 2, 0, .ui16, 0⟩) = false ∧ wf (.vsctaX ⟨plain 2, plain 3, plain 4, 0, .none, .f32⟩) = false := by
  decide
/-- R147: VSCTA of FP16. -/
theorem test_ill_added : wf (.vscta ⟨1, plain 2, plain 3, .f16⟩) = false := by decide
/-- R48: coordinates from x30 on. R277: the stream form with an LM address. -/
theorem test_ill_copy : wf (.xcopyIn ⟨1, 30, 2, 3, .none, false, 0, false⟩) = false ∧ wf (.xcopyIn ⟨1, 4, 2, 3, .none, false, 0, true⟩) = false
    ∧ wf (.xcopyIn ⟨1, 4, 2, 3, .none, false, 1, false⟩) = false := by decide
/-- R277: no rows, 257 rows, and a bitwise reduction of floats. -/
theorem test_ill_gather : wf (.xgather ⟨4, 0, 12, 7, 9, .none, false, 0⟩) = false ∧ wf (.xgather ⟨4, 0, 12, 7, 9, .none, false, 257⟩) = false
    ∧ wf (.xred ⟨1, 4, 2, 3, .none, false, .and, .f32, 0, false⟩) = false := by decide
/-- R275: no arrivals, and p0 as a destination. -/
theorem test_ill_tx : wf (.txarr ⟨9, .none, 0⟩) = false ∧ wf (.txtest ⟨9, 0, 0⟩) = false := by decide
/-- R223, R227: formats that the array does not multiply, or not sparsely. -/
theorem test_ill_stream : wf (.gmma ⟨1, 0, 0, 5, 0, .ui8, false, false⟩) = false ∧ wf (.gmmas ⟨1, 0, 0, 5, 0, .f32, false, false⟩) = false
    ∧ wf (.gwld ⟨1, 0, .f64, false, 1⟩) = false := by decide
/-- R368, R369: a barrier without a scope, and IDs above the scope's range. -/
theorem test_ill_barrier : wf (.bar ⟨0, plain 0, 0, 0, .none⟩) = false ∧ wf (.bar ⟨0, plain 0, 0, 8, .quad⟩) = false
    ∧ wf (.bar ⟨0, plain 0, 0, 32, .die⟩) = false := by decide
/-- R424: an all-gather combines nothing. R354: a bitwise bank operation on floats. -/
theorem test_ill_collective : wf (.collAllgth ⟨5, 9, .i32, .min⟩) = false ∧ wf (.collBar ⟨5, 9, .i32, .add⟩) = false
    ∧ wf (.bop ⟨4, 7, 9, .f32, .and, 0⟩) = false := by decide
/-- R105: a register that the table does not list, and a write of one that is read-only. R221: no such scope. -/
theorem test_ill_system : wf (.sysr ⟨3, 0, 0x005⟩) = false ∧ wf (.sysw ⟨plain 3, 0, 0x000⟩) = false ∧ wf (.icflush ⟨0, 2⟩) = false := by
  decide

/-! ### Words of spec/ -/

/-- The worked encodings of R42, R51, R43, R110, R132, R157, R94, R208, R220, R236, R277, R354, R156, R424, R363, R369, R444. -/
theorem test_words : Obligations.DecodeWords := by
  unfold Obligations.DecodeWords
  repeat' apply And.intro
  all_goals rfl

/-- LD.ui32 x5, [x2+12] (R147): op8 0x64, d 5, a 2, imm10 3. -/
theorem test_word_ld : decodeWord 32 0x00C11591 = .ok (.ld ⟨5, plain 2, 3, 4⟩) := by rfl
/-- SENDV x6, v8!, #2 (R162). -/
theorem test_word_sendv : decodeWord 32 0x4A030329 = .ok (.sendv ⟨plain 6, ⟨8, true, false⟩, 2⟩) := by rfl
/-- CHUNK x10, x3, #1 (R178). -/
theorem test_word_chunk : decodeWord 32 0x2001AB49 = .ok (.chunk ⟨10, plain 3, 1⟩) := by rfl
/-- PUSH x2, v5 (R184): 0x359 + (2 << 15) + (5 << 22). -/
theorem test_word_push : decodeWord 32 0x01410359 = .ok (.push ⟨plain 2, plain 5⟩) := by rfl
/-- EVINJ x1, x2, x3 (R207). -/
theorem test_word_evinj : decodeWord 64 0x0000000182020A07 = .ok (.evinj ⟨plain 1, plain 2, plain 3⟩) := by rfl
/-- GET x12, x4, x7, x9, #16 (R416). -/
theorem test_word_get : decodeWord 64 0x00F000074B004B13 = .ok (.get ⟨4, 12, 7, 9, .none, false, 15⟩) := by rfl
/-- TXARR.pkg x9, #1 (R275): op10 0x187, xb 9, scope 4, imm12 1. -/
theorem test_word_txarr : decodeWord 64 0x001008004800061F = .ok (.txarr ⟨9, .pkg, 1⟩) := by rfl
/-- R55: op10 0x3BF is no instruction, and neither is ADD with a nonzero fn3. -/
theorem test_word_illegal : (decodeWord 64 0x0000000000000EFF).toOption = none ∧ (decodeWord 32 0x20531C01).toOption = none := by
  constructor <;> rfl

/-! ### States for the tests -/

/-- The machine at reset with core `c` in focus and lane 0 of it as given. -/
def box (c : Nat) (l : Lane) : State := setCur { State.reset with sched := { State.reset.sched with core := c } } l

/-- A lane at reset with some x registers set. -/
def laneX (xs : List (Reg × X)) : Lane := { Lane.reset with
  regs := { Regs.reset with x := xs.foldl (fun v e => v.set e.1 e.2) Regs.reset.x } }

/-- A lane at reset with x1 as given. -/
def lane1 (a : X) : Lane := laneX [(1, a)]

@[simp] theorem cur_box (c : Nat) (l : Lane) : cur (box c l) = l := cur_setCur _ _

/-- In a lane whose registers are all full and live, every operand that is no payload register can be read. -/
theorem ready_live {l : Lane} (h : l.marks = Lane.reset.marks) {srcs : List Opnd}
    (hp : ∀ a, Opnd.v a ∈ srcs → (a.last && a.trap) = false) : Ready l srcs := by
  intro o ho
  cases o with
  | x a =>
    refine Or.inr ?_
    rw [h]
    revert a
    exact fun a _ => (by decide : ∀ r : Reg, Lane.reset.marks.xfull.getLsbD r.val = true ∧ Lane.reset.marks.xdead.getLsbD r.val = false) a.reg
  | v a =>
    have h1 := hp a ho
    show VReady l a
    unfold VReady
    rw [if_neg (by simpa using h1), h]
    exact (by decide : ∀ r : Reg, Lane.reset.marks.vfull.getLsbD r.val = true ∧ Lane.reset.marks.vdead.getLsbD r.val = false) a.reg

/-- Every x and v register of such a lane can be written. -/
theorem free_live {l : Lane} (h : l.marks = Lane.reset.marks) (d : Reg) : XFree l d ∧ VFree l d := by
  constructor
  · exact Or.inr (by rw [h]; exact (by decide : ∀ r : Reg, Lane.reset.marks.xfull.getLsbD r.val = true) d)
  · show l.marks.vfull.getLsbD d.val = true
    rw [h]; exact (by decide : ∀ r : Reg, Lane.reset.marks.vfull.getLsbD r.val = true) d

/-- x source `a` of such a lane can be read. -/
theorem xready_live {l : Lane} (h : l.marks = Lane.reset.marks) (a : Src) : XReady l a :=
  ready_live (srcs := [.x a]) h (by simp) (.x a) (by simp)

/-! ### For each statement, states that meet its hypotheses -/

/-- The shapes of the scalar statements: every operand of a lane at reset can be read, and every register written; bit 0 of
p0 is set, and of p1 clear. -/
theorem test_hyp_scalar (o : R3) : Ready (cur (box 0 Lane.reset)) [.x o.a, .x o.b] ∧ XFree (cur (box 0 Lane.reset)) o.d
    ∧ (getP (cur (box 0 Lane.reset)) 0).getLsbD 0 = true ∧ (getP (cur (box 0 Lane.reset)) 1).getLsbD 0 = false :=
  ⟨ready_live (by rfl) (by simp), (free_live (by rfl) _).1, by decide, by decide⟩

theorem test_hyp_IntegerRegisters (o : R3) (p : RCmp) : Ready (cur (box 0 Lane.reset)) [.x o.a, .x o.b] ∧ XFree (cur (box 0 Lane.reset)) o.d
    ∧ Ready (cur (box 0 Lane.reset)) [.x p.a, .x p.b] :=
  ⟨ready_live (by rfl) (by simp), (free_live (by rfl) _).1, ready_live (by rfl) (by simp)⟩

theorem test_hyp_IntegerImmediates (o : RI) (c : C2) : Ready (cur (box 0 Lane.reset)) [.x o.a] ∧ XFree (cur (box 0 Lane.reset)) o.d
    ∧ Ready (cur (box 0 Lane.reset)) [.x (plain c.a), .x (plain c.b)] :=
  ⟨ready_live (by rfl) (by simp), (free_live (by rfl) _).1, ready_live (by rfl) (by simp)⟩

/-- The bit fields from bit 0 over the whole register, and bit 63 alone. -/
theorem test_hyp_FieldsAndPredicates : wf (.bfx ⟨9, plain 3, 0, 0, 64⟩) = true ∧ wf (.bfxu ⟨9, plain 3, 0, 63, 1⟩) = true
    ∧ wf (.bfi ⟨9, plain 3, plain 4, 0, 63, 1⟩) = true := by decide

theorem test_hyp_Division (o : R3) : Ready (cur (box 0 (lane1 (BitVec.intMin 64)))) [.x o.a, .x o.b]
    ∧ XFree (cur (box 0 (lane1 (BitVec.intMin 64)))) o.d :=
  ⟨ready_live (by rfl) (by simp), (free_live (by rfl) _).1⟩

/-- x3 is empty and live. -/
theorem test_hyp_SelectReadsAll :
    let l : Lane := { Lane.reset with marks := { Lane.reset.marks with xfull := 0xFFFFFFF7 } }
    (getP l 0).getLsbD 0 = true ∧ l.marks.xfull.getLsbD (3 : Reg).val = false ∧ l.marks.xdead.getLsbD (3 : Reg).val = false := by decide

/-- A branch on x0 is taken by BZ and not by BNZ; the targets at the ends of the range are allowed. -/
theorem test_hyp_ConditionalBranches : (cur (box 0 Lane.reset)).loop.len = 0 ∧ getX (cur (box 0 Lane.reset)) 0 = 0
    ∧ ¬ (getX (cur (box 0 Lane.reset)) 0 ≠ 0) ∧ Ready (cur (box 0 Lane.reset)) [.x (plain 0)]
    ∧ TargetOk (targetOf { Lane.reset with pc := 4 } (BitVec.ofInt 64 (-2))) ∧ TargetOk (targetOf Lane.reset (2 ^ 47 - 1)) := by
  refine ⟨by decide, by decide, by decide, ready_live (by rfl) (by simp), ?_, ?_⟩ <;> unfold TargetOk targetOf <;> decide

/-- A jump to 0 and to 2^48 − 2; a jump to 2^48, and to the odd address below it. -/
theorem test_hyp_TransfersAndTheirFaults : TargetOk 0 ∧ TargetOk (2 ^ 48 - 2)
    ∧ 2 ^ 48 ≤ (getX (lane1 (2 ^ 48)) 1).toNat
    ∧ ((getX (lane1 (2 ^ 48 - 1)) 1).toNat < 2 ^ 48 ∧ (getX (lane1 (2 ^ 48 - 1)) 1).getLsbD 0 = true)
    ∧ (cur (box 0 (lane1 1))).loop.len = 0 ∧ XReady (cur (box 0 (lane1 1))) (plain 1) ∧ XFree (cur (box 0 (lane1 1))) 31 := by
  refine ⟨by unfold TargetOk; decide, by unfold TargetOk; decide, by decide +kernel, by decide +kernel, by decide,
    xready_live (by rfl) _, (free_live (by rfl) _).1⟩

/-- A lane in a LOOP body. -/
def looping : Lane := { Lane.reset with loop := ⟨32, 2, 8, some 4, [], false⟩ }

theorem test_hyp_LoopBodyFaults : (cur (box 0 looping)).loop.len ≠ 0 ∧ (cur (box 0 looping)).firing.spec = false
    ∧ (cur (box 0 looping)).frz.step = false := by decide

/-- The answer is a value of which `good` holds. -/
def answers {ε α : Type} (x : Except ε α) (good : α → Bool) : Bool :=
  match x with
  | .ok a => good a
  | .error _ => false

theorem answers_ok {ε α : Type} {x : Except ε α} {good : α → Bool} (h : answers x good = true) : ∃ a, x = .ok a ∧ good a = true := by
  cases x with
  | ok a => exact ⟨a, rfl, h⟩
  | error _ => simp [answers] at h

/-- A count of 0 before a body of one word in the memory that is mapped, and before one that cannot be fetched; the end of a
body with 2 and with 1 repeats left. -/
theorem test_hyp_LoopInstruction :
    (∃ e, bodyEnd (State.reset.withFetchWord 32 1) 480 0 (0 + 4) 1 = .ok e ∧ (e == 6) = true)
    ∧ (match bodyEnd (box 0 Lane.reset) 0 0 (0 + 4) 1 with
      | .error (.fault .fetch 0) => true
      | _ => false) = true
    ∧ (getX (lane1 0) 1 = 0 ∧ getX (lane1 5) 1 ≠ 0)
    ∧ (looping.loop.len ≠ 0 ∧ looping.loop.stop = some (looping.pc + BitVec.ofNat 48 4) ∧ 1 < looping.loop.rem.toNat)
    ∧ (let l := { looping with loop := { looping.loop with rem := 1 } }
       l.loop.stop = some (l.pc + BitVec.ofNat 48 4) ∧ l.loop.rem.toNat ≤ 1)
    ∧ looping.loop.stop ≠ some (looping.pc + BitVec.ofNat 48 8) :=
  ⟨answers_ok (by decide +kernel), by decide +kernel, by decide +kernel, by decide +kernel, by decide +kernel, by decide +kernel⟩

/-- A lane of a speculative task, and one with a result outstanding. -/
def speculative : Lane := { Lane.reset with firing := { Firing.reset with kind := .ordered, spec := true, task := some 1 } }

/-- A lane as its outstanding instructions issued. -/
def aSite : Site := ⟨4, LoopState.reset, 3, Lane.reset.marks⟩

/-- A lane that waits for x7. -/
def waiting : Lane := { Lane.reset with
  results := [⟨.x 7, 9, true, none, 0, 0, aSite⟩]
  lcnt := 1
  marks := { Lane.reset.marks with xfull := 0xFFFFFF7F } }

theorem test_hyp_TakingFaults : deferrable speculative .softTrap = true ∧ deferrable Lane.reset .softTrap = false
    ∧ deferrable speculative .comparator = false ∧ Lane.reset.status ≠ .frozen ∧ Lane.reset.frz.pending = none ∧ Lane.reset.results = []
    ∧ waiting.results ≠ [] ∧ waiting.status ≠ .frozen ∧ waiting.frz.pending = none ∧ speculative.firing.spec = true := by decide

/-- The first and the last op10 of hint space; counters at and above their bounds. -/
theorem test_hyp_HintsCountersAndShapes :
    ((0xF03 : Nat) < 2 ^ 64 ∧ 0xF03 % 4 = 3 ∧ 0x3C0 ≤ 0xF03 / 4 % 1024)
    ∧ ((0xFFFFFFFFFFFFFFFF : Nat) < 2 ^ 64 ∧ 0xFFFFFFFFFFFFFFFF % 4 = 3 ∧ 0x3C0 ≤ 0xFFFFFFFFFFFFFFFF / 4 % 1024)
    ∧ (waiting.lcnt ≤ (1 : BitVec 6).toNat ∧ waiting.scnt ≤ (0 : BitVec 6).toNat)
    ∧ ¬ (waiting.lcnt ≤ (0 : BitVec 6).toNat ∧ waiting.scnt ≤ (0 : BitVec 6).toNat)
    ∧ Lane.reset.scnt = 0 ∧ { Lane.reset with scnt := 1 }.scnt ≠ 0 ∧ Lane.reset.firing.task = none := by decide

/-- A launch that holds quad 0, with account 7. -/
def launched : Launch := {
  tag := 0, request := 0, quads := [0], ctx := 1, ctxB := none, copies := [], third := false, root := 0, vmap := [], omap := [], account := 7,
  flues := 1, elastic := true, paired := false, gv := true, group := 3, rank := 0, mtab := 0, mcnt := 2, outs := [], cellar := 0, moved := [],
  vacate := [], parked := [] }

/-- A lane in a handler firing that was dispatched on a quad of launch 1. -/
def hosted (l : Lane) : Lane := { l with firing := { l.firing with kind := .handler, launch := some 1 } }

/-- The machine with that launch live as number 1. -/
def withLaunch (l : Lane) : State := onPkg (box 0 l) (fun p => { p with launches := [(1, launched)] })

theorem test_hyp_SystemRegisters : (getP (cur (box 480 Lane.reset)) 0).getLsbD 0 = true ∧ isSup (box 480 Lane.reset).sched.core = true
    ∧ (dieOf (box 480 Lane.reset) 0).fpqWait = [] ∧ launchOf (box 480 Lane.reset) 480 Lane.reset = none
    ∧ launchOf (withLaunch (hosted Lane.reset)) 0 (hosted Lane.reset) = some (1, launched) ∧ (∃ i, i ≤ 10 ∧ (1024 : X).toNat = 2 ^ i)
    ∧ (¬ ∃ i, i ≤ 10 ∧ (2048 : X).toNat = 2 ^ i) := by
  refine ⟨by decide, by decide, by decide +kernel, by decide +kernel, by decide +kernel, ⟨10, by decide, by decide⟩, ?_⟩
  rintro ⟨i, hi, h⟩
  have h1 : (2048 : X).toNat = 2048 := rfl
  have h2 : 2 ^ i ≤ 2 ^ 10 := Nat.pow_le_pow_right (by decide) hi
  omega

theorem test_hyp_Privilege : isSup 0 = false ∧ (0x800 : Nat) ≤ (0x800 : BitVec 12).toNat ∧ (0x7FF : BitVec 12).toNat < 0x800
    ∧ (0x7FF : BitVec 12) ≠ 0x004 ∧ isSup 480 = true := by decide

/-- The machine with supervisor core 480 in focus and lane 3 of core 5 Frozen, Blocked, Draining or Free. -/
def beside (st : LaneStatus) (a : X) : State := setLane (box 480 (lane1 a)) 5 3 { Lane.reset with status := st }

/-- LRESUME of a Frozen lane of the die; of one that is not Frozen, of a core of another die, with a reserved bit; LKILL. -/
theorem test_hyp_ReturnToFrozenLane : isSup (beside .frozen 0x3005).sched.core = true ∧ (beside .frozen 0x3005).sched.lane < 16
    ∧ (bits (getX (cur (beside .frozen 0x3005)) 1).toNat 0 12 = 5 ∧ bits (getX (cur (beside .frozen 0x3005)) 1).toNat 12 4 = 3
      ∧ bits (getX (cur (beside .frozen 0x3005)) 1).toNat 16 48 = 0 ∧ namesCore 5 = true ∧ dieNo 5 = dieNo 480)
    ∧ (laneOf (beside .frozen 0x3005) 5 3).status = .frozen ∧ (laneOf (beside .frozen 0x3005) 5 3).group = none
    ∧ (laneOf (beside .frozen 0x3005) 5 3).wait = none ∧ (laneOf (beside .blocked 0x3005) 5 3).status ≠ .frozen
    ∧ (laneOf (beside .free 0x3005) 5 3).status = .free
    ∧ (laneOf (beside .blocked 0x3005) 5 3).status ≠ .draining ∧ (laneOf (beside .blocked 0x3005) 5 3).firing.task = none
    ∧ (laneOf (beside .blocked 0x3005) 5 3).firing.kind ≠ .actor
    ∧ ¬ (namesCore 512 = true ∧ dieNo 512 = dieNo 480) ∧ bits (getX (lane1 0x10000) 1).toNat 16 48 ≠ 0 := by decide +kernel

theorem test_hyp_InvalidateFetchAndTlbs : (getP (cur (box 480 Lane.reset)) 0).getLsbD 0 = true
    ∧ (cur (box 480 Lane.reset)).firing.spec = false ∧ (cur (box 480 Lane.reset)).scnt = 0
    ∧ tlbiWaits (cur (box 480 Lane.reset)) = false ∧ tlbUsers (box 480 Lane.reset) 0 none = []
    ∧ XReady (cur (box 480 Lane.reset)) (plain 1) ∧ XReady (cur (box 480 Lane.reset)) (plain 2) :=
  ⟨by decide, by decide, by decide, by decide +kernel, by decide +kernel, xready_live (by rfl) _, xready_live (by rfl) _⟩

theorem test_hyp_VectorArithmetic : Ready (cur (box 0 Lane.reset)) [.v (plain 31), .v ⟨2, true, false⟩, .v ⟨3, false, true⟩]
    ∧ VFree (cur (box 0 Lane.reset)) 31 ∧ Round.rne ≠ Round.sr :=
  ⟨ready_live (by rfl) (by simp [plain]), (free_live (by rfl) _).2, by decide⟩

/-- A payload register in a handler firing can be read. -/
theorem test_hyp_payload : VReady { Lane.reset with firing := { Firing.reset with kind := .handler } } ⟨3, true, true⟩ := by
  unfold VReady; decide

theorem test_hyp_StochasticDraws : (0x004 : BitVec 12) = 0x004 ∧ (getP (cur (box 0 Lane.reset)) 0).getLsbD 0 = true
    ∧ (cur (box 0 Lane.reset)).firing.spec = false ∧ XReady (cur (box 0 Lane.reset)) (plain 1)
    ∧ (tyFlt .bf16).isSome = true ∧ Ready (cur (box 0 Lane.reset)) ([plain 1, plain 2].map .v) ∧ VFree (cur (box 0 Lane.reset)) 5 :=
  ⟨rfl, by decide, by decide, xready_live (by rfl) _, by decide, ready_live (by rfl) (by simp [plain]), (free_live (by rfl) _).2⟩

theorem test_hyp_VectorElementFunctions (o : V2) (h : (o.a.last && o.a.trap) = false) (k : (o.b.last && o.b.trap) = false) :
    Ready (cur (box 0 Lane.reset)) [.v o.a, .v o.b] ∧ VFree (cur (box 0 Lane.reset)) o.d :=
  ⟨ready_live (by rfl) (by intro a ha; simp at ha; rcases ha with rfl | rfl <;> assumption), (free_live (by rfl) _).2⟩

/-- VCMP with its guard on and off, and VINS from an x register. -/
theorem test_hyp_VectorBitsAndMoves : Ready (cur (box 0 Lane.reset)) [.v (plain 1), .v (plain 2)] ∧ VFree (cur (box 0 Lane.reset)) 3
    ∧ Ready (cur (box 0 Lane.reset)) [.x (plain 1), .x (plain 2)] ∧ (getP (cur (box 0 Lane.reset)) 0).getLsbD 0 = true
    ∧ (getP (cur (box 0 Lane.reset)) 1).getLsbD 0 = false :=
  ⟨ready_live (by rfl) (by simp [plain]), (free_live (by rfl) _).2, ready_live (by rfl) (by simp), by decide, by decide⟩

theorem test_hyp_VectorReductions : Ready (cur (box 0 Lane.reset)) [.v (plain 1), .v (plain 2)] ∧ VFree (cur (box 0 Lane.reset)) 3 :=
  ⟨ready_live (by rfl) (by simp [plain]), (free_live (by rfl) _).2⟩

theorem test_hyp_ReductionSumAndTopk : tyFlt .ui64 = none ∧ VReady (cur (box 0 Lane.reset)) (plain 1) ∧ VFree (cur (box 0 Lane.reset)) 3
    ∧ ((5, 1) : Ranked) ∈ [((5, 1) : Ranked), (9, 2)] ∧ (1 : Nat) ≠ emptyId
    ∧ (5, 1) ∉ bestRanked .ui32 true 1 [(5, 1), (9, 2)] ∧ (9, 2) ∈ bestRanked .ui32 true 1 [(5, 1), (9, 2)] :=
  ⟨rfl, ready_live (srcs := [.v (plain 1)]) (by rfl) (by simp [plain]) (.v (plain 1)) (by simp), (free_live (by rfl) _).2, by decide,
    by decide, by decide, by decide⟩

/-- Sources and destinations of each kind that `Claims.VectorCompletion` names, and a guard that is on. -/
theorem test_hyp_VectorCompletion : Ready (cur (box 0 Lane.reset)) [.v (plain 1), .v (plain 2), .v (plain 3)]
    ∧ Ready (cur (box 0 Lane.reset)) [.x (plain 1), .x (plain 2)] ∧ Ready (cur (box 0 Lane.reset)) [.v (plain 31), .x (plain 0)]
    ∧ VFree (cur (box 0 Lane.reset)) 31 ∧ XFree (cur (box 0 Lane.reset)) 31 ∧ (getP (cur (box 0 Lane.reset)) 0).getLsbD 0 = true :=
  ⟨ready_live (by rfl) (by simp [plain]), ready_live (by rfl) (by simp), ready_live (by rfl) (by simp [plain]), (free_live (by rfl) _).2,
    (free_live (by rfl) _).1, by decide⟩

/-- The first and the last aligned doubleword of own LM below the Attic. -/
theorem test_hyp_local : LocalAt (0xFF80000000000000) 8 0 ∧ LocalAt (0xFF8000000006BFF8) 8 0x6BFF8
    ∧ NoConflict (box 0 Lane.reset) 0x6BFF8 8 true ∧ poisoned (box 0 Lane.reset) (lmKey 0 0x6BFF8) 8 = false := by
  refine ⟨by unfold LocalAt; decide, by unfold LocalAt; decide, ?_, by decide⟩
  have : (curCore (box 0 Lane.reset)).eng.sb = [] := by decide +kernel
  intro e he
  rw [this] at he
  cases he

theorem test_hyp_LocalScalarAccesses : LocalAt (getX (lane1 0xFF8000000006BFF8) 1 + (0 : BitVec 10).signExtend 64 * 8) 8 0x6BFF8
    ∧ MemoryOk (box 0 (lane1 0xFF8000000006BFF8)) ∧ Ready (cur (box 0 (lane1 0xFF8000000006BFF8))) [.x (plain 2), .x (plain 1)]
    ∧ wf (.ldX ⟨1, plain 1, 0, .die, .acq, .ui64, 0⟩) = true ∧ wf (.stX ⟨plain 1, plain 2, 0, .die, .rel, .ui64, 0⟩) = true :=
  ⟨by unfold LocalAt; decide +kernel, by rfl, ready_live (by rfl) (by simp), by decide, by decide⟩

/-- Eight doublewords up to the Attic are active. -/
theorem test_hyp_LocalVectorAccesses : AllLocal (box 0 Lane.reset) 64 0xFF (fun k => 0xFF8000000006BFC0 + BitVec.ofNat 64 (8 * k))
      (fun k => 0x6BFC0 + 8 * k) true
    ∧ (∀ k ∈ actives 64 0xFF, poisoned (box 0 Lane.reset) (lmKey 0 (0x6BFC0 + 8 * k)) 8 = false)
    ∧ (cur (box 0 Lane.reset)).firing.spec = false ∧ MemoryOk (box 0 Lane.reset) := by
  refine ⟨?_, by decide +kernel, by decide, by rfl⟩
  have h : (curCore (box 0 Lane.reset)).eng.sb = [] := by decide +kernel
  have h2 : ∀ k, k < 16 → (0xFF : P).getLsbD k = true → (0xFF8000000006BFC0 + BitVec.ofNat 64 (8 * k)).toNat = 0xFF80 * 2 ^ 48 + (0x6BFC0 + 8 * k)
      ∧ 0x6BFC0 + 8 * k + 8 ≤ 0x6C000 ∧ (0x6BFC0 + 8 * k) % 8 = 0 := by decide
  intro k hk ha
  refine ⟨h2 k hk ha, ?_⟩
  intro e he
  rw [h] at he
  cases he

/-- Supervisor core 480 in focus with lane 0 as given, and the first 64 GiB mapped to themselves with the memory type `mt`, die 0's
flue Active and every function ready. -/
def mapped (mt : Nat) (l : Lane) : State :=
  let s := State.reset.withFetchWord 32 0
  setCur { s with
    mem := memWrite s.mem fetchTable 8 (0x17F + 2 ^ 10 * mt)
    sched := { s.sched with core := 480, agenda := [] } } l

/-- A global access passes its checks at `key` and leaves a state of which `good` holds. -/
def lands (s : State) (acc : Access) (types : Nat → Prop) [DecidablePred types] (a : X) (n key : Nat) (good : State → Bool) : Bool :=
  decide (a.toNat < 2 ^ 56) && a.toNat % n == 0 && decide (key < 2 ^ 41)
    && decide (transWay s s.sched.core (ctxOf s s.sched.core (cur s)) a.toNat acc = .opened)
    && match translate s s.sched.core (ctxOf s s.sched.core (cur s)) a.toNat acc with
      | some (t, pa, mt, de) => pa == key && decide (types mt) && decide (pathPhys t (dieNo s.sched.core) key mt (writes acc) = .opened)
          && linesFree t s.sched.core (lineOf key) (writes acc) (cacheable key mt)
          && match lineAccess t (accessorOf (cur s)) a.toNat key mt de (acc != .load) with
            | .ok u => good u
            | .error _ => false
      | none => false

theorem lands_at {s : State} {acc : Access} {types : Nat → Prop} [DecidablePred types] {a : X} {n key : Nat} {good : State → Bool}
    (h : lands s acc types a n key good = true) : ∃ u, GlobalAt s u acc types a n key ∧ good u = true := by
  unfold lands at h
  split at h
  · rename_i t pa mt de ht
    split at h
    · rename_i u hu
      simp only [Bool.and_eq_true, decide_eq_true_eq, beq_iff_eq] at h
      obtain ⟨⟨⟨⟨h1, h2⟩, h3⟩, hw⟩, ⟨⟨⟨h4, h5⟩, h6⟩, h8⟩, h7⟩ := h
      subst h4
      exact ⟨u, .inl ⟨t, mt, de, ⟨h1, h2, hw, ht, h3, h6, fun _ => h8⟩, h5, hu⟩, h7⟩
    · simp at h
  · simp at h

/-- What the statements ask of the state that an access's checks leave. -/
def roomy (u : State) : Bool := decide ((cur u).lcnt < 63) && decide ((cur u).scnt < 63) && u.mem.wf

theorem test_hyp_GlobalLoadsAndStores :
    (∃ u, GlobalAt (mapped 0 (lane1 0x3FF8)) u .load (fun _ => True) (getX (lane1 0x3FF8) 1 + (0 : BitVec 10).signExtend 64 * 8) 8 0x3FF8
      ∧ roomy u = true)
    ∧ (∃ u, GlobalAt (mapped 2 (lane1 0x3FF8)) u .store (fun _ => True) (getX (lane1 0x3FF8) 1) 8 0x3FF8 ∧ roomy u = true)
    ∧ (∃ u, GlobalAt (mapped 0 (lane1 0xFF9000000FFFFFF8)) u .store (fun _ => True) (getX (lane1 0xFF9000000FFFFFF8) 1) 8 0x10000FFFFFF8
      ∧ roomy u = true)
    ∧ Ready (cur (mapped 0 (lane1 0x3FF8))) [.x (plain 2), .x (plain 1)] :=
  ⟨lands_at (by decide +kernel), lands_at (by decide +kernel),
    ⟨_, .inr ⟨0xFFFFFF8, rfl, by decide +kernel, by decide +kernel, by decide, by decide, by decide, by decide +kernel,
      by decide +kernel⟩, by decide +kernel⟩, ready_live (by rfl) (by simp)⟩

/-- The elements of a vector access pass their checks and leave a state of which `good` holds. -/
def vectorLands (s : State) (acc : Access) (w : Nat) (act : P) (addr : Nat → X) (good : State → List (Nat × Place) → Bool) : Bool :=
  match resolveAll s.sched.core (ctxOf s s.sched.core (cur s)) acc (w / 8) s ((actives w act).map (fun k => (k, addr k))) with
  | .ok (v, ps) => match domainAll (accessorOf (cur s)) (acc != .load) v ps with
    | .ok u => !ps.isEmpty && ps.all (fun e => !e.2.isLocal && !isWindow (placeKey s.sched.core e.2)) && good u ps
    | .error _ => false
  | .error _ => false

theorem vectorLands_at {s : State} {acc : Access} {w : Nat} {act : P} {addr : Nat → X} {good : State → List (Nat × Place) → Bool}
    (h : vectorLands s acc w act addr good = true) : ∃ u ps, VectorPlaces s u acc w act addr ps ∧ good u ps = true := by
  unfold vectorLands at h
  split at h
  · rename_i v ps hv
    split at h
    · rename_i u hu
      simp only [Bool.and_eq_true, List.all_eq_true, Bool.not_eq_true'] at h
      obtain ⟨⟨h1, h2⟩, h3⟩ := h
      exact ⟨u, ps, ⟨v, hv, hu, by rintro rfl; simp at h1, h2⟩, h3⟩
    · simp at h
  · simp at h

/-- A row of 32 words at the end of a 64-byte line, active elements 0 and 31; the same with a poisoned element. -/
theorem test_hyp_VectorGlobal :
    (∃ u ps, VectorPlaces (mapped 0 Lane.reset) u .load 32 0x80000001 (fun k => 0x3FC0 + BitVec.ofNat 64 (k * (32 / 8))) ps
      ∧ (roomy u && ps.all (fun e => !poisoned u (placeKey 480 e.2) 4)) = true)
    ∧ (∃ u ps, VectorPlaces { mapped 0 Lane.reset with poison := [0x4000] } u .load 32 0x80000001
        (fun k => 0x3FC0 + BitVec.ofNat 64 (k * (32 / 8))) ps
      ∧ (roomy u && ps.any (fun e => poisoned u (placeKey 480 e.2) 4)) = true)
    ∧ (∃ u ps, VectorPlaces (mapped 2 Lane.reset) u .store 32 0x80000001 (fun k => 0x3FC0 + BitVec.ofNat 64 (k * (32 / 8))) ps
      ∧ roomy u = true)
    ∧ (∃ u ps, VectorPlaces (mapped 0 Lane.reset) u .atomic 32 0x80000001 (fun k => 0x3FC0 + BitVec.ofNat 64 (k * (32 / 8))) ps
      ∧ roomy u = true)
    ∧ (cur (mapped 0 Lane.reset)).firing.spec = false
    ∧ Ready (cur (mapped 0 Lane.reset)) [.v (plain 2), .x (plain 1)] ∧ VFree (cur (mapped 0 Lane.reset)) 5 :=
  ⟨vectorLands_at (good := fun u ps => roomy u && ps.all (fun e => !poisoned u (placeKey 480 e.2) 4)) (by decide +kernel),
    vectorLands_at (good := fun u ps => roomy u && ps.any (fun e => poisoned u (placeKey 480 e.2) 4)) (by decide +kernel),
    vectorLands_at (good := fun u _ => roomy u) (by decide +kernel), vectorLands_at (good := fun u _ => roomy u) (by decide +kernel),
    by decide +kernel, ready_live (by rfl) (by simp [plain]), (free_live (by rfl) _).2⟩

theorem test_hyp_Atomics :
    (∃ u, GlobalAt (mapped 1 (lane1 0x3FF8)) u .atomic (fun mt => mt ≠ 2) (getX (lane1 0x3FF8) 1 + (0 : BitVec 9).signExtend 64 * 8) 8 0x3FF8
      ∧ roomy u = true)
    ∧ (∀ e ∈ (curCore (mapped 1 (lane1 0x3FF8))).eng.queue, (bankDest e.2).isNone = true)
    ∧ wf (.amo ⟨3, plain 1, plain 2, 0, .die, .acqrel, .bf16, .faddBf16x2, 0⟩) = true
    ∧ wf (.cas ⟨3, plain 1, plain 2, plain 4, 0, .pkg, .plain, .i32, 0⟩) = true
    ∧ LocalAt (getX (lane1 0xFF8000000006BFFC) 1) 4 0x6BFFC ∧ MemoryOk (box 0 (lane1 0xFF8000000006BFFC))
    ∧ Ready (cur (box 0 (lane1 0xFF8000000006BFFC))) [.x (plain 1), .x (plain 2), .x (plain 4)] :=
  ⟨lands_at (by decide +kernel), by decide +kernel, by decide, by decide, by unfold LocalAt; decide +kernel, by rfl,
    ready_live (by rfl) (by simp)⟩

/-- An ordered speculative task that runs on lane 0 of core 0. -/
def task1 : Task := {
  domain := 1, ordered := true, ts := 5, tb := 0, state := .running, record := 0, quad := 0, core := 0, lane := 0,
  launchTask := false, spilled := false, slot := 0, unfixed := false, spec := true, dropped := false, parent := none, rsig := 0, wsig := 0,
  undo := [], wset := [], rset := [], deps := [], held := [], join := none, ctx := none }

/-- A machine that holds these tasks. -/
def withTasks (ts : SMap Task) : State := { State.reset with hearth := { State.reset.hearth with tasks := ts } }

/-- An address of each class that traps: the Attic's first byte, the last below it, a poisoned word, shared space, global
addresses without a context, another core's LM and the first address above global memory; a page of type 10. -/
theorem test_hyp_AccessFaults :
    classOf (box 0 Lane.reset) 0 0xFF8000000006C000 = .ownLm 0x6C000
    ∧ (classOf (box 0 Lane.reset) 0 0xFF8000000006BFFF = .ownLm 0x6BFFF ∧ (0xFF8000000006BFFF : X).toNat % 8 ≠ 0)
    ∧ poisoned { box 0 Lane.reset with poison := [lmKey 0 0x6BFFC] } (lmKey 0 0x6BFF8) 8 = true
    ∧ (classOf (box 0 Lane.reset) 0 0xFF90000000000001 = .shared 1 ∧ (0xFF90000000000001 : X).toNat % 8 ≠ 0)
    ∧ ((0x00FFFFFFFFFFFFFF : X).toNat < 2 ^ 56 ∧ (0x00FFFFFFFFFFFFFF : X).toNat % 8 ≠ 0)
    ∧ (translate (box 0 Lane.reset) 0 (ctxOf (box 0 Lane.reset) 0 (cur (box 0 Lane.reset))) (2 ^ 56 - 8) .load = none)
    ∧ classOf (box 0 Lane.reset) 0 0xFF88000000080000 = .otherLm 1 0 ∧ classOf (box 0 Lane.reset) 0 (2 ^ 56) = .unmapped
    ∧ ((translate (mapped 2 Lane.reset) 480 (ctxOf (mapped 2 Lane.reset) 480 (cur (mapped 2 Lane.reset))) 0x3FF8 .atomic).any
        (fun r => r.2.2.1 == 2)) = true
    ∧ (∀ acc, transWay (box 0 Lane.reset) 0 (ctxOf (box 0 Lane.reset) 0 (cur (box 0 Lane.reset))) (2 ^ 56 - 8) acc = .opened)
    ∧ transWay (mapped 2 Lane.reset) 480 (ctxOf (mapped 2 Lane.reset) 480 (cur (mapped 2 Lane.reset))) 0x3FF8 .atomic = .opened
    ∧ XReady (cur (box 0 (lane1 1))) (plain 1) ∧ XFree (cur (box 0 (lane1 1))) 3 :=
  ⟨by decide +kernel, by decide +kernel, by decide +kernel, by decide +kernel, by decide, by decide +kernel, by decide +kernel,
    by decide +kernel, by decide +kernel, fun _ => rfl, by decide +kernel, xready_live (by rfl) _, (free_live (by rfl) _).1⟩

/-- A task alone in its domain, with no line, with 63 and with 64 lines written; an earlier and a later task of a domain, of
which the later has read the line. -/
theorem test_hyp_OrderedAccess :
    (taskOf (withTasks [(1, task1)]) 1 = some task1 ∧ task1.spec = true ∧ domainTasks (withTasks [(1, task1)]) 1 = [(1, task1)]
      ∧ holder (withTasks [(1, task1)]) 1 (some 0x40) (lineOf 0x40) true = none ∧ lineOf 0x40 ∉ task1.wset)
    ∧ (let t := { task1 with wset := (List.range 63).map (· * 64) }
       lineOf 0x1000 ∉ t.wset ∧ t.wset.length < 64 ∧ lineOf 0xFC0 ∉ t.wset ∧ lineOf 0xF80 ∈ t.wset)
    ∧ (let t := { task1 with wset := (List.range 64).map (· * 64) }
       lineOf 0x1000 ∉ t.wset ∧ 64 ≤ t.wset.length ∧ lineOf 0xFC0 ∈ t.wset)
    ∧ (let u := { task1 with ts := 6, rsig := sigInsert 0 0x40 }
       let s := withTasks [(1, task1), (2, u)]
       domainTasks s 1 = [(1, task1), (2, u)] ∧ taskOf s 2 = some u ∧ u.state = .running ∧ taskKey task1 < taskKey u
         ∧ sigHits u.rsig 0x40 = true ∧ holder s 1 (some 0x40) (lineOf 0x40) true = none) := by decide +kernel

/-- A launch of quads 0 whose virtual core 7 is core 3, and whose owner map gives address 0x1000 to core 0x2E3. -/
def mapsLaunch : State :=
  let s := onPkg (box 0 (hosted (lane1 0x1007))) (fun p => { p with launches := [(1, { launched with vmap := [(0, 2)], omap := [(0, 1)] })] })
  onDie s 0 (fun d => { d with
    vmaps := [(2, [(7, 0x8003)])]
    owners := [(1, ⟨0x1000, 0x1FFF, true, 12, [(0, 0x8323)]⟩)] })

theorem test_hyp_SendInstructions :
    namesCore 0xF3F = true ∧ namesCore 0xF40 = false ∧ namesCore 0xFE1 = false ∧ namesCore 0xFEC = true
    ∧ (bits 0xFEC 32 32 = 0 ∧ bits 0xFEC 14 2 = 0 ∧ bit 0xFEC 12 = false ∧ bits 0xFEC 0 12 = 0xFEC)
    ∧ ((launchOf mapsLaunch 0 (cur mapsLaunch)).any (fun x => virtCore mapsLaunch 0 x.2 7 == some 3)) = true
    ∧ ((launchOf mapsLaunch 0 (cur mapsLaunch)).any (fun x => ownerCore mapsLaunch 0 x.2 0x1FFF == some 0x323
        && namesCore 0x323 && (ownerCore mapsLaunch 0 x.2 0x2000).isNone)) = true
    ∧ (curCore mapsLaunch).msg.sendQ.length < 32 ∧ (cur mapsLaunch).firing.spec = false
    ∧ Ready (cur mapsLaunch) (.x (plain 1) :: payloadRun (plain 28) 4 ++ [.x (plain 5)]) :=
  ⟨by decide, by decide, by decide, by decide, by decide, by decide +kernel, by decide +kernel, by decide +kernel,
    by decide +kernel, ready_live (by rfl) (by simp [payloadRun, plain])⟩

/-- A counter of global memory that holds 2^64 − 2, and one that holds 0. -/
theorem test_hyp_SpawnInstructions :
    recordOk 0 = true
    ∧ (∃ u, GlobalAt (mapped 0 (lane1 0x3FF8)) u .atomic (fun mt => mt = 0) (getX (lane1 0x3FF8) 1) 8 0x3FF8
      ∧ (roomy u && decide ((curCore u).msg.spawnQ.length < 16) && decide ((memRead u.mem 0x3FF8 8 + 1) % 2 ^ 64 ≠ 0)
        && decide (memRead u.mem 0x3FF8 8 = 0) && u.pkg.joins.isEmpty) = true)
    ∧ (∃ u, GlobalAt (onMem (mapped 0 (lane1 0x3FF8)) (fun m => memWrite m 0x3FF8 8 (2 ^ 64 - 2))) u .atomic (fun mt => mt = 0)
        (getX (lane1 0x3FF8) 1) 8 0x3FF8 ∧ (roomy u && decide ((memRead u.mem 0x3FF8 8 + 1) % 2 ^ 64 ≠ 0)
          && decide (memRead u.mem 0x3FF8 8 ≠ 0)) = true)
    ∧ XReady (cur (mapped 0 (lane1 0x3FF8))) (plain 1) ∧ VReady (cur (mapped 0 (lane1 0x3FF8))) (plain 2)
    ∧ (curCore (mapped 0 (lane1 0x3FF8))).msg.spawnQ.length < 16 :=
  ⟨by decide +kernel, lands_at (good := fun u => roomy u && decide ((curCore u).msg.spawnQ.length < 16)
      && decide ((memRead u.mem 0x3FF8 8 + 1) % 2 ^ 64 ≠ 0) && decide (memRead u.mem 0x3FF8 8 = 0) && u.pkg.joins.isEmpty) (by decide +kernel),
    lands_at (good := fun u => roomy u && decide ((memRead u.mem 0x3FF8 8 + 1) % 2 ^ 64 ≠ 0) && decide (memRead u.mem 0x3FF8 8 ≠ 0))
      (by decide +kernel), xready_live (by rfl) _,
    ready_live (srcs := [.v (plain 2)]) (by rfl) (by simp [plain]) (.v (plain 2)) (by simp), by decide +kernel⟩

theorem test_hyp_TimestampAndAborts :
    (speculative.firing.spec = true ∧ speculative.firing.task = some 1) ∧ (Lane.reset.firing.spec = false ∧ XFree Lane.reset 31)
    ∧ (let s := withTasks [(1, task1), (2, { task1 with ts := 6, spec := false })]
       taskOf s 1 = some task1 ∧ task1.state = .running ∧ (∀ e ∈ s.hearth.tasks, e.2.parent ≠ some 1 ∧ 1 ∉ e.2.deps)
        ∧ task1.spilled = false ∧ queuedAt s task1.quad false < 2048 ∧ recordsOf s task1.quad task1.domain true = [])
    ∧ (∀ g : X, g = 5 ∨ g = 4 →
        let s := withTasks [(1, task1)]
        let s := { s with hearth := { s.hearth with domains := [(0, { Domain.reset with
          id := 1
          live := true
          ordered := true
          gvt := g })] } }
        taskOf s 1 = some task1 ∧ isEarliest s task1 = (g == 5)) :=
  ⟨by decide, ⟨by decide, (free_live (by rfl) _).1⟩, by decide +kernel, by rintro g (rfl | rfl) <;> decide +kernel⟩

/-- Core 0 with range register 3 of domain 0 holding 10 to 15, and core 1 with one of two elements; a STEAL in flight. -/
def ranged : State :=
  rangeSet (rangeSet (box 0 (lane1 9)) 0 3 ⟨10, 15, 2, 0, false, true, 0, 0⟩) 1 0 ⟨4, 6, 1, 0, false, true, 0, 0⟩

/-- Core 0 with a STEAL of lane 0 that waits for its answer. -/
def stealing (a : Option (Option (X × X × BitVec 32))) (v : List Nat) : State :=
  let s := onCore (box 0 { Lane.reset with status := .blocked, wait := some (.stealAnswer 3 9) }) 0 (fun k =>
    { k with msg := { k.msg with steals := [⟨0, 3, 0, v, a⟩] } })
  rangeSet s 0 3 ⟨7, 7, 0, 0, true, true, 0, 0⟩

theorem test_hyp_RangesAndStealing :
    (cur ranged).firing.spec = false ∧ MemoryOk ranged ∧ Ready (cur ranged) [.x (plain 1), .x (plain 2)]
    ∧ XFree (cur ranged) 30 ∧ XFree (cur ranged) (30 + 1)
    ∧ (rangeGet ranged 0 3 = ⟨10, 15, 2, 0, false, true, 0, 0⟩ ∧ (cur ranged).firing.domain = 0)
    ∧ (rangeGet ranged 0 0).valid = false ∧ (rangeGet ranged 0 2).stop.toNat ≤ (rangeGet ranged 0 2).next.toNat
    ∧ ((eligibleRange ranged 1 0 = some (0, rangeGet ranged 1 0)) ∧ 2 ≤ rangeLeft (rangeGet ranged 1 0)
        ∧ 2 * (rangeGet ranged 1 0).grain.toNat ≤ rangeLeft (rangeGet ranged 1 0) ∧ (quadOf ranged (quadNo 1)).vacating = false)
    ∧ (∃ q, stealOf (stealing (some (some (4, 6, 1))) []) 0 0 = some q ∧ q.k < 4 ∧ q.domain < 65536 ∧ q.answer = some (some (4, 6, 1)))
    ∧ (∃ q, stealOf (stealing (some none) []) 0 0 = some q ∧ q.answer = some none ∧ q.victims = [])
    ∧ (∃ q, stealOf (stealing none [1, 2]) 0 0 = some q ∧ q.answer = none ∧ q.victims = [1, 2])
    ∧ ((laneOf (stealing none [1]) 0 0).status = .blocked ∧ (laneOf (stealing none [1]) 0 0).wait = some (.stealAnswer 3 9))
    ∧ (∀ x ∈ (coreOf (stealing none [1]) 0).msg.steals, x.lane = 0 → x = ⟨0, 3, 0, [1], none⟩) ∧ MemoryOk (stealing none [1]) :=
  ⟨by decide +kernel, by rfl, ready_live (by rfl) (by simp), (free_live (by rfl) _).1, (free_live (by rfl) _).1, by decide +kernel,
    by decide +kernel, by decide +kernel, by decide +kernel, ⟨_, rfl, by decide, by decide, rfl⟩, ⟨_, rfl, rfl, rfl⟩, ⟨_, rfl, rfl, rfl⟩,
    by decide +kernel, by decide +kernel, by rfl⟩

/-- Core 0 with stream buffer 15 of two words at the end of LM below the Attic, one element in it. -/
def streamed : State := streamSet (box 0 (laneX [(1, 15), (2, 0x2006BFF8), (3, 0x1FEC0005)])) 0 15 ⟨1, 0, 2, 0x6BFF8, 0⟩

/-- SBCFG of a buffer that ends at the Attic; a push and a pop; a push to the last core; an actor, not enabled and
enabled; a handler entry. -/
theorem test_hyp_StreamInstructions :
    (cur streamed).firing.spec = false ∧ MemoryOk streamed ∧ (curCore streamed).eng.sb = []
    ∧ ((getX (cur streamed) 1).toNat < 16 ∧ bits (2 * 2 ^ 32 + 0x6BFF8) 22 10 = 0 ∧ bits (2 * 2 ^ 32 + 0x6BFF8) 48 16 = 0
      ∧ 0x6BFF8 % (4 * 2 ^ 0) = 0 ∧ 0x6BFF8 + 2 * (4 * 2 ^ 0) ≤ 0x6C000)
    ∧ (let q := streamGet streamed 0 15
       streamCount q < q.size ∧ 0 < streamCount q ∧ q.size ≠ 0 ∧ q.base + q.size * (4 * 2 ^ q.esz) ≤ 0x6C000
         ∧ poisoned streamed (lmKey 0 (q.base + q.head % q.size * (4 * 2 ^ q.esz))) (4 * 2 ^ q.esz) = false)
    ∧ (let a := (getX (cur streamed) 3).toNat
       bit a 28 = true ∧ bits a 29 35 = 0 ∧ bits a 4 12 = 0 ∧ namesCore (bits a 16 12) = true)
    ∧ (curCore streamed).msg.sendQ.length < 32
    ∧ bit 0 52 = false ∧ actorOk streamed 0 15 (2 ^ 52 + 0x011F * 2 ^ 128) = true
    ∧ Ready (cur streamed) [.x (plain 1), .x (plain 2), .v (plain 31)] ∧ VFree (cur streamed) 31 :=
  ⟨by decide +kernel, by rfl, by decide +kernel, by decide +kernel, by decide +kernel, by decide +kernel, by decide +kernel,
    by decide, by decide +kernel, ready_live (by rfl) (by simp [plain]), (free_live (by rfl) _).2⟩

/-- A barrier of own LM and one of global memory; one in phase 0, and one in error. -/
theorem test_hyp_TransactionBarrierInstructions :
    (∃ u, BarrierAt (box 0 (laneX [(1, 0xFF8000000006BFF0), (2, 0xFFFF)])) u true (getX (laneX [(1, 0xFF8000000006BFF0), (2, 0xFFFF)]) 1)
      (lmKey 0 0x6BFF0))
    ∧ (∃ u, BarrierAt (mapped 0 (lane1 0x3FF0)) u true (getX (lane1 0x3FF0) 1) 0x3FF0)
    ∧ (∃ u, BarrierAt (mapped 0 (lane1 0x3FF0)) u false (getX (lane1 0x3FF0) 1) 0x3FF0)
    ∧ 2 ^ 45 ≤ lmKey 0 0x6BFF0 ∧ 0x3FF0 < 2 ^ 45 ∧ (getX (laneX [(1, 0xFF8000000006BFF0), (2, 0xFFFF)]) 2).toNat < 2 ^ 16
    ∧ txUnderflow 0x100 (.arrive 1) = false ∧ txUnderflow 0 (.arrive 1) = true
    ∧ (∀ x ∈ (curCore (box 0 Lane.reset)).eng.tx, x.lane ≠ 0 ∨ x.key ≠ lmKey 0 0x6BFF0)
    ∧ (txPhase 0 ≠ 15 ∧ txPhase 0 = 0 ∧ txErr 0 = false ∧ txErr 16 = true)
    ∧ (0x100 < 2 ^ 128 ∧ 1 ≤ txParr 0x100 ∧ txParr 0 = 0 ∧ txPsect 0 = 0 ∧ txParr 0x100 ≠ 0)
    ∧ Ready (cur (box 0 (lane1 0))) [.x (plain 1), .x (plain 2)] :=
  ⟨⟨_, .inl ⟨0x6BFF0, rfl, by unfold LocalAt; decide +kernel, rfl, by decide +kernel⟩⟩,
    (lands_at (good := fun _ => true) (by decide +kernel)).imp (fun _ h => .inr ⟨by decide +kernel, h.1⟩),
    (lands_at (good := fun _ => true) (by decide +kernel)).imp (fun _ h => .inr ⟨by decide +kernel, h.1⟩),
    by decide, by decide, by decide +kernel, by decide, by decide, by decide +kernel, by decide, by decide, ready_live (by rfl) (by simp)⟩

/-- Core 0 in a live launch, with barriers 0 and 31 of the die and 0 of the pod, 31 with one arrival of two; quad barrier 7 in phase
15 with one arrival of two. -/
def barred (a : X) : State :=
  let b := fun (k : Nat) => (⟨⟨15, k, 2⟩, true, 1, 3, 0, 0⟩ : NetBarrier)
  let s := onPkg (withLaunch (hosted (lane1 a))) (fun p => { p with podBars := [(0, b 0)], bars := [(63, b 1)] })
  setBarrier (onDie s 0 (fun d => { d with bars := [(0, b 0), (31, b 1)] })) 0 .quad 7 ⟨15, 1, 2⟩

/-- A count of 0 and one above 64; the last arrival, and one that is not the last; a phase that has passed, and the current one;
a barrier that is not granted. -/
theorem test_hyp_Barriers :
    (getP (cur (barred 0)) 0).getLsbD 0 = true ∧ (cur (barred 0)).firing.spec = false ∧ XReady (cur (barred 0)) (plain 1)
    ∧ XFree (cur (barred 0)) 2 ∧ (cur (barred 0)).lcnt = 0 ∧ (cur (barred 0)).scnt = 0
    ∧ (barrierOf (barred 0) 0 .quad 7 = ⟨15, 1, 2⟩ ∧ barrierOf (barred 0) 0 .core 0 = ⟨0, 0, 0⟩)
    ∧ ((getX (cur (barred 0)) 1).toNat % 2 ^ 16 = 0 ∧ 64 < (getX (cur (barred 65)) 1).toNat % 2 ^ 16)
    ∧ (¬ ((2 : Nat) = 0 ∨ 64 < 2 ∨ (0 < 1 ∧ 2 ≠ 2)) ∧ 1 + 1 = 2 ∧ ¬ ((16 : Nat) = 0 ∨ 16 < 16 ∨ ((0 : Nat) < 0 ∧ 16 ≠ 0)) ∧ 0 + 1 ≠ 16)
    ∧ (15 ≠ (getX (cur (barred 14)) 1).toNat % 16 ∧ 15 = (getX (cur (barred 15)) 1).toNat % 16)
    ∧ barrierGranted (barred 0) .die 31 = true ∧ barrierGranted (barred 0) .die 1 = false ∧ barrierGranted (barred 0) .pkg 63 = true
    ∧ barrierGranted (barred 0) .pod 0 = true
    ∧ ((barrierOf (barred 0) 0 .die 31).count + 1 = (barrierOf (barred 0) 0 .die 31).expect)
    ∧ ((barrierOf (barred 0) 0 .die 0).count + 1 ≠ (barrierOf (barred 0) 0 .die 0).expect)
    ∧ ((barrierOf (barred 0) 0 .pod 0).count ≠ (barrierOf (barred 0) 0 .pod 0).expect) :=
  ⟨by decide +kernel, by decide +kernel, xready_live (by rfl) _, (free_live (by rfl) _).1, by decide +kernel, by decide +kernel,
    by decide +kernel, by decide +kernel, by decide, by decide +kernel, by decide +kernel, by decide +kernel, by decide +kernel,
    by decide +kernel, by decide +kernel, by decide +kernel, by decide +kernel⟩

/-- The operands of engine commands: a record, two sources and destinations of own LM, of shared space and of global memory. -/
def engineLane : Lane := hosted (laneX [(1, 0xFF80000000000040), (2, 0xFF80000000001000), (4, 0xFF90000000000000), (5, 0xFF90000000000020),
  (6, 0x3FC0), (7, 1), (8, 0x3F80)])

/-- Core 0 of a live launch of a pod group, with the first 64 GiB mapped, a record at 0x40 of own LM, a collective descriptor at
0x3FC0 and a queue descriptor at 0x3F80. -/
def engineState : State :=
  let s := setCur { mapped 0 Lane.reset with sched := { (mapped 0 Lane.reset).sched with core := 0 } } engineLane
  let s := onPkg s (fun p => { p with launches := [(1, { launched with ctx := 0, mtab := 0x8000 })] })
  onMem s (fun m =>
    let m := memWrite m (lmKey 0 0x40) 192 (0x4000 + 2 ^ 72 + 2 ^ 104 + 32 * 2 ^ 128 + 32 * 2 ^ 704)
    let m := memWrite m 0x3FC0 64 (0x4000 + 0x5000 * 2 ^ 64 + 1 * 2 ^ 128 + 7 * 2 ^ 160 + 0x8000 * 2 ^ 192 + 1 * 2 ^ 256)
    let m := memWrite m 0x3F80 64 (2 * 2 ^ 288 + 9 * 2 ^ 304 + 512 * 2 ^ 320)
    memWrite m 0x8000 8 (0x80000000 + 0x80000000 * 2 ^ 32))

theorem test_hyp_DataMoversAccepted :
    (cur engineState).firing.spec = false
    ∧ PlainReady (cur engineState) ((1 : Reg) :: coordRegs 20 ++ [2] ++ [0])
    ∧ (∃ o, classOf engineState 0 (getX (cur engineState) 2) = .ownLm o ∧ o < 0x6C000)
    ∧ recordAddr engineState (getX (cur engineState) 1) = .ok ()
    ∧ (∃ u bar v ra, barPlace engineState (getX (cur engineState) 0) = .ok (u, bar)
      ∧ readRecord u engineState.sched.core (cur engineState) (getX (cur engineState) 1) = .ok (v, ra)
      ∧ (recordValid false ra && recordValid true ra
        && (let op := newOp v (.copyIn ⟨1, 20, 2, 0, .none, false, 0, false⟩) (getX engineLane 1) (getX engineLane 2) 0 0
              (coordsOf engineLane 20) ra 0 bar
            (acceptError v op).isNone && sbRoomFor (coreOf v 0) (moverEntries v op).length)
        && (lowestFree (coreOf v 0).eng.queue 32 == some 0)) = true) :=
  ⟨by decide +kernel, ready_live (by rfl) (by simp), ⟨_, rfl, by decide +kernel⟩, by rfl,
    ⟨_, _, _, _, rfl, rfl, by decide +kernel⟩⟩

/-- Bank operations on two apart ranges of shared space and on own LM; a member and the remote and local ends of a pod operation; a
collective's and a queue's descriptor. -/
theorem test_hyp_PackageOperationsAccepted :
    PlainReady (cur engineState) [4, 2, 0, 5]
    ∧ ((∃ r, sharedRange engineState (getX (cur engineState) 4) 1 = .ok r ∧ (r == 0) = true)
      ∧ (∃ r, sharedRange engineState (getX (cur engineState) 5) 1 = .ok r ∧ (r == 32) = true) ∧ 0 + 32 * 1 ≤ 32)
    ∧ (∃ r, lmRange engineState (getX (cur engineState) 2) 1 = .ok r ∧ true = true)
    ∧ (∃ r, barPlace engineState (getX (cur engineState) 0) = .ok r ∧ (lowestFree (coreOf r.1 0).eng.queue 32 == some 0 && sbRoom (coreOf r.1 0)) = true)
    ∧ (∃ x, podLaunch engineState = .ok x ∧ memberOk engineState x (getX (cur engineState) 7).toNat = true)
    ∧ (getX (cur engineState) 7).toNat < 2 ^ 14
    ∧ (∃ r, localEnd engineState (getX (cur engineState) 2) 1 = .ok r ∧ true = true) ∧ (∃ r, remoteEnd engineState (getX (cur engineState) 6) 32 = .ok r ∧ true = true)
    ∧ (∃ r, loadBytes engineState (getX (cur engineState) 6) 64 64 = .ok r ∧ (let d := r.2
        decide (bits d 272 16 < bits d 256 16) && answers (loadBytes r.1 (BitVec.ofNat 64 (bits d 192 64 + 2 * bits d 272 16)) 2 1) (fun q =>
          collValid d false q.2 launched.rank && decide (∀ e ∈ collsInFlight q.1 (some 1), collTag e.2.2.recA ≠ collTag d)
          && (lowestFree (coreOf q.1 0).eng.queue 32 == some 0))) = true)
    ∧ (∃ r, recordPlace engineState 0 (cur engineState) (getX (cur engineState) 8) = .ok r
      ∧ (blkDescOk (memRead r.1.mem r.2 64) && bits (memRead r.1.mem r.2 64) 312 3 == 0 && (lowestFree (coreOf r.1 0).eng.queue 32 == some 0)) = true)
    ∧ (0x3FC0 < 2 ^ 56 ∧ (0x3FC0 : X).toNat % 4 = 0)
    ∧ (∀ x ∈ translate engineState 0 (ctxOf engineState 0 (cur engineState)) 0x3FC0 .load, x.2.2.1 = 0) :=
  ⟨ready_live (by rfl) (by simp), ⟨answers_ok (good := fun r => r == 0) (by decide +kernel), answers_ok (good := fun r => r == 32) (by decide +kernel),
    by decide⟩, answers_ok (good := fun _ => true) (by decide +kernel),
    answers_ok (good := fun (r : State × Option Nat) => lowestFree (coreOf r.1 0).eng.queue 32 == some 0 && sbRoom (coreOf r.1 0)) (by decide +kernel),
    answers_ok (good := fun x => memberOk engineState x (getX (cur engineState) 7).toNat) (by decide +kernel), by decide +kernel,
    answers_ok (good := fun _ => true) (by decide +kernel), answers_ok (good := fun _ => true) (by decide +kernel),
    answers_ok (good := fun (r : State × Nat) => let d := r.2
        decide (bits d 272 16 < bits d 256 16) && answers (loadBytes r.1 (BitVec.ofNat 64 (bits d 192 64 + 2 * bits d 272 16)) 2 1) (fun q =>
          collValid d false q.2 launched.rank && decide (∀ e ∈ collsInFlight q.1 (some 1), collTag e.2.2.recA ≠ collTag d)
          && (lowestFree (coreOf q.1 0).eng.queue 32 == some 0))) (by decide +kernel),
    answers_ok (good := fun (r : State × Nat) => blkDescOk (memRead r.1.mem r.2 64) && bits (memRead r.1.mem r.2 64) 312 3 == 0
      && (lowestFree (coreOf r.1 0).eng.queue 32 == some 0)) (by decide +kernel), by decide, by decide +kernel⟩

/-- An operation of lane 0 of core 0, in slot 0 of its queue, that moves sectors. -/
def opWith (k : EngKind) (st : OpState) (cnt : List Nat) : EngOp := {
  seq := 0, lane := 0, kind := k, xs := getX engineLane 4, xl := getX engineLane 2, xn := getX engineLane 7, xb := 0, coords := [0],
  recA := 0xFF80000000002000 + 2 ^ 72 + 2 ^ 104 + 64 * 2 ^ 128 + 64 * 2 ^ 704
  recB := 0, ctx := some 0, task := none, owner := none, launch := some 1, peers := [], state := st, counted := cnt, failed := [], rows := [], faulted := none,
  faultAt := 0, bar := none, sb := none, sbScale := none, heldAt := none, sbase := 0, sent := 2 }

/-- The machine with that operation, and with its sector 1 applied when `ap` holds. -/
def running (op : EngOp) (ap : Bool) : State :=
  let s := onCore engineState 0 (fun k => { k with eng := { k.eng with queue := [(0, op)] } })
  if ap then onPkg s (fun p => { p with applied := [(opId 0 0 op, [1])] }) else s

/-- A copy, a reduction and a bank operation. -/
def aCopy : EngKind := .copyOut ⟨1, 20, 2, 0, .none, true, 0, false⟩
def aRed : EngKind := .red ⟨1, 20, 2, 0, .none, true, .add, .ui8, 0, false⟩
def aBop : EngKind := .bop ⟨4, 7, 0, .ui8, .add, 1⟩
def aGet : EngKind := .get ⟨4, 2, 7, 0, .none, true, 1⟩

/-- Of two sectors, the first still to come and the last. -/
theorem test_hyp_EngineSectors :
    (∃ op, engOp (running (opWith aCopy .queued []) false) 0 0 = some op ∧ op.state = .queued
      ∧ mayStart (coreOf (running (opWith aCopy .queued []) false) 0) op.sb = true
      ∧ (streamOk (running (opWith aCopy .queued []) false) 0 op && !streamBusy (running (opWith aCopy .queued []) false) 0 0 op
        && startRoom (running (opWith aCopy .queued []) false) 0 op) = true ∧ wayOf op.kind ≠ .outside)
    ∧ (let s := onCore (running { opWith aCopy .queued [] with sb := some 5 } false) 0 (fun k => { k with eng := { k.eng with
          sb := [(0, ⟨4, 1, 0, none, none, some (0, 0), 0, 0, 0, 0, none⟩), (1, ⟨5, 0, 0, some (0, 1), none, none, 0, 0, 0, 0, none⟩)] } })
       (engOp s 0 0).isSome = true ∧ mayStart (coreOf s 0) (some 5) = false)
    ∧ (opSectors (opWith aCopy .running []) = 2 ∧ opSectors (opWith aRed .running []) = 2 ∧ opSectors (opWith aBop .running []) = 2)
    ∧ (∃ r, performGroup 0 (opWith aCopy .running []) (running (opWith aCopy .running []) false) [0] = .ok r ∧ r.2.isNone = true)
    ∧ (∃ r, performGroup 0 (opWith aCopy .running [0]) (running (opWith aCopy .running [0]) false) [1] = .ok r ∧ r.2.isNone = true)
    ∧ secondPartHeld (running (opWith aCopy .running [0]) false) 0 (opWith aCopy .running [0]) 1 = false
    ∧ (wayOf aCopy = .engine ∧ rowCount aCopy = 0 ∧ wayOf aRed = .reduce ∧ wayOf aBop = .bank)
    ∧ (sectorApplied (running (opWith aRed .running [0]) true) 0 0 (opWith aRed .running [0]) 1 = true
      ∧ sectorApplied (running (opWith aRed .running [0]) false) 0 0 (opWith aRed .running [0]) 1 = false)
    ∧ (∃ r, performGroup 0 (opWith aRed .running [0]) (running (opWith aRed .running [0]) false) [1] = .ok r ∧ r.2.isNone = true)
    ∧ 1 ≤ ((List.range (opSectors (opWith aRed .running [0]))).find? (fun k => !(opWith aRed .running [0]).counted.contains k)).getD 0 + 64
    ∧ (∃ u, writeOutside (running (opWith aGet .running []) false) 0 (opWith aGet .running []) ((opWith aGet .running []).xl.toNat + 32 * 1)
        32 5 = .ok u ∧ true = true)
    ∧ (let op := opWith aBop .running []
       let s := running op false
       let off := op.xs.toNat % 2 ^ 48 + 32 * 1
       sectorApplied s 0 0 op 1 = false ∧ bankPending s 0 off op.seq = false ∧ pathShared s (dieNo 0) off = .opened
         ∧ (bankSource s 0 op 1).2 = none ∧ MemoryOk s) := by
  refine ⟨⟨_, rfl, rfl, by decide +kernel, by decide +kernel, by decide⟩, by decide +kernel, by decide +kernel,
    answers_ok (good := fun (r : State × Option Nat) => r.2.isNone) (by decide +kernel),
    answers_ok (good := fun (r : State × Option Nat) => r.2.isNone) (by decide +kernel), by decide +kernel, by decide, by decide +kernel,
    answers_ok (good := fun (r : State × Option Nat) => r.2.isNone) (by decide +kernel), by decide +kernel, answers_ok (good := fun _ => true) (by decide +kernel), ?_⟩
  exact ⟨by decide +kernel, by decide +kernel, by decide +kernel, by decide +kernel, by show Memory.wf _ = true; decide +kernel⟩

/-- The sector of a PUT that reads its local end, and the one sector of an all-reduce of a group of one member. -/
theorem test_hyp_podSectors :
    (let op := opWith (.put ⟨4, 2, 7, 0, true, 1⟩) .running []
     1 < op.sent ∧ opSectors op = 2 ∧ { op with sent := 1 }.sent ≤ 1 ∧ isPod op.kind = true
      ∧ (∃ u, readOutside (running op false) 0 op 1 = .ok u ∧ u.2.isNone = true))
    ∧ (let op := { opWith (.allred ⟨6, 0, .i32, .add⟩) .running [] with recA := memRead engineState.mem 0x3FC0 64 }
       opSectors op = 1 ∧ collBytes op false .i32 0 = 4 ∧ bits op.recA 64 64 + 4 ≤ 2 ^ 56
        ∧ (∃ r, ownBits (running op false) 0 op 0 32 = .ok r ∧ (r.2.2.isNone
            && answers (writeOutside r.1 0 op (bits op.recA 64 64) 4 (BitVec.ofNat 256 (reduced r.1 op .i32 .add r.2.1 5))) (fun _ => true)) = true)) :=
  ⟨⟨by decide, by decide +kernel, by decide, by decide, answers_ok (good := fun (r : State × Option Nat) => r.2.isNone) (by decide +kernel)⟩,
    by decide +kernel, by decide +kernel, by decide +kernel,
    answers_ok (good := fun (r : State × Nat × Option Nat) => r.2.2.isNone
      && answers (writeOutside r.1 0 { opWith (.allred ⟨6, 0, .i32, .add⟩) .running [] with recA := memRead engineState.mem 0x3FC0 64 }
        (bits (memRead engineState.mem 0x3FC0 64) 64 64) 4 (BitVec.ofNat 256 (reduced r.1 { opWith (.allred ⟨6, 0, .i32, .add⟩) .running [] with
          recA := memRead engineState.mem 0x3FC0 64 } .i32 .add r.2.1 5))) (fun _ => true)) (by decide +kernel)⟩

/-- A storage operation of one command, in flight under identifier 0. -/
def aBlk : EngOp := { opWith (.blkRd ⟨8, 6, 7, 0, .none, true, 0⟩) .running [] with
  recA := 2 * 2 ^ 288 + 9 * 2 ^ 304 + 512 * 2 ^ 320 }

theorem test_hyp_EngineEnds :
    (let s := onCore engineState 0 (fun k => { k with eng := { k.eng with tx := [⟨0, 0x3FF0, 0x3FF0, .arrive 0, ⟨none, none, none⟩⟩] } })
     (coreOf s 0).eng.tx = [⟨0, 0x3FF0, 0x3FF0, .arrive 0, ⟨none, none, none⟩⟩] ∧ txUnderflow (memRead s.mem 0x3FF0 16) (.arrive 0) = false)
    ∧ (isSup 480 = true ∧ dieNo 480 = dieNo 0 ∧ (opWith aCopy .suspended []).state = .suspended
      ∧ engOp (running (opWith aCopy .suspended []) false) 0 0 = some (opWith aCopy .suspended []))
    ∧ (opWith aGet .running []).state = .running ∧ isColl (.cbar ⟨6, 0, .i32, .add⟩) = true
    ∧ (let s := setBlkQueue (running aBlk false) 0 aBlk.recA ⟨1, 0, true, [(0, (0, 0))]⟩
       let q := blkQueue s (dieNo 0) aBlk.recA
       q.inflight.find? (fun e => e.2 == (0, 0)) = some (0, (0, 0))
         ∧ aBlk.counted.length + commandSectors aBlk = opSectors aBlk ∧ 0 < commandSectors aBlk) := by decide +kernel

/-- A packet of the group, current, and one of another incarnation; a sector that has been combined; an answer to an own operation. -/
theorem test_hyp_PodPackets :
    let x : Launch := { launched with ctx := 0, mtab := 0x8000 }
    let p : PodPacket := ⟨0, 0, 0, 3, 5, 1, 0x3FC0, .put 7⟩
    groupLaunch engineState 3 = some x ∧ podCurrent engineState x p = true ∧ podCurrent engineState x { p with target := 1 } = false
    ∧ podHeld engineState x .load 0x3FC0 = none ∧ podHeld engineState x .store 0x3FC0 = none ∧ podHeld engineState x .atomic 0x3FC0 = none
    ∧ podHeld engineState x .load (2 ^ 40) = none
    ∧ (podTarget engineState x .load (2 ^ 40)).isNone = true ∧ (podTarget engineState x .load 0x3FC0).isSome = true
    ∧ ((podTarget engineState x .store 0x3FC0).any (fun r => r.2 == 0x3FC0 && r.1.mem.wf)) = true
    ∧ ((podTarget engineState x .atomic 0x3FC0).any (fun r => r.2 == 0x3FC0 && r.1.mem.wf
        && !(smGetD r.1.pkg.applied (2 ^ 32 + 5) []).contains 1 && !poisoned r.1 0x3FC0 32)) = true
    ∧ ((podTarget (poisonAt engineState 0x3FC0) x .atomic 0x3FC0).any (fun r => r.1.mem.wf && poisoned r.1 0x3FC0 32)) = true
    ∧ (let s := onPkg engineState (fun p => { p with applied := [(2 ^ 32 + 5, [1])] })
       (podTarget s x .atomic 0x3FC0).any (fun r => (smGetD r.1.pkg.applied (2 ^ 32 + 5) []).contains 1) = true)
    ∧ (let op := opWith aGet .running []
       let s := running op false
       groupLaunch s 3 = some x ∧ podCurrent s x { p with what := .refused, opId := 0 } = true ∧ engOp s 0 0 = some op ∧ opId 0 0 op = 0
         ∧ 1 < opSectors op ∧ isPod op.kind = true ∧ 1 < op.sent) := by decide +kernel

/-- Supervisor-free core 0 with lane 0 in a tile firing that owns the tiles of seat 1; x1 at the end of LM below the Attic, x2 a row step. -/
def seatLane : Lane := { laneX [(1, 0xFF8000000006BFC0), (2, 0x7FFFC), (3, 64), (5, 0xFF80000000001000)] with
  firing := { Firing.reset with kind := .launch, cls := 1 } }

/-- The machine with that lane, and a group table of one group of 64 rows at 0x1000. -/
def seated : State :=
  let s := onCore (box 0 seatLane) 0 (fun k => { k with stove := { k.stove with
    owner := #v[none, some 0], cfg := k.stove.cfg.set 4 ⟨.ui8, 1, 64⟩ } })
  onMem s (fun m => memWrite m (lmKey 0 0x1000) 16 (64 + 9 * 2 ^ 8 + 0x2000 * 2 ^ 32))

theorem test_hyp_TileInstructions :
    InSeat seated 1 ∧ PlainReady (cur seated) [1, 2] ∧ VFree (cur seated) 31 ∧ (curCore seated).eng.sb = []
    ∧ seatLoad (curCore seated).stove.seats[(1 : Fin 2)] < 16 ∧ sbRoom (curCore seated) = true
    ∧ (let cfg := cfgOf (curCore seated) 4
       classOf seated 0 (getX (cur seated) 1) = .ownLm 0x6BFC0 ∧ 0x6BFC0 % 4 = 0 ∧ (getX (cur seated) 2).toNat % 4 = 0
         ∧ (getX (cur seated) 2).toNat ≤ 0x7FFFF ∧ 0x6BFC0 + (cfg.rows - 1) * (getX (cur seated) 2).toNat + rowBytes cfg - 1 < 0x6C000) :=
  ⟨⟨by decide +kernel, by decide +kernel⟩, ready_live (by rfl) (by simp), (free_live (by rfl) _).2, by decide +kernel, by decide +kernel,
    by decide +kernel, by decide +kernel⟩

theorem test_hyp_GangInstructions :
    InSeat seated 1 ∧ (cur seated).firing.spec = false ∧ PlainReady (cur seated) [5, 3]
    ∧ ScalesOk seated true .bf16 (getX (cur seated) 1) 64 ∧ ScalesOk seated true .e4m3 (getX (cur seated) 1) 64
    ∧ ScalesOk seated true .e4m3 (getX (cur seated) 0) (2 ^ 20)
    ∧ (let table := (List.range 1).map (fun k => memRead seated.mem (lmKey 0 (0x1000 + 16 * k)) 16)
       classOf seated 0 (getX (cur seated) 5) = .ownLm 0x1000 ∧ 0x1000 % 16 = 0 ∧ poisoned seated (lmKey 0 0x1000) 16 = false
         ∧ (∀ e ∈ table, entryOk .bf16 e = true) ∧ (table.map entryRows).sum ≤ 64) := by
  refine ⟨⟨by decide +kernel, by decide +kernel⟩, by decide +kernel, ready_live (by rfl) (by simp), ?_, ?_, ?_, by decide +kernel⟩
  · intro _ h; simp [scaled] at h
  · intro _ _ _; exact ⟨0x6BFC0, by decide +kernel, by decide⟩
  · intro _ _ h; exact absurd (by decide +kernel) h

/-- A seat operation of lane 0. -/
def seatOp (k : SeatKind) (started formed : Bool) : SeatOp := {
  age := 3, lane := 0, kind := k, pc := 0, bits := 0, xa := 64, xb := 0, masks := ⟨BitVec.allOnes 64, 0xFFFF, BitVec.allOnes 64⟩
  table := [], sb := none, draws := [], cfg := ⟨.ui8, 64, 128⟩, started := started, formed := formed, ended := false, launch := none, held := none }

/-- The four cores of quad 0 with one operation each in the queue of seat 0, and BF16 weights latched. -/
def inSeats (p : SeatOp) (n : Nat) : State :=
  (List.range n).foldl (fun s c => onCore s c (fun k => { k with stove := { k.stove with
    seats := #v[[p], []], weights := k.stove.weights.set 0 ⟨some .bf16, 0, [], []⟩, acc := k.stove.acc.set 1 .fp32 } })) (box 0 Lane.reset)

/-- A dense stream of BF16 fed by core 0 into accumulators 1. -/
def aStream : SeatKind := .gmma ⟨2, 1, 0, 3, 0, .bf16, true, false⟩

/-- An operation that starts at once and one of a gang; a gang with one, with three and with four instances arrived; an open position. -/
theorem test_hyp_GangFormation :
    (∀ p ∈ [seatOp (.tzero ⟨0, true⟩) false false, seatOp aStream false false],
      let s := inSeats p 4
      nextSeatOp (coreOf s 0).stove.seats[(0 : Fin 2)] = some p ∧ p.held = none
        ∧ aheadStarted (coreOf s 0).stove.seats[(0 : Fin 2)] = true ∧ mayStart (coreOf s 0) p.sb = true
        ∧ (∀ x ∈ (coreOf s 0).stove.seats[(0 : Fin 2)], x.age = p.age → x = p) ∧ (quadOf s (quadNo 0)).opened = [])
    ∧ (let s := inSeats (seatOp aStream true false) 4
       (arrivedAll s 0 0).length = 4 ∧ (quadOf s 0).formed = [] ∧ (formingSeats (noteForming s 0 0) 0).head? = some 0 ∧ gangCheck s 0 0 (arrivedAll s 0 0) = none)
    ∧ (arrivedAll (inSeats (seatOp aStream true false) 1) 0 0).length = 1
    ∧ (arrivedAll (inSeats (seatOp aStream true false) 3) 0 0).length = 3
    ∧ ((quadOf (onQuad (box 0 Lane.reset) 0 (fun q => { q with opened := [⟨1, 5, [(2, 0)]⟩] })) 0).opened.find? (fun o => o.seat == 1)
        = some ⟨1, 5, [(2, 0)]⟩) := by decide +kernel

/-- A tile operation of each kind that the statement names, and a gang of a weight load and of a stream. -/
theorem test_hyp_SeatEffects :
    (∀ k ∈ [SeatKind.tzero ⟨3, true⟩, .tld ⟨0, 1, 2, true⟩, .gaccz ⟨true, 0xF⟩],
      let p := { seatOp k true true with cfg := ⟨.ui8, 64, 128⟩, xb := 0x7FFFF }
      let s := inSeats p 1
      (coreOf s 0).stove.seats[(0 : Fin 2)].find? (fun p => p.started && !isGang p.kind) = some p
        ∧ p.cfg.rows ≤ 64 ∧ rowBytes p.cfg ≤ 128 ∧ p.xb.toNat ≤ 0x7FFFF)
    ∧ (∀ k ∈ [SeatKind.gwld ⟨1, 0, .bf16, true, 0⟩, aStream],
      let p := seatOp k true true
      let s := onQuad (inSeats p 4) 0 (fun q => { q with formed := [(0, [3, 3, 3, 3])] })
      (quadOf s 0).formed = (0, [3, 3, 3, 3]) :: []
        ∧ (∀ j : Fin 4, (coreOf s (quadCore 0 j.val)).stove.seats[(0 : Fin 2)].find? (fun x => x.age == p.age) = some p)
        ∧ (∀ j : Fin 4, (coreOf s (quadCore 0 j.val)).stove.weights[(0 : Fin 2)].pattern = 0
            ∧ (coreOf s (quadCore 0 j.val)).stove.acc[(1 : Fin 4)] = .fp32))
    ∧ (fmtClass .bf16 = some .h ∧ classKind .h = .fp32 ∧ (seatOp aStream true true).xa.toNat ≤ 64 ∧ (seatOp aStream true true).xb = 0) := by
  decide +kernel

/-- Core 0 with lane 0 in a firing of slot class 2. -/
def neuronLane (a b : X) : Lane := { laneX [(1, a), (2, b)] with firing := { Firing.reset with kind := .handler, cls := 2, launch := some 1 } }

theorem test_hyp_EventInstructions :
    (cur (box 0 (neuronLane 0 0))).firing.cls = 2 ∧ (cur (box 0 Lane.reset)).firing.cls ≠ 2 ∧ MemoryOk (box 0 (neuronLane 0 0))
    ∧ (cur (box 0 (neuronLane 0 0))).firing.spec = false
    ∧ (bits (2 ^ 106 - 1 - 2 ^ 95) 106 150 = 0 ∧ bit (2 ^ 106 - 1 - 2 ^ 95) 95 = false)
    ∧ (curCore (box 0 (neuronLane 0 0))).ev.delivering = none
    ∧ ((getX (cur (box 0 (neuronLane 0x1FFF 0))) 1).toNat < 2 ^ 13 ∧ bits (15 * 2 ^ 80 + 2 ^ 80 - 1) 89 7 = 0
      ∧ bits (15 * 2 ^ 80 + 2 ^ 80 - 1) 80 8 ≤ 15)
    ∧ (getX (cur (box 0 (neuronLane 3 0))) 1).toNat < 4
    ∧ ((getX (cur (box 0 (neuronLane (0x13F * 2 ^ 13 + 0x1FFF) 0xFFFFFFFF))) 1).toNat < 2 ^ 25 ∧ namesCore (bits (0x13F * 2 ^ 13 + 0x1FFF) 13 12) = true
      ∧ (getX (cur (box 0 (neuronLane 0 0xFFFFFFFF))) 2).toNat < 2 ^ 32)
    ∧ (let s := { withLaunch (neuronLane 0x6A000 0x1FFFE) with hearth := { State.reset.hearth with domains := [(0, { Domain.reset with
          id := 0xFFFE, live := true, ordered := true, launch := 1, espill := 64 })] } }
       bindOk s 0x6A000 0x1FFFE = true ∧ (0x6A000 : Nat) < 2 ^ 19 ∧ (0x1FFFE : Nat) < 2 ^ 17 ∧ bindOk s 0x6A004 0x1FFFE = false ∧ bit 0xFFFE 16 = false)
    ∧ (curCore (box 0 (neuronLane 0 0))).msg.sendQ.length < 32
    ∧ Ready (cur (box 0 (neuronLane 0 0))) [.x (plain 1), .x (plain 2), .v (plain 3)] ∧ VFree (cur (box 0 (neuronLane 0 0))) 9 :=
  ⟨by decide +kernel, by decide +kernel, by rfl, by decide +kernel, by decide, by decide +kernel, by decide +kernel, by decide +kernel,
    by decide +kernel, by decide +kernel, by decide +kernel, ready_live (by rfl) (by simp [plain]), (free_live (by rfl) _).2⟩

/-- An event for neuron 2047 of bank 3 of core 0. -/
def anEvent : Event := ⟨0, 1, 0, 0, 3, 2047, 5, 9, 1⟩

/-- Core 0 with that event first in its queue and bank 3 enabled and bound to domain 1, whose safe time is `t`. -/
def evented (q : List Event) (d : Option Delivery) (t : BitVec 32) : State :=
  let s := onCore (box 0 Lane.reset) 0 (fun k => { k with ev := { k.ev with
    queue := q, delivering := d, bankCtl := k.ev.bankCtl.set 3 (BitVec.ofNat 64 (2 ^ 19 + 2 ^ 48)) } })
  onQuad s 0 (fun x => { x with safes := [(1, t)] })

/-- A fanout record of core 1 with delay 1, in LM of core 0 at 0x100. -/
def fanned (d : Option Delivery) : State :=
  onMem (evented [] d 0) (fun m => memWrite m (lmKey 0 0x100) 16 (7 + 1 * 2 ^ 45 + 1 * 2 ^ 64))

theorem test_hyp_EventSteps :
    ((coreOf (evented [anEvent] none 9) 0).ev.queue = anEvent :: [] ∧ (coreOf (evented [anEvent] none 9) 0).ev.delivering = none
      ∧ headDrops (evented [anEvent] none 9) 0 anEvent = false
      ∧ anEvent.time ≤ safeOf (evented [anEvent] none 9) 0 (bankDomain (evented [anEvent] none 9) 0 3) ∧ anEvent.time < 2 ^ 32
      ∧ (evented [anEvent] none 9).mem.wf = true ∧ headDrops (evented [anEvent] none 9) 0 { anEvent with domain := 2 } = true)
    ∧ (coreOf (evented [anEvent] none 9) 0).ev.queue.length ≤ 1024
    ∧ (let s := onMem (onCore (evented [] none 9) 0 (fun k => { k with ev := { k.ev with spill := [(anEvent, 1)] } })) (fun m =>
         memWrite m 0x10020 32 (9 + 5 * 2 ^ 32 + 2047 * 2 ^ 64 + 3 * 2 ^ 75 + 1 * 2 ^ 112 + 1 * 2 ^ 128))
       let s := { s with hearth := { s.hearth with domains := [(0, { Domain.reset with
         id := 1
         live := true
         espill := 0x10000 })] } }
       (coreOf s 0).ev.spill = [(anEvent, 1)] ∧ spillAddr s 1 1 = some 0x10020 ∧ eventOf (memRead s.mem 0x10020 32) = anEvent)
    ∧ (let d : Delivery := ⟨3, 2047, 9, 1, 0x100, 1, none⟩
       let r := memRead (fanned (some d)).mem (lmKey 0 0x100) 16
       (coreOf (fanned (some d)) 0).ev.delivering = some d ∧ 0 < d.left ∧ recordSkips d.next r d.time = false ∧ bits r 45 12 ≠ 0
        ∧ (coreOf (fanned (some d)) 0).msg.sendQ.length < 32 ∧ recordSkips 0x6C000 r d.time = true ∧ recordSkips d.next r (2 ^ 32 - 1) = true)
    ∧ (let d : Delivery := ⟨3, 2047, 9, 1, 0x100, 0, some (255, 6)⟩
       let s := onMem (evented [] (some d) 0) (fun m => memWrite m (lmKey 0 (0x7E000 + 16 * 255)) 8 (2 ^ 52))
       (coreOf s 0).ev.delivering = some d ∧ channelHead s 0 0 false = none ∧ handlerOk (handlerEntry s 0 255).1 = true
        ∧ (coreOf s 0).msg.arrival.length < 64
        ∧ ((coreOf s 0).msg.arrival.map (fun x => x.payload.length)).sum + payloadKept (coreOf s 0) < 128)
    ∧ (let s := onCore (evented [] none 0) 1 (fun k => { k with msg := { k.msg with sendQ := [.ev anEvent false] } })
       channelHead s 1 0 true = some (0, .ev anEvent false) ∧ anEvent.inc = (dieOf s (dieNo 1)).inc ∧ (dieOf s (dieNo 0)).rst = 0
        ∧ cannotArrive s 1 0 = false ∧ (coreOf s 0).ev.spill = [] ∧ (coreOf s 0).ev.queue.length < 1024) := by decide +kernel

/-- A neuron at the greatest potential, and below its threshold. -/
theorem test_hyp_NeuronDelivery :
    let st : Neuron := ⟨0, false, 0, 0, 0, 2 ^ 31 - 1⟩
    bits (5 + 2 ^ 32) 64 16 = 0 ∧ -(2 ^ 31) ≤ st.v ∧ st.v < 2 ^ 31 ∧ st.rf = false ∧ sgn 32 (5 + 2 ^ 32) ≤ st.v ∧ (0 : Int) < sgn 32 5 := by
  decide

/-- A lane of core 0 with this status, wait and results. -/
def laneWith (st : LaneStatus) (w : Option Wait) (rs : List Result) (p : Option Packet) : State :=
  setLane (box 480 Lane.reset) 0 15 { Lane.reset with
    status := st
    wait := w
    results := rs
    lcnt := rs.length
    frz := { Lane.reset.frz with pending := p } }

/-- A packet that waits. -/
def aPacket : Packet := packetFor State.reset 0 15 .emptyReg 0 0

theorem test_hyp_LaneEvents :
    (let x := laneOf (laneWith .ready none [⟨.x 7, 9, true, none, 0, 0, aSite⟩] none) 0 15
     x.results[0]? = some ⟨.x 7, 9, true, none, 0, 0, aSite⟩ ∧ x.status ≠ .draining ∧ x.frz.pending = none)
    ∧ (laneOf (laneWith .ready none [⟨.v 31, 0, true, some 0x40, 0, 0, aSite⟩] none) 0 15).results[0]? = some ⟨.v 31, 0, true, some 0x40, 0, 0, aSite⟩
    ∧ (let x := laneOf (laneWith .ready none [⟨.x 7, 9, true, none, 0, 0, aSite⟩] (some aPacket)) 0 15
       x.frz.pending = some aPacket ∧ x.results.length = 1)
    ∧ (∀ w ∈ [Wait.xfull 0, .xfull 31, .vfull 31, .counters 0 63, .barrier .quad 0 7 0 5],
       let x := laneOf (laneWith .blocked (some w) [] none) 0 15
       x.status = .blocked ∧ x.wait = some w ∧ x.frz.pending = none)
    ∧ (let x := laneOf (laneWith .draining none [] none) 0 15
       x.status = .draining ∧ x.marks.xfull ||| 1 = BitVec.allOnes 32 ∧ x.marks.vfull = BitVec.allOnes 32 ∧ x.firing.join = none)
    ∧ (let x := laneOf (laneWith .ready none [] (some aPacket)) 0 15
       x.frz.pending = some aPacket ∧ x.results = [] ∧ x.status ≠ .frozen)
    ∧ (let s := setLane (box 480 Lane.reset) 0 15 { Lane.reset with
          status := .ready
          frz := { Lane.reset.frz with frzreq := true } }
       let x := laneOf s 0 15
       x.frz.pending = none ∧ x.frz.frzreq = true ∧ x.status = .ready ∧ x.results = [])
    ∧ (let e := dieOf (onDie State.reset 7 (fun d => { d with fpqWait := [aPacket], fpqSize := 16, fpqTail := 2 ^ 32 - 1, fpqHead := 2 ^ 32 - 16 })) 7
       e.fpqWait = aPacket :: [] ∧ e.fpqSize ≠ 0 ∧ (e.fpqTail + 2 ^ 32 - e.fpqHead) % 2 ^ 32 < e.fpqSize)
    ∧ (let e := dieOf (onDie State.reset 7 (fun d => { d with fpqWait := [aPacket], fpqSize := 16, fpqTail := 0, fpqHead := 2 ^ 32 - 16 })) 7
       e.fpqSize ≤ (e.fpqTail + 2 ^ 32 - e.fpqHead) % 2 ^ 32) := by decide +kernel

/-- An unordered task of domain 1, queued on quad 0. -/
def queuedTask : Task := { task1 with ordered := false, state := .queued, spec := false }

/-- Domain 1 of launch 1, live, with quad 639 of die 7 and quad 0 in its map at 0x2000. -/
def domain1 : Domain := { Domain.reset with id := 1, live := true, launch := 1, qmap := 0x2000 }

/-- A machine with that launch, that domain and these tasks. -/
def tasked (ts : SMap Task) : State :=
  onMem { withLaunch Lane.reset with hearth := { State.reset.hearth with domains := [(0, domain1)], tasks := ts } }
    (fun m => memWrite m 0x2000 1 1)

/-- A message of type 255 to core 3. -/
def aMessage : Message := ⟨3, 255, 0, false, 0, 0, 0, 0, none, [7], none, none, none⟩

/-- Core 3 that accepts such messages. -/
def mailed (m : Message) (n : Nat) : State :=
  let s := onCore (onCore State.reset 0 (fun k => { k with msg := { k.msg with sendQ := [.msg m] } })) 3 (fun k =>
    { k with msg := { k.msg with arrival := List.replicate n aMessage } })
  onMem s (fun x => memWrite x (lmKey 3 (0x7E000 + 16 * 255)) 8 (2 ^ 52))

/-- Every function has reported ready. -/
def allReady (s : State) : State := onPkg s (fun p => { p with ready := 2 ^ 2432 - 1 })

/-- The flues are Active, too. -/
def awake (s : State) : State :=
  onPkg (allReady s) (fun p => { p with flues := (List.range 16).map (fun f => (f, { flueOf State.reset f with pwr := 0 })) })

/-- Nothing that may start; a task; a message with its handler. -/
theorem test_hyp_Dispatch :
    (let u := commitPressure (allReady State.reset) 0
     freeLaneOf (coreOf u 0) = some 0 ∧ coreHeld u 0 = false
        ∧ bestBy (candBefore u 0) ((candidates u 0).filter (classOpen u 0)) = none)
    ∧ coreHeld (onCore State.reset 0 (fun k => { k with ctl := { k.ctl with hold := true } })) 0 = true
    ∧ (let u := commitPressure (allReady (tasked [(1, queuedTask)])) 0
       coreHeld u 0 = false ∧ bestBy (candBefore u 0) ((candidates u 0).filter (classOpen u 0)) = some (.task 1 queuedTask))
    ∧ (let s := onCore (allReady (mailed aMessage 0)) 3 (fun k => { k with msg := { k.msg with arrival := [aMessage] } })
       let u := commitPressure s 0
       bestBy (candBefore u 3) ((candidates u 3).filter (classOpen u 3)) = some (.handler 0 aMessage) ∧ coreHeld u 3 = false
        ∧ handlerOk (handlerEntry u 3 255).1 = true
        ∧ handlerOk (handlerEntry (onCore (allReady State.reset) 3 (fun k => { k with msg := { k.msg with arrival := [aMessage] } })) 3 255).1 = false)
    ∧ overCap (commitPressure (allReady State.reset) 0) 0 = false := by
  decide +kernel

/-- A task that runs while another domain's access to line 0x40 waits for it; that access, of lane 15 of core 0. -/
def heldUp (gvt : X) : State :=
  let d : Domain := { Domain.reset with
    id := 1
    live := true
    ordered := true
    gvt := gvt }
  { laneWith .blocked (some (.held 0x40 0x40 false)) [] none with hearth := { State.reset.hearth with
      domains := [(0, d)]
      tasks := [(1, { task1 with wset := [0x40] })] } }

/-- A spilled record of domain 1, queued on quad 0. -/
def spilledTask : Task := { queuedTask with spilled := true, slot := 3 }

theorem test_hyp_MessageAndTaskEvents :
    (channelHead (mailed aMessage 0) 0 3 false = some (0, .msg aMessage) ∧ channelHead (mailed aMessage 0) 0 3 true = none
      ∧ aMessage.push = none
      ∧ aMessage.inc = (dieOf (mailed aMessage 0) (dieNo 0)).inc ∧ (dieOf (mailed aMessage 0) (dieNo 3)).rst = 0
      ∧ handlerOk (handlerEntry (mailed aMessage 0) 3 255).1 = true)
    ∧ (let k := (coreOf (mailed aMessage 63) 3).msg
       turnedAway (mailed aMessage 63) 0 aMessage = false ∧ k.arrival.length < 64
        ∧ (k.arrival.map (fun x => x.payload.length)).sum + payloadKept (coreOf (mailed aMessage 63) 3) + aMessage.payload.length ≤ 128)
    ∧ ¬ (coreOf (mailed aMessage 64) 3).msg.arrival.length < 64
    ∧ { aMessage with inc := 1 }.inc ≠ (dieOf (mailed { aMessage with inc := 1 } 0) (dieNo 0)).inc
    ∧ (let m := { aMessage with push := some 15 }
       let s := streamSet (mailed m 0) 3 15 ⟨2 ^ 32 - 1, 2 ^ 32 - 2, 2, 0x6BFF8, 0⟩
       let q := streamGet s 3 15
       channelHead s 0 3 false = some (0, .msg m) ∧ turnedAway s 0 m = false ∧ q.size ≠ 0 ∧ streamCount q < q.size ∧ q.base + q.size * esize q ≤ 0x6C000
        ∧ (coreOf s 3).eng.sb = [] ∧ s.mem.wf = true)
    ∧ (channelHead State.reset 0 3 false = none ∧ channelHead State.reset 0 3 true = none)
    ∧ (let q : Spawn := ⟨2 ^ 448, 0, 0, none, none, 0, 0, some 1, false⟩
       let s := onCore (tasked []) 0 (fun k => { k with msg := { k.msg with spawnQ := [q] } })
       (coreOf s 0).msg.spawnQ = q :: [] ∧ domainOf s (recField q.record 56 0 16) = some (0, domain1) ∧ q.launch = some domain1.launch
        ∧ recordOk q.record = true ∧ placeQuad s domain1 (some (dieNo q.core)) (recField q.record 16 0 64) = some 0
        ∧ queuedAt s 0 false < 2048 ∧ recordsOf s 0 domain1.id true = [])
    ∧ (nextSpilled (tasked [(1, queuedTask)]) 0 = none ∧ nextSpilled (tasked [(1, spilledTask)]) 0 = some (1, spilledTask, 0, domain1)
        ∧ queuedAt (tasked [(1, spilledTask)]) 0 false < 2048 ∧ spillWay (awake (tasked [(1, spilledTask)])) domain1 0 3 = .opened
        ∧ spillWay (setFlue (awake (tasked [(1, spilledTask)])) 0 { flueOf State.reset 0 with pwr := 1 }) domain1 0 3 = .waking 0)
    ∧ (∀ g : X, g = 5 ∨ g = 4 →
        let t := { task1 with wset := [0x40] }
        taskOf (heldUp g) 1 = some t ∧ t.spec = true ∧ t.ordered = true ∧ t.state ≠ .queued ∧ spared (heldUp g) 1 t = (g == 5)
          ∧ abortCause (heldUp g) 1 t = true)
    ∧ (abortCause (withTasks [(1, task1)]) 1 task1 = false ∧ task1.spec = true ∧ queuedTask.state = .queued ∧ queuedTask.spec = false)
    ∧ (let h : HeldAccess := ⟨0, some 0x40, 0x40, false⟩
       let holds := fun (u : State) => u.hearth.tasks.find? (fun e =>
         holdsLine h.dom (h.va.elim (virtualsOf u h.line) (fun a => [a])) h.line h.write e.2 && !spared u e.1 e.2)
       heldAccess (heldUp 4) 0 15 = some h ∧ holds (heldUp 4) = some (1, { task1 with wset := [0x40] })
        ∧ holds (abortStep (heldUp 4) 1 false) = none ∧ holds (heldUp 5) = none ∧ heldAccess (heldUp 4) 0 14 = none) := by
  refine ⟨by decide +kernel, by decide +kernel, by decide +kernel, by decide +kernel, by decide +kernel, by decide +kernel,
    by decide +kernel, by decide +kernel, ?_, by decide +kernel, by decide +kernel⟩
  rintro g (rfl | rfl) <;> decide +kernel

/-- What a check that has passed leaves; what one waits for. -/
def passes {α : Type} (e : Except Stop α) (good : α → Bool) : Bool :=
  match e with
  | .ok v => good v
  | .error _ => false
def waits {α : Type} (e : Except Stop α) : Bool :=
  match e with
  | .error (.wait _) => true
  | _ => false
def faults {α : Type} (e : Except Stop α) : Bool :=
  match e with
  | .error (.fault _ _) => true
  | _ => false

/-- The machine with its flue to the Larder Drowsy, and with core 1's persistent request active for line 0x3FC0. -/
def drowsy (s : State) : State := setFlue (awake s) 0 { flueOf State.reset 0 with pwr := 1 }
def busyLine : State := setAsks (awake engineState) 0 0x3FC0 [⟨0x3FC0, some 1, true⟩]

/-- SHPF: an empty and a dead operand, a misaligned address, a record that is there, one that is nowhere and one behind a Drowsy flue. -/
theorem test_hyp_ShapeInstructions :
    (waiting.marks.xfull.getLsbD 7 = false ∧ waiting.marks.xdead.getLsbD 7 = false)
    ∧ ({ Lane.reset with marks := { Lane.reset.marks with xdead := 0x80 } }.marks.xdead.getLsbD 7 = true)
    ∧ ((0x3F81 : X).toNat % 64 ≠ 0 ∧ (0xFF80000000000040 : X).toNat % 64 = 0 ∧ (0xFFC0000000000000 : X).toNat % 64 = 0)
    ∧ XReady (cur engineState) (plain 1)
    ∧ passes (readRecord engineState 0 (cur engineState) 0xFF80000000000040) (fun _ => true) = true
    ∧ faults (readRecord engineState 0 (cur engineState) 0xFFC0000000000000) = true
    ∧ waits (readRecord (drowsy engineState) 0 (cur engineState) 0x3F80) = true :=
  ⟨by decide, by decide, by decide, xready_live (by rfl) _, by decide +kernel, by decide +kernel, by decide +kernel⟩

/-- An update on its way that may perform, a join decrement, and one whose line an active request holds. -/
theorem test_hyp_TxUpdates :
    passes (txReady engineState 0 ⟨0, 0x3FF0, 0x3FF0, .arrive 0, ⟨some 0, none, none⟩⟩) (fun v => v.mem.wf
      && !txUnderflow (memRead v.mem 0x3FF0 16) (.arrive 0)) = true
    ∧ passes (joinTry engineState 0 ⟨some 0, none, none⟩ 0x3FF0) (fun _ => true) = true
    ∧ waits (txTry busyLine 0 ⟨0, 0x3FF0, 0x3FF0, .arrive 0, ⟨some 0, none, none⟩⟩) = true := by decide +kernel

/-- A packet with its way open, behind a Drowsy flue, and to a line that a speculative task has written. -/
theorem test_hyp_PodWays :
    let x : Launch := { launched with ctx := 0, mtab := 0x8000 }
    (∀ acc ∈ [Access.load, .store, .atomic], podWay (awake engineState) x acc 0x3FC0 = .opened)
    ∧ podWay (drowsy engineState) x .load 0x3FC0 = .waking 0
    ∧ (let s := { awake engineState with hearth := { State.reset.hearth with
          domains := [(0, { Domain.reset with id := 1, live := true, ordered := true })]
          tasks := [(1, { task1 with wset := [0x3FC0] })] } }
       podWay s x .load 0x3FC0 = .opened ∧ podHeld s x .load 0x3FC0 = some 0x3FC0 ∧ recallWaits s none 0x3FC0 false = []) := by decide +kernel

/-- A gang that has not four instances yet, and one that has formed. -/
theorem test_hyp_GangTurns :
    (formingSeats (noteForming (inSeats (seatOp aStream true false) 1) 0 0) 0).head? ≠ some 0
    ∧ (let s := onQuad (inSeats (seatOp aStream true true) 4) 0 (fun q => { q with formed := [(0, [3, 3, 3, 3])] })
       (quadOf s 0).formed ≠ [] ∧ (quadOf s 0).formed = (0, [3, 3, 3, 3]) :: []
        ∧ ∀ j ∈ [0, 1, 2, 3], (coreOf s (quadCore 0 j)).stove.seats[(0 : Fin 2)].find? (fun x => x.age == 3) = some (seatOp aStream true true)) := by
  decide +kernel

/-- A line that die 0 is granted, of 512 tokens at home, and the requests given. -/
def tokenState (t : TokenLine) : State :=
  onPkg (onDie State.reset 0 (fun d => { d with tokens := [(0x40, t)] })) (fun p => { p with directory := [(0x40, ⟨[0], true, true, some 0⟩)] })

theorem test_hyp_TokenProtocol :
    lineCore 0 0x40 = true ∧ dieCan (tokenState { TokenLine.reset with granted := true, home := 512 }) 0 0x40 true = true
    ∧ activeAsk (tokenState { TokenLine.reset with granted := true, home := 512 }) 0 0x40 = none
    ∧ 1 ≤ (tokensOf (tokenState { TokenLine.reset with granted := true, home := 512 }) 0 0x40).home
    ∧ dieCan State.reset 0 0x40 true = false
    ∧ (asks (tokensOf State.reset 0 0x40).transient 0 = false ∧ persists State.reset 0 0x40 = false)
    ∧ (let t := { TokenLine.reset with transient := [⟨0, true, 8⟩] }
       asks (tokensOf (tokenState t) 0 0x40).transient 0 = true
        ∧ (tokensOf (tokenState t) 0 0x40).transient.find? (fun r => r.core == 0 && decide (8 ≤ r.attempts)) = some ⟨0, true, 8⟩
        ∧ activeAsk (tokenState t) 0 0x40 = none ∧ (asksOf (tokenState t) 0 0x40).length < 64)
    ∧ (∀ b : Bool, let s := setAsks (tokenState { TokenLine.reset with granted := b }) 0 0x40 [⟨0x40, some 0, true⟩]
       activeAsk s 0 0x40 = some ⟨0x40, some 0, true⟩ ∧ (∀ r ∈ asksOf s 0 0x40, r.core.isSome = true) ∧ dieCan s 0 0x40 true = b
        ∧ laneAsks s 0 0x40 = false)
    ∧ laneAsks (laneWith .blocked (some (.tokens 0x40 true true)) [] none) 0 0x40 = true
    ∧ ((0xFFFFFFFFC0 : Nat) < 2 ^ 40 ∧ 0xFFFFFFFFC0 % 64 = 0 ∧ dieCan State.reset 7 0xFFFFFFFFC0 true = false
        ∧ (dieOf State.reset 7).rst ≠ 2 ∧ pathPhys (awake State.reset) 7 0xFFFFFFFFC0 0 true = .opened
        ∧ pathPhys (setFlue (awake State.reset) 7 { flueOf State.reset 7 with pwr := 1 }) 7 0xFFFFFFFFC0 0 true = .waking 7
        ∧ recallWaits State.reset (some 7) 0xFFFFFFFFC0 true = [] ∧ activeAsk State.reset 7 0xFFFFFFFFC0 = none
        ∧ directoryOf (roomL2 State.reset 7 0xFFFFFFFFC0) 0xFFFFFFFFC0 = directoryOf State.reset 0xFFFFFFFFC0)
    ∧ ((tokensOf (tokenState { TokenLine.reset with granted := true }) 0 0x40).granted = true
        ∧ flueOpen (awake (tokenState { TokenLine.reset with granted := true })) 0 .opened = .opened
        ∧ askRuns (tokenState { TokenLine.reset with granted := true }) 0 0x40 = false)
    ∧ (directoryOf (tokenState TokenLine.reset) (lineOf 0x40)).host = true
    ∧ (launchAt (mapped 0 Lane.reset) 480 = none ∧ (mapped 0 Lane.reset).sched.fwCtx = some 0 ∧ namesCore 480 = true
        ∧ walkWay (mapped 0 Lane.reset) 480 0 0x3FC0 = .opened ∧ walkWay State.reset 480 0 0x3FC0 = .opened
        ∧ (pageWalk (mapped 0 Lane.reset) 480 0 0x3FC0 .store).isSome = true ∧ pageWalk (mapped 0 Lane.reset) 480 0 (2 ^ 56 - 1) .store = none) := by
  decide +kernel

theorem test_hyp_SupervisorWrites :
    reachesCore 0 0 = false ∧ reachesCore 480 0 = true ∧ reachesCore 480 512 = false ∧ isSup 480 = true ∧ isSup 0 = false
    ∧ (laneOf (beside .frozen 0) 5 3).status = .frozen ∧ (laneOf (beside .ready 0) 5 3).status ≠ .frozen
    ∧ ((barred 0).pkg.podBars = [(0, ⟨⟨15, 0, 2⟩, true, 1, 3, 0, 0⟩)] ∧ (netBarrier (barred 0) .pod 0 0).v = true
      ∧ launchRank (barred 0) (netBarrier (barred 0) .pod 0 0).launch = some 0 ∧ (netBarrier (barred 0) .pod 0 0).npkg < 0 + 1)
    ∧ (let b : NetBarrier := ⟨⟨15, 2, 2⟩, true, 1, 3, 1, 0⟩
       let s := onPkg (barred 0) (fun p => { p with podBars := [(63, b)] })
       netBarrier s .pod 0 63 = b ∧ b.bar.count = b.bar.expect ∧ b.bar.expect ≠ 0 ∧ b.pcount + 1 ≤ b.npkg)
    ∧ isWindow (0xFF50000000000) = false ∧ isWindow (0xFF2 * 2 ^ 40) = true
    ∧ (256 ≤ (256 : X).toNat % 2 ^ 13 ∧ (4096 : X).toNat % 2 ^ 13 ≤ 4096 ∧ (255 : X).toNat % 2 ^ 13 < 256 ∧ 4096 < (4097 : X).toNat % 2 ^ 13) := by
  decide +kernel

/-- A round that has been reported, and one that has been formed, with the values still due at one quad and at two. -/
theorem test_hyp_HearthEvents :
    State.reset.hearth.phase = .idle
    ∧ (let h : Hearth := { State.reset.hearth with
          phase := .reported
          doms := [1], domains := [(0, { domain1 with ordered := true })], reports := [(0, 1, some 5, none)] }
       h.phase = .reported ∧ 1 ∈ h.doms ∧ smGet h.domains 0 = some { domain1 with ordered := true } ∧ (0, 1, some 5, none) ∈ h.reports)
    ∧ (let h : Hearth := { State.reset.hearth with phase := .formed, pendingQuads := [639] }
       639 ∈ h.pendingQuads ∧ ∀ x ∈ h.pendingQuads, x = 639)
    ∧ (let h : Hearth := { State.reset.hearth with phase := .formed, pendingQuads := [0, 639] }
       639 ∈ h.pendingQuads ∧ ∃ x ∈ h.pendingQuads, x ≠ 639)
    ∧ (let d := slotOf' State.reset 4095
       let v : X := BitVec.ofNat 64 (2 ^ 32 + 2 ^ 16 + 0xFFFF)
       d.live = false ∧ v.getLsbD 16 = true ∧ descriptorOk State.reset 4095 { d with id := bits v.toNat 0 16 } 0 = false)
    ∧ (let s := { tasked [] with hearth := { (tasked []).hearth with domains := [] } }
       let d := slotOf' s 0
       let s := { s with hearth := { s.hearth with domains := [(0, { d with qmap := 0x2000, tspill := 0x10000, tssize := 0x10000 })] } }
       let d := slotOf' s 0
       let v : X := BitVec.ofNat 64 (2 ^ 32 + 2 ^ 16 + 1)
       let e := { d with id := bits v.toNat 0 16, ordered := v.getLsbD 17, susp := v.getLsbD 18, launch := bits v.toNat 32 32 }
       d.live = false ∧ descriptorOk s 0 e (bits v.toNat 19 13) = true)
    ∧ (let s := tasked [(1, queuedTask)]
       let s := { s with hearth := { s.hearth with domains := [(0, { domain1 with tspill := 0x10000, tssize := 64 })] } }
       let d := slotOf' s 0
       d.live = true ∧ d.susp = false ∧ s.hearth.tasks = [(1, queuedTask)] ∧ s.mem.wf = true ∧ queuedTask.domain = d.id
        ∧ queuedTask.state = .queued ∧ queuedTask.spilled = false ∧ 64 ≤ d.tssize.toNat
        ∧ queuedTask.unfixed = false ∧ spillWay (awake s) d 0 0 = .opened)
    ∧ (∀ t ∈ [[], [(1, spilledTask)]], let s := tasked t
       let s := { s with hearth := { s.hearth with domains := [(0, { domain1 with susp := true })] } }
       let d := slotOf' s 0
       d.live = true ∧ d.susp = true ∧ ∀ e ∈ s.hearth.tasks, e.2.domain = d.id → e.2.state = .queued → e.2.spilled = true) := by
  decide +kernel

/-- A machine with an attestation in progress, one on whose first line a task holds, and one with no room for a record. -/
theorem test_hyp_HostEvents :
    (hostReach (2 ^ 41 - 64) 64 = true ∧ hostReach (2 ^ 41) 1 = false ∧ hostReach 63 2 = false)
    ∧ (∀ key ∈ [none, some (⟨1, 2, 3⟩ : Identity)],
        let s := onPkg State.reset (fun p => { p with identity := key, host := { p.host with attest := some (0x200, 5) } })
        s.pkg.host.attest = some (0x200, 5) ∧ s.pkg.identity = key ∧ s.mem.wf = true)
    ∧ (hostOpen (awake State.reset) 63 true = true ∧ hostOpen (awake State.reset) 63 false = true ∧ poisoned (awake State.reset) 63 1 = false
        ∧ (awake State.reset).mem.wf = true)
    ∧ (let s := setAsks (awake (tokenState { TokenLine.reset with granted := true })) 0 0x40 [⟨0x40, some 0, true⟩]
       let d := setFlue s 0 { flueOf State.reset 0 with pwr := 1 }
       hostWay s 0x40 true = .opened ∧ hostOpen s 0x40 true = false ∧ hostWay s 0x40 false = .opened ∧ hostOpen s 0x40 false = false
        ∧ hostWay d 0x40 true = .waking 0 ∧ hostWay d 0x40 false = .waking 0)
    ∧ (let v : BitVec 512 := BitVec.ofNat 512 (2 ^ 448)
       recField v.toNat 56 0 16 = 1 ∧ recordOk v.toNat = true ∧ (domainOf (tasked []) 1).isSome = true)
    ∧ bits State.reset.pkg.host.spwstat.toNat 0 32 < 2 ^ 32 - 1
    ∧ (let v : BitVec 512 := BitVec.ofNat 512 (2 ^ 40 - 512 + 7 * 2 ^ 64)
       v.toNat / 2 ^ 96 = 0 ∧ v.toNat % 2 ^ 64 % 512 = 0 ∧ v.toNat % 2 ^ 64 + 512 ≤ 2 ^ 40)
    ∧ State.reset.pkg.host.busy = false ∧ State.reset.pkg.host.ldrop ≠ BitVec.allOnes 16 ∧ State.reset.pkg.host.attest = none
    ∧ (let v : BitVec 512 := BitVec.ofNat 512 (2 ^ 40 - 512 + 7 * 2 ^ 64)
       v.toNat / 2 ^ 320 = 0 ∧ v.toNat % 2 ^ 64 % 512 = 0 ∧ v.toNat % 2 ^ 64 < 2 ^ 40) := by decide +kernel

/-- A request at 0x10000 for quad 639, whose map stands at 0x20000, and a command that names it. -/
def requested (ready : Bool) : State :=
  let s := onPkg State.reset (fun p => { p with host := { p.host with busy := true, command := some (0x10000, 7) }
                                                ready := if ready then 2 ^ 2432 - 1 else 0 })
  onMem s (fun m => memWrite (memWrite m 0x10008 8 0x20000) (0x20000 + 79) 1 0x80)

/-- What the firmware chooses for it. -/
def aPlan : LaunchPlan := {
  launch := 1, ctx := 255, root := 0x100000, ctxB := 0, rootB := 0, account := 255, slot := 4095, domain := 0xFFFE, tspill := 0, tssize := 0
  undo := 0, espill := 0, cellar := 0, vmaps := [(7, 7)], omaps := [(7, 7)], slotB := 0, domainB := 0, qmapA := 0, qmapB := 0
  tspillB := 0, undoB := 0, espillB := 0, noRoom := false }

/-- A command that is refused and one that is accepted; a launch that has drained and one that has a task. -/
theorem test_hyp_LaunchEvents :
    (∀ b : Bool, (requested b).pkg.host.command = some (0x10000, 7) ∧ (requested b).mem.wf = true)
    ∧ refusal (requested false) (memRead (requested false).mem 0x10000 512) aPlan = some 2
    ∧ (refusal (requested true) (memRead (requested true).mem 0x10000 512) aPlan = none
        ∧ planOk (requested true) (memRead (requested true).mem 0x10000 512) aPlan = true)
    ∧ (smGet (tasked []).pkg.launches 1 = some launched ∧ drained (tasked []) 1 launched = true ∧ launched.paired = false
        ∧ drained (tasked [(1, queuedTask)]) 1 launched = false) := by decide +kernel

/-- A row that is not busy, one that saves and one that restores; a launch of two quads that may lose one of them. -/
theorem test_hyp_ImagesAndPreemption :
    (dmaOf State.reset 7 9).stat ≠ 1
    ∧ (∀ op ∈ [1, 2], let s := setDma State.reset 7 9 { dmaOf State.reset 7 9 with stat := 1, op := op }
       (dmaOf s 7 9).stat = 1 ∧ (dmaOf s 7 9).op = op ∧ quadQuiet s 632 = true ∧ ∀ v ∈ (dmaOf s 7 9).vc.toList, imagePoisoned s (dmaOf s 7 9).cellBase.toNat v = false)
    ∧ (dmaWay (awake State.reset) 7 = .opened ∧ dmaWay (setFlue (awake State.reset) 7 { flueOf State.reset 7 with pwr := 1 }) 7 = .waking 7)
    ∧ quadQuiet (onQuad State.reset 632 (fun q => { q with formed := [(0, [1, 1, 1, 1])] })) 632 = false
    ∧ (let x : Launch := { launched with quads := [0, 639] }
       x.elastic = true ∧ x.vacate = [] ∧ (∀ q ∈ [639], q ∈ x.quads) ∧ (∃ q ∈ x.quads, q ∉ [639]))
    ∧ (let x : Launch := { launched with quads := [0, 639], vacate := [639] }
       let s := onPkg State.reset (fun p => { p with launches := [(1, x)] })
       smGet s.pkg.launches 1 = some x ∧ x.vacate ≠ []
        ∧ (∀ e ∈ (abortOn s x.vacate).hearth.tasks, e.2.quad ∈ x.vacate → e.2.ordered = true → e.2.state ≠ .finished)
        ∧ (x.vacate.filter (parks (abortOn s x.vacate))).all (quadQuiet (abortOn s x.vacate)) = true)
    ∧ (let s := onPkg (setLane State.reset (quadCore 639 0) 0 { Lane.reset with status := .ready }) (fun p => { p with
         launches := [(1, { launched with quads := [0, 639], vacate := [639] })] })
       parks (abortOn s [639]) 639 = true ∧ quadQuiet (abortOn s [639]) 639 = true ∧ dmaWay (abortOn (awake s) [639]) 7 = .opened) := by decide +kernel

/-- Dies in each state of a reset; the first and last functions; the last word of a core's LM and the last line of HBM. -/
theorem test_hyp_ResetsEnergyAndTemperature :
    (isSup 480 = true ∧ (dieOf State.reset 7).rst = 0 ∧ ∀ r ∈ [1, 2, 3], (dieOf (onDie State.reset 7 (fun d => { d with rst := r })) 7).rst = r)
    ∧ ((639 : Nat) < 640 ∧ (1024 : Nat) ≤ 2431 ∧ 2431 < 2432 ∧ bit State.reset.pkg.failed 2431 = false ∧ bit State.reset.pkg.ready 2431 = false
        ∧ State.reset.pkg.identity = none ∧ (onPkg State.reset (fun p => { p with identity := some ⟨1, 2, 3⟩ })).pkg.identity.isSome = true)
    ∧ (State.reset.hearth.tasks = [] ∧ State.reset.cores.all (fun e => e.2.eng.queue.isEmpty) = true
        ∧ let s := tokenState { TokenLine.reset with granted := true, dirty := true }
          (0x40, { TokenLine.reset with granted := true, dirty := true }) ∈ (dieOf s 0).tokens ∧ s.hearth.tasks = [] ∧ s.cores.all (fun e => e.2.eng.queue.isEmpty) = true)
    ∧ (let op := { opWith aCopy .running [] with bar := some 0x3FF0, xb := 0x3FF0 }
       let s := onDie (running op false) 0 (fun d => { d with rst := 1 })
       let u := barUpdate op 0x3FF0 2 (undoneCount op [0, 1]) (some 5)
       (dieOf s 0).rst = 1 ∧ (coreOf s 0).eng.queue = [(0, op)] ∧ s.cores.all (fun e => e.1 == 0 || e.2.eng.queue.isEmpty) = true ∧ s.hearth.tasks = []
        ∧ (List.range (opSectors op)).filter (fun q => !op.counted.contains q) = [0, 1] ∧ fillUndone s 0 op [0, 1] = s
        ∧ answers (txReady s 0 u) (fun v => v.mem.wf) = true)
    ∧ (namesCore 0xFEC = true ∧ 2 ^ 17 - 1 < 2 ^ 17 ∧ 2 ^ 40 - 1 < 2 ^ 40)
    ∧ (let s := onPkg State.reset (fun p => { p with blocks := [(4, 1), (5, 2), (6, 3)] })
       blockOf s 3 = .raw ∧ blockOf s 4 = .half ∧ blockOf s 5 = .quarter ∧ blockOf s 6 = .zero)
    ∧ (let s := onPkg (withLaunch Lane.reset) (fun p => { p with accounts := [(7, { Account.reset with v := true })] })
       s.pkg.launches.find? (fun l => l.2.quads.contains 0) = some (1, launched) ∧ (accountOf s launched.account).v = true)
    ∧ (let s := onPkg (withLaunch Lane.reset) (fun p => { p with accounts := [(7, { Account.reset with v := true, recent := List.replicate 64 3 })] })
       s.pkg.accounts = [(7, { Account.reset with v := true, recent := List.replicate 64 3 })])
    ∧ (let s := onPkg (withLaunch Lane.reset) (fun p => { p with accounts := [(7, { Account.reset with v := true })] })
       s.pkg.launches = [(1, launched)] ∧ (accountOf s 7).v = true ∧ (accountOf s 7).rest.1 < (accountOf s 7).rest.2)
    ∧ (throttleTurn State.reset 639 = true
      ∧ throttleTurn (onPkg (withLaunch Lane.reset) (fun p => { p with accounts := [(launched.account, { Account.reset with v := true, cap := 1, capNow := 1, pwr := 1001 })] }))
          639 = false)
    ∧ (∀ b : Bool, (quadOf (onQuad State.reset 639 (fun q => { q with hot := b, target := if b then some 600 else none })) 639).hot = b
        ∧ (quadOf (onQuad State.reset 639 (fun q => { q with hot := b, target := if b then some 600 else none })) 639).target = if b then some 600 else none) := by
  decide +kernel

/-- Core 0 of a launch that holds the Larder flue of die 0, with that flue in state `pwr` and `n` commands queued at end A. -/
def flued (a : X) (pwr n : Nat) : State :=
  onPkg (withLaunch (hosted (lane1 a))) (fun p => { p with flues := [(0, { flueOf State.reset 0 with pwr := pwr, qa := List.replicate n 3 })] })

theorem test_hyp_LinkEvents :
    (flueGranted (flued 0 0 0) 0 = true ∧ flueGranted (box 0 Lane.reset) 0 = false)
    ∧ XReady (cur (flued 0 0 0)) (plain 1) ∧ XFree (cur (flued 0 0 0)) 9 ∧ (cur (flued 0 0 0)).firing.spec = false
    ∧ (getP (cur (flued 0 0 0)) 0).getLsbD 0 = true
    ∧ ((getX (cur (flued 1 0 0)) 1).toNat < 2 ∧ 14 < (getX (cur (flued 15 0 0)) 1).toNat ∧ 2 ≤ (getX (cur (flued 2 0 0)) 1).toNat
        ∧ (getX (cur (flued 14 0 0)) 1).toNat ≤ 14)
    ∧ ((flueOf (flued 2 0 3) 0).qa.length < 4 ∧ 4 ≤ (flueOf (flued 2 0 4) 0).qa.length ∧ (flueOf (flued 2 3 0) 0).pwr = 3)
    ∧ (2 ≤ (6 : X).toNat % 32 ∧ (6 : X).toNat % 32 ≤ 6 ∧ (6 : X).getLsbD 5 = false)
    ∧ (let x := flueOf (flued 2 0 1) 0
       x.turning = none ∧ x.pwr = 0 ∧ x.started = none ∧ x.qb = [] ∧ x.qa = 3 :: [])
    ∧ (let f := { flueOf State.reset 0 with turning := some 9 }
       f.turning = some 9 ∧ 9 ≠ f.gab)
    ∧ (∀ b, ∀ n ∈ [14, 15],
       let x := withLink { flueOf State.reset 0 with pwr := 0 } b ⟨0x0100, 0x00FF, 0xFF00, n⟩
       let e := linkOf x b
       x.pwr = 0 ∧ e.send ≠ e.ack ∧ e.fails = n ∧ (e.recv - e.ack).toNat < 512 ∧ (0x0100 : BitVec 16) ≠ e.recv
        ∧ ((0x0100 : BitVec 16) - e.recv).toNat < 512 ∧ 512 ≤ ((0x00FE : BitVec 16) - e.recv).toNat)
    ∧ (linkOf (flueOf State.reset 0) true).send = (linkOf (flueOf State.reset 0) true).ack
    ∧ (let f := { flueOf State.reset 0 with pwr := 0, idle := 1 }
       f.pin = false ∧ f.idle ≠ 0 ∧ f.qa = [] ∧ f.qb = [] ∧ f.turning = none)
    ∧ (let x := laneOf (laneWith .blocked (some (.functionReady 0 7)) [] none) 0 15
       x.results = [] ∧ x.wait = some (.functionReady 0 7) ∧ x.frz.pending = none)
    ∧ (let x := laneOf (laneWith .ready none [⟨.x 7, 9, true, none, 0, 0x40, aSite⟩] none) 0 15
       x.results = [⟨.x 7, 9, true, none, 0, 0x40, aSite⟩] ∧ x.frz.pending = none ∧ x.frz.failing = none ∧ x.status ≠ .draining)
    ∧ ((laneOf (laneWith .ready none [] none) 0 15).wait = none ∧ (laneOf (laneWith .ready none [] none) 0 15).results = [])
    ∧ ((portOf State.reset 63).state = 3 ∧ (63 : Nat) < 64
        ∧ (portOf State.reset 63).sendSeq = (portOf State.reset 63).ackSeq
        ∧ ∀ n ∈ [14, 15], let p := { portOf State.reset 63 with state := 0, sendSeq := 0, ackSeq := 0xFC00, fails := n }
            p.state = 0 ∧ p.sendSeq ≠ p.ackSeq ∧ (p.fails < 15 ∨ 15 ≤ p.fails)) :=
  ⟨by decide +kernel, xready_live (by rfl) _, (free_live (by rfl) _).1, by decide +kernel, by decide +kernel, by decide +kernel,
    by decide +kernel, by decide, by decide +kernel, by decide +kernel, by decide +kernel, by decide +kernel, by decide +kernel,
    by decide +kernel, by decide +kernel, by decide +kernel⟩

/-- A guard that is off; the registers SYSR reads in every mode. -/
theorem test_hyp_FramesAndGuards : (getP (cur (box 480 Lane.reset)) 7).getLsbD 0 = false ∧ isSup (box 480 Lane.reset).sched.core = true
    ∧ [Opnd.v (plain 1), .v (plain 2)].any (opndIllegal (cur (box 480 Lane.reset))) = false
    ∧ [Opnd.v (plain 1), .v ⟨2, true, true⟩].any (opndIllegal (cur (box 480 Lane.reset))) = true
    ∧ (0x042 : BitVec 12).toNat ∈ [0x000, 0x001, 0x002, 0x003, 0x004, 0x008, 0x009, 0x00A, 0x010, 0x040, 0x041, 0x042] := by decide +kernel

/-- An instruction word at the PC of a lane whose turn is next, one that is no instruction, and a fetch that fails. -/
theorem test_hyp_StepRunsDecoded :
    (let s := State.reset.withFetchWord 32 0x00531C01
     let r := { s with sched := { s.sched with agenda := [] } }
     s.sched.agenda = .lane 480 0 :: [] ∧ s.pkg.down = false ∧ (laneOf r 480 0).status = .ready ∧ heldBack r 480 0 = none
      ∧ answers (fetchInstr r 480 0) (fun e => e.2 == (32, 0x00531C01) && (hits e.1 480 0).isEmpty) = true
      ∧ (laneOf r 480 0).loop.len = 0)
    ∧ (match fetchInstr State.reset 480 0 with
      | .error (.fault .fetch _) => true
      | _ => false) = true
    ∧ (match fetchHalf State.reset 480 0 0 with
      | .ok _ => false
      | .error _ => true) = true
    ∧ (let s := setLane State.reset 480 0 { Lane.reset with loop := ⟨1, 2, 0, none, [(0, 7)], false⟩ }
       (laneOf s 480 0).loop.len ≠ 0 ∧ smGet (laneOf s 480 0).loop.buf 0 = some 7 ∧ smGet (laneOf s 480 0).loop.buf 2 = none)
    ∧ (let s := State.reset.withFetchWord 32 0
       transWay s 480 (ctxOf s 480 (laneOf s 480 0)) 0x3FFE .fetch = .opened
        ∧ (translate s 480 (ctxOf s 480 (laneOf s 480 0)) 0x3FFE .fetch).any (fun e =>
            decide (e.2.1 < 2 ^ 41 ∧ e.2.1 % 2 = 0) && decide (smGet (coreOf e.1 480).ctl.l1i (e.2.1 / 64 * 64) = none)
            && decide (pathPhys e.1 (dieNo 480) e.2.1 e.2.2.1 false = .opened)) = true
        ∧ (let s := onCore s 480 (fun k => { k with ctl := { k.ctl with l1i := [(0x3FC0, 9)] } })
           (translate s 480 (ctxOf s 480 (laneOf s 480 0)) 0x3FFE .fetch).any (fun e =>
             decide (smGet (coreOf e.1 480).ctl.l1i (e.2.1 / 64 * 64) = some 9)) = true)) := by
  decide +kernel

theorem test_hyp_EncodeDecode : wf (.add ⟨7, ⟨6, true, false⟩, plain 1⟩) = true
    ∧ encode (.add ⟨7, ⟨6, true, false⟩, plain 1⟩) = some (32, 0x00531C01) := ⟨by decide, by rfl⟩

theorem test_hyp_DecodeEncode : (0x00531C01 : Nat) < 2 ^ 32 ∧ lengthOf (0x00531C01 % 65536) = 32
    ∧ decodeWord 32 0x00531C01 = .ok (.add ⟨7, ⟨6, true, false⟩, plain 1⟩) := ⟨by decide, by decide, by rfl⟩

theorem test_hyp_ReadAfterWrite : Memory.wf [] = true ∧ Memory.wf (memWrite [] (2 ^ 41 - 1) 1 7) = true
    ∧ memWrite (memWrite [] 5 1 7) 5 1 0 = [] := by decide

/-- The answer is a next state. -/
def goesOn (o : Host.Outcome State Fault Refusal) : Bool :=
  match o with
  | .next _ => true
  | _ => false

/-- The initial memory, and the memory of the machine with an instruction placed, are canonical, and a step goes on from it. -/
theorem test_hyp_MemoryStaysCanonical : MemoryOk (State.reset.withFetchWord 32 0x00531C01) ∧ goesOn (step (State.reset.withFetchWord 32 0x00531C01)) = true :=
  ⟨by unfold MemoryOk; decide +kernel, by decide +kernel⟩

/-! ### Single steps: the results are worked out from the rules named -/

/-- `i` on lane `l` of core 0 answers a next state whose lane in focus is as `good` says. -/
def runsTo (i : Instr) (l : Lane) (good : Lane → Bool) : Bool :=
  match exec i (box 0 l) with
  | .next t => good (cur t)
  | _ => false

/-- A lane with two v registers holding given bits and the others zero. -/
def laneV (r : Reg) (a : Nat) (q : Reg) (b : Nat) : Lane := { Lane.reset with
  regs := { Lane.reset.regs with v := Vector.ofFn fun i => if i = r then BitVec.ofNat 1024 a else if i = q then BitVec.ofNat 1024 b else 0 } }

/-- x9 after `i`, with x1 and x2 given. -/
def yields (i : Instr) (a b v : X) : Bool := runsTo i (laneX [(1, a), (2, b)]) (fun l => getX l 9 == v && l.status != .frozen)

/-- The result for x9 that `i` leaves outstanding, with x1 and x2 given (R26). -/
def owes (i : Instr) (a b v : X) : Bool :=
  runsTo i (laneX [(1, a), (2, b)]) (fun l => l.results.map (fun r => r.value) == [v.setWidth 1024] && !l.marks.xfull.getLsbD 9)

/-- R84: ADD is taken modulo 2^64, and the PC moves past a word. -/
theorem test_add_wraps : runsTo (.add ⟨9, plain 1, plain 2⟩) (laneX [(1, 0xFFFFFFFFFFFFFFFF), (2, 3)]) (fun l => getX l 9 == 2 && l.pc == 4) = true := by
  decide +kernel
/-- R54, R84: SUB into one of its sources, in a halfword. -/
theorem test_sub_source : runsTo (.subC ⟨1, 2⟩) (laneX [(1, 2), (2, 5)]) (fun l => getX l 1 == 0xFFFFFFFFFFFFFFFD && l.pc == 2) = true := by
  decide +kernel
/-- R26: the last use of a source makes it dead; a write to x0 is discarded. -/
theorem test_last_use : runsTo (.add ⟨0, ⟨1, true, false⟩, plain 2⟩) (laneX [(1, 7), (2, 5)])
    (fun l => getX l 0 == 0 && l.marks.xdead.getLsbD 1 && !l.marks.xdead.getLsbD 2) = true := by decide +kernel
/-- R85: the high halves of (2^64 − 1)², signed 1 and unsigned. -/
theorem test_mulhi : yields (.mulhi ⟨9, plain 1, plain 2⟩) 0xFFFFFFFFFFFFFFFF 0xFFFFFFFFFFFFFFFF 0 = true
    ∧ yields (.mulhiu ⟨9, plain 1, plain 2⟩) 0xFFFFFFFFFFFFFFFF 0xFFFFFFFFFFFFFFFF 0xFFFFFFFFFFFFFFFE = true := by decide +kernel
/-- R87: −7 by 2 truncates towards zero, and the remainder has the dividend's sign. -/
theorem test_div : owes (.div ⟨9, plain 1, plain 2⟩) 0xFFFFFFFFFFFFFFF9 2 0xFFFFFFFFFFFFFFFD = true
    ∧ owes (.rem ⟨9, plain 1, plain 2⟩) 0xFFFFFFFFFFFFFFF9 2 0xFFFFFFFFFFFFFFFF = true := by decide +kernel
/-- R87: the same operands unsigned. -/
theorem test_divu : owes (.divu ⟨9, plain 1, plain 2⟩) 0xFFFFFFFFFFFFFFF9 2 0x7FFFFFFFFFFFFFFC = true
    ∧ owes (.remu ⟨9, plain 1, plain 2⟩) 0xFFFFFFFFFFFFFFF9 2 1 = true := by decide +kernel
/-- R88: a count is taken modulo 64, an arithmetic shift keeps the sign, and a rotation goes right. -/
theorem test_shifts : yields (.shl ⟨9, plain 1, plain 2⟩) 1 65 2 = true ∧ yields (.sra ⟨9, plain 1, plain 2⟩) 0x8000000000000000 63 0xFFFFFFFFFFFFFFFF = true
    ∧ yields (.rot ⟨9, plain 1, plain 2⟩) 0x8000000000000001 4 0x1800000000000000 = true := by decide +kernel
/-- R90: −1 is below 1 signed and above it unsigned. -/
theorem test_cmp : yields (.cmp ⟨9, plain 1, plain 2, .lt⟩) 0xFFFFFFFFFFFFFFFF 1 1 = true
    ∧ yields (.cmp ⟨9, plain 1, plain 2, .ltu⟩) 0xFFFFFFFFFFFFFFFF 1 0 = true := by decide +kernel
/-- R94: the example of the rule, and a field put back. -/
theorem test_fields : yields (.bfx ⟨9, plain 1, 0, 12, 20⟩) 0x0000000087654321 0 0xFFFFFFFFFFF87654 = true
    ∧ yields (.bfi ⟨9, plain 1, plain 2, 0, 60, 4⟩) 0x123456789ABCDEF0 0xFFF5 0x523456789ABCDEF0 = true := by decide +kernel
/-- R95: the example of the rule, and no bit in a predicate. -/
theorem test_pset : runsTo (.pset ⟨1, plain 9, 0⟩) (laneX [(9, 20)]) (fun l => getP l 1 == 0x000FFFFF) = true := by decide +kernel
theorem test_pfirst : runsTo (.pfirst ⟨9, ⟨2, false, false⟩⟩) { Lane.reset with regs := { Lane.reset.regs with p := Vector.ofFn fun _ => 0 } } (fun l => getX l 9 == 32) = true := by
  decide +kernel
/-- R96: a backward branch taken, and one not taken. -/
theorem test_branch : runsTo (.br ⟨1, 2, 0xFFE, .le⟩) { laneX [(1, 4), (2, 4)] with pc := 0x100 } (fun l => l.pc == 0xFC) = true
    ∧ runsTo (.br ⟨1, 2, 0xFFE, .lt⟩) { laneX [(1, 4), (2, 4)] with pc := 0x100 } (fun l => l.pc == 0x104) = true := by decide +kernel
/-- R27, R214: a trap on an empty source Freezes the lane with its registers kept. -/
theorem test_empty : runsTo (.add ⟨9, ⟨1, false, true⟩, plain 2⟩) (let l := laneX [(9, 5)]; { l with marks := { l.marks with xfull := l.marks.xfull &&& ~~~2#32 } })
    (fun l => getX l 9 == 5 && l.status == .frozen) = true := by decide +kernel
/-- R149: a word of own LM loaded back after a store, sign-extended. -/
theorem test_store_load : (match exec (.st ⟨2, plain 1, 1, 2⟩) (box 0 (laneX [(1, 0xFF80000000000100), (2, 0xFFFFFFFF80000001)])) with
    | .next t => memRead t.mem (lmKey 0 0x104) 4 == 0x80000001 && memRead t.mem (lmKey 0 0x108) 4 == 0
    | _ => false) = true := by decide +kernel
/-- R117: an integer compares equal to itself in all 32 elements, and 64-bit types have sixteen. -/
theorem test_vcmp : runsTo (.vcmp ⟨3, plain 1, plain 2, 0, .i32, .eq⟩) (laneX []) (fun l => getP l 3 == 0xFFFFFFFF) = true
    ∧ runsTo (.vcmp ⟨3, plain 1, plain 2, 0, .i64, .eq⟩) (laneX []) (fun l => getP l 3 == 0x0000FFFF) = true := by decide +kernel
/-- R47, R55: with its guard off VCMP only counts, but a payload register named outside a handler firing freezes the lane. -/
theorem test_vcmp_guard : runsTo (.vcmp ⟨3, plain 1, plain 2, 1, .i32, .eq⟩) (laneX []) (fun l => getP l 3 == 0 && l.pc == 8) = true
    ∧ runsTo (.vcmp ⟨3, ⟨1, true, true⟩, plain 2, 1, .i32, .eq⟩) (laneX []) (fun l => l.status == .frozen && l.pc == 0) = true := by
  decide +kernel
/-- R112, R68: 1 + 2 of FP32 in every element, and 2^24 + 1 to the nearest even. -/
theorem test_vadd : runsTo (.vadd ⟨9, plain 1, plain 2, .f32⟩) (laneV 1 (0x3F800000 + 0x4B800000 * 2 ^ 32) 2 (0x40000000 + 0x3F800000 * 2 ^ 32))
    (fun l => l.regs.v[(9 : Reg)].toNat % 2 ^ 64 == 0x40400000 + 0x4B800000 * 2 ^ 32) = true := by decide +kernel
/-- R40, R55: the decoder's instruction is run as the first after the machine is set to it: x7 becomes x6 plus x1. -/
theorem test_first_step : (match step (State.reset.withFetchWord 32 0x00531C01) with
    | .next t => (laneOf t 480 0).pc == 4 && (laneOf t 480 0).marks.xdead.getLsbD 6
    | _ => false) = true := by decide +kernel

end Sys2Proof.Tests
end

section
/-! O59: a canonical memory is determined by what it reads as. -/

namespace Sys2Proof.Machine
open Sys2Proof.Safety

/-- The first entry of a canonical memory reads as its byte. -/
theorem memGet_head (k : Nat) (b : Byte) (t : Memory) : memGet ((k, b) :: t) k = b := by simp [memGet]

/-- An address other than the first entry's reads as in the rest: the rest lists nothing up to the first entry's address. -/
theorem memGet_tail {lo : Option Nat} {k a : Nat} {b : Byte} {t : Memory} (h : memWfFrom lo ((k, b) :: t) = true)
    (ha : k ≠ a) : memGet ((k, b) :: t) a = memGet t a := by
  obtain ⟨-, -, ht⟩ := memWfFrom_cons.1 h
  by_cases hlt : a < k
  · simp [memGet, ha, hlt, memGet_below ht (Nat.le_of_lt hlt)]
  · simp [memGet, ha, hlt]

/-- A memory that starts with an address differs there from one that lists only addresses above it: no entry holds an unlisted
byte. -/
theorem memGet_head_ne {lo : Option Nat} {x k : Nat} {b : Byte} {m t : Memory} (h : memWfFrom lo ((k, b) :: t) = true)
    (hm : memWfFrom (some x) m = true) (hk : k ≤ x) : memGet m k ≠ memGet ((k, b) :: t) k := by
  obtain ⟨-, hb, -⟩ := memWfFrom_cons.1 h
  rw [memGet_below hm hk, memGet_head]
  exact hb.symm

/-- Equal readings give equal lists: both list the same first address, with the same byte, and the rests read alike. -/
theorem eq_of_memGet_eq {lo lo' : Option Nat} {m m' : Memory} (h : memWfFrom lo m = true) (h' : memWfFrom lo' m' = true)
    (hg : ∀ a, memGet m a = memGet m' a) : m = m' := by
  induction m generalizing lo lo' m' with
  | nil =>
    cases m' with
    | nil => rfl
    | cons e t => exact absurd (hg e.1) (memGet_head_ne (x := e.1) h' rfl (Nat.le_refl _))
  | cons e t ih =>
    obtain ⟨k, b⟩ := e
    cases m' with
    | nil => exact absurd (hg k).symm (memGet_head_ne (x := k) h rfl (Nat.le_refl _))
    | cons e' t' =>
      obtain ⟨k', b'⟩ := e'
      obtain ⟨-, hb, ht⟩ := memWfFrom_cons.1 h
      obtain ⟨-, hb', ht'⟩ := memWfFrom_cons.1 h'
      obtain hlt | rfl | hgt := Nat.lt_trichotomy k k'
      · exact absurd ((hg k).trans (memGet_tail h' (Nat.ne_of_gt hlt))).symm
          (memGet_head_ne h ht' (Nat.le_of_lt hlt))
      · have hbb : b = b' := by simpa [memGet_head] using hg k
        have htt : t = t' := ih ht ht' fun a => by
          by_cases ha : k = a
          · rw [← ha, memGet_below ht (Nat.le_refl _), memGet_below ht' (Nat.le_refl _)]
          · rw [← memGet_tail h ha, ← memGet_tail h' ha, hg a]
        rw [hbb, htt]
      · exact absurd ((hg k').symm.trans (memGet_tail h (Nat.ne_of_gt hgt))).symm
          (memGet_head_ne h' ht (Nat.le_of_lt hgt))

/-- Settles O59: the rules of reads and writes of a canonical memory, and its extensionality. -/
theorem readAfterWrite : Obligations.ReadAfterWrite :=
  ⟨fun _ a n v h => ⟨memRead_memWrite_same h a n v, memWrite_wf h a n v, memGet_memWrite h a n v⟩,
    fun _ _ h h' hg => eq_of_memGet_eq h h' hg⟩

end Sys2Proof.Machine
end

section
/-! O57, part 1: the operations of the machine that leave memory alone. `f_mem` says so of `f`. -/

namespace Sys2Proof.Machine

/-- A conditional state has the memory of the branch taken. -/
@[simp] theorem ite_mem (c : Prop) [Decidable c] (s t : State) : (if c then s else t).mem = if c then s.mem else t.mem :=
  apply_ite State.mem c s t

/-- A fold whose steps leave memory alone leaves it alone. -/
@[simp] theorem foldl_mem {α : Type} {f : State → α → State} (hf : ∀ s a, (f s a).mem = s.mem) (l : List α) (s : State) :
    (l.foldl f s).mem = s.mem :=
  List.foldlRecOn l f (motive := fun t => t.mem = s.mem) rfl fun t ht a _ => (hf t a).trans ht

/-! ### What every instruction shares -/

@[simp] theorem sampleCycles_mem (s : State) (c : Nat) : (sampleCycles s c).mem = s.mem := rfl
@[simp] theorem wakeFlue_mem (s : State) (f : Nat) : (wakeFlue s f).mem = s.mem := by simp [wakeFlue]
@[simp] theorem produce_mem (s : State) (r : Result) : (produce s r).mem = s.mem := rfl

/-! ### Lines of memory and the way to them -/

@[simp] theorem wakePath_mem (s : State) (a : Path) : (wakePath s a).mem = s.mem := by
  unfold wakePath
  split <;> simp

@[simp] theorem poisonAt_mem (s : State) (a : Nat) : (poisonAt s a).mem = s.mem := rfl
@[simp] theorem clearCovered_mem (s : State) (ws : List (Nat × Nat)) : (clearCovered s ws).mem = s.mem := rfl
@[simp] theorem rawBlocks_mem (s : State) (a n : Nat) : (rawBlocks s a n).mem = s.mem := by simp [rawBlocks]
@[simp] theorem chooseBlock_mem (s : State) (b : Nat) : (chooseBlock s b).mem = s.mem := rfl
@[simp] theorem setTokens_mem (s : State) (d line : Nat) (t : TokenLine) : (setTokens s d line t).mem = s.mem := rfl
@[simp] theorem setDirectory_mem (s : State) (line : Nat) (e : DirLine) : (setDirectory s line e).mem = s.mem := rfl
@[simp] theorem surrender_mem (s : State) (line d : Nat) : (surrender s line d).mem = s.mem := rfl

@[simp] theorem recallOthers_mem (s : State) (keep : Option Nat) (line : Nat) : (recallOthers s keep line).mem = s.mem := by
  unfold recallOthers
  dsimp only
  split
  · rfl
  · exact (setDirectory_mem _ _ _).trans (foldl_mem (fun _ _ => by rfl) _ s)

@[simp] theorem writtenBack_mem (s : State) (line : Nat) : (writtenBack s line).mem = s.mem :=
  foldl_mem (fun _ _ => by rfl) _ s

@[simp] theorem roomL1_mem (s : State) (c line : Nat) : (roomL1 s c line).mem = s.mem := by simp [roomL1]
@[simp] theorem roomL2_mem (s : State) (d line : Nat) : (roomL2 s d line).mem = s.mem := by simp [roomL2]
@[simp] theorem grantRead_mem (s : State) (d line : Nat) : (grantRead s d line).mem = s.mem := by simp [grantRead]
@[simp] theorem grantWrite_mem (s : State) (d line : Nat) : (grantWrite s d line).mem = s.mem := by simp [grantWrite]
@[simp] theorem cacheWrite_mem (s : State) (c line : Nat) : (cacheWrite s c line).mem = s.mem := by simp [cacheWrite]
@[simp] theorem cacheRead_mem (s : State) (c line : Nat) : (cacheRead s c line).mem = s.mem := by simp [cacheRead]
@[simp] theorem homeWrite_mem (s : State) (d line : Nat) : (homeWrite s d line).mem = s.mem := by simp [homeWrite]
@[simp] theorem setAsks_mem (s : State) (d line : Nat) (l : List TokenAsk) : (setAsks s d line l).mem = s.mem := rfl
@[simp] theorem askBack_mem (s : State) (d line : Nat) (all : Bool) : (askBack s d line all).mem = s.mem := by simp [askBack]
@[simp] theorem hostHolds_mem (s : State) (line : Nat) (h : Bool) : (hostHolds s line h).mem = s.mem := by simp [hostHolds]
@[simp] theorem answered_mem (s : State) (v : BitVec 512) : (answered s v).mem = s.mem := rfl
@[simp] theorem answeredOpen_mem (s : State) (n : Nat) : (answeredOpen s n).mem = s.mem := rfl
@[simp] theorem hostRead_mem (s : State) (pa n : Nat) : (hostRead s pa n).mem = s.mem := by simp [hostRead]

/-! ### Translation -/

@[simp] theorem tlbFill_mem (s : State) (c : Nat) (e : TlbEntry) : (tlbFill s c e).mem = s.mem := by simp [tlbFill]

/-! ### Ordered tasks: aborts, spills and checks -/

@[simp] theorem setTask_mem (s : State) (n : Nat) (t : Task) : (setTask s n t).mem = s.mem := rfl

@[simp] theorem onTask_mem (s : State) (n : Nat) (f : Task → Task) : (onTask s n f).mem = s.mem := by
  unfold onTask
  split <;> simp

@[simp] theorem delTask_mem (s : State) (n : Nat) : (delTask s n).mem = s.mem := rfl
@[simp] theorem freeLane_mem (s : State) (c l : Nat) : (freeLane s c l).mem = s.mem := rfl
@[simp] theorem unspillTask_mem (s : State) (d : Domain) (n : Nat) (t : Task) : (unspillTask s d n t).mem = s.mem := rfl
@[simp] theorem spillDue_mem (s : State) (q : Nat) : (spillDue s q).mem = s.mem := by simp [spillDue]
@[simp] theorem refreshSpillf_mem (s : State) : (refreshSpillf s).mem = s.mem := rfl

/-! ### Accesses of lanes -/

@[simp] theorem cachePlaces_mem (s : State) (c : Nat) (ps : List (Nat × Place)) : (cachePlaces s c ps).mem = s.mem :=
  foldl_mem (fun s e => by split <;> simp) ps s

@[simp] theorem countStore_mem (s : State) : (countStore s).mem = s.mem := rfl

/-! ### Flues and horn ports -/

@[simp] theorem queueTurn_mem (s : State) (f : Nat) (endB : Bool) (target : Nat) : (queueTurn s f endB target).mem = s.mem := by
  simp [queueTurn]

@[simp] theorem writeFlcmd_mem (s : State) (f w : Nat) : (writeFlcmd s f w).mem = s.mem := by simp [writeFlcmd]
@[simp] theorem flueDown_mem (s : State) (f : Nat) : (flueDown s f).mem = s.mem := rfl

@[simp] theorem laneUnresponsive_mem (core lane : Nat) (s : State) : (laneUnresponsive core lane s).mem = s.mem := by
  fun_cases laneUnresponsive <;> simp

@[simp] theorem packetSent_mem (s : State) (a b : Nat) : (packetSent s a b).mem = s.mem := foldl_mem (fun _ _ => by rfl) _ s
@[simp] theorem wakeRing_mem (s : State) (a b : Nat) : (wakeRing s a b).mem = s.mem := by simp [wakeRing]
@[simp] theorem setPort_mem (s : State) (p : Nat) (x : HornPort) : (setPort s p x).mem = s.mem := rfl

/-! ### The scoreboard -/

@[simp] theorem freeEntry_mem (s : State) (c : Nat) (age : Option Nat) : (freeEntry s c age).mem = s.mem := by
  unfold freeEntry
  split <;> simp

@[simp] theorem releasePart_mem (s : State) (c : Nat) (age : Option Nat) (f : SbEntry → SbEntry) :
    (releasePart s c age f).mem = s.mem := rfl

@[simp] theorem releaseIndex_mem (s : State) (c : Nat) (age : Option Nat) (scatter : Bool) :
    (releaseIndex s c age scatter).mem = s.mem := rfl

@[simp] theorem releaseReads_mem (s : State) (c : Nat) (age : Option Nat) : (releaseReads s c age).mem = s.mem := rfl

@[simp] theorem kick_mem (s : State) (c : Nat) : (kick s c).mem = s.mem := by
  unfold kick
  refine (foldl_mem (fun s i => ?_) _ _).trans (foldl_mem (fun _ _ => by rfl) _ s)
  split <;> simp

/-! ### The core-state block -/

@[simp] theorem evalActors_mem (s : State) (c : Nat) : (evalActors s c).mem = s.mem := by simp [evalActors]

/-! ### Task records, dispatch and commits -/

@[simp] theorem spawnReg_mem (s : State) (j : JoinReg) : (spawnReg s j).mem = s.mem := rfl

@[simp] theorem joinFire_mem (s : State) (key : Nat) : (joinFire s key).mem = s.mem := by
  unfold joinFire
  dsimp only
  split
  · rfl
  · exact foldl_mem spawnReg_mem _ _

@[simp] theorem joinFireAll_mem (s : State) (key n : Nat) : (joinFireAll s key n).mem = s.mem := by simp [joinFireAll]
@[simp] theorem queueUpdate_mem (s : State) (c : Nat) (u : TxUpdate) : (queueUpdate s c u).mem = s.mem := rfl

@[simp] theorem wakeUpdate_mem (s : State) (c : Nat) (a : Stop) : (wakeUpdate s c a).mem = s.mem := by
  unfold wakeUpdate
  split <;> simp

@[simp] theorem rejectHost_mem (s : State) (record : Nat) : (rejectHost s record).mem = s.mem := rfl
@[simp] theorem endFiring_mem (s : State) (c l : Nat) : (endFiring s c l).mem = s.mem := by simp [endFiring]
@[simp] theorem capClock_mem (s : State) (c : Nat) : (capClock s c).mem = s.mem := by simp [capClock]
@[simp] theorem capMark_mem (s : State) (c : Nat) : (capMark s c).mem = s.mem := by simp [capMark]
@[simp] theorem discardMessage_mem (s : State) (c ix : Nat) (m : Message) : (discardMessage s c ix m).mem = s.mem := rfl

@[simp] theorem startFiring_mem (s : State) (c l : Nat) (a : Candidate) : (startFiring s c l a).mem = s.mem := by
  unfold startFiring
  split <;> simp

/-! ### Transaction barriers and records -/

@[simp] theorem underflowPacket_mem (s : State) (c lane : Nat) (addr : X) : (underflowPacket s c lane addr).mem = s.mem := rfl

@[simp] theorem cacheRecord_mem (s : State) (c : Nat) (ctx : Option Nat) (a v : Nat) : (cacheRecord s c ctx a v).mem = s.mem :=
  rfl

/-! ### The Stove -/

@[simp] theorem editSeat_mem (s : State) (c : Nat) (i : Fin 2) (age : Nat) (f : SeatOp → Option SeatOp) :
    (editSeat s c i age f).mem = s.mem := rfl

@[simp] theorem passPosition_mem (q : Nat) (i : Fin 2) (s : State) (j : Nat) : (passPosition q i s j).mem = s.mem := rfl

@[simp] theorem joinGroup_mem (s : State) (c : Nat) (i : Fin 2) (g : Nat) (code : FaultCode) (p : SeatOp) :
    (joinGroup s c i g code p).mem = s.mem := by simp [joinGroup]

@[simp] theorem groupOf_mem (s : State) (q : Nat) (i : Fin 2) (ms : List (Nat × SeatOp)) (origin cause : Nat)
    (code : FaultCode) :
    (groupOf s q i ms origin cause code).mem = s.mem :=
  foldl_mem (fun _ _ => joinGroup_mem _ _ _ _ _ _) ms (newGroup s q i _ origin cause).1

@[simp] theorem gangIssueFault_mem (s : State) (i : Fin 2) (code : FaultCode) (addr : X) :
    (gangIssueFault s i code addr).mem = s.mem := by
  unfold gangIssueFault
  dsimp only
  split
  · simp
  · refine (foldl_mem (fun s e => ?_) _ _).trans ?_
    · simp
    · simp [newGroup]

@[simp] theorem noteForming_mem (s : State) (q : Nat) (i : Fin 2) : (noteForming s q i).mem = s.mem := by simp [noteForming]
@[simp] theorem dueGang_mem (s : State) (c : Nat) (i : Fin 2) : (dueGang s c i).mem = s.mem := by simp [dueGang]

@[simp] theorem arrive_mem (s : State) (c : Nat) (i : Fin 2) (p : SeatOp) : (arrive s c i p).mem = s.mem := by
  unfold arrive
  dsimp only
  split <;> simp

@[simp] theorem startSeatOp_mem (s : State) (c : Nat) (i : Fin 2) : (startSeatOp s c i).mem = s.mem := by
  unfold startSeatOp
  dsimp only
  split <;> simp

@[simp] theorem setWeights_mem (s : State) (c : Nat) (i : Fin 2) (w : WeightSet) : (setWeights s c i w).mem = s.mem := rfl

@[simp] theorem runGwld_mem (s : State) (c : Nat) (i : Fin 2) (o : GwldOp) (p : SeatOp) : (runGwld s c i o p).mem = s.mem :=
  rfl

@[simp] theorem dueForming_mem (s : State) (q : Nat) : (dueForming s q).mem = s.mem := foldl_mem (fun _ _ => by rfl) _ s

@[simp] theorem formGang_mem (s : State) (q : Nat) (i : Fin 2) : (formGang s q i).mem = s.mem := by
  unfold formGang
  dsimp only
  split
  · simp
  · split
    · simp
    · rw [foldl_mem fun s e => kick_mem s _, dueEvent_mem, onQuad_mem, foldl_mem (passPosition_mem q i),
        foldl_mem fun s e => editSeat_mem _ _ _ _ _, onQuad_mem, noteForming_mem]

@[simp] theorem withdrawHeld_mem (s : State) (c l g : Nat) : (withdrawHeld s c l g).mem = s.mem := by
  unfold withdrawHeld
  split <;> simp

@[simp] theorem releaseHeld_mem (s : State) (c l g : Nat) : (releaseHeld s c l g).mem = s.mem := by
  unfold releaseHeld
  split <;> simp

/-! ### Engine operations -/

@[simp] theorem setEngOp_mem (s : State) (c slot : Nat) (op : EngOp) : (setEngOp s c slot op).mem = s.mem := rfl

@[simp] theorem postSector_mem (s : State) (c slot : Nat) (op : EngOp) : (postSector s c slot op).mem = s.mem := by
  fun_cases postSector <;> simp

@[simp] theorem opPacket_mem (s : State) (c slot : Nat) (op : EngOp) (code : FaultCode) (addr aux : Nat) :
    (opPacket s c slot op code addr aux).mem = s.mem := rfl

@[simp] theorem releaseOp_mem (s : State) (c slot : Nat) (op : EngOp) : (releaseOp s c slot op).mem = s.mem := by
  simp [releaseOp]

@[simp] theorem settle_mem (s : State) (d : Nat) (u : Under) : (settle s d u).mem = s.mem :=
  (foldl_mem (fun s line => homeWrite_mem s d line) _ _).trans (foldl_mem chooseBlock_mem _ s)

@[simp] theorem markApplied_mem (s : State) (c slot : Nat) (op : EngOp) (q : Nat) : (markApplied s c slot op q).mem = s.mem := by
  simp [markApplied]

@[simp] theorem dueStart_mem (s : State) (c slot : Nat) : (dueStart s c slot).mem = s.mem := rfl

/-! ### Barriers -/

@[simp] theorem setNetBarrier_mem (s : State) (sc : Scope) (d id : Nat) (b : NetBarrier) :
    (setNetBarrier s sc d id b).mem = s.mem := by
  unfold setNetBarrier
  split <;> simp

@[simp] theorem setBarrier_mem (s : State) (c : Nat) (sc : Scope) (id : Nat) (b : Barrier) :
    (setBarrier s c sc id b).mem = s.mem := by
  unfold setBarrier
  split <;> simp

@[simp] theorem arriveBar_mem (s : State) (c : Nat) (sc : Scope) (id : Nat) : (arriveBar s c sc id).mem = s.mem := by
  simp [arriveBar]

@[simp] theorem awaitPhase_mem (s : State) (o : BarOp) (ph : Nat) : (awaitPhase s o ph).mem = s.mem := by simp [awaitPhase]
@[simp] theorem onAllLanes_mem (s : State) (f : Nat → Lane → Lane) : (onAllLanes s f).mem = s.mem := rfl

@[simp] theorem forceBarrier_mem (s : State) (sc : Scope) (d id : Nat) : (forceBarrier s sc d id).mem = s.mem := by
  simp [forceBarrier]

@[simp] theorem writeBarrierLow_mem (s : State) (sc : Scope) (d id w : Nat) : (writeBarrierLow s sc d id w).mem = s.mem := by
  simp [writeBarrierLow]

@[simp] theorem writeBarrierHigh_mem (s : State) (sc : Scope) (d id w : Nat) : (writeBarrierHigh s sc d id w).mem = s.mem := by
  simp [writeBarrierHigh]

/-! ### Tokens and the directory -/

@[simp] theorem serve_mem (s : State) (c line : Nat) (write : Bool) : (serve s c line write).mem = s.mem := by simp [serve]

@[simp] theorem giveBack_mem (s : State) (d line : Nat) (all : Bool) : (giveBack s d line all).mem = s.mem := by
  simp [giveBack]

@[simp] theorem dropAsk_mem (s : State) (d line : Nat) (p : TokenAsk → Bool) : (dropAsk s d line p).mem = s.mem := rfl

@[simp] theorem activate_mem (s : State) (d line : Nat) : (activate s d line).mem = s.mem := by
  unfold activate
  extract_lets go
  have hgo (t : State) : (go t).mem = t.mem := by
    unfold go
    split
    · simp
    · rfl
  clear_value go
  split
  · rw [hgo, giveBack_mem, dropAsk_mem]
  · exact hgo s

@[simp] theorem takeWaiting_mem (s : State) (d line : Nat) : (takeWaiting s d line).mem = s.mem := by
  unfold takeWaiting
  split <;> simp

@[simp] theorem grantLine_mem (s : State) (die line : Nat) (write : Bool) : (grantLine s die line write).mem = s.mem := by
  simp [grantLine]

/-! ### Fetching -/

@[simp] theorem l1iFill_mem (s : State) (c line w : Nat) : (l1iFill s c line w).mem = s.mem := by simp [l1iFill]

/-! ### Messages and spawns -/

@[simp] theorem enqueueItem_mem (s : State) (c dst : Nat) (i : SendItem) : (enqueueItem s c dst i).mem = s.mem := rfl

@[simp] theorem enqueueMessage_mem (s : State) (c lane dst type flags : Nat) (rel : Bool) (push : Option Nat) (pay : List V)
    (virt : Option (Nat × Nat)) :
    (enqueueMessage s c lane dst type flags rel push pay virt).mem = s.mem := rfl

@[simp] theorem dequeueItem_mem (s : State) (src ix : Nat) : (dequeueItem s src ix).mem = s.mem := by
  unfold dequeueItem
  split <;> simp

@[simp] theorem sendFailed_mem (s : State) (src ix : Nat) : (sendFailed s src ix).mem = s.mem := by simp [sendFailed]
@[simp] theorem reoffer_mem (s : State) (src dst : Nat) : (reoffer s src dst).mem = s.mem := by simp [reoffer]
@[simp] theorem refuse_mem (s : State) (src dst : Nat) : (refuse s src dst).mem = s.mem := by simp [refuse]

@[simp] theorem acceptMessage_mem (s : State) (src ix : Nat) (m : Message) : (acceptMessage s src ix m).mem = s.mem := by
  simp [acceptMessage]

@[simp] theorem bufferChanged_mem (s : State) (c : Nat) : (bufferChanged s c).mem = s.mem := by simp [bufferChanged]
@[simp] theorem pushSpawn_mem (s : State) (q : Spawn) : (pushSpawn s q).mem = s.mem := rfl

@[simp] theorem unspill_mem (quad a : Nat) (s : State) : (unspill quad a s).mem = s.mem := by
  induction a generalizing s with
  | zero => rfl
  | succ n ih =>
    unfold unspill
    split
    · rfl
    · split
      · rfl
      · split <;> simp [ih]

/-! ### Ranges, stealing and streams -/

@[simp] theorem setSteal_mem (s : State) (c : Nat) (old : StealReq) (q : Option StealReq) : (setSteal s c old q).mem = s.mem :=
  rfl

/-! ### Results, freezes and debugging -/

@[simp] theorem endedPoison_mem (s : State) (c l : Nat) (a instr : X) : (endedPoison s c l a instr).mem = s.mem := rfl
@[simp] theorem requestFreeze_mem (s : State) (c l : Nat) : (requestFreeze s c l).mem = s.mem := by simp [requestFreeze]
@[simp] theorem setFrzreq_mem (s : State) (c l : Nat) (req : Bool) : (setFrzreq s c l req).mem = s.mem := by simp [setFrzreq]
@[simp] theorem freezeAll_mem (s : State) (c : Nat) : (freezeAll s c).mem = s.mem := by simp [freezeAll]
@[simp] theorem setHold_mem (s : State) (c : Nat) (h : Bool) : (setHold s c h).mem = s.mem := rfl

@[simp] theorem frameWrite_mem (s : State) (c l off n v : Nat) : (frameWrite s c l off n v).mem = s.mem := by
  simp [frameWrite]

@[simp] theorem onDieCores_mem (s : State) (d : Nat) (f : Core → Core) : (onDieCores s d f).mem = s.mem := rfl
@[simp] theorem tlbDrop_mem (s : State) (d : Nat) (keep : TlbEntry → Bool) : (tlbDrop s d keep).mem = s.mem := rfl

/-! ### Neuron banks -/

@[simp] theorem onEv_mem (s : State) (c : Nat) (f : CoreEv → CoreEv) : (onEv s c f).mem = s.mem := rfl

@[simp] theorem refill_mem (c a : Nat) (s : State) : (refill c a s).mem = s.mem := by
  induction a generalizing s with
  | zero => rfl
  | succ n ih =>
    unfold refill
    split
    · rfl
    · split
      · rfl
      · split <;> simp [ih]

@[simp] theorem overflow_mem (s : State) (c : Nat) : (overflow s c).mem = s.mem := by simp [overflow]

@[simp] theorem evKick_mem (s : State) (c : Nat) : (evKick s c).mem = s.mem := by
  unfold evKick
  extract_lets k t
  have ht : t.mem = s.mem := by simp [t]
  clear_value t
  split
  · exact ht
  · split
    · exact ht
    · simp [ht]

@[simp] theorem deliveryNext_mem (s : State) (c : Nat) (d : Delivery) : (deliveryNext s c d).mem = s.mem := by
  simp [deliveryNext]

/-! ### Rounds of the Hearth -/

@[simp] theorem noteReport_mem (s : State) (r : Nat × Nat × Option Nat × Option Nat) : (noteReport s r).mem = s.mem := by
  unfold noteReport
  dsimp only
  split <;> simp

@[simp] theorem promoteLane_mem (s : State) (c l : Nat) : (promoteLane s c l).mem = s.mem := by simp [promoteLane]
@[simp] theorem setSlot_mem (s : State) (i : Nat) (d : Domain) : (setSlot s i d).mem = s.mem := rfl
@[simp] theorem leaveRound_mem (s : State) (id : Nat) : (leaveRound s id).mem = s.mem := rfl
@[simp] theorem forgetDomain_mem (s : State) (id : Nat) : (forgetDomain s id).mem = s.mem := rfl
@[simp] theorem unbindBanks_mem (s : State) (id : Nat) : (unbindBanks s id).mem = s.mem := by simp [unbindBanks]
@[simp] theorem forgetSilent_mem (s : State) (id : Nat) : (forgetSilent s id).mem = s.mem := rfl

@[simp] theorem placeAgain_mem (qs : List Nat) (d : Domain) (s : State) (n : Nat) : (placeAgain qs d s n).mem = s.mem := by
  simp [placeAgain]

@[simp] theorem retireDomain_mem (s : State) (slot : Nat) : (retireDomain s slot).mem = s.mem := by simp [retireDomain]

/-! ### Resets, energy and records -/

@[simp] theorem dropLines_mem (s : State) (d : Nat) : (dropLines s d).mem = s.mem := foldl_mem (fun _ _ => by rfl) _ s
@[simp] theorem poisonDirty_mem (s : State) (d : Nat) : (poisonDirty s d).mem = s.mem := by simp [poisonDirty]
@[simp] theorem dropDues_mem (s : State) (d : Nat) : (dropDues s d).mem = s.mem := rfl
@[simp] theorem dieNormal_mem (s : State) (d : Nat) : (dieNormal s d).mem = s.mem := by simp [dieNormal]
@[simp] theorem dieRejoin_mem (s : State) (d : Nat) : (dieRejoin s d).mem = s.mem := by simp [dieRejoin]
@[simp] theorem measure_mem (s : State) (i : Fin 4) (stage n : Nat) : (measure s i stage n).mem = s.mem := rfl
@[simp] theorem deriveIdentity_mem (s : State) : (deriveIdentity s).mem = s.mem := rfl
@[simp] theorem measureOpen_mem (s : State) (i : Fin 4) : (measureOpen s i).mem = s.mem := rfl
@[simp] theorem bootAccepted_mem (s : State) : (bootAccepted s).mem = s.mem := rfl
@[simp] theorem logRecord_mem (s : State) (src : Nat) (text : RecordText) : (logRecord s src text).mem = s.mem := rfl
@[simp] theorem startFreq_mem (s : State) (q f : Nat) : (startFreq s q f).mem = s.mem := rfl
@[simp] theorem setAccount_mem (s : State) (a : Nat) (x : Account) : (setAccount s a x).mem = s.mem := rfl

@[simp] theorem pauseSpent_mem (s : State) (a : Nat) : (pauseSpent s a).mem = s.mem := by
  unfold pauseSpent
  dsimp only
  split
  · split <;> simp
  · rfl

@[simp] theorem charge_mem (s : State) (a e : Nat) : (charge s a e).mem = s.mem := by simp [charge]
@[simp] theorem chargeShare_mem (s : State) (a n d : Nat) : (chargeShare s a n d).mem = s.mem := by simp [chargeShare]

@[simp] theorem chargeEntry_mem (charges : List (Nat × Nat × Nat)) (s : State) (g : Nat × Nat × Nat) :
    (chargeEntry charges s g).mem = s.mem := by
  unfold chargeEntry
  dsimp only
  split
  · split <;> simp
  · split
    · rw [foldl_mem fun s l => chargeShare_mem s _ _ _, onPkg_mem]
    · rfl

@[simp] theorem meterAccount_mem (before s : State) (a : Nat) : (meterAccount before s a).mem = s.mem := by
  unfold meterAccount
  dsimp only
  split <;> simp

@[simp] theorem writeAccount_mem (s : State) (a j w : Nat) : (writeAccount s a j w).mem = s.mem := by
  unfold writeAccount
  split <;> simp

@[simp] theorem accountStore_mem (s : State) (a off n v : Nat) : (accountStore s a off n v).mem = s.mem := by
  simp [accountStore]

/-! ### Launch domains and pre-emption -/

@[simp] theorem overwritten_mem (s : State) (a n : Nat) : (overwritten s a n).mem = s.mem := by simp [overwritten]

@[simp] theorem dueTimes_mem (s : State) (d : Due) (n : Nat) : (dueTimes s d n).mem = s.mem :=
  foldl_mem (fun _ _ => by rfl) _ s

@[simp] theorem repostLane_mem (s : State) (c l : Nat) : (repostLane s c l).mem = s.mem := by simp [repostLane]

@[simp] theorem repost_mem (s : State) (c : Nat) : (repost s c).mem = s.mem := by
  unfold repost
  dsimp only
  rw [evalActors_mem, evKick_mem, foldl_mem fun s i => dueEvent_mem s _, kick_mem]
  split
  · rw [deliveryNext_mem, foldl_mem fun s q => dueEvent_mem s _, dueTimes_mem, dueTimes_mem, foldl_mem fun s i => reoffer_mem s c _,
      foldl_mem fun s l => repostLane_mem s c l]
  · rw [foldl_mem fun s q => dueEvent_mem s _, dueTimes_mem, dueTimes_mem, foldl_mem fun s i => reoffer_mem s c _,
      foldl_mem fun s l => repostLane_mem s c l]

@[simp] theorem setDma_mem (s : State) (d r : Nat) (b : DmaBlock) : (setDma s d r b).mem = s.mem := rfl
@[simp] theorem dmaGo_mem (s : State) (d r : Nat) : (dmaGo s d r).mem = s.mem := by simp [dmaGo]
@[simp] theorem dmaStart_mem (who row op : Nat) (s : State) : (dmaStart who row op s).mem = s.mem := by simp [dmaStart]

@[simp] theorem mapBack_mem (s : State) (x : Launch) (pairs : List (Nat × Nat)) : (mapBack s x pairs).mem = s.mem :=
  foldl_mem (fun _ _ => by rfl) _ s

@[simp] theorem follow_mem (s : State) : (follow s).mem = s.mem := by simp [follow]

/-! ### The host and launches -/

@[simp] theorem spawnBad_mem (s : State) : (spawnBad s).mem = s.mem := rfl
@[simp] theorem dropCommand_mem (s : State) : (dropCommand s).mem = s.mem := by simp [dropCommand]

@[simp] theorem writeCtx_mem (s : State) (dies : List Nat) (ctx : Nat) (root : X) : (writeCtx s dies ctx root).mem = s.mem :=
  foldl_mem (fun _ _ => by rfl) _ s

@[simp] theorem rootDomain_mem (s : State) (r slot id launch : Nat) (qmap tspill tssize undo espill : X) :
    (rootDomain s r slot id launch qmap tspill tssize undo espill).mem = s.mem := rfl

@[simp] theorem freeLaunch_mem (s : State) (n : Nat) (x : Launch) : (freeLaunch s n x).mem = s.mem := by simp [freeLaunch]
@[simp] theorem barRead_mem (s : State) (bar off : Nat) : (barRead s bar off).mem = s.mem := rfl

/-! ### The pod and storage -/

@[simp] theorem sendersDue_mem (s : State) : (sendersDue s).mem = s.mem := by simp [sendersDue]
@[simp] theorem setBlkQueue_mem (s : State) (d desc : Nat) (q : BlkQueue) : (setBlkQueue s d desc q).mem = s.mem := rfl
@[simp] theorem larderGet_mem (s : State) (k : Nat) : (larderGet s k).mem = s.mem := by simp [larderGet]

theorem mem_of_sendFlit {s t : State} {p : Nat} (ht : sendFlit s p = some t) : t.mem = s.mem := by
  unfold sendFlit at ht
  dsimp only at ht
  split at ht
  · obtain rfl := Option.some.inj ht
    rfl
  · simp at ht

@[simp] theorem answerPod_mem (s : State) (p : PodPacket) (r : PodReply) : (answerPod s p r).mem = s.mem := by
  unfold answerPod
  dsimp only
  split
  · next port _ =>
    cases ht : sendFlit (onPkg s fun k => { k with podAnswer := some ⟨p.src, p.opId, p.sector, r⟩ }) port with
    | none => rfl
    | some t => exact (mem_of_sendFlit ht).trans (onPkg_mem _ _)
  · rfl

/-! ### The register windows -/

@[simp] theorem frameStore_mem (s : State) (c a n v : Nat) : (frameStore s c a n v).mem = s.mem := by simp [frameStore]

@[simp] theorem writeDma_mem (s : State) (d r j w : Nat) : (writeDma s d r j w).mem = s.mem := by
  unfold writeDma
  split <;> simp

@[simp] theorem hornStore_mem (s : State) (o w : Nat) : (hornStore s o w).mem = s.mem := by simp [hornStore]

/-! ### Loads, stores and atomics -/

@[simp] theorem promoted_mem (s : State) (prom : Bool) (a : Place) : (promoted s prom a).mem = s.mem := by
  unfold promoted
  split <;> simp

/-! ### System registers -/

@[simp] theorem sampleClocks_mem (s : State) (n : Nat) : (sampleClocks s n).mem = s.mem := by simp [sampleClocks]
@[simp] theorem writeFpq_mem (s : State) (n : Nat) (v : X) : (writeFpq s n v).mem = s.mem := by simp [writeFpq]

/-! ### Wake-ups -/

@[simp] theorem unblock_mem (s : State) (c n : Nat) : (unblock s c n).mem = s.mem := by
  unfold unblock
  dsimp only
  split <;> simp

/-! ### Issue -/

@[simp] theorem focusOn_mem (s : State) (c l w : Nat) : (focusOn s c l w).mem = s.mem := rfl

@[simp] theorem hitFreeze_mem (s : State) (c l w : Nat) (hs : List (Fin 8)) : (hitFreeze s c l w hs).mem = s.mem := by
  simp [hitFreeze]

@[simp] theorem earlyFault_mem (s : State) (n w : Nat) (code : FaultCode) : (earlyFault s n w code).mem = s.mem := by
  unfold earlyFault
  split <;> simp

@[simp] theorem illegalIssue_mem (s : State) (n w : Nat) : (illegalIssue s n w).mem = s.mem := by simp [illegalIssue]

/-! ### Turns -/

@[simp] theorem retry_mem (s : State) (c : Nat) : (retry s c).mem = s.mem := by
  unfold retry
  dsimp only
  refine (foldl_mem (fun s i => ?_) _ _).trans (foldl_mem (fun s e => ?_) _ s)
  · split
    · simp
    · rfl
  · simp

end Sys2Proof.Machine
end

section
/-! O57, part 2: the canonical form through folds, computations that may stop, and the shapes that instructions share. -/

namespace Sys2Proof.Machine

/-- A fold of states whose steps keep the canonical form keeps it. -/
theorem foldl_wf {α : Type} {f : State → α → State} (hf : ∀ s a, s.mem.wf = true → (f s a).mem.wf = true) (l : List α) {s : State}
    (h : s.mem.wf = true) : (l.foldl f s).mem.wf = true :=
  List.foldlRecOn l f (motive := fun t => t.mem.wf = true) h fun t ht a _ => hf t a ht

/-- A fold of memories whose steps keep the canonical form keeps it. -/
theorem foldl_memory_wf {α : Type} {f : Memory → α → Memory} (hf : ∀ m a, m.wf = true → (f m a).wf = true) (l : List α)
    {m : Memory} (h : m.wf = true) : Memory.wf (l.foldl f m) = true :=
  List.foldlRecOn l f (motive := fun t => Memory.wf t = true) h fun t ht a _ => hf t a ht

/-- A conditional memory is canonical when the one chosen is. -/
@[simp] theorem ite_wf (c : Prop) [Decidable c] (m n : Memory) : Memory.wf (if c then m else n) = if c then m.wf else n.wf :=
  apply_ite Memory.wf c m n

/-- Every answer of a computation satisfies `p`. -/
def Ensures {ε α : Type} (x : Except ε α) (p : α → Prop) : Prop := ∀ a, x = .ok a → p a

section
variable {ε α β : Type} {p : β → Prop}

@[simp] theorem ensures_ok (b : β) : Ensures (.ok b : Except ε β) p ↔ p b := by simp [Ensures]

@[simp] theorem ensures_pure (b : β) : Ensures (pure b : Except ε β) p ↔ p b := ensures_ok b

@[simp] theorem ensures_error (e : ε) : Ensures (.error e : Except ε β) p := by simp [Ensures]

@[simp] theorem ensures_true (x : Except ε β) : Ensures x fun _ => True := fun _ _ => trivial

@[simp] theorem ensures_bind (x : Except ε α) (f : α → Except ε β) :
    Ensures (x >>= f) p ↔ Ensures x fun a => Ensures (f a) p := by
  cases x <;> simp [Ensures, bind, Except.bind]

@[simp] theorem ensures_map (x : Except ε α) (f : α → β) : Ensures (x.map f) p ↔ Ensures x fun a => p (f a) := by
  cases x <;> simp [Ensures, Except.map]

@[simp] theorem ensures_ite (c : Prop) [Decidable c] (x y : Except ε β) :
    Ensures (if c then x else y) p ↔ if c then Ensures x p else Ensures y p := by
  split <;> rfl

/-- What the first computation ensures is there for the second. -/
theorem Ensures.bind {q : α → Prop} {x : Except ε α} {f : α → Except ε β} (hx : Ensures x q) (hf : ∀ a, q a → Ensures (f a) p) :
    Ensures (x >>= f) p :=
  (ensures_bind x f).2 fun a ha => hf a (hx a ha)

/-- A first computation that only decides whether to go on adds nothing to show. -/
theorem Ensures.after {x : Except ε α} {f : α → Except ε β} (hf : ∀ a, Ensures (f a) p) : Ensures (x >>= f) p :=
  (ensures_bind x f).2 fun a _ => hf a

theorem Ensures.ite {c : Prop} [Decidable c] {x y : Except ε β} (hx : Ensures x p) (hy : Ensures y p) :
    Ensures (if c then x else y) p := by
  split
  · exact hx
  · exact hy

theorem Ensures.always {x : Except ε β} (h : ∀ b, p b) : Ensures x p := fun b _ => h b

theorem Ensures.imp {q : β → Prop} {x : Except ε β} (hx : Ensures x p) (h : ∀ b, p b → q b) : Ensures x q :=
  fun b hb => h b (hx b hb)
end

@[simp] theorem ensures_trap {β : Type} {p : β → Prop} (c : FaultCode) : Ensures (trap c) p := ensures_error _
@[simp] theorem ensures_trapAt {β : Type} {p : β → Prop} (c : FaultCode) (a : X) : Ensures (trapAt c a) p := ensures_error _
@[simp] theorem ensures_waitFor {β : Type} {p : β → Prop} (w : Wait) : Ensures (waitFor w) p := ensures_error _

/-- A next state, if that is the outcome, has a canonical memory. -/
def NextWf (o : Host.Outcome State Fault Refusal) : Prop := ∀ t, o = .next t → t.mem.wf = true

@[simp] theorem nextWf_next (t : State) : NextWf (.next t) ↔ t.mem.wf = true := by simp [NextWf]
@[simp] theorem nextWf_fault (f : Fault) : NextWf (.fault f) := by simp [NextWf]
@[simp] theorem nextWf_ite (c : Prop) [Decidable c] (o u : Host.Outcome State Fault Refusal) :
    NextWf (if c then o else u) ↔ if c then NextWf o else NextWf u := by
  split <;> rfl

@[simp] theorem takeStop_wf {s : State} (h : s.mem.wf = true) (e : Stop) : NextWf (takeStop s e) :=
  fun _ ht => (takeStop_mem ht).symm ▸ h

/-- The end of an instruction: its result, or a stop, which leaves memory alone. -/
theorem finish_wf {s : State} (h : s.mem.wf = true) {r : Except Stop State} (hr : Ensures r (·.mem.wf = true)) : NextWf (finish s r) := by
  cases r with
  | ok t => simpa using hr
  | error e => simp [h]

/-- An instruction that acts on its lane alone. -/
@[simp] theorem laneOp_wf {s : State} (h : s.mem.wf = true) (n : Nat) (f : Lane → Except Stop Lane) : NextWf (laneOp n f s) :=
  finish_wf h (by simp [h])

@[simp] theorem guardedLaneOp_wf {s : State} (h : s.mem.wf = true) (n : Nat) (g : PReg) (f : Lane → Except Stop Lane) :
    NextWf (guardedLaneOp n g f s) :=
  laneOp_wf h _ _

/-- An instruction that acts on the state keeps the canonical form when its action does. -/
theorem stateOp_wf {s : State} (h : s.mem.wf = true) (n : Nat) {f : State → Except Stop State} (hf : Ensures (f s) (·.mem.wf = true)) :
    NextWf (stateOp n f s) :=
  finish_wf h (by simpa using hf)

theorem guardedStateOp_wf {s : State} (h : s.mem.wf = true) (n : Nat) (g : PReg) {f : State → Except Stop State}
    (hf : Ensures (f s) (·.mem.wf = true)) : NextWf (guardedStateOp n g f s) :=
  stateOp_wf h n (by split <;> simp [h, hf])

@[simp] theorem vecOp_wf {s : State} (h : s.mem.wf = true) (n : Nat) (f : VArgs → Lane → V × BitVec 32) (g : VArgs) :
    NextWf (vecOp n f g s) :=
  laneOp_wf h _ _

@[simp] theorem guardedVec_wf {s : State} (h : s.mem.wf = true) (g : PReg) (srcs : List Opnd) (f : Lane → Except Stop Lane) :
    NextWf (guardedVec g srcs f s) :=
  laneOp_wf h _ _

@[simp] theorem putBytes_wf {s : State} (h : s.mem.wf = true) (a n v : Nat) : (putBytes s a n v).mem.wf = true := by
  rw [putBytes_mem]
  exact memWrite_wf h a n v

@[simp] theorem storeKey_wf {s : State} (h : s.mem.wf = true) (a n v : Nat) : (storeKey s a n v).mem.wf = true :=
  storeKey_memoryOk h a n v

/-- The state that a plan stays in, or runs an instruction at, has a canonical memory. -/
def PlanWf : Plan → Prop
  | .stay t => t.mem.wf = true
  | .run t _ => t.mem.wf = true

@[simp] theorem planWf_stay (t : State) : PlanWf (.stay t) ↔ t.mem.wf = true := Iff.rfl

end Sys2Proof.Machine
end

section
/-! O57, part 3: the operations of the machine keep the canonical form. `f_wf` says so of `f`, for every answer it gives. -/

namespace Sys2Proof.Machine
open Sys2Proof.Safety

section
variable {s : State} (h : s.mem.wf = true)
include h

/-! ### Lines of memory and the way to them -/

@[simp] theorem sliceStore_wf (d a n v : Nat) : (sliceStore s d a n v).mem.wf = true := by simp [sliceStore, h]
@[simp] theorem hostWrite_wf (pa n : Nat) (v : BitVec 512) : (hostWrite s pa n v).mem.wf = true := by simp [hostWrite, h]

/-! ### Translation -/

theorem pageWalk_wf {c ctx va : Nat} {acc : Access} {r : State × TlbEntry} (hr : pageWalk s c ctx va acc = some r) :
    r.1.mem.wf = true := by
  unfold pageWalk at hr
  split at hr
  · simp at hr
  · split at hr
    · simp at hr
    · obtain rfl := Option.some.inj hr
      have ht := foldl_mem (f := fun s a => if cacheable a 0 then grantRead s (dieNo c) (lineOf a) else s) (by simp)
      simp [ht, h]

theorem translate_wf {c : Nat} {ctx : Option Nat} {va : Nat} {acc : Access} {r : State × Nat × Nat × Bool}
    (hr : translate s c ctx va acc = some r) :
    r.1.mem.wf = true := by
  unfold translate at hr
  split at hr
  · simp at hr
  · dsimp only at hr
    split at hr
    · split at hr
      · obtain rfl := Option.some.inj hr
        exact h
      · simp at hr
    · split at hr
      · next hw =>
        split at hr
        · obtain rfl := Option.some.inj hr
          exact pageWalk_wf h hw
        · simp at hr
      · simp at hr

/-! ### Ordered tasks: aborts, spills and checks -/

omit h in
@[simp] theorem applyUndo_wf {m : Memory} (h : m.wf = true) (u : List (Nat × Nat)) : (applyUndo m u).wf = true :=
  foldl_memory_wf (fun _ _ hm => memWrite_wf hm _ _ _) _ h

@[simp] theorem spillTask_wf (d : Domain) (n : Nat) (t : Task) : (spillTask s d n t).mem.wf = true := by
  unfold spillTask
  split
  · split <;> simp [h]
  · exact h

@[simp] theorem settleQueue_wf (q dom : Nat) : (settleQueue s q dom).mem.wf = true := by
  unfold settleQueue
  split <;> simp [h]

@[simp] theorem abortMember_wf (discard : Bool) (dropped : Option Nat) (n : Nat) :
    (abortMember discard dropped s n).mem.wf = true := by
  unfold abortMember
  split <;> simp [h]

@[simp] theorem hostReleased_wf : (hostReleased s).mem.wf = true := by
  unfold hostReleased
  refine foldl_wf (fun s t hs => ?_) _ h
  split <;> simp [hs]

@[simp] theorem abortStep_wf (named : Nat) (drop : Bool) : (abortStep s named drop).mem.wf = true := by
  unfold abortStep
  refine hostReleased_wf ?_
  rw [refreshSpillf_mem]
  exact foldl_wf (fun _ _ hs => abortMember_wf hs _ _ _) _ h

@[simp] theorem abortLater_wf (dom key : Nat) (hit : Task → Bool) : (abortLater s dom key hit).mem.wf = true := by
  refine foldl_wf (fun s e hs => ?_) _ h
  split <;> simp [hs]

@[simp] theorem taskRead_wf (n va pa : Nat) : Ensures (taskRead s n va pa) (·.mem.wf = true) := by
  unfold taskRead
  split <;> simp [h]

@[simp] theorem taskWrite_wf (n va pa : Nat) : Ensures (taskWrite s n va pa) (·.mem.wf = true) := by
  unfold taskWrite
  split <;> simp [h]

@[simp] theorem lineAccess_wf (acc : Accessor) (va pa mt : Nat) (de write : Bool) :
    Ensures (lineAccess s acc va pa mt de write) (·.mem.wf = true) := by
  unfold lineAccess
  split
  · simp [h]
  · refine .ite (.after fun _ => ?_) ((ensures_ok _).2 h)
    split <;> simp [h]

/-! ### Accesses of lanes -/

theorem locate_wf (c : Nat) (ctx : Option Nat) (acc : Access) (noType : Bool) (a : X) (align : Nat) :
    Ensures (locate s c ctx acc noType a align) (·.1.mem.wf = true) := by
  unfold locate
  split
  · simp [h]
  · simp [h]
  · split
    · simp
    · split
      · simp
      · simp
      · next s' pa mt de ht _ =>
        have hs : s'.mem.wf = true := translate_wf h ht
        simp [hs]
  · simp

theorem resolve_wf (c : Nat) (ctx : Option Nat) (acc : Access) (noType : Bool) (a : X) (align : Nat) :
    Ensures (resolve s c ctx acc noType a align) (·.1.mem.wf = true) := by
  unfold resolve
  simp only [ensures_bind]
  exact (locate_wf h c ctx acc noType a align).imp fun r hr => by simp [hr]

theorem resolveAll_wf (c : Nat) (ctx : Option Nat) (acc : Access) (align : Nat) (l : List (Nat × X)) :
    Ensures (resolveAll c ctx acc align s l) (·.1.mem.wf = true) := by
  induction l generalizing s with
  | nil => simpa [resolveAll] using h
  | cons e t ih =>
    unfold resolveAll
    simp only [ensures_bind]
    exact (resolve_wf h c ctx acc false e.2 align).imp fun r hr => (ih hr).imp fun u hu => by simp [hu]

@[simp] theorem domainCheck_wf (acc : Accessor) (write : Bool) (a : Place) :
    Ensures (domainCheck acc write s a) (·.mem.wf = true) := by
  unfold domainCheck
  split
  · simp [h]
  · split <;> simp [h]
  · exact lineAccess_wf h _ _ _ _ _ _

theorem domainAll_wf (acc : Accessor) (write : Bool) (l : List (Nat × Place)) :
    Ensures (domainAll acc write s l) (·.mem.wf = true) := by
  induction l generalizing s with
  | nil => simpa [domainAll] using h
  | cons e t ih =>
    unfold domainAll
    simp only [ensures_bind]
    exact (domainCheck_wf h acc write e.2).imp fun u hu => ih hu

omit h in
theorem writePlace_wf {dev : Devices} (hdev : ∀ s c pa n v, s.mem.wf = true → (dev.write s c pa n v).mem.wf = true)
    {s : State} (h : s.mem.wf = true) (c n v : Nat) (p : Place) :
    (writePlace dev s c n v p).mem.wf = true := by
  unfold writePlace
  split
  · simp [h, hdev]
  · simp [h]

/-! ### The scoreboard -/

@[simp] theorem takeEntry_wf (c : Nat) (e : SbEntry) : (takeEntry s c e).1.mem.wf = true := by
  unfold takeEntry
  dsimp only
  split <;> simp [h]

/-! ### The core-state block -/

@[simp] theorem rangeSet_wf (c k : Nat) (r : RangeReg) : (rangeSet s c k r).mem.wf = true := by
  unfold rangeSet
  rw [onMem_mem]
  exact memWrite_wf h _ _ _

@[simp] theorem streamSet_wf (c b : Nat) (q : StreamBuf) : (streamSet s c b q).mem.wf = true := by
  unfold streamSet
  rw [onMem_mem]
  exact memWrite_wf h _ _ _

/-! ### Task records, dispatch and commits -/

@[simp] theorem joinAdd_wf (d key : Nat) (delta : Int) : (joinAdd s d key delta).mem.wf = true := by
  unfold joinAdd
  split
  · exact h
  · rw [joinFire_mem]
    exact sliceStore_wf h _ _ _ _

theorem joinTry_wf (c : Nat) (src : TxSource) (a : X) : Ensures (joinTry s c src a) (·.mem.wf = true) := by
  unfold joinTry
  simp only [ensures_bind]
  refine (resolve_wf h c src.ctx .atomic true a 8).imp fun r hr => (domainCheck_wf hr _ true _).imp fun u hu => ?_
  simp [hu]

@[simp] theorem joinDec_wf (c : Nat) (src : TxSource) (a : X) : (joinDec s c src a).mem.wf = true := by
  unfold joinDec
  split
  · next hj => exact joinTry_wf h c src a _ hj
  · simp [h]
  · exact h

@[simp] theorem rejectSpawn_wf (q : Spawn) : (rejectSpawn s q).mem.wf = true := by simp [rejectSpawn, h]

@[simp] theorem placeRecord_wf (slot : Nat) (d : Domain) (q : Spawn) : (placeRecord s slot d q).1.mem.wf = true := by
  unfold placeRecord
  split
  · simp [h]
  · dsimp only
    split <;> simp [h]

@[simp] theorem acceptSpawn_wf (q : Spawn) : (acceptSpawn s q).1.mem.wf = true := by
  unfold acceptSpawn
  dsimp only
  split
  · simp [h]
  · split
    · simp [h]
    · split <;> simp [h]

@[simp] theorem drain_wf (c l : Nat) : (drain s c l).mem.wf = true := by
  unfold drain
  dsimp only
  split
  · split <;> simp [h]
  · exact h

@[simp] theorem doneFiring_wf (c l : Nat) : (doneFiring s c l).mem.wf = true := by
  unfold doneFiring
  dsimp only
  split <;> simp [h]

@[simp] theorem unlinkChildren_wf (n : Nat) : (unlinkChildren s n).mem.wf = true := by
  unfold unlinkChildren
  refine foldl_wf (fun s e hs => ?_) _ h
  split <;> simp [hs]

@[simp] theorem commitTask_wf (n : Nat) : (commitTask s n).mem.wf = true := by
  unfold commitTask
  split
  · exact h
  · refine hostReleased_wf ?_
    have hq := foldl_mem (f := fun s q => dueEvent (onCore s q.core (fun k =>
      { k with msg := { k.msg with spawnQ := k.msg.spawnQ ++ [q] } })) (.taskAccept q.core)) (fun _ _ => by rfl)
    split <;> simp [hq, h]

@[simp] theorem commitPressure_wf (q : Nat) : (commitPressure s q).mem.wf = true := by
  unfold commitPressure
  split <;> simp [h]

@[simp] theorem dispatchCore_wf (c : Nat) : (dispatchCore s c).mem.wf = true := by
  have hs : (capClock (if isSup c then s else commitPressure s (quadNo c)) c).mem.wf = true := by simp [h]
  unfold dispatchCore
  dsimp only
  generalize capClock (if isSup c then s else commitPressure s (quadNo c)) c = t at hs ⊢
  split
  · exact hs
  · split
    · exact hs
    · split <;> simp [hs]

/-! ### Transaction barriers and records -/

@[simp] theorem txUpdate_wf (d key : Nat) (f : Nat → Nat) : (txUpdate s d key f).mem.wf = true := by simp [txUpdate, h]
@[simp] theorem performTx_wf (c : Nat) (u : TxUpdate) : (performTx s c u).mem.wf = true := by simp [performTx, h]

@[simp] theorem txReady_wf (c : Nat) (u : TxUpdate) : Ensures (txReady s c u) (·.mem.wf = true) := by
  unfold txReady
  split
  · refine .ite ((ensures_ok _).2 h) (.after fun _ => ?_)
    split <;> simp [h]
  · exact domainCheck_wf h _ _ _
  · simp [h]

theorem txTry_wf (c : Nat) (u : TxUpdate) : Ensures (txTry s c u) (·.mem.wf = true) := by
  unfold txTry
  split
  · exact joinTry_wf h c u.src u.addr
  · simp only [ensures_bind]
    exact (txReady_wf h c u).imp fun t ht => by simp [ht]

@[simp] theorem sendUpdate_wf (c : Nat) (u : TxUpdate) : (sendUpdate s c u).mem.wf = true := by
  unfold sendUpdate
  split
  · next ht => exact txTry_wf h c u _ ht
  · simp [h]

@[simp] theorem txFirst_wf (c : Nat) (held l : List TxUpdate) : (txFirst c s held l).mem.wf = true := by
  induction l generalizing s held with
  | nil => simp [txFirst, h]
  | cons u t ih =>
    unfold txFirst
    split
    · exact ih h _
    · split
      · next ht => exact txTry_wf (by exact h) c u _ ht
      · exact ih (by simp [h]) _
      · exact h

theorem txPlace_wf (a : X) (write : Bool) : Ensures (txPlace s a write) (·.1.mem.wf = true) := by
  unfold txPlace
  dsimp only
  split
  all_goals
    simp only [ensures_bind]
    exact .always fun _ => (resolve_wf h s.sched.core (ctxOf s s.sched.core (cur s)) (if write then .atomic else .load) true a 16).imp
      fun r hr => (domainCheck_wf hr (accessorOf (cur r.1)) write r.2).imp fun u hu => .always fun _ => by simpa using hu

@[simp] theorem sendTx_wf (p : Place) (a : X) (what : TxDo) : (sendTx s p a what).mem.wf = true := by simp [sendTx, h]

theorem txRead_wf (a : X) : Ensures (txRead s a) (·.1.mem.wf = true) := by
  unfold txRead
  simp only [ensures_bind]
  exact (txPlace_wf h a false).imp fun r hr => by simp [hr]

theorem recordPlace_wf (c : Nat) (l : Lane) (a : X) : Ensures (recordPlace s c l a) (·.1.mem.wf = true) := by
  unfold recordPlace
  split
  · simp [h]
  · simp only [ensures_bind]
    exact (resolve_wf h c (ctxOf s c l) .load false a 64).imp fun r hr =>
      (domainCheck_wf hr (accessorOf l) false r.2).imp fun u hu => by simp [hu]

theorem readRecord_wf (c : Nat) (l : Lane) (a : X) : Ensures (readRecord s c l a) (·.1.mem.wf = true) := by
  unfold readRecord
  dsimp only
  split
  · simp [h]
  · simp only [ensures_bind]
    exact (recordPlace_wf h c l a).imp fun r0 h0 => (recordPlace_wf h0 c l (a + 64)).imp fun r1 h1 =>
      (recordPlace_wf h1 c l (a + 128)).imp fun r2 h2 => by simp [h2]

/-! ### Vector instructions -/

@[simp] theorem vecLong_wf (n : Nat) (f : VArgs → Lane → V × BitVec 32) (g : VArgs) : NextWf (vecLong n f g s) :=
  finish_wf h (by simp [h])

@[simp] theorem topkOp_wf (cand : V → V → List Ranked) (o : TopkOp) : NextWf (topkOp cand o s) := by simp [topkOp, h]

/-! ### The Stove -/

@[simp] theorem setTileRow_wf (c t r v : Nat) : (setTileRow s c t r v).mem.wf = true := by
  unfold setTileRow
  rw [onMem_mem]
  exact memWrite_wf h _ _ _

@[simp] theorem streamSlice_wf (c acc : Nat) (cls : StoveClass) (fa : Fmt) (z : Bool) (mk : Masks) (w : WeightSet)
    (base : Nat) (rows : List ActRow) :
    (streamSlice s c acc cls fa z mk w base rows).mem.wf = true := by
  unfold streamSlice
  refine foldl_wf (fun s n hs => foldl_wf (fun s e hs => ?_) _ hs) _ ?_
  · dsimp only
    split
    · exact hs
    · rw [onMem_mem]
      exact memWrite_wf hs _ _ _
  · simp [h, memClear_wf]

@[simp] theorem enqueueSeat_wf (i : Fin 2) (kind : SeatKind) (nosb : Bool) (xa xb : X) (table draws : List Nat)
    (cfg : TileCfg) (e : SbEntry) :
    Ensures (enqueueSeat s i kind nosb xa xb table draws cfg e) (·.mem.wf = true) := by
  unfold enqueueSeat
  split <;> simp [h]

theorem tileMove_wf (o : TldOp) (load : Bool) : Ensures (tileMove o load s) (·.mem.wf = true) := by
  unfold tileMove withSeat
  split
  · split <;> simp [h]
  · simp

@[simp] theorem newGroup_wf (q : Nat) (i : Fin 2) (members origin cause : Nat) :
    (newGroup s q i members origin cause).1.mem.wf = true := by simp [newGroup, h]

theorem gangOp_wf {f : Fin 2 → State → Except Stop State} (hf : ∀ i, Ensures (f i s) (·.mem.wf = true)) : NextWf (gangOp f s) := by
  unfold gangOp
  split
  · simp [finish, h]
  · next i _ =>
    split
    · simp [h]
    · exact finish_wf h (by simpa using hf i)

@[simp] theorem gmmaIssue_wf (o : GmmaOp) (sparse : Bool) (i : Fin 2) : Ensures (gmmaIssue o sparse i s) (·.mem.wf = true) := by
  simp [gmmaIssue, h]

@[simp] theorem gmmagIssue_wf (o : GmmagOp) (i : Fin 2) : Ensures (gmmagIssue o i s) (·.mem.wf = true) := by
  simp [gmmagIssue, h]

@[simp] theorem runGacc_wf (c : Nat) (i : Fin 2) (o : GaccOp) (p : SeatOp) : (runGacc s c i o p).mem.wf = true :=
  foldl_wf (fun _ _ hs => setTileRow_wf hs _ _ _ _) _ h

@[simp] theorem runTld_wf (c : Nat) (i : Fin 2) (o : TldOp) (p : SeatOp) : (runTld s c i o p).mem.wf = true :=
  foldl_wf (fun _ _ hs => setTileRow_wf hs _ _ _ _) _ h

theorem foldl_storeKey_wf {α : Type} (k n v : State → α → Nat) (l : List α) :
    (l.foldl (fun s a => storeKey s (k s a) (n s a) (v s a)) s).mem.wf = true :=
  foldl_wf (fun s a hs => storeKey_wf hs (k s a) (n s a) (v s a)) l h

@[simp] theorem runTst_wf (c : Nat) (i : Fin 2) (o : TldOp) (p : SeatOp) : (runTst s c i o p).mem.wf = true := by
  unfold runTst
  exact foldl_storeKey_wf h _ _ _ _

@[simp] theorem runGaccz_wf (c : Nat) (mask : BitVec 4) : (runGaccz s c mask).mem.wf = true :=
  foldl_wf (fun _ _ hs => by simp [hs, memClear_wf]) _ h

@[simp] theorem runSeatOp_wf (c : Nat) (i : Fin 2) (p : SeatOp) : (runSeatOp s c i p).mem.wf = true := by
  unfold runSeatOp
  split <;> simp [h, memClear_wf]

@[simp] theorem runGmma_wf (q : Nat) (i : Fin 2) (ops : List SeatOp) (o : GmmaOp) : (runGmma s q i ops o).mem.wf = true := by
  unfold runGmma
  split
  · dsimp only
    split
    · exact h
    · refine foldl_wf (fun s e hs => ?_) _ h
      split <;> simp [hs]
  · exact h

@[simp] theorem runGroups_wf (c : Nat) (i : Fin 2) (p : SeatOp) (x : GmmagOp) (cls : StoveClass) (rows : List ActRow) :
    (runGroups s c i p x cls rows).mem.wf = true := by
  unfold runGroups
  refine List.foldlRecOn (motive := fun r : State × Nat => r.1.mem.wf = true) _ _ h fun r hr e _ => ?_
  dsimp only
  split <;> simp [hr]

@[simp] theorem runGmmag_wf (q : Nat) (i : Fin 2) (ops : List SeatOp) (o : GmmagOp) : (runGmmag s q i ops o).mem.wf = true := by
  unfold runGmmag
  split
  · refine foldl_wf (fun s e hs => ?_) _ h
    split <;> simp [hs]
  · exact h

@[simp] theorem runGang_wf (q : Nat) (i : Fin 2) (ops : List SeatOp) : (runGang s q i ops).mem.wf = true := by
  unfold runGang
  split
  · refine foldl_wf (fun s e hs => ?_) _ h
    split <;> simp [hs]
  all_goals simp [h]

/-! ### Engine operations -/

@[simp] theorem updateBar_wf (c : Nat) (op : EngOp) (sectors fails : Nat) (code : Option Nat) :
    (updateBar s c op sectors fails code).mem.wf = true := by
  unfold updateBar
  split <;> simp [h]

@[simp] theorem advanceStream_wf (c : Nat) (op : EngOp) : (advanceStream s c op).mem.wf = true := by
  unfold advanceStream
  split <;> simp [h]

@[simp] theorem endFirstPart_wf (c : Nat) (op : EngOp) : (endFirstPart s c op).1.mem.wf = true := by
  unfold endFirstPart
  split <;> simp [h]

@[simp] theorem countSectors_wf (c slot : Nat) (op : EngOp) (qs fails : List Nat) (code : Option Nat) :
    (countSectors s c slot op qs fails code).mem.wf = true := by simp [countSectors, h]

@[simp] theorem storeBytes_wf (l : List (Nat × Nat)) : (storeBytes s l).mem.wf = true := by
  have hf (l : List (Nat × Nat)) : (l.foldl (fun s e => storeKey s e.1 1 e.2) s).mem.wf = true :=
    foldl_wf (fun _ _ hs => storeKey_wf hs _ _ _) l h
  simp [storeBytes, hf]

theorem enginePlace_wf (c : Nat) (op : EngOp) (acc : Access) (a : Nat) :
    Ensures (enginePlace s c op acc a) (·.1.mem.wf = true) := by
  unfold enginePlace
  split
  · simp [h]
  · simp [h]
  · simp [h]
  · simp
  · simp only [ensures_bind]
    refine .always fun _ => ?_
    split
    · simp
    · next s' pa mt de ht =>
      have hs : s'.mem.wf = true := translate_wf h ht
      split
      · simp
      · simp only [ensures_bind]
        refine .always fun _ => ?_
        split
        · simp
        · split
          · next hl => simpa using lineAccess_wf hs _ _ _ _ _ _ _ hl
          · simp

theorem engineBytes_wf (c : Nat) (op : EngOp) (acc : Access) (a n : Nat) :
    Ensures (engineBytes c op acc s a n) (·.1.mem.wf = true) := by
  induction n generalizing s a with
  | zero => simpa [engineBytes] using h
  | succ n ih =>
    unfold engineBytes
    simp only [ensures_bind]
    exact (enginePlace_wf h c op acc a).imp fun r hr => (ih hr (a + 1)).imp fun u hu => by simpa using hu

theorem findPoint_wf (c : Nat) (op : EngOp) (acc : Access) (n : Nat) (p : Point) :
    Ensures (findPoint s c op acc n p) (·.1.mem.wf = true) := by
  unfold findPoint
  split
  · simp [h]
  · simp [h]
  · split
    · simp
    · simp only [ensures_bind]
      exact (engineBytes_wf h c op acc _ _).imp fun r hr => by simpa using hr

theorem findMoves_wf (c : Nat) (op : EngOp) (red : Bool) (l : List Move) :
    Ensures (findMoves c op red s l) (·.1.mem.wf = true) := by
  induction l generalizing s with
  | nil => simpa [findMoves] using h
  | cons m t ih =>
    unfold findMoves
    simp only [ensures_bind]
    exact (findPoint_wf h c op _ _ _).imp fun a ha => (findPoint_wf ha c op _ _ _).imp fun b hb =>
      (ih hb).imp fun u hu => by simpa using hu

@[simp] theorem writeSpots_wf (d : Nat) (l : List (Spot × Nat × Nat)) : (writeSpots s d l).mem.wf = true := by
  simp [writeSpots, h]

theorem performMoves_wf (c : Nat) (op : EngOp) (l : List Move) : Ensures (performMoves s c op l) (·.1.mem.wf = true) := by
  unfold performMoves
  simp only [ensures_bind]
  exact (findMoves_wf h c op _ l).imp fun r hr => by simp [hr]

theorem fetchRows_wf (c : Nat) (op : EngOp) (a n : Nat) : Ensures (fetchRows c op s a n) (·.1.mem.wf = true) := by
  induction n generalizing s a with
  | zero => simpa [fetchRows] using h
  | succ n ih =>
    unfold fetchRows
    simp only [ensures_bind]
    exact (engineBytes_wf h c op _ _ _).imp fun r hr => (ih hr _).imp fun u hu => by simpa using hu

theorem withRows_wf (c slot : Nat) (op : EngOp) (j : Nat) : Ensures (withRows s c slot op j) (·.1.mem.wf = true) := by
  unfold withRows
  dsimp only
  split
  · simp [h]
  · simp only [ensures_bind]
    exact (fetchRows_wf h c op _ _).imp fun r hr => by simp [hr]

@[simp] theorem fillSector_wf (c : Nat) (op : EngOp) (q : Nat) : (fillSector s c op q).mem.wf = true := by
  have hw {s : State} (hs : s.mem.wf = true) {l r} (hm : findMoves c op false s l = .ok r) (ws : List (Spot × Nat × Nat)) :
      (writeSpots r.1 (dieNo c) ws).mem.wf = true := writeSpots_wf (findMoves_wf hs c op false l _ hm) _ _
  unfold fillSector
  dsimp only
  split
  · split
    · refine foldl_wf (fun s b hs => ?_) _ h
      split
      · split
        · next hm => exact hw hs hm _
        · exact hs
      · exact hs
    · split
      · next hm => exact hw h hm _
      · exact h
  · split
    · exact h
    · split
      · next hm => exact hw h hm _
      · exact h
  · simp [h]
  · exact h

@[simp] theorem zeroGlobal_wf (c : Nat) (op : EngOp) (q : Nat) : (zeroGlobal s c op q).mem.wf = true := by
  unfold zeroGlobal
  split
  · next hb =>
    rw [settle_mem]
    exact storeBytes_wf (engineBytes_wf h c op .store _ 32 _ hb) _
  · exact h

@[simp] theorem fillUndone_wf (c : Nat) (op : EngOp) (qs : List Nat) : (fillUndone s c op qs).mem.wf = true := by
  have hf : (qs.foldl (fun s q => fillSector s c op q) s).mem.wf = true := foldl_wf (fun _ _ hs => fillSector_wf hs c op _) qs h
  have hz : (qs.foldl (fun s q => zeroGlobal s c op q) s).mem.wf = true := foldl_wf (fun _ _ hs => zeroGlobal_wf hs c op _) qs h
  unfold fillUndone
  split
  · exact hf
  · exact hf
  · split
    · exact hf
    · exact hz
  · exact hz
  · exact h

@[simp] theorem endError_wf (c slot code addr : Nat) (wake : Bool) : (endError s c slot code addr wake).mem.wf = true := by
  unfold endError
  split <;> simp [h]

@[simp] theorem endInvalid_wf (c slot addr : Nat) : (endInvalid s c slot addr).mem.wf = true := by
  unfold endInvalid
  split <;> simp [h]

@[simp] theorem sectorStopped_wf (c slot : Nat) (op : EngOp) (q : Nat) (a : SectorStop) :
    (sectorStopped s c slot op q a).mem.wf = true := by
  unfold sectorStopped
  split <;> simp [h]

theorem performGroup_wf (c : Nat) (op : EngOp) (l : List Nat) : Ensures (performGroup c op s l) (·.1.mem.wf = true) := by
  induction l generalizing s with
  | nil => simpa [performGroup] using h
  | cons q t ih =>
    unfold performGroup
    simp only [ensures_bind]
    exact .always fun m => (performMoves_wf h c op m).imp fun r hr => (ih hr).imp fun u hu => by simpa using hu

@[simp] theorem copySector_wf (c slot : Nat) (op : EngOp) (q : Nat) : (copySector s c slot op q).mem.wf = true := by
  unfold copySector
  split
  · simp [h]
  · next s' op' hr =>
    have hs : s'.mem.wf = true := by
      split at hr
      · simp at hr
      · exact withRows_wf h c slot op _ _ hr
    dsimp only
    split
    · simp [hs]
    · next hg =>
      have ht := performGroup_wf hs c op' _ _ hg
      dsimp only at ht
      split <;> simp [ht]

theorem barPlace_wf (a : X) : Ensures (barPlace s a) (·.1.mem.wf = true) := by
  unfold barPlace
  split
  · simp [h]
  · simp only [ensures_bind]
    exact (resolve_wf h _ _ _ _ _ _).imp fun r hr => by simpa using hr

@[simp] theorem takeEntries_wf (c slot : Nat) (l : List SbEntry) : (takeEntries s c slot l).1.mem.wf = true := by
  induction l generalizing s with
  | nil => exact h
  | cons e t ih => exact ih (takeEntry_wf h c _)

theorem acceptOp_wf (op : EngOp) (entries : List SbEntry) {after : State → Nat → Nat → State}
    (ha : ∀ s c slot, s.mem.wf = true → (after s c slot).mem.wf = true) :
    Ensures (acceptOp s op entries after) (·.mem.wf = true) := by
  unfold acceptOp
  dsimp only
  split
  · simp
  · simp only [ensures_bind]
    exact .always fun _ => by simp [ha, h]

theorem moverOp_wf (g : MoverArgs) : Ensures (moverOp g s) (·.mem.wf = true) := by
  unfold moverOp
  extract_lets l c two ix accept records
  have haccept (u : Unit) : Ensures (accept u) (·.mem.wf = true) := by
    refine (barPlace_wf h _).bind fun (s₁, bar) ha => (readRecord_wf ha c l _).bind fun (s₂, ra) hb => ?_
    dsimp -zeta only
    extract_lets -underBinder record
    have hrecord (r : State × Nat) (hr : r.1.mem.wf = true) : Ensures (record r) (·.mem.wf = true) := by
      obtain ⟨s₃, rb⟩ := r
      unfold record
      dsimp -zeta only
      extract_lets -underBinder checked
      have hchecked (u : Unit) : Ensures (checked u) (·.mem.wf = true) := by
        refine .ite (acceptOp_wf hr _ _ fun s c slot hs => ?_) (.ite (acceptOp_wf hr _ _ fun s c slot hs => ?_)
          (acceptOp_wf hr _ _ fun s c slot hs => ?_))
        · simp [hs]
        · simp [hs]
        · split <;> simp [hs]
      exact .ite (.after hchecked) (hchecked ())
    exact .ite ((readRecord_wf hb c l _).bind hrecord) (hrecord _ hb)
  have hrecords (u : Unit) : Ensures (records u) (·.mem.wf = true) :=
    .after fun _ => .ite (.after haccept) (haccept ())
  exact .after fun _ => .ite (.after fun _ => hrecords ()) (hrecords ())

@[simp] theorem failOp_wf (c slot : Nat) : (failOp s c slot).mem.wf = true := by
  unfold failOp
  split <;> simp [h]

/-! ### Bank operations -/

theorem bankIssue_wf (srcs : List Reg) (xb : Reg) (check : Lane → State → Except Stop Unit)
    (mk : Lane → EngKind × X × X × X) (entries : Lane → List SbEntry) :
    Ensures (bankIssue srcs xb check mk entries s) (·.mem.wf = true) := by
  unfold bankIssue
  simp only [ensures_bind]
  exact .always fun _ => .always fun _ => .always fun _ => (barPlace_wf h _).imp fun r hr => acceptOp_wf hr _ _ fun s c slot hs => by
    split <;> simp [hs]

/-! ### Barriers -/

@[simp] theorem barOp_wf (what : BarDo) (o : BarOp) : NextWf (barOp what o s) := by
  unfold barOp
  split
  · simp [h]
  · exact finish_wf h (by simp [h])

/-! ### Tokens and the directory -/

theorem overWay_wf (p : Path) (again : Due) {go : State} (hg : go.mem.wf = true) : (overWay s p again go).mem.wf = true := by
  unfold overWay
  split <;> simp [h, hg]

/-! ### Fetching -/

theorem l1iLine_wf (c pa mt : Nat) : Ensures (l1iLine s c pa mt) (·.1.mem.wf = true) := by
  unfold l1iLine
  split <;> simp [h]

theorem fetchHalf_wf (c l a : Nat) : Ensures (fetchHalf s c l a) (·.1.mem.wf = true) := by
  unfold fetchHalf
  split
  · simp [h]
  · split
    · simp
    · simp only [ensures_bind]
      refine .always fun _ => ?_
      split
      · next ht =>
        split
        · simp only [ensures_bind]
          exact (l1iLine_wf (translate_wf h ht) _ _ _).imp fun r hr => by simpa using hr
        · simp
      · simp

theorem fetchHalves_wf (c l a n : Nat) : Ensures (fetchHalves s c l a n) (·.1.mem.wf = true) := by
  induction n generalizing s a with
  | zero => simpa [fetchHalves] using h
  | succ n ih =>
    unfold fetchHalves
    simp only [ensures_bind]
    exact (fetchHalf_wf h c l a).imp fun r hr => (ih hr _).imp fun u hu => by simpa using hu

theorem fetchInstr_wf (c l : Nat) : Ensures (fetchInstr s c l) (·.1.mem.wf = true) := by
  unfold fetchInstr
  simp only [ensures_bind]
  exact (fetchHalf_wf h c l _).imp fun r hr => (fetchHalves_wf hr c l _ _).imp fun u hu => by simpa using hu

/-! ### Scalar instructions -/

@[simp] theorem longX_wf (d : Reg) (a b : Src) (g : X → X → X) : Ensures (longX d a b g s) (·.mem.wf = true) := by
  simp [longX, h]

/-! ### Control flow -/

@[simp] theorem branch_wf (n : Nat) (srcs : List Opnd) (taken : Lane → Bool) (off : X) : NextWf (branch n srcs taken off s) :=
  finish_wf h (by simp [h])

@[simp] theorem jump_wf (n : Nat) (srcs : List Opnd) (link : Option Reg) (target : Lane → X) (after : Lane → Lane) :
    NextWf (jump n srcs link target after s) := finish_wf h (by simp [h])

@[simp] theorem doneOp_wf (n : Nat) : NextWf (doneOp n s) := by simp [doneOp, h]

/-! ### Messages and spawns -/

@[simp] theorem sendOp_wf (a : Src) (owner : Option Reg) (pay : List Opnd) : Ensures (sendOp a owner pay s) (·.mem.wf = true) := by
  simp [sendOp, h]

@[simp] theorem acceptPush_wf (src ix b : Nat) (m : Message) : (acceptPush s src ix b m).mem.wf = true := by
  simp [acceptPush, h]

@[simp] theorem offerMessage_wf (src dst : Nat) : (offerMessage s src dst).mem.wf = true := by
  unfold offerMessage
  split
  · split <;> simp [h]
  · exact h

theorem joinPlace_wf (a : X) : Ensures (joinPlace s a) (·.1.mem.wf = true) := by
  unfold joinPlace
  dsimp only
  split
  · simp
  · simp only [ensures_bind]
    exact (resolve_wf h _ _ _ _ _ _).imp fun r hr => (domainCheck_wf hr _ _ _).imp fun u hu => by simpa using hu

@[simp] theorem abortOp_wf (d : Reg) (drop : Bool) : NextWf (abortOp d drop s) := by
  unfold abortOp
  dsimp only
  split <;> simp [h]

/-! ### Ranges, stealing and streams -/

@[simp] theorem victimAnswer_wf (v dom : Nat) : (victimAnswer s v dom).1.mem.wf = true := by
  unfold victimAnswer
  split
  · exact h
  · dsimp only
    split <;> simp [h]

@[simp] theorem agentAnswer_wf (d dom : Nat) : (agentAnswer s d dom).1.mem.wf = true := by
  unfold agentAnswer
  split
  · exact h
  · dsimp only
    split <;> simp [h]

@[simp] theorem endSteals_wf (c l : Nat) : (endSteals s c l).mem.wf = true := foldl_wf (fun _ _ hs => by simp [hs]) _ h
@[simp] theorem pushLocal_wf (b : Nat) (v : V) : Ensures (pushLocal s b v) (·.mem.wf = true) := by simp [pushLocal, h]

/-! ### Results, freezes and debugging -/

theorem lengthAt_wf (c l : Nat) : Ensures (lengthAt s c l) (·.1.mem.wf = true) := by
  unfold lengthAt
  simp only [ensures_bind]
  exact (fetchHalf_wf h c l _).imp fun r hr => by simpa using hr

@[simp] theorem resumeLane_wf (step skip : Bool) (t : Nat × Nat) : (resumeLane step skip s t).mem.wf = true := by
  obtain ⟨c, l⟩ := t
  unfold resumeLane
  dsimp -zeta only
  extract_lets x held s'
  have hs : s'.mem.wf = true := by
    unfold s'
    split
    · split <;> simp [h]
    · exact h
  split
  · simp [hs]
  · split
    · split
      · next ht => exact lengthAt_wf (s := onLaneAt s' c l loadFrame) hs _ _ _ ht
      · simp [hs]
    · simp [hs]

theorem resumeOp_wf (step : Bool) (o : LresumeOp) : NextWf (resumeOp step o s) := by
  unfold resumeOp
  split
  · simp [h]
  · refine guardedStateOp_wf h _ _ ?_
    have hr (l : List (Nat × Nat)) : (l.foldl (resumeLane step o.skip) s).mem.wf = true := foldl_wf (fun _ _ hs => resumeLane_wf hs _ _ _) l h
    simp only [ensures_bind]
    refine .always fun _ => ?_
    split
    · simp [h]
    · split
      · split <;> simp [h, hr]
      · simp [hr]

@[simp] theorem killLane_wf (t : Nat × Nat) : (killLane s t).mem.wf = true := by
  obtain ⟨c, l⟩ := t
  unfold killLane
  dsimp -zeta only
  extract_lets x u v w z
  split
  · simp [h]
  · have hu : u.mem = s.mem := by
      unfold u
      split
      · exact withdrawHeld_mem _ _ _ _
      · rfl
    clear_value u
    have hv : v.mem = s.mem := by
      unfold v
      split
      · exact (onTask_mem _ _ _).trans hu
      · exact hu
    clear_value v
    have hw : w.mem.wf = true := by
      unfold w
      split <;> simp [hv, h]
    clear_value w
    simp [z, hw]

/-! ### Neuron banks -/

@[simp] theorem neuronSet_wf (c k j : Nat) (n : Neuron) : (neuronSet s c k j n).mem.wf = true := by
  unfold neuronSet
  rw [onMem_mem]
  exact memWrite_wf h _ _ _

theorem spillEvent_wf {t : State} {c : Nat} {e : Event} (ht : spillEvent s c e = some t) : t.mem.wf = true := by
  unfold spillEvent at ht
  simp only [Option.bind_eq_some_iff, Option.map_eq_some_iff] at ht
  obtain ⟨d, -, i, -, rfl⟩ := ht
  simp [h]

theorem storeEvent_wf {t : State} {c : Nat} {e : Event} (ht : storeEvent s c e = some t) : t.mem.wf = true := by
  unfold storeEvent at ht
  dsimp only at ht
  split at ht
  · obtain rfl := Option.some.inj ht
    simp [h]
  · exact spillEvent_wf (by simp [h]) ht

@[simp] theorem lateFix_wf (c : Nat) (e : Event) : (lateFix s c e).1.mem.wf = true := by
  unfold lateFix
  dsimp only
  split <;> simp [h]

theorem acceptEvent_wf {t : State} {c : Nat} {e : Event} {injected : Bool} (ht : acceptEvent s c e injected = some t) :
    t.mem.wf = true := by
  unfold acceptEvent at ht
  simp only [Option.map_eq_some_iff] at ht
  obtain ⟨u, hu, rfl⟩ := ht
  rw [evKick_mem]
  exact storeEvent_wf (lateFix_wf h _ _) hu

@[simp] theorem offerEvent_wf (src dst : Nat) : (offerEvent s src dst).mem.wf = true := by
  unfold offerEvent
  split
  · split
    · simp [h]
    · split
      · simp [h]
      · split
        · simp [h]
        · split
          · next ht => simp [acceptEvent_wf h ht]
          · simp [h]
  · exact h

theorem emitEvent_wf {t : State} {c target time dom : Nat} {weight : BitVec 32} {injected : Bool}
    (ht : emitEvent s c target weight time dom injected = some t) :
    t.mem.wf = true := by
  unfold emitEvent at ht
  dsimp only at ht
  split at ht
  · split at ht
    · simp at ht
    · exact acceptEvent_wf (by simp [h]) ht
  · split at ht
    · obtain rfl := Option.some.inj ht
      simp [h]
    · simp at ht

/-! ### Rounds of the Hearth -/

@[simp] theorem fixTask_wf (floor : X × BitVec 32) (n : Nat) (t : Task) : (fixTask s floor n t).mem.wf = true := by
  simp [fixTask, h]

@[simp] theorem silentFloor_wf (q : Nat) (d : Domain) : (silentFloor s q d).mem.wf = true := by
  unfold silentFloor
  dsimp only
  split
  · exact h
  · exact foldl_wf (fun _ _ hs => fixTask_wf hs _ _ _) _ h

@[simp] theorem promoteTask_wf (n : Nat) (t : Task) : (promoteTask s n t).mem.wf = true := by simp [promoteTask, h]

@[simp] theorem promoteAt_wf (q : Nat) (d : Domain) : (promoteAt s q d).mem.wf = true := by
  unfold promoteAt
  split <;> simp [h]

@[simp] theorem takeValues_wf (q : Nat) (d : Domain) : (takeValues s q d).mem.wf = true := by simp [takeValues, h]
@[simp] theorem commitArrived_wf : (commitArrived s).mem.wf = true := foldl_wf (fun _ _ hs => commitTask_wf hs _) _ h

@[simp] theorem abortHolders_wf (a : HeldAccess) (n : Nat) : (abortHolders a n s).mem.wf = true := by
  induction n generalizing s with
  | zero => exact h
  | succ n ih =>
    unfold abortHolders
    dsimp only
    split
    · exact ih (by simp [h])
    · exact h

@[simp] theorem abortAll_wf (l : List Nat) : (abortAll s l).mem.wf = true := foldl_wf (fun _ _ hs => by simp [hs]) _ h

@[simp] theorem endRound_wf (d : Domain) : (endRound s d).mem.wf = true := by
  unfold endRound
  split
  · rw [leaveRound_mem]
    exact foldl_wf (fun _ _ hs => takeValues_wf hs _ _) _ (foldl_wf (fun _ _ hs => by simp [hs]) _ h)
  · exact foldl_wf (fun _ _ hs => fixTask_wf hs _ _ _) _ (by simp [h])

@[simp] theorem suspendDomain_wf (slot : Nat) : (suspendDomain s slot).mem.wf = true := by
  unfold suspendDomain
  dsimp only
  rw [setSlot_mem]
  exact foldl_wf (fun _ _ hs => spillTask_wf hs _ _ _) _ (by simp [h])

@[simp] theorem resumeDomain_wf (slot : Nat) : (resumeDomain s slot).mem.wf = true := by
  refine foldl_wf (fun _ _ hs => by simp [hs]) _ ?_
  rw [foldl_mem fun s n => placeAgain_mem _ _ _ _]
  simp [h]

@[simp] theorem writeDescriptor_wf (slot w : Nat) : (writeDescriptor s slot w).mem.wf = true := by simp [writeDescriptor, h]

/-! ### Resets, energy and records -/

@[simp] theorem endOps_wf (d : Nat) : (endOps s d).mem.wf = true :=
  foldl_wf (fun _ _ hs => foldl_wf (fun _ _ ht => endError_wf ht _ _ _ _ _) _ hs) _ h

@[simp] theorem endTasks_wf (d : Nat) : (endTasks s d).mem.wf = true := by
  unfold endTasks
  dsimp only
  rw [onHearth_mem]
  exact foldl_wf (fun _ _ hs => by simp [hs]) _ h

@[simp] theorem resetDie_wf (d : Nat) : (resetDie s d).mem.wf = true := by
  have hf (s : State) : ((dieFlues d).foldl flueDown s).mem = s.mem := foldl_mem flueDown_mem _ s
  unfold resetDie
  dsimp only
  refine memClear_wf (memClear_wf (memClear_wf (memClear_wf ?_ _ _) _ _) _ _) _ _
  simp [hf, h]

@[simp] theorem dieAbrupt_wf (d : Nat) : (dieAbrupt s d).mem.wf = true := by simp [dieAbrupt, h]

/-! ### Launch domains and pre-emption -/

end

@[simp] theorem copyLm_wf {m : Memory} (h : m.wf = true) (src dst : Nat) : (copyLm m src dst).wf = true :=
  foldl_memory_wf (fun _ _ hm => memSet_wf hm _ _) _ (memCopy_wf h _ _ _)

@[simp] theorem putFrames_wf {m : Memory} (h : m.wf = true) (k : Core) (image : Nat) : (putFrames m k image).wf = true :=
  foldl_memory_wf (fun _ _ hm => foldl_memory_wf (fun _ _ hn => memWrite_wf hn _ _ _) _ hm) _ h

@[simp] theorem putEvents_wf {m : Memory} (h : m.wf = true) (k : Core) (pointers : List Nat) (image : Nat) :
    (putEvents m k pointers image).wf = true := by
  refine foldl_memory_wf (fun _ _ hm => memWrite_wf hm _ _ _) _ (memWrite_wf (memWrite_wf ?_ _ _ _) _ _ _)
  refine foldl_memory_wf (fun _ _ hm => memWrite_wf hm _ _ _) _ (memWrite_wf ?_ _ _ _)
  exact foldl_memory_wf (fun _ _ hm => memWrite_wf hm _ _ _) _ h

@[simp] theorem putCfgs_wf {m : Memory} (h : m.wf = true) (k : Core) (image : Nat) : (putCfgs m k image).wf = true :=
  foldl_memory_wf (fun _ _ hm => memWrite_wf hm _ _ _) _ h

@[simp] theorem putWords_wf {m : Memory} (h : m.wf = true) (a n : Nat) (l : List Nat) : (putWords m a n l).wf = true :=
  foldl_memory_wf (fun _ _ hm => memWrite_wf hm _ _ _) _ h

@[simp] theorem putWeights_wf {m : Memory} (h : m.wf = true) (a : Nat) (w : WeightSet) : (putWeights m a w).wf = true :=
  putWords_wf (putWords_wf (memWrite_wf h _ _ _) _ _ _) _ _ _

@[simp] theorem putStove_wf {m : Memory} (h : m.wf = true) (k : Core) (image : Nat) : (putStove m k image).wf = true := by
  refine foldl_memory_wf (fun _ _ hm => foldl_memory_wf (fun _ _ hn => putWords_wf hn _ _ _) _ hm) _ ?_
  refine putWords_wf (putWords_wf (putWords_wf ?_ _ _ _) _ _ _) _ _ _
  exact foldl_memory_wf (fun _ _ hm => putWeights_wf hm _ _) _ h

@[simp] theorem putItem_wf {m : Memory} (h : m.wf = true) (a : Nat) (i : SendItem) : (putItem m a i).wf = true := by
  unfold putItem
  split
  · exact putWords_wf (memWrite_wf h _ _ _) _ _ _
  · exact memWrite_wf (memWrite_wf h _ _ _) _ _ _

@[simp] theorem putControl_wf {m : Memory} (h : m.wf = true) (k : Core) (bars : Vector Barrier 8) (image : Nat) :
    (putControl m k bars image).wf = true := by
  refine foldl_memory_wf (fun _ _ hm => putItem_wf hm _ _) _ (foldl_memory_wf (fun _ _ hm => putItem_wf hm _ _) _ ?_)
  refine foldl_memory_wf (fun _ _ hm => putWords_wf hm _ _ _) _ ?_
  exact putWords_wf (putWords_wf (putWords_wf (putWords_wf (putWords_wf h _ _ _) _ _ _) _ _ _) _ _ _) _ _ _

@[simp] theorem putImage_wf {m : Memory} (h : m.wf = true) (k : Core) (bars : Vector Barrier 8) (c image handle : Nat)
    (pointers : List Nat) :
    (putImage m k bars c image handle pointers).wf = true := by
  refine memWrite_wf (putControl_wf (putStove_wf (memCopy_wf (memCopy_wf ?_ _ _ _) _ _ _) k image) k bars image) _ _ _
  refine putCfgs_wf (putEvents_wf (memCopy_wf ?_ _ _ _) k pointers image) k image
  exact putFrames_wf (copyLm_wf (memClear_wf h _ _) _ _) k image

@[simp] theorem clearReserved_wf {m : Memory} (h : m.wf = true) (c : Nat) : (clearReserved m c).wf = true :=
  foldl_memory_wf (fun _ _ hm => memSet_wf hm _ _) _ (foldl_memory_wf (fun _ _ hm => memWrite_wf hm _ _ _) _ h)

@[simp] theorem getImage_wf {m : Memory} (h : m.wf = true) (c image : Nat) : (getImage m c image).wf = true :=
  memCopy_wf (memCopy_wf (clearReserved_wf (memClear_wf (memCopy_wf (copyLm_wf h _ _) _ _ _) _ _) c) _ _ _) _ _ _

@[simp] theorem clearCore_wf {m : Memory} (h : m.wf = true) (c : Nat) : (clearCore m c).wf = true :=
  memClear_wf (memClear_wf (memClear_wf (memClear_wf h _ _) _ _) _ _) _ _

section
variable {s : State} (h : s.mem.wf = true)
include h

@[simp] theorem saveCore_wf (bars : Vector Barrier 8) (cellar v c : Nat) : (saveCore s bars cellar v c).mem.wf = true := by
  have hp (l : List Nat) (t : State) : (l.foldl poisonAt t).mem = t.mem := foldl_mem poisonAt_mem l t
  simp [saveCore, hp, h]

@[simp] theorem restoreCore_wf (cellar v c : Nat) : (restoreCore s cellar v c).mem.wf = true := by simp [restoreCore, h]

@[simp] theorem saveQuad_wf (cellar : Nat) (vc : List Nat) (q : Nat) (n : Option Nat) :
    (saveQuad s cellar vc q n).mem.wf = true := by
  unfold saveQuad
  dsimp only
  rw [onQuad_mem]
  exact foldl_wf (fun _ _ hs => saveCore_wf hs _ _ _ _) _ h

@[simp] theorem restoreQuad_wf (cellar : Nat) (vc : List Nat) (q : Nat) : (restoreQuad s cellar vc q).mem.wf = true := by
  have hr : (vc.zipIdx.foldl (fun s e => restoreCore s cellar e.1 (quadCore q e.2)) s).mem.wf = true :=
    foldl_wf (fun _ _ hs => restoreCore_wf hs _ _ _) _ h
  unfold restoreQuad
  dsimp only
  rw [foldl_mem fun s j => repost_mem s _]
  split <;> simp [hr]

@[simp] theorem abortOn_wf (qs : List Nat) : (abortOn s qs).mem.wf = true := by simp [abortOn, h]

@[simp] theorem moveRanges_wf (survivors : List Nat) (c : Nat) : (moveRanges survivors s c).mem.wf = true := by
  refine foldl_wf (fun s k hs => ?_) _ h
  dsimp only
  split
  · split <;> simp [hs]
  · exact hs

@[simp] theorem replaceTasks_wf (stay : List Nat) (q : Nat) : (replaceTasks stay s q).mem.wf = true := by
  refine foldl_wf (fun s e hs => ?_) _ h
  split
  · split
    · dsimp only
      split <;> simp [hs]
    · exact hs
  · exact hs

@[simp] theorem parkQuad_wf (n cellar : Nat) (vc : List Nat) (q : Nat) : (parkQuad s n cellar vc q).mem.wf = true := by
  refine saveQuad_wf ?_ _ _ _ _
  rw [foldl_mem fun s j => onCore_mem s _ _]
  exact h

/-! ### The host and launches -/

theorem hostAccess_wf (pa : Nat) (write : Bool) (again : Due) {done lost : State} (hd : done.mem.wf = true)
    (hl : lost.mem.wf = true) :
    (hostAccess s pa write again done lost).mem.wf = true := by
  have ha := foldl_mem (f := fun s d => askBack s d (lineOf pa) write) fun s d => askBack_mem s d _ _
  unfold hostAccess
  split <;> simp [h, hd, hl, ha]

@[simp] theorem rootTask_wf (r id : Nat) : (rootTask s r id).mem.wf = true := by simp [rootTask, h]

@[simp] theorem installHandlers_wf (a c : Nat) : (installHandlers a s c).mem.wf = true := by
  unfold installHandlers
  rw [onMem_mem]
  exact memCopy_wf h _ _ _

@[simp] theorem writeStatus_wf (req status : Nat) : (writeStatus s req status).mem.wf = true := by simp [writeStatus, h]

@[simp] theorem createLaunch_wf (req : Nat) (tag : BitVec 32) (r : Nat) (p : LaunchPlan) :
    (createLaunch s req tag r p).mem.wf = true := by
  unfold createLaunch
  extract_lets qmap qs dies pair vmap s₁ s₂ vmaps s₃ s₄ s₅ a s₆ s₇ x s₈ qa s₉ s₁₀ s₁₁
  have h₂ : s₂.mem = s.mem := by simp [s₂, s₁]
  have h₃ : s₃.mem = s₂.mem := foldl_mem (fun _ _ => by rfl) _ _
  have h₅ : s₅.mem = s₄.mem := foldl_mem (fun _ _ => setNetBarrier_mem _ _ _ _ _) _ _
  have hs : s₅.mem.wf = true := by rw [h₅, setAccount_mem, h₃, h₂]; exact h
  have h₆ : s₆.mem.wf = true := by
    unfold s₆
    split
    · exact hs
    · rw [measure_mem]
      exact foldl_wf (fun _ _ ht => installHandlers_wf ht _ _) _ hs
  have h₉ : s₉.mem.wf = true := rootTask_wf (by simpa [s₈, s₇] using h₆) _ _
  have h₁₀ : s₁₀.mem.wf = true := by simp [s₁₀, h₉]
  exact writeStatus_wf (storeKey_wf (storeKey_wf (storeKey_wf h₁₀ _ _ _) _ _ _) _ _ _) _ _

omit h in
@[simp] theorem voteRegion_wf {r : State × Bool} (h : r.1.mem.wf = true) (n src : Nat) (o : List Nat × Nat) :
    (voteRegion n src r o).1.mem.wf = true := by
  have hv (l : List (Nat × Byte)) : (l.foldl (fun s e => storeKey s e.1 1 e.2.toNat) r.1).mem.wf = true :=
    foldl_wf (fun _ _ hs => storeKey_wf hs _ _ _) l h
  unfold voteRegion
  dsimp only
  split
  · split <;> simp [h]
  · split
    · simp [h]
    · split <;> simp [h, hv]

theorem endStatus_wf {n : Nat} {x : Launch} {verdict : Nat} {r : State × Nat} (hr : endStatus s n x verdict = some r) :
    r.1.mem.wf = true := by
  have hv (l : List (List Nat × Nat)) (src : Nat) : (l.foldl (voteRegion n src) (s, false)).1.mem.wf = true :=
    List.foldlRecOn (motive := fun r : State × Bool => r.1.mem.wf = true) l _ h fun r hr o _ => voteRegion_wf hr _ _ _
  unfold endStatus at hr
  dsimp only at hr
  split at hr
  · obtain rfl := Option.some.inj hr; exact h
  · split at hr
    · obtain rfl := Option.some.inj hr; exact h
    · split at hr
      · split at hr
        · obtain rfl := Option.some.inj hr; exact hv _ _
        · simp at hr
      · split at hr
        · obtain rfl := Option.some.inj hr; exact h
        · simp at hr

@[simp] theorem startThird_wf (n : Nat) (x : Launch) (p : LaunchPlan) : (startThird s n x p).mem.wf = true := by
  unfold startThird
  extract_lets qs dies r a s₁ s₂ s₃ s₄ s₅
  have hs : s₂.mem.wf = true := by
    unfold s₂
    rw [foldl_mem fun s d => onDie_mem s d _, writeCtx_mem]
    exact h
  have h₃ : s₃.mem.wf = true := by
    unfold s₃
    split
    · exact hs
    · rw [measure_mem]
      exact foldl_wf (fun _ _ ht => installHandlers_wf ht _ _) _ hs
  exact rootTask_wf (by simpa [s₅, s₄] using h₃) _ _

/-! ### The pod and storage -/

@[simp] theorem sendSectors_wf (c slot n : Nat) (op : EngOp) : (sendSectors c slot n s op).mem.wf = true := by
  induction n generalizing s op with
  | zero => simp [sendSectors, h]
  | succ n ih =>
    unfold sendSectors
    dsimp only
    split
    · simp [h]
    · split
      · simp [h]
      · split
        · next ht => exact ih (by simp [mem_of_sendFlit ht, h]) _
        · simp [h]

@[simp] theorem sendOn_wf (c slot : Nat) (op : EngOp) : (sendOn s c slot op).mem.wf = true := by simp [sendOn, h]

@[simp] theorem podAccepted_wf (ok : Bool) (addr c slot : Nat) : (podAccepted ok addr s c slot).mem.wf = true := by
  simp [podAccepted, h]

theorem podOp_wf (kind : EngKind) (xl xs xn xb : Reg) (n : Nat) (nosb inward : Bool) :
    Ensures (podOp kind xl xs xn xb n nosb inward s) (·.mem.wf = true) :=
  .after fun _ => .after fun _ => .after fun _ => .after fun _ => .after fun _ => .after fun _ => (barPlace_wf h _).bind fun _ hr =>
    acceptOp_wf hr _ _ fun _ _ _ hs => podAccepted_wf hs _ _ _ _

theorem loadBytes_wf (a : X) (n align : Nat) : Ensures (loadBytes s a n align) (·.1.mem.wf = true) := by
  unfold loadBytes
  simp only [ensures_bind]
  exact (resolve_wf h _ _ _ _ _ _).imp fun r hr => (domainCheck_wf hr _ _ _).imp fun u hu => by simp [hu]

theorem readRanks_wf (n a : Nat) : Ensures (readRanks n s a) (·.1.mem.wf = true) := by
  induction n generalizing s a with
  | zero => simpa [readRanks] using h
  | succ n ih =>
    unfold readRanks
    exact (loadBytes_wf h _ 2 1).bind fun r hr => (ih hr _).bind fun u hu => by simpa using hu

theorem collOp_wf (mk : CollOp → EngKind) (isBar : Bool) (o : CollOp) : Ensures (collOp mk isBar o s) (·.mem.wf = true) :=
  .after fun _ => .after fun _ => .after fun _ => .after fun _ => (barPlace_wf h _).bind fun _ hr =>
    (loadBytes_wf hr _ 64 64).bind fun _ hu => (readRanks_wf hu _ _).bind fun _ hv =>
      .ite (acceptOp_wf hv _ _ fun _ _ _ hs => endInvalid_wf hs _ _ _) (acceptOp_wf hv _ _ fun _ _ _ hs => podAccepted_wf hs _ _ _ _)

@[simp] theorem issueCommands_wf (c slot : Nat) (op : EngOp) (n : Nat) : (issueCommands s c slot op n).mem.wf = true := by
  induction n generalizing s with
  | zero => exact h
  | succ n ih =>
    unfold issueCommands
    dsimp only
    split
    · exact h
    · exact ih (by simp [h])

theorem blkPagesGo_wf (c : Nat) (op : EngOp) (acc : Access) (first n : Nat) :
    Ensures (blkPages.go c op acc first s n) (·.mem.wf = true) := by
  induction n with
  | zero => simpa [blkPages.go] using h
  | succ n ih =>
    unfold blkPages.go
    exact ih.bind fun t ht => (enginePlace_wf ht _ _ _ _).bind fun u hu => by simpa using hu

theorem blkPages_wf (c : Nat) (op : EngOp) (acc : Access) : Ensures (blkPages s c op acc) (·.mem.wf = true) :=
  blkPagesGo_wf h c op acc _ _

theorem blkOp_wf (kind : EngKind) (o : XblkOp) (flush : Bool) : Ensures (blkOp kind o flush s) (·.mem.wf = true) :=
  .after fun _ => .after fun _ => .ite (ensures_trapAt _ _) (.ite (ensures_trapAt _ _) (.after fun _ =>
    (barPlace_wf h _).bind fun _ hr => (recordPlace_wf hr _ _ _).bind fun _ hu => acceptOp_wf hu _ _ fun _ _ _ hs => podAccepted_wf hs _ _ _ _))

@[simp] theorem blkStopped_wf (c slot : Nat) (op : EngOp) (e : SectorStop) : (blkStopped s c slot op e).mem.wf = true := by
  unfold blkStopped
  split <;> simp [h]

@[simp] theorem startKind_wf (c slot : Nat) (op : EngOp) : (startKind s c slot op).mem.wf = true := by
  unfold startKind
  extract_lets blk
  have hb (acc : Access) : (blk acc).mem.wf = true := by
    unfold blk
    split
    · next hp => exact issueCommands_wf (blkPages_wf h _ _ _ _ hp) _ _ _ _
    · exact blkStopped_wf h _ _ _ _
  clear_value blk
  split <;> simp [h, hb]

@[simp] theorem startEngine_wf (c slot : Nat) : (startEngine s c slot).mem.wf = true := by
  unfold startEngine
  split <;> simp [h]

@[simp] theorem replayOp_wf (c slot : Nat) : (replayOp s c slot).mem.wf = true := by
  unfold replayOp
  split
  · split
    · dsimp only
      split <;> simp [h]
    · exact h
  · exact h

theorem writeOutside_wf (c : Nat) (op : EngOp) (a n : Nat) (data : BitVec 256) :
    Ensures (writeOutside s c op a n data) (·.mem.wf = true) :=
  (engineBytes_wf h c op .store a n).bind fun r hr => by simp [hr]

theorem readOutside_wf (c : Nat) (op : EngOp) (q : Nat) : Ensures (readOutside s c op q) (·.1.mem.wf = true) :=
  (engineBytes_wf h c op .load _ 32).bind fun r hr => by simpa using hr

@[simp] theorem poisonedSector_wf (c slot : Nat) (op : EngOp) (q a : Nat) : (poisonedSector s c slot op q a).mem.wf = true := by
  simp [poisonedSector, h]

@[simp] theorem sentSector_wf (c slot : Nat) (op : EngOp) (q : Nat) : (sentSector s c slot op q).mem.wf = true := by
  unfold sentSector
  split
  · next hr => exact poisonedSector_wf (readOutside_wf h c op q _ hr) _ _ _ _ _
  · next hr => exact countSectors_wf (readOutside_wf h c op q _ hr) _ _ _ _ _ _
  · simp [h]

@[simp] theorem arriveSector_wf (c slot : Nat) (op : EngOp) (q a n : Nat) (data : BitVec 256) :
    (arriveSector s c slot op q a n data).mem.wf = true := by
  unfold arriveSector
  split
  · next hw => exact countSectors_wf (writeOutside_wf h _ _ _ _ _ _ hw) _ _ _ _ _ _
  · simp [h]

theorem ownBits_wf (c : Nat) (op : EngOp) (b n : Nat) : Ensures (ownBits s c op b n) (·.1.mem.wf = true) :=
  .after fun _ => (engineBytes_wf h c op .load _ _).bind fun r hr => by simpa using hr

theorem collData_wf (c : Nat) (op : EngOp) (f : Fmt) (q n data : Nat) :
    Ensures (collData s c op f q n data) (·.1.mem.wf = true) := by
  unfold collData
  dsimp only
  split
  · exact (ownBits_wf h _ _ _ _).bind fun r hr => by simpa using hr
  · exact (ownBits_wf h _ _ _ _).bind fun r hr => by simpa using hr
  · exact .ite (by simpa using h) ((ownBits_wf h _ _ _ _).bind fun r hr => by simpa using hr)

@[simp] theorem collSector_wf (c slot : Nat) (op : EngOp) (f : Fmt) (gather : Bool) (q : Nat) (data : BitVec 256) :
    (collSector s c slot op f gather q data).mem.wf = true := by
  unfold collSector
  extract_lets a n go
  have hgo : Ensures go (·.1.mem.wf = true) := by
    refine .after fun _ => (collData_wf h _ _ _ _ _ _).bind fun r hr => (writeOutside_wf ?_ _ _ _ _ _).bind fun t ht => (ensures_ok _).2 ?_
    · exact hr
    · exact ht
  clear_value go
  split
  · rw [ensures_ok] at hgo
    exact poisonedSector_wf hgo _ _ _ _ _
  · rw [ensures_ok] at hgo
    exact countSectors_wf hgo _ _ _ _ _ _
  · simp [h]

theorem podTarget_wf {x : Launch} {acc : Access} {a : X} {r : State × Nat} (hr : podTarget s x acc a = some r) :
    r.1.mem.wf = true := by
  unfold podTarget at hr
  split at hr
  · split at hr
    · next ht =>
      split at hr
      · simp at hr
      · obtain rfl := Option.some.inj hr
        exact translate_wf h ht
    · simp at hr
  · obtain rfl := Option.some.inj hr
    exact h
  · simp at hr

theorem atTarget_wf (x : Launch) (p : PodPacket) (acc : Access) {f : State → Nat → State}
    (hf : ∀ s k, s.mem.wf = true → (f s k).mem.wf = true) :
    (atTarget s x p acc f).mem.wf = true := by
  have ha (line : Nat) (w : Bool) := foldl_mem (f := fun s d => askBack s d line w) fun s d => askBack_mem s d _ _
  unfold atTarget
  dsimp only
  split
  · split
    · simp [ha, h]
    · next ht => exact hf _ _ (podTarget_wf h ht)
    · simp [h]
  all_goals simp [h]

@[simp] theorem ramoSector_wf (p : PodPacket) (op : RedFn) (f : Fmt) (d : BitVec 256) (k : Nat) :
    (ramoSector s p op f d k).mem.wf = true := by simp [ramoSector, h]

@[simp] theorem podAnswered_wf (p : PodPacket) (refused : Bool) : (podAnswered s p refused).mem.wf = true := by
  unfold podAnswered
  dsimp only
  split <;> simp [h]

/-! ### The register windows -/

@[simp] theorem lmWindowWrite_wf (c a w : Nat) : (lmWindowWrite s c a w).mem.wf = true := by simp [lmWindowWrite, h]

@[simp] theorem debugStore_wf (c o w : Nat) : (debugStore s c o w).mem.wf = true := by
  simp [debugStore, h, memWrite_wf]

@[simp] theorem dieStore_wf (d o w : Nat) : (dieStore s d o w).mem.wf = true := by simp [dieStore, h]
@[simp] theorem hearthStore_wf (o w : Nat) : (hearthStore s o w).mem.wf = true := by simp [hearthStore, h]
@[simp] theorem dieCommand_wf (d cmd : Nat) : (dieCommand s d cmd).mem.wf = true := by simp [dieCommand, h]

@[simp] theorem larderStore_wf (o w : Nat) : (larderStore s o w).mem.wf = true := by
  unfold larderStore
  split <;> simp [h]

@[simp] theorem windowStore_wf (p : WindowPlace) (w : Nat) : (windowStore s p w).mem.wf = true := by
  unfold windowStore
  split <;> simp [h]

@[simp] theorem windowPut_wf (who pa n v : Nat) : (windowPut s who pa n v).mem.wf = true := by
  unfold windowPut
  dsimp only
  split <;> simp [h]

/-! ### Loads, stores and atomics -/

theorem writeWindows_wf (c n v : Nat) (p : Place) : (writePlace windows s c n v p).mem.wf = true :=
  writePlace_wf (fun _ c pa n v hs => windowPut_wf hs c pa n v) h c n v p

theorem scalarPlace_wf (acc : Access) (a : X) (size : Nat) (load store : Bool) :
    Ensures (scalarPlace s acc a size load store) (·.1.mem.wf = true) := by
  unfold scalarPlace
  refine (resolve_wf h _ _ _ _ _ _).bind fun r hr => (domainCheck_wf hr _ _ _).bind fun u hu => ?_
  simp [hu]

theorem loadOp_wf (g : LoadArgs) : Ensures (loadOp g s) (·.mem.wf = true) := by
  unfold loadOp
  extract_lets -underBinder l go
  have hgo (u : Unit) : Ensures (go u) (·.mem.wf = true) :=
    .after fun _ => (scalarPlace_wf h _ _ _ _ _).bind fun r hr => by simp [hr]
  exact .ite (.after hgo) (hgo ())

theorem storeOp_wf (g : StoreArgs) : Ensures (storeOp g s) (·.mem.wf = true) := by
  unfold storeOp
  extract_lets -underBinder l go
  have hgo (u : Unit) : Ensures (go u) (·.mem.wf = true) :=
    .after fun _ => (scalarPlace_wf h _ _ _ _ _).bind fun r hr => by simp [hr, writeWindows_wf]
  exact .ite (.after hgo) (hgo ())

theorem vecPlaces_wf (g : VecArgs) (acc : Access) (load store : Bool) :
    Ensures (vecPlaces g acc load store s) (·.1.mem.wf = true) := by
  unfold vecPlaces
  dsimp only
  split
  · exact .after fun _ => ensures_error _
  · next hr =>
    refine (domainAll_wf (resolveAll_wf h _ _ _ _ _ _ hr) _ _ _).bind fun u hu => .after fun _ => ?_
    simp [hu]

theorem vecLoad_wf (d : Reg) (g : VecArgs) : Ensures (vecLoad d g s) (·.mem.wf = true) :=
  .after fun _ => (vecPlaces_wf h g .load true false).bind fun r hr => by simp [hr]

theorem vecStore_wf (data : Lane → V) (g : VecArgs) : Ensures (vecStore data g s) (·.mem.wf = true) := by
  refine .after fun _ => (vecPlaces_wf h g .store false true).bind fun r hr => ?_
  have hw (l : List (Nat × Place)) (f : Nat × Place → Nat) (t : State) (ht : t.mem.wf = true) :
      (l.foldl (fun t e => writePlace windows t s.sched.core (g.w / 8) (f e) e.2) t).mem.wf = true :=
    foldl_wf (fun _ _ hs => writeWindows_wf hs _ _ _ _) l ht
  simp [hw, hr]

theorem vecScatterAdd_wf (f : Fmt) (data : Lane → V) (g : VecArgs) : Ensures (vecScatterAdd f data g s) (·.mem.wf = true) := by
  refine .after fun _ => .after fun _ => (vecPlaces_wf h g .atomic false true).bind fun r hr => ?_
  have hw (l : List (Nat × Place)) (f : State → Nat × Place → Nat) (t : State) (ht : t.mem.wf = true) :
      (l.foldl (fun t e => writePlace windows t s.sched.core (g.w / 8) (f t e) e.2) t).mem.wf = true :=
    foldl_wf (fun _ _ hs => writeWindows_wf hs _ _ _ _) l ht
  simp [hw, hr]

theorem atomicOp_wf (d : Reg) (srcs : List Opnd) (addr : Lane → X) (f : Fmt) (new : Lane → Nat → Nat) :
    Ensures (atomicOp d srcs addr f new s) (·.mem.wf = true) := by
  refine .after fun _ => .after fun _ => (scalarPlace_wf h _ _ _ _ _).bind fun (t, p) hr => ?_
  have ht : t.mem.wf = true := hr
  dsimp -zeta only
  extract_lets -underBinder go
  have hgo (u : Unit) : Ensures (go u) (·.mem.wf = true) := by
    unfold go
    extract_lets old v t' t''
    refine .ite (by simp [t', writeWindows_wf, ht]) ?_
    split
    · simp [t', ht]
    · simp [t'', t', writeWindows_wf, ht]
  split
  · exact .after hgo
  · exact hgo ()
end

end Sys2Proof.Machine
end

section
/-! O57, part 4: the instructions and events that have more to them than their shape keep the canonical form. -/

namespace Sys2Proof.Machine

section
variable {s : State} (h : s.mem.wf = true)
include h

/-! ### Control flow -/

theorem execBrkC_wf (o : CCode) : NextWf (execBrkC o s) := by simp [execBrkC, h]
theorem execLoop_wf (o : LoopOp) : NextWf (execLoop o s) := finish_wf h (by simp [h])
theorem execTrap_wf (o : CodeOp) : NextWf (execTrap o s) := by simp [execTrap, h]
theorem execBrk_wf (o : CodeOp) : NextWf (execBrk o s) := by simp [execBrk, h]

/-! ### Messages and spawns -/

theorem execSpawnc_wf (o : S2) : NextWf (execSpawnc o s) :=
  stateOp_wf h _ (.after fun _ => .after fun _ => .after fun _ => (joinPlace_wf h _).bind fun r hr => by simp [hr])

theorem execJoinat_wf (o : S2) : NextWf (execJoinat o s) :=
  stateOp_wf h _ (.after fun _ => .after fun _ => .after fun _ => (joinPlace_wf h _).bind fun r hr => .after fun _ => by
    rw [ensures_ok]
    split <;> simp [hr])

/-! ### Ranges, stealing and streams -/

theorem execSteal_wf (o : StealOp) : NextWf (execSteal o s) := finish_wf h (by simp [h])

theorem execActor_wf (o : S2) : NextWf (execActor o s) :=
  stateOp_wf h _ (.after fun _ => .after fun _ => .after fun _ => by
    rw [ensures_ok, evalActors_mem, onMem_mem]
    exact memWrite_wf h _ _ _)

/-! ### Messages and spawns -/

theorem execHvw_wf (o : S2) : NextWf (execHvw o s) :=
  stateOp_wf h _ (.after fun _ => .after fun _ => .after fun _ => by
    rw [ensures_ok, onMem_mem]
    exact memWrite_wf h _ _ _)

/-! ### Transaction barriers and records -/

theorem execTxinit_wf (o : TxinitOp) : NextWf (execTxinit o s) :=
  stateOp_wf h _ (.after fun _ => .after fun _ => (txPlace_wf h _ _).bind fun r hr => by simp [hr])

theorem execTxarr_wf (o : TxarrOp) : NextWf (execTxarr o s) :=
  stateOp_wf h _ (.after fun _ => (txPlace_wf h _ _).bind fun r hr => by simp [hr])

theorem execTxexp_wf (o : TxexpOp) : NextWf (execTxexp o s) :=
  stateOp_wf h _ (.after fun _ => (txPlace_wf h _ _).bind fun r hr => by simp [hr])

theorem execTxwait_wf (o : TxwaitOp) : NextWf (execTxwait o s) :=
  stateOp_wf h _ (.after fun _ => (txRead_wf h _).bind fun r hr => by simp [hr])

theorem execTxtest_wf (o : TxtestOp) : NextWf (execTxtest o s) :=
  stateOp_wf h _ (.after fun _ => (txRead_wf h _).bind fun r hr => by simp [hr])

theorem execTxtestErr_wf (o : TxtestErrOp) : NextWf (execTxtestErr o s) :=
  stateOp_wf h _ (.after fun _ => (txRead_wf h _).bind fun r hr => by simp [hr])

theorem execShpf_wf (o : ShpfOp) : NextWf (execShpf o s) := by
  have hr : Ensures (if (getX (cur s) o.xs).toNat % 64 = 0 then readRecord s s.sched.core (cur s) (getX (cur s) o.xs) else trap .misaligned)
      (·.1.mem.wf = true) := .ite (readRecord_wf h _ _ _) (ensures_trap _)
  refine stateOp_wf h _ ?_
  dsimp only
  split
  · simpa using h
  · simp
  · split
    · next he => simpa using hr _ he
    · simp
    · simpa using h

/-! ### The Stove -/

omit h in
theorem withSeat_wf {s : State} {f : Fin 2 → Except Stop State} (hf : ∀ i, Ensures (f i) (·.mem.wf = true)) :
    Ensures (withSeat s f) (·.mem.wf = true) := by
  unfold withSeat
  split
  · split
    · exact hf _
    · simp
  · simp

theorem execTcfg_wf (o : TcfgOp) : NextWf (execTcfg o s) := stateOp_wf h _ (withSeat_wf fun _ => by simp [h])

theorem execTzero_wf (o : TzeroOp) : NextWf (execTzero o s) :=
  stateOp_wf h _ (withSeat_wf fun _ => enqueueSeat_wf h _ _ _ _ _ _ _ _ _)

theorem execTrow_wf (o : TrowOp) : NextWf (execTrow o s) := stateOp_wf h _ (withSeat_wf fun _ => by simp [h])
theorem execTsetrow_wf (o : TsetrowOp) : NextWf (execTsetrow o s) := stateOp_wf h _ (withSeat_wf fun _ => by simp [h])
theorem execMsk_wf (o : MskOp) : NextWf (execMsk o s) := stateOp_wf h _ (withSeat_wf fun _ => by simp [h])
theorem execGwld_wf (o : GwldOp) : NextWf (execGwld o s) := gangOp_wf h fun _ => by simp [h]

theorem execGacc_wf (o : GaccOp) : NextWf (execGacc o s) :=
  stateOp_wf h _ (withSeat_wf fun _ => .after fun _ => (enqueueSeat_wf h _ _ _ _ _ _ _ _ _).bind fun r hr => by simpa using hr)

theorem execGaccz_wf (o : GacczOp) : NextWf (execGaccz o s) :=
  stateOp_wf h _ (withSeat_wf fun _ => .after fun _ => enqueueSeat_wf h _ _ _ _ _ _ _ _ _)

/-! ### Neuron banks -/

theorem execEvcfg_wf (o : EvcfgOp) : NextWf (execEvcfg o s) :=
  stateOp_wf h _ (.after fun _ => .after fun _ => .after fun _ => .after fun _ => by
    rw [ensures_ok, onMem_mem]
    exact memWrite_wf h _ _ _)

theorem execEvinj_wf (o : EvinjOp) : NextWf (execEvinj o s) :=
  stateOp_wf h _ (.after fun _ => .after fun _ => .after fun _ => .after fun _ => .after fun _ => by
    split
    · next ht => simpa using emitEvent_wf (by simpa using h) ht
    · simp)

theorem execEvwr_wf (o : EvwrOp) : NextWf (execEvwr o s) :=
  stateOp_wf h _ (.after fun _ => .after fun _ => .after fun _ => .after fun _ => .after fun _ => by
    rw [ensures_ok, onMem_mem]
    exact memWrite_wf h _ _ _)

theorem execEvfan_wf (o : EvfanOp) : NextWf (execEvfan o s) :=
  stateOp_wf h _ (.after fun _ => .after fun _ => .after fun _ => .after fun _ => by
    split <;> simp [h])

/-! ### System registers -/

theorem execSysr_wf (o : SysrOp) : NextWf (execSysr o s) :=
  stateOp_wf h _ (.after fun _ => .after fun _ => .ite (by simp [h]) (.after fun _ => by
    dsimp only
    split <;> simp [h]))

theorem execEnrd_wf (o : EnrdOp) : NextWf (execEnrd o s) :=
  guardedStateOp_wf h _ _ (.after fun _ => by
    split <;> simp [h])

/-! ### Results, freezes and debugging -/

theorem execLkill_wf (o : LkillOp) : NextWf (execLkill o s) := by
  unfold execLkill
  split
  · simp [h]
  · refine guardedStateOp_wf h _ _ (.after fun _ => ?_)
    dsimp only
    split
    · simp [h]
    · simpa using foldl_wf (fun _ t hs => killLane_wf hs t) _ h

theorem execTlbi_wf (o : TlbiOp) : NextWf (execTlbi o s) := by
  unfold execTlbi
  split
  · simp [h]
  · extract_lets l ctx d users dropped
    split
    · exact takeStop_wf (s := dropped) (by simpa [dropped] using h) _
    · exact guardedStateOp_wf h _ _ (.after fun _ => by simp [h])

/-! ### Messages and spawns -/

theorem execDispatch_wf (core : Nat) : NextWf (execDispatch core s) := by simp [execDispatch, h]

/-! ### Results, freezes and debugging -/

theorem execLaneAged_wf (core lane : Nat) : NextWf (execLaneAged core lane s) := by simp [execLaneAged, h]

/-! ### Wake-ups -/

theorem execLaneUnblock_wf (core lane : Nat) : NextWf (execLaneUnblock core lane s) := by simp [execLaneUnblock, h]

/-! ### Results, freezes and debugging -/

theorem execResultArrival_wf (core lane idx : Nat) : NextWf (execResultArrival core lane idx s) := by
  unfold execResultArrival
  rw [nextWf_next]
  split
  · exact h
  · extract_lets l u frz v
    have hu : u.mem = s.mem := setLane_mem _ _ _ _
    clear_value u
    have hv : v.mem = s.mem := by
      unfold v
      split
      · exact hu
      · split
        · rw [endedPoison_mem, hu]
        · split
          · rw [setLane_mem, hu]
          · rw [setLane_mem, hu]
    clear_value v
    simp [hv, h]

theorem execStorePerformed_wf (core lane : Nat) : NextWf (execStorePerformed core lane s) := by simp [execStorePerformed, h]

theorem execFaultFreeze_wf (core lane : Nat) : NextWf (execFaultFreeze core lane s) := by
  unfold execFaultFreeze
  dsimp only
  split <;> simp [h]

theorem storedOnDie_wf (a n w d : Nat) (f : Die → Die) : (onDie (storeKey s a n w) d f).mem.wf = true := by
  rw [onDie_mem]
  exact storeKey_wf h a n w

theorem execFaultRingWrite_wf (die : Nat) : NextWf (execFaultRingWrite die s) := by
  unfold execFaultRingWrite
  dsimp only
  rw [nextWf_next]
  split
  · exact h
  · split
    · exact h
    · split
      · exact storedOnDie_wf h _ _ _ _ _
      · rw [dueEvent_mem]
        exact storedOnDie_wf h _ _ _ _ _

/-! ### Messages and spawns -/

theorem execMessageAccept_wf (src dst : Nat) : NextWf (execMessageAccept src dst s) := by simp [execMessageAccept, h]

/-! ### Neuron banks -/

theorem execSendQueueReoffer_wf (src dst : Nat) : NextWf (execSendQueueReoffer src dst s) := by simp [execSendQueueReoffer, h]

/-! ### Messages and spawns -/

theorem execRemotePushAccept_wf (src dst : Nat) : NextWf (execRemotePushAccept src dst s) := by simp [execRemotePushAccept, h]

theorem execTaskAccept_wf (core : Nat) : NextWf (execTaskAccept core s) := by
  unfold execTaskAccept
  dsimp only
  split <;> simp [h]

theorem execTaskSpillReturn_wf (quad : Nat) : NextWf (execTaskSpillReturn quad s) := by simp [execTaskSpillReturn, h]

/-! ### Ranges, stealing and streams -/

theorem execStealRequest_wf (core lane : Nat) : NextWf (execStealRequest core lane s) := by
  unfold execStealRequest
  split
  · simp [h]
  · split
    · simp [h]
    · dsimp only
      split
      · simp [h]
      · rw [nextWf_next, dueEvent_mem, setSteal_mem]
        split <;> simp [h]

theorem stealAnswerDone_wf (core lane : Nat) (q : StealReq) (n : X) : (execStealAnswer.done core lane s q n).mem.wf = true := by
  unfold execStealAnswer.done
  extract_lets r t l
  have ht : t.mem.wf = true := by simp [t, h]
  clear_value l t
  split <;> simp [ht]

theorem execStealAnswer_wf (core lane : Nat) : NextWf (execStealAnswer core lane s) := by
  unfold execStealAnswer
  split
  · simp [h]
  · split
    · simp [h]
    · simp [h, stealAnswerDone_wf]
    · simp [h, stealAnswerDone_wf]

/-! ### Neuron banks -/

theorem execEventAccept_wf (src dst : Nat) : NextWf (execEventAccept src dst s) := by simp [execEventAccept, h]
theorem execEventSpillReturn_wf (core : Nat) : NextWf (execEventSpillReturn core s) := by simp [execEventSpillReturn, h]

theorem execEventDelivery_wf (core : Nat) : NextWf (execEventDelivery core s) := by
  unfold execEventDelivery
  dsimp only
  split <;> simp [h]

theorem execEventDiscard_wf (core : Nat) : NextWf (execEventDiscard core s) := by
  unfold execEventDiscard
  dsimp only
  split <;> simp [h]

theorem execFanoutEmit_wf (core : Nat) : NextWf (execFanoutEmit core s) := by
  unfold execFanoutEmit
  rw [nextWf_next]
  split
  · exact h
  · extract_lets r d' own
    split
    · exact h
    · split
      · simp [h]
      · split
        · next ht => simpa using emitEvent_wf h ht
        · simp [h]

theorem execFireMessagePost_wf (core : Nat) : NextWf (execFireMessagePost core s) := by
  unfold execFireMessagePost
  rw [nextWf_next]
  split
  · exact h
  · split
    · simp [h]
    · exact h

/-! ### The pod and storage -/

theorem execAsyncOpStart_wf (core queue slot : Nat) : NextWf (execAsyncOpStart core queue slot s) := by
  simp [execAsyncOpStart, h]

/-! ### The Stove -/

theorem execGangForm_wf (quad seat : Nat) : NextWf (execGangForm quad seat s) := by simp [execGangForm, h]
theorem execGangTimeout_wf (quad seat : Nat) : NextWf (execGangTimeout quad seat s) := by simp [execGangTimeout, h]

theorem execGangPositionExpiry_wf (quad seat : Nat) : NextWf (execGangPositionExpiry quad seat s) := by
  simp [execGangPositionExpiry, h]

theorem execGangComplete_wf (quad : Nat) : NextWf (execGangComplete quad s) := by
  unfold execGangComplete
  split <;> simp [h]

theorem execTileOpComplete_wf (core seat : Nat) : NextWf (execTileOpComplete core seat s) := by
  unfold execTileOpComplete
  dsimp only
  split <;> simp [h]

/-! ### The pod and storage -/

theorem execEngineSectorComplete_wf (core slot sector : Nat) (data : BitVec 256) :
    NextWf (execEngineSectorComplete core slot sector data s) := by
  unfold execEngineSectorComplete
  split
  · simp [h]
  · rw [nextWf_next]
    split
    · simp [h]
    · simp [h]
    · simp [h]
    · split <;> simp [h]

theorem execEngctlReplay_wf (who core slot : Nat) : NextWf (execEngctlReplay who core slot s) := by simp [execEngctlReplay, h]

/-! ### Engine operations -/

theorem execEngctlFail_wf (who core slot : Nat) : NextWf (execEngctlFail who core slot s) := by simp [execEngctlFail, h]

/-! ### Transaction barriers and records -/

theorem execTxBarrierUpdate_wf (core : Nat) : NextWf (execTxBarrierUpdate core s) := by simp [execTxBarrierUpdate, h]

/-! ### Engine operations -/

theorem execReduceSectorApply_wf (core slot sector : Nat) : NextWf (execReduceSectorApply core slot sector s) := by
  unfold execReduceSectorApply
  split
  · simp [h]
  · next op _ =>
    split
    · simp [h]
    · split
      · simp [h]
      · split
        · simp [h]
        · next t bad hp =>
          have ht : t.mem.wf = true := performGroup_wf h core op [sector] _ hp
          have hf (u : State) := foldl_mem (f := fun s k => joinFireAll s (k / 8 * 8) 1) (fun s k => joinFireAll_mem s _ _)
            (reducedKeys t core op sector) u
          dsimp only
          rw [nextWf_next]
          split <;> simp [hf, ht]

/-! ### Bank operations -/

theorem execBankSectorApply_wf (core slot sector : Nat) : NextWf (execBankSectorApply core slot sector s) := by
  unfold execBankSectorApply
  split
  · simp [h]
  · split
    · simp [h]
    · split
      · simp [h]
      · extract_lets off
        split
        · simp [h]
        · split
          · simp [h]
          · dsimp only
            rw [nextWf_next]
            split <;> simp [h]

/-! ### Tokens and the directory -/

theorem pageWalk_elim_wf (c ctx va : Nat) (acc : Access) : ((pageWalk s c ctx va acc).elim s (·.1)).mem.wf = true := by
  cases hr : pageWalk s c ctx va acc with
  | none => exact h
  | some r => exact pageWalk_wf h hr

theorem execPageWalkComplete_wf (core : Nat) (va : X) (acc : Access) : NextWf (execPageWalkComplete core va acc s) := by
  unfold execPageWalkComplete
  extract_lets ctx
  clear_value ctx
  rw [nextWf_next]
  split
  · exact h
  · split
    · exact pageWalk_elim_wf h _ _ _ _
    · exact h

theorem execTransientRequest_wf (core line : Nat) (write : Bool) : NextWf (execTransientRequest core line write s) := by
  simp [execTransientRequest, h]

theorem execTransientTimeout_wf (core line : Nat) : NextWf (execTransientTimeout core line s) := by
  simp [execTransientTimeout, h]

theorem execPersistentRequest_wf (core line : Nat) : NextWf (execPersistentRequest core line s) := by
  unfold execPersistentRequest
  dsimp only
  split <;> simp [h]

theorem execPersistentDeactivate_wf (die line : Nat) : NextWf (execPersistentDeactivate die line s) := by
  unfold execPersistentDeactivate
  split <;> simp [h]

theorem execDirectoryRequest_wf (die line : Nat) (write : Bool) : NextWf (execDirectoryRequest die line write s) := by
  unfold execDirectoryRequest
  rw [nextWf_next]
  split
  · exact h
  · exact overWay_wf h _ _ (by simp [h])

theorem execDirectoryRecall_wf (die line : Nat) (all : Bool) : NextWf (execDirectoryRecall die line all s) := by
  unfold execDirectoryRecall
  rw [nextWf_next]
  split
  · exact h
  · exact overWay_wf h _ _ (by simp [h])

/-! ### The host and launches -/

theorem execBackInvalidate_wf (line : Nat) : NextWf (execBackInvalidate line s) := by simp [execBackInvalidate, h]

theorem execHostMemWrite_wf (pa n : Nat) (value : BitVec 512) : NextWf (execHostMemWrite pa n value s) := by
  unfold execHostMemWrite
  rw [nextWf_next]
  split
  · exact hostAccess_wf h _ _ _ (hostWrite_wf h _ _ _) h
  · exact h

theorem execHostMemRead_wf (pa n : Nat) : NextWf (execHostMemRead pa n s) := by
  unfold execHostMemRead
  rw [nextWf_next]
  split
  · exact hostAccess_wf h _ _ _ (by simp [h]) (by simp [h])
  · exact h

theorem execSpawnWindowStore_wf (off n : Nat) (value : BitVec 512) : NextWf (execSpawnWindowStore off n value s) := by
  simp [execSpawnWindowStore, h]

theorem execLaunchCommand_wf (off n : Nat) (value : BitVec 512) : NextWf (execLaunchCommand off n value s) := by
  simp [execLaunchCommand, h]

theorem execLaunchTake_wf (plan : LaunchPlan) : NextWf (execLaunchTake plan s) := by
  unfold execLaunchTake
  rw [nextWf_next]
  split
  · exact h
  · extract_lets r taken
    have ht {t : State} (ht : t.mem.wf = true) : (taken t).mem.wf = true := by simpa [taken] using ht
    clear_value taken
    split
    · exact ht (writeStatus_wf (storeKey_wf h _ _ _) _ _)
    · split
      · exact createLaunch_wf (ht h) _ _ _ _
      · exact h

theorem execLaunchEnd_wf (launch : Nat) (verdict : Fin 3) : NextWf (execLaunchEnd launch verdict s) := by
  unfold execLaunchEnd
  rw [nextWf_next]
  split
  · exact h
  · split
    · exact h
    · split
      · split
        · split
          · refine startThird_wf ?_ _ _ _
            exact h
          · exact h
        · exact h
      · next hr =>
        have ht := endStatus_wf h hr
        refine writeStatus_wf ?_ _ _
        rw [freeLaunch_mem]
        exact ht

theorem execLstatRead_wf : NextWf (execLstatRead s) := by simp [execLstatRead, h]
theorem execSpwstatRead_wf : NextWf (execSpwstatRead s) := by simp [execSpwstatRead, h]
theorem execAttdropRead_wf : NextWf (execAttdropRead s) := by simp [execAttdropRead, h]
theorem execAttreq_wf (value : BitVec 512) : NextWf (execAttreq value s) := by simp [execAttreq, h]

theorem execAttestationReport_wf : NextWf (execAttestationReport s) := by
  unfold execAttestationReport
  rw [nextWf_next]
  split
  · exact h
  · exact h
  · next a nonce key _ _ =>
    extract_lets body sig chunks t u
    have ht : t.mem.wf = true := foldl_wf (fun s i hs => storeKey_wf hs (a.toNat + 4 + 4 * i) 4 _) _ h
    clear_value t
    exact storeKey_wf ht _ _ _

/-! ### Results, freezes and debugging -/

theorem execCctlRcflush_wf (who core : Nat) : NextWf (execCctlRcflush who core s) := by simp [execCctlRcflush, h]
theorem execCctlFrzall_wf (who core : Nat) : NextWf (execCctlFrzall who core s) := by simp [execCctlFrzall, h]
theorem execCctlHold_wf (who core : Nat) (hold : Bool) : NextWf (execCctlHold who core hold s) := by simp [execCctlHold, h]

theorem execLctlFrzreq_wf (who core lane : Nat) (req : Bool) : NextWf (execLctlFrzreq who core lane req s) := by
  simp [execLctlFrzreq, h]

theorem execDebugFrameWrite_wf (who core lane off n : Nat) (value : X) :
    NextWf (execDebugFrameWrite who core lane off n value s) := by simp [execDebugFrameWrite, h]

/-! ### The register windows -/

theorem execRegisterWrite_wf (who pa n : Nat) (value : BitVec 512) : NextWf (execRegisterWrite who pa n value s) := by
  unfold execRegisterWrite
  rw [nextWf_next]
  split
  · exact foldl_wf (fun s p hs => windowPut_wf hs who p.1 p.2.1 p.2.2) _ h
  · exact h

/-! ### Rounds of the Hearth -/

theorem execDomainCreate_wf (who slot : Nat) (value : X) : NextWf (execDomainCreate who slot value s) := by
  simp [execDomainCreate, h]

theorem execDomainSuspend_wf (who slot : Nat) : NextWf (execDomainSuspend who slot s) := by simp [execDomainSuspend, h]
theorem execDomainResume_wf (who slot : Nat) : NextWf (execDomainResume who slot s) := by simp [execDomainResume, h]
theorem execDomainRetire_wf (who slot : Nat) : NextWf (execDomainRetire who slot s) := by simp [execDomainRetire, h]
theorem execHearthRoundStart_wf : NextWf (execHearthRoundStart s) := by simp [execHearthRoundStart, h]

omit h in
theorem foldl_dueEvent_mem {α : Type} (d : α → Due) (l : List α) (s : State) :
    (l.foldl (fun s a => dueEvent s (d a)) s).mem = s.mem := foldl_mem (fun s a => dueEvent_mem s (d a)) l s

theorem execHearthRootForm_wf : NextWf (execHearthRootForm s) := by
  unfold execHearthRootForm
  rw [nextWf_next]
  split
  · exact h
  · dsimp only
    rw [foldl_dueEvent_mem, onHearth_mem]
    exact h

theorem execHearthValuesArrive_wf (quad : Nat) : NextWf (execHearthValuesArrive quad s) := by
  unfold execHearthValuesArrive
  rw [nextWf_next]
  split
  · exact h
  · extract_lets s₁ doms s₂ s₃
    have h₂ : s₂.mem.wf = true := by
      unfold s₂
      rw [spillDue_mem]
      exact commitArrived_wf (foldl_wf (fun s d hs => takeValues_wf hs quad d) _ h)
    have h₃ : s₃.mem.wf = true := by
      unfold s₃
      rw [foldl_mem evKick_mem]
      exact h₂
    clear_value s₃
    split
    · exact h₃
    · exact h₃

theorem execTaskAbort_wf (task : Nat) : NextWf (execTaskAbort task s) := by
  unfold execTaskAbort
  split <;> simp [h]

theorem execHoldTimeout_wf (core lane : Nat) : NextWf (execHoldTimeout core lane s) := by
  unfold execHoldTimeout
  split <;> simp [h]

/-! ### Launch domains and pre-emption -/

theorem execSpatialPreempt_wf (launch : Nat) (quads : List Nat) : NextWf (execSpatialPreempt launch quads s) := by
  have hf (g : Quad → Quad) := foldl_mem (f := fun s q => onQuad s q g) (fun s q => onQuad_mem s q g)
  unfold execSpatialPreempt
  rw [nextWf_next]
  split
  · exact h
  · split
    · exact abortOn_wf (by simp [hf, h]) _
    · exact h

theorem execPreemptDeadline_wf (launch : Nat) : NextWf (execPreemptDeadline launch s) := by
  unfold execPreemptDeadline
  rw [nextWf_next]
  split
  · exact h
  · next x _ =>
    extract_lets s₁ parked stay survivors gone vcs moved s₂ s₃ s₄ s₅ s₆
    have h₁ : s₁.mem.wf = true := abortOn_wf h _
    have h₂ : s₂.mem.wf = true := h₁
    have h₃ : s₃.mem.wf = true := foldl_wf (fun s q hs => replaceTasks_wf hs stay q) _ h₂
    have h₄ : s₄.mem.wf = true := foldl_wf (fun s c hs => moveRanges_wf hs survivors c) _ h₃
    have h₅ : s₅.mem.wf = true := foldl_wf (fun s e hs => by simpa using hs) _ h₄
    have h₆ : s₆.mem.wf = true := foldl_wf (fun s e hs => parkQuad_wf hs launch x.cellar.toNat e.2 e.1) _ h₅
    clear_value s₆ s₅ s₄ s₃ s₂ s₁
    split
    · exact h₁
    · split
      · exact foldl_wf (fun s q hs => by simpa using hs) _ h₁
      · rw [follow_mem]
        exact foldl_wf (fun s q hs => by simpa using hs) _ h₆

theorem execDmaSave_wf (who row : Nat) : NextWf (execDmaSave who row s) := by simp [execDmaSave, h]
theorem execDmaRestore_wf (who row : Nat) : NextWf (execDmaRestore who row s) := by simp [execDmaRestore, h]

theorem execDmaDone_wf (die row : Nat) (ok : Bool) : NextWf (execDmaDone die row ok s) := by
  unfold execDmaDone
  split <;> simp [h]

/-! ### Resets, energy and records -/

theorem execDieNormalReset_wf (who die : Nat) : NextWf (execDieNormalReset who die s) := by simp [execDieNormalReset, h]
theorem execDieAbruptReset_wf (who die : Nat) : NextWf (execDieAbruptReset who die s) := by simp [execDieAbruptReset, h]
theorem execDieResetEnter_wf (die : Nat) : NextWf (execDieResetEnter die s) := by simp [execDieResetEnter, h]
theorem execDieRejoin_wf (who die : Nat) : NextWf (execDieRejoin who die s) := by simp [execDieRejoin, h]

/-! ### Flues and horn ports -/

theorem execFlcmdWrite_wf (who flue : Nat) (value : X) : NextWf (execFlcmdWrite who flue value s) := by
  simp [execFlcmdWrite, h]

theorem execFlueTurnStart_wf (flue : Nat) : NextWf (execFlueTurnStart flue s) := by
  unfold execFlueTurnStart
  extract_lets t x useB early
  have ht : t.mem.wf = true := by simpa [t] using h
  clear_value t x
  rw [nextWf_next]
  split
  · exact ht
  · split
    · exact ht
    · simp [ht]

theorem execFlueGroupTurned_wf (flue : Nat) : NextWf (execFlueGroupTurned flue s) := by
  unfold execFlueGroupTurned
  dsimp only
  split <;> simp [h]

theorem execLinkPacketReceive_wf (flue : Nat) (toB : Bool) (seq : BitVec 16) : NextWf (execLinkPacketReceive flue toB seq s) := by
  simp [execLinkPacketReceive, h]

theorem execLinkRetry_wf (flue : Nat) (toB : Bool) : NextWf (execLinkRetry flue toB s) := by simp [execLinkRetry, h]
theorem execFlueDrowsy_wf (flue : Nat) : NextWf (execFlueDrowsy flue s) := by simp [execFlueDrowsy, h]
theorem execFlueTrained_wf (flue : Nat) : NextWf (execFlueTrained flue s) := by simp [execFlueTrained, h]
theorem execFlueWakeTimeout_wf (flue : Nat) : NextWf (execFlueWakeTimeout flue s) := by simp [execFlueWakeTimeout, h]

/-! ### Engine operations -/

theorem execDieUnresponsive_wf (core lane : Nat) : NextWf (execDieUnresponsive core lane s) := by
  unfold execDieUnresponsive
  rw [nextWf_next]
  split
  · simp [h]
  · split <;> simp [h]

/-! ### Barriers -/

theorem execBarrierForce_wf (who : Nat) (scope : Scope) (die id : Nat) : NextWf (execBarrierForce who scope die id s) := by
  simp [execBarrierForce, h]

theorem execPodBarrierForce_wf (who id : Nat) : NextWf (execPodBarrierForce who id s) := by simp [execPodBarrierForce, h]
theorem execPodBarrierArrival_wf (id : Nat) : NextWf (execPodBarrierArrival id s) := by simp [execPodBarrierArrival, h]
theorem execPodBarrierRelease_wf (id : Nat) : NextWf (execPodBarrierRelease id s) := by simp [execPodBarrierRelease, h]

/-! ### The pod and storage -/

theorem execHornFlitReceive_wf (port : Nat) (seq : BitVec 16) : NextWf (execHornFlitReceive port seq s) := by
  simp [execHornFlitReceive, h]

/-! ### Flues and horn ports -/

theorem execHornRetry_wf (port : Nat) : NextWf (execHornRetry port s) := by simp [execHornRetry, h]
theorem execHornRetrain_wf (port : Nat) : NextWf (execHornRetrain port s) := by simp [execHornRetrain, h]

/-! ### The pod and storage -/

theorem execPodPacketReceive_wf (pkt : PodPacket) : NextWf (execPodPacketReceive pkt s) := by
  unfold execPodPacketReceive
  split
  · simp [h]
  · rw [nextWf_next]
    split
    · exact h
    · split
      · exact atTarget_wf h _ _ _ fun s k hs => by simp [hs]
      · exact atTarget_wf h _ _ _ fun s k hs => by simp [hs]
      · exact atTarget_wf h _ _ _ fun s k hs => ramoSector_wf hs _ _ _ _ _
      · exact podAnswered_wf h _ _
      · exact podAnswered_wf h _ _
      · exact foldl_wf (fun s e hs => by split <;> simp [hs]) _ h

theorem execPodOpTimeout_wf (core slot : Nat) : NextWf (execPodOpTimeout core slot s) := by
  unfold execPodOpTimeout
  split
  · simp [h]
  · rw [nextWf_next]
    split <;> simp [h]

theorem execCollTimeout_wf (core slot : Nat) : NextWf (execCollTimeout core slot s) := by
  unfold execCollTimeout
  split <;> simp [h]

theorem endBlk_wf (c slot : Nat) (op : EngOp) : (execNvmeCompletion.endBlk s c slot op).mem.wf = true := by
  unfold execNvmeCompletion.endBlk
  exact endError_wf (by simpa using h) _ _ _ _ _

theorem execNvmeCompletion_wf (core slot status : Nat) : NextWf (execNvmeCompletion core slot status s) := by
  unfold execNvmeCompletion
  split
  · simp [h]
  · next op _ =>
    extract_lets d q size done qs
    split
    · simp [h]
    · extract_lets q' t u v
      have ht : t.mem.wf = true := by simpa [t] using h
      clear_value t
      have hu : u.mem.wf = true := countSectors_wf ht _ _ _ _ _ _
      clear_value u
      have hv : v.mem.wf = true := by
        unfold v
        split
        · split
          · exact issueCommands_wf hu _ _ _ _
          · exact hu
        · exact hu
      clear_value v
      split
      · simp [endBlk_wf ht]
      · simp [hv]

theorem execXblkTimeout_wf (core slot : Nat) : NextWf (execXblkTimeout core slot s) := by
  unfold execXblkTimeout
  split
  · simp [h]
  · simp [h, endBlk_wf]

/-! ### Resets, energy and records -/

theorem execEnergyCharge_wf (charges : List (Nat × Nat × Nat)) : NextWf (execEnergyCharge charges s) := by
  simp [execEnergyCharge, h]

theorem execEnergyAccountWrite_wf (who acct off n : Nat) (value : BitVec 256) :
    NextWf (execEnergyAccountWrite who acct off n value s) := by simp [execEnergyAccountWrite, h]

theorem execPowerLimitThrottle_wf (quad : Nat) : NextWf (execPowerLimitThrottle quad s) := by simp [execPowerLimitThrottle, h]

theorem execFreqChangeDone_wf (quad : Nat) : NextWf (execFreqChangeDone quad s) := by
  unfold execFreqChangeDone
  rw [nextWf_next]
  split
  · exact h
  · exact foldl_wf (fun s j hs => by simpa using hs) _ (by simpa using h)

theorem execThermalThrottle_wf (quad : Nat) : NextWf (execThermalThrottle quad s) := by simp [execThermalThrottle, h]
theorem execThermalDieReset_wf (die : Nat) : NextWf (execThermalDieReset die s) := by simp [execThermalDieReset, h]

theorem execThermalShutdown_wf : NextWf (execThermalShutdown s) := by
  unfold execThermalShutdown
  rw [nextWf_next, onPkg_mem]
  exact foldl_wf (fun s d hs => resetDie_wf (by simpa using hs) d) _ h

theorem execPackageReset_wf (verdict : Fin 4) : NextWf (execPackageReset verdict s) := by
  unfold execPackageReset
  extract_lets outside stat reset pkg host sched t u
  have ht : t.mem.wf = true := memFilter_wf h _
  clear_value t
  have hu : u.mem = t.mem := foldl_mem (fun t f => (dueEvent_mem _ _).trans (setFlue_mem _ _ _)) _ t
  clear_value u
  rw [nextWf_next]
  split
  · rw [bootAccepted_mem, hu]
    exact ht
  · rw [hu]
    exact ht

theorem execFunctionReady_wf (idx : Nat) : NextWf (execFunctionReady idx s) := by simp [execFunctionReady, h]
theorem execFunctionFailed_wf (idx : Nat) : NextWf (execFunctionFailed idx s) := by simp [execFunctionFailed, h]

theorem execLmDoubleBitError_wf (core word : Nat) : NextWf (execLmDoubleBitError core word s) := by
  simp [execLmDoubleBitError, h]

theorem execHbmUncorrectableError_wf (line : Nat) : NextWf (execHbmUncorrectableError line s) := by
  have hf := foldl_mem (f := fun s i => poisonAt s (line / 256 * 256 + 64 * i)) fun s i => poisonAt_mem s _
  unfold execHbmUncorrectableError
  rw [nextWf_next]
  split
  · exact h
  · split <;> simp [hf, h]

theorem execThermalThrottleEnd_wf (quad : Nat) : NextWf (execThermalThrottleEnd quad s) := by simp [execThermalThrottleEnd, h]
theorem execDieRejoinComplete_wf (die : Nat) : NextWf (execDieRejoinComplete die s) := by simp [execDieRejoinComplete, h]

/-! ### Flues and horn ports -/

theorem execHornPortTrained_wf (port : Nat) : NextWf (execHornPortTrained port s) := by simp [execHornPortTrained, h]
end

end Sys2Proof.Machine
end

section
/-! O57, part 5: dispatch, issue and step keep the canonical form. -/

namespace Sys2Proof.Machine
open Sys2Proof.Safety

/-! ### Dispatch -/

/-- Every instruction and event keeps the canonical form, arm by arm: an instruction by the rule of its shape, the others by the
rules above. -/
theorem exec_wf {s : State} (h : s.mem.wf = true) : ∀ i, NextWf (exec i s)
  | .movC o => (laneOp_wf h _ _ : NextWf (execMovC o s))
  | .addC o => (laneOp_wf h _ _ : NextWf (execAddC o s))
  | .subC o => (laneOp_wf h _ _ : NextWf (execSubC o s))
  | .andC o => (laneOp_wf h _ _ : NextWf (execAndC o s))
  | .orC o => (laneOp_wf h _ _ : NextWf (execOrC o s))
  | .xorC o => (laneOp_wf h _ _ : NextWf (execXorC o s))
  | .shlC o => (laneOp_wf h _ _ : NextWf (execShlC o s))
  | .shrC o => (laneOp_wf h _ _ : NextWf (execShrC o s))
  | .sraC o => (laneOp_wf h _ _ : NextWf (execSraC o s))
  | .addiC o => (laneOp_wf h _ _ : NextWf (execAddiC o s))
  | .ldiC o => (laneOp_wf h _ _ : NextWf (execLdiC o s))
  | .shliC o => (laneOp_wf h _ _ : NextWf (execShliC o s))
  | .shriC o => (laneOp_wf h _ _ : NextWf (execShriC o s))
  | .sraiC o => (laneOp_wf h _ _ : NextWf (execSraiC o s))
  | .andiC o => (laneOp_wf h _ _ : NextWf (execAndiC o s))
  | .negC o => (laneOp_wf h _ _ : NextWf (execNegC o s))
  | .ldI64C o => (stateOp_wf h _ (loadOp_wf h _) : NextWf (execLdI64C o s))
  | .stI64C o => (stateOp_wf h _ (storeOp_wf h _) : NextWf (execStI64C o s))
  | .ldI32C o => (stateOp_wf h _ (loadOp_wf h _) : NextWf (execLdI32C o s))
  | .stI32C o => (stateOp_wf h _ (storeOp_wf h _) : NextWf (execStI32C o s))
  | .vaddC o => (vecOp_wf h _ _ _ : NextWf (execVaddC o s))
  | .vmulC o => (vecOp_wf h _ _ _ : NextWf (execVmulC o s))
  | .vsubC o => (vecOp_wf h _ _ _ : NextWf (execVsubC o s))
  | .vldC o => (stateOp_wf h _ (vecLoad_wf h _ _) : NextWf (execVldC o s))
  | .vstC o => (stateOp_wf h _ (vecStore_wf h _ _) : NextWf (execVstC o s))
  | .bzC o => (branch_wf h _ _ _ _ : NextWf (execBzC o s))
  | .bnzC o => (branch_wf h _ _ _ _ : NextWf (execBnzC o s))
  | .jmprC o => (jump_wf h _ _ _ _ _ : NextWf (execJmprC o s))
  | .retC o => (jump_wf h _ _ _ _ _ : NextWf (execRetC o s))
  | .doneC o => (doneOp_wf h _ : NextWf (execDoneC o s))
  | .nopC o => (laneOp_wf h _ _ : NextWf (execNopC o s))
  | .brkC o => execBrkC_wf h o
  | .add o => (laneOp_wf h _ _ : NextWf (execAdd o s))
  | .sub o => (laneOp_wf h _ _ : NextWf (execSub o s))
  | .neg o => (laneOp_wf h _ _ : NextWf (execNeg o s))
  | .mul o => (laneOp_wf h _ _ : NextWf (execMul o s))
  | .mulhi o => (laneOp_wf h _ _ : NextWf (execMulhi o s))
  | .mulhiu o => (laneOp_wf h _ _ : NextWf (execMulhiu o s))
  | .div o => (stateOp_wf h _ (by simp [h]) : NextWf (execDiv o s))
  | .divu o => (stateOp_wf h _ (by simp [h]) : NextWf (execDivu o s))
  | .rem o => (stateOp_wf h _ (by simp [h]) : NextWf (execRem o s))
  | .remu o => (stateOp_wf h _ (by simp [h]) : NextWf (execRemu o s))
  | .and o => (laneOp_wf h _ _ : NextWf (execAnd o s))
  | .or o => (laneOp_wf h _ _ : NextWf (execOr o s))
  | .xor o => (laneOp_wf h _ _ : NextWf (execXor o s))
  | .andn o => (laneOp_wf h _ _ : NextWf (execAndn o s))
  | .shl o => (laneOp_wf h _ _ : NextWf (execShl o s))
  | .shr o => (laneOp_wf h _ _ : NextWf (execShr o s))
  | .sra o => (laneOp_wf h _ _ : NextWf (execSra o s))
  | .rot o => (laneOp_wf h _ _ : NextWf (execRot o s))
  | .min o => (laneOp_wf h _ _ : NextWf (execMin o s))
  | .max o => (laneOp_wf h _ _ : NextWf (execMax o s))
  | .minu o => (laneOp_wf h _ _ : NextWf (execMinu o s))
  | .maxu o => (laneOp_wf h _ _ : NextWf (execMaxu o s))
  | .abs o => (laneOp_wf h _ _ : NextWf (execAbs o s))
  | .clz o => (laneOp_wf h _ _ : NextWf (execClz o s))
  | .ctz o => (laneOp_wf h _ _ : NextWf (execCtz o s))
  | .popc o => (laneOp_wf h _ _ : NextWf (execPopc o s))
  | .brev o => (laneOp_wf h _ _ : NextWf (execBrev o s))
  | .bswap o => (laneOp_wf h _ _ : NextWf (execBswap o s))
  | .sext o => (laneOp_wf h _ _ : NextWf (execSext o s))
  | .zext o => (laneOp_wf h _ _ : NextWf (execZext o s))
  | .cmp o => (laneOp_wf h _ _ : NextWf (execCmp o s))
  | .mov o => (laneOp_wf h _ _ : NextWf (execMov o s))
  | .addi o => (laneOp_wf h _ _ : NextWf (execAddi o s))
  | .muli o => (laneOp_wf h _ _ : NextWf (execMuli o s))
  | .andi o => (laneOp_wf h _ _ : NextWf (execAndi o s))
  | .ori o => (laneOp_wf h _ _ : NextWf (execOri o s))
  | .xori o => (laneOp_wf h _ _ : NextWf (execXori o s))
  | .shli o => (laneOp_wf h _ _ : NextWf (execShli o s))
  | .shri o => (laneOp_wf h _ _ : NextWf (execShri o s))
  | .srai o => (laneOp_wf h _ _ : NextWf (execSrai o s))
  | .roti o => (laneOp_wf h _ _ : NextWf (execRoti o s))
  | .ldi o => (laneOp_wf h _ _ : NextWf (execLdi o s))
  | .lea o => (laneOp_wf h _ _ : NextWf (execLea o s))
  | .cmpi o => (laneOp_wf h _ _ : NextWf (execCmpi o s))
  | .br o => (branch_wf h _ _ _ _ : NextWf (execBr o s))
  | .bz o => (branch_wf h _ _ _ _ : NextWf (execBz o s))
  | .bnz o => (branch_wf h _ _ _ _ : NextWf (execBnz o s))
  | .bpAny o => (branch_wf h _ _ _ _ : NextWf (execBpAny o s))
  | .bpAll o => (branch_wf h _ _ _ _ : NextWf (execBpAll o s))
  | .bpNone o => (branch_wf h _ _ _ _ : NextWf (execBpNone o s))
  | .jmp o => (jump_wf h _ _ _ _ _ : NextWf (execJmp o s))
  | .call o => (jump_wf h _ _ _ _ _ : NextWf (execCall o s))
  | .jmpr o => (jump_wf h _ _ _ _ _ : NextWf (execJmpr o s))
  | .callr o => (jump_wf h _ _ _ _ _ : NextWf (execCallr o s))
  | .ret o => (jump_wf h _ _ _ _ _ : NextWf (execRet o s))
  | .loop o => execLoop_wf h o
  | .done o => (doneOp_wf h _ : NextWf (execDone o s))
  | .nop o => (laneOp_wf h _ _ : NextWf (execNop o s))
  | .trap o => execTrap_wf h o
  | .brk o => execBrk_wf h o
  | .ld o => (stateOp_wf h _ (loadOp_wf h _) : NextWf (execLd o s))
  | .st o => (stateOp_wf h _ (storeOp_wf h _) : NextWf (execSt o s))
  | .vld o => (stateOp_wf h _ (vecLoad_wf h _ _) : NextWf (execVld o s))
  | .vst o => (stateOp_wf h _ (vecStore_wf h _ _) : NextWf (execVst o s))
  | .ldx o => (stateOp_wf h _ (loadOp_wf h _) : NextWf (execLdx o s))
  | .stx o => (stateOp_wf h _ (storeOp_wf h _) : NextWf (execStx o s))
  | .vlds o => (stateOp_wf h _ (vecLoad_wf h _ _) : NextWf (execVlds o s))
  | .vsts o => (stateOp_wf h _ (vecStore_wf h _ _) : NextWf (execVsts o s))
  | .vgth o => (stateOp_wf h _ (vecLoad_wf h _ _) : NextWf (execVgth o s))
  | .vsct o => (stateOp_wf h _ (vecStore_wf h _ _) : NextWf (execVsct o s))
  | .vscta o => (stateOp_wf h _ (vecScatterAdd_wf h _ _ _) : NextWf (execVscta o s))
  | .pref o => (laneOp_wf h _ _ : NextWf (execPref o s))
  | .waitc o => (laneOp_wf h _ _ : NextWf (execWaitc o s))
  | .vadd o => (vecOp_wf h _ _ _ : NextWf (execVadd o s))
  | .vsub o => (vecOp_wf h _ _ _ : NextWf (execVsub o s))
  | .vmul o => (vecOp_wf h _ _ _ : NextWf (execVmul o s))
  | .vfma o => (vecOp_wf h _ _ _ : NextWf (execVfma o s))
  | .vfms o => (vecOp_wf h _ _ _ : NextWf (execVfms o s))
  | .vfnma o => (vecOp_wf h _ _ _ : NextWf (execVfnma o s))
  | .vneg o => (vecOp_wf h _ _ _ : NextWf (execVneg o s))
  | .vabs o => (vecOp_wf h _ _ _ : NextWf (execVabs o s))
  | .vmin o => (vecOp_wf h _ _ _ : NextWf (execVmin o s))
  | .vmax o => (vecOp_wf h _ _ _ : NextWf (execVmax o s))
  | .vminn o => (vecOp_wf h _ _ _ : NextWf (execVminn o s))
  | .vmaxn o => (vecOp_wf h _ _ _ : NextWf (execVmaxn o s))
  | .vrcp o => (vecOp_wf h _ _ _ : NextWf (execVrcp o s))
  | .vrsq o => (vecOp_wf h _ _ _ : NextWf (execVrsq o s))
  | .vsqrt o => (vecLong_wf h _ _ _ : NextWf (execVsqrt o s))
  | .vdiv o => (vecLong_wf h _ _ _ : NextWf (execVdiv o s))
  | .vexp2 o => (vecOp_wf h _ _ _ : NextWf (execVexp2 o s))
  | .vlog2 o => (vecOp_wf h _ _ _ : NextWf (execVlog2 o s))
  | .vand o => (vecOp_wf h _ _ _ : NextWf (execVand o s))
  | .vor o => (vecOp_wf h _ _ _ : NextWf (execVor o s))
  | .vxor o => (vecOp_wf h _ _ _ : NextWf (execVxor o s))
  | .vshl o => (vecOp_wf h _ _ _ : NextWf (execVshl o s))
  | .vshr o => (vecOp_wf h _ _ _ : NextWf (execVshr o s))
  | .vsra o => (vecOp_wf h _ _ _ : NextWf (execVsra o s))
  | .vperm o => (vecOp_wf h _ _ _ : NextWf (execVperm o s))
  | .vdot o => (vecOp_wf h _ _ _ : NextWf (execVdot o s))
  | .vlut o => (vecOp_wf h _ _ _ : NextWf (execVlut o s))
  | .vdistL2sq o => (vecOp_wf h _ _ _ : NextWf (execVdistL2sq o s))
  | .vdistIp o => (vecOp_wf h _ _ _ : NextWf (execVdistIp o s))
  | .vdistCos o => (vecOp_wf h _ _ _ : NextWf (execVdistCos o s))
  | .vnorm o => (vecOp_wf h _ _ _ : NextWf (execVnorm o s))
  | .pset o => (laneOp_wf h _ _ : NextWf (execPset o s))
  | .pand o => (laneOp_wf h _ _ : NextWf (execPand o s))
  | .por o => (laneOp_wf h _ _ : NextWf (execPor o s))
  | .pxor o => (laneOp_wf h _ _ : NextWf (execPxor o s))
  | .pandn o => (laneOp_wf h _ _ : NextWf (execPandn o s))
  | .pnot o => (laneOp_wf h _ _ : NextWf (execPnot o s))
  | .pcnt o => (laneOp_wf h _ _ : NextWf (execPcnt o s))
  | .pfirst o => (laneOp_wf h _ _ : NextWf (execPfirst o s))
  | .pmovxToP o => (laneOp_wf h _ _ : NextWf (execPmovxToP o s))
  | .pmovxToX o => (laneOp_wf h _ _ : NextWf (execPmovxToX o s))
  | .send o => (stateOp_wf h _ (by simp [h]) : NextWf (execSend o s))
  | .sendv o => (stateOp_wf h _ (by simp [h]) : NextWf (execSendv o s))
  | .sendo o => (stateOp_wf h _ (by simp [h]) : NextWf (execSendo o s))
  | .spawn o => (stateOp_wf h _ (by simp [h]) : NextWf (execSpawn o s))
  | .spawnc o => execSpawnc_wf h o
  | .joinat o => execJoinat_wf h o
  | .tsrd o => (laneOp_wf h _ _ : NextWf (execTsrd o s))
  | .abortt o => (abortOp_wf h _ _ : NextWf (execAbortt o s))
  | .aborttDrop o => (abortOp_wf h _ _ : NextWf (execAborttDrop o s))
  | .range o => (stateOp_wf h _ (by simp [h]) : NextWf (execRange o s))
  | .chunk o => (stateOp_wf h _ (by simp [h]) : NextWf (execChunk o s))
  | .steal o => execSteal_wf h o
  | .actor o => execActor_wf h o
  | .sbcfg o => (stateOp_wf h _ (by simp [h]) : NextWf (execSbcfg o s))
  | .push o => (stateOp_wf h _ (by simp [h]) : NextWf (execPush o s))
  | .pop o => (stateOp_wf h _ (by simp [h]) : NextWf (execPop o s))
  | .hvw o => execHvw_wf h o
  | .vaddX o => (vecOp_wf h _ _ _ : NextWf (execVaddX o s))
  | .vsubX o => (vecOp_wf h _ _ _ : NextWf (execVsubX o s))
  | .vmulX o => (vecOp_wf h _ _ _ : NextWf (execVmulX o s))
  | .vfmaX o => (vecOp_wf h _ _ _ : NextWf (execVfmaX o s))
  | .vfmsX o => (vecOp_wf h _ _ _ : NextWf (execVfmsX o s))
  | .vfnmaX o => (vecOp_wf h _ _ _ : NextWf (execVfnmaX o s))
  | .vnegX o => (vecOp_wf h _ _ _ : NextWf (execVnegX o s))
  | .vabsX o => (vecOp_wf h _ _ _ : NextWf (execVabsX o s))
  | .vminX o => (vecOp_wf h _ _ _ : NextWf (execVminX o s))
  | .vmaxX o => (vecOp_wf h _ _ _ : NextWf (execVmaxX o s))
  | .vminnX o => (vecOp_wf h _ _ _ : NextWf (execVminnX o s))
  | .vmaxnX o => (vecOp_wf h _ _ _ : NextWf (execVmaxnX o s))
  | .vrcpX o => (vecOp_wf h _ _ _ : NextWf (execVrcpX o s))
  | .vrsqX o => (vecOp_wf h _ _ _ : NextWf (execVrsqX o s))
  | .vsqrtX o => (vecLong_wf h _ _ _ : NextWf (execVsqrtX o s))
  | .vdivX o => (vecLong_wf h _ _ _ : NextWf (execVdivX o s))
  | .vexp2X o => (vecOp_wf h _ _ _ : NextWf (execVexp2X o s))
  | .vlog2X o => (vecOp_wf h _ _ _ : NextWf (execVlog2X o s))
  | .vandX o => (vecOp_wf h _ _ _ : NextWf (execVandX o s))
  | .vorX o => (vecOp_wf h _ _ _ : NextWf (execVorX o s))
  | .vxorX o => (vecOp_wf h _ _ _ : NextWf (execVxorX o s))
  | .vshlX o => (vecOp_wf h _ _ _ : NextWf (execVshlX o s))
  | .vshrX o => (vecOp_wf h _ _ _ : NextWf (execVshrX o s))
  | .vsraX o => (vecOp_wf h _ _ _ : NextWf (execVsraX o s))
  | .vpermX o => (vecOp_wf h _ _ _ : NextWf (execVpermX o s))
  | .vdotX o => (vecOp_wf h _ _ _ : NextWf (execVdotX o s))
  | .vlutX o => (vecOp_wf h _ _ _ : NextWf (execVlutX o s))
  | .vdistL2sqX o => (vecOp_wf h _ _ _ : NextWf (execVdistL2sqX o s))
  | .vdistIpX o => (vecOp_wf h _ _ _ : NextWf (execVdistIpX o s))
  | .vdistCosX o => (vecOp_wf h _ _ _ : NextWf (execVdistCosX o s))
  | .vnormX o => (vecOp_wf h _ _ _ : NextWf (execVnormX o s))
  | .vcmp o => (guardedVec_wf h _ _ _ : NextWf (execVcmp o s))
  | .vsel o => (laneOp_wf h _ _ : NextWf (execVsel o s))
  | .vcvt o => (laneOp_wf h _ _ : NextWf (execVcvt o s))
  | .vround o => (vecOp_wf h _ _ _ : NextWf (execVround o s))
  | .vclamp o => (vecOp_wf h _ _ _ : NextWf (execVclamp o s))
  | .vsplat o => (laneOp_wf h _ _ : NextWf (execVsplat o s))
  | .vextr o => (guardedVec_wf h _ _ _ : NextWf (execVextr o s))
  | .vins o => (laneOp_wf h _ _ : NextWf (execVins o s))
  | .viota o => (laneOp_wf h _ _ : NextWf (execViota o s))
  | .vslide o => (laneOp_wf h _ _ : NextWf (execVslide o s))
  | .vcomp o => (laneOp_wf h _ _ : NextWf (execVcomp o s))
  | .vexpd o => (laneOp_wf h _ _ : NextWf (execVexpd o s))
  | .vred o => (laneOp_wf h _ _ : NextWf (execVred o s))
  | .vscan o => (laneOp_wf h _ _ : NextWf (execVscan o s))
  | .topk o => (topkOp_wf h _ _ : NextWf (execTopk o s))
  | .topkm o => (topkOp_wf h _ _ : NextWf (execTopkm o s))
  | .sel o => (guardedLaneOp_wf h _ _ _ : NextWf (execSel o s))
  | .madd o => (guardedLaneOp_wf h _ _ _ : NextWf (execMadd o s))
  | .bfx o => (guardedLaneOp_wf h _ _ _ : NextWf (execBfx o s))
  | .bfxu o => (guardedLaneOp_wf h _ _ _ : NextWf (execBfxu o s))
  | .bfi o => (guardedLaneOp_wf h _ _ _ : NextWf (execBfi o s))
  | .ldiL o => (laneOp_wf h _ _ : NextWf (execLdiL o s))
  | .ldih o => (laneOp_wf h _ _ : NextWf (execLdih o s))
  | .jmpL o => (jump_wf h _ _ _ _ _ : NextWf (execJmpL o s))
  | .callL o => (jump_wf h _ _ _ _ _ : NextWf (execCallL o s))
  | .ldX o => (guardedStateOp_wf h _ _ (loadOp_wf h _) : NextWf (execLdX o s))
  | .stX o => (guardedStateOp_wf h _ _ (storeOp_wf h _) : NextWf (execStX o s))
  | .amo o => (guardedStateOp_wf h _ _ (atomicOp_wf h _ _ _ _ _) : NextWf (execAmo o s))
  | .cas o => (guardedStateOp_wf h _ _ (atomicOp_wf h _ _ _ _ _) : NextWf (execCas o s))
  | .vldX o => (stateOp_wf h _ (vecLoad_wf h _ _) : NextWf (execVldX o s))
  | .vstX o => (stateOp_wf h _ (vecStore_wf h _ _) : NextWf (execVstX o s))
  | .vgthX o => (stateOp_wf h _ (vecLoad_wf h _ _) : NextWf (execVgthX o s))
  | .vsctX o => (stateOp_wf h _ (vecStore_wf h _ _) : NextWf (execVsctX o s))
  | .vsctaX o => (stateOp_wf h _ (vecScatterAdd_wf h _ _ _) : NextWf (execVsctaX o s))
  | .xcopyIn o => (stateOp_wf h _ (moverOp_wf h _) : NextWf (execXcopyIn o s))
  | .xcopyOut o => (stateOp_wf h _ (moverOp_wf h _) : NextWf (execXcopyOut o s))
  | .xcopyXx o => (stateOp_wf h _ (moverOp_wf h _) : NextWf (execXcopyXx o s))
  | .xgather o => (stateOp_wf h _ (moverOp_wf h _) : NextWf (execXgather o s))
  | .xscatter o => (stateOp_wf h _ (moverOp_wf h _) : NextWf (execXscatter o s))
  | .xred o => (stateOp_wf h _ (moverOp_wf h _) : NextWf (execXred o s))
  | .xfill o => (stateOp_wf h _ (moverOp_wf h _) : NextWf (execXfill o s))
  | .xblkRd o => (stateOp_wf h _ (blkOp_wf h _ _ _) : NextWf (execXblkRd o s))
  | .xblkWr o => (stateOp_wf h _ (blkOp_wf h _ _ _) : NextWf (execXblkWr o s))
  | .xblkFlush o => (stateOp_wf h _ (blkOp_wf h _ _ _) : NextWf (execXblkFlush o s))
  | .txinit o => execTxinit_wf h o
  | .txarr o => execTxarr_wf h o
  | .txexp o => execTxexp_wf h o
  | .txwait o => execTxwait_wf h o
  | .txtest o => execTxtest_wf h o
  | .txtestErr o => execTxtestErr_wf h o
  | .shfence o => (stateOp_wf h _ (by simp [h]) : NextWf (execShfence o s))
  | .shpf o => execShpf_wf h o
  | .tcfg o => execTcfg_wf h o
  | .tld o => (stateOp_wf h _ (tileMove_wf h _ _) : NextWf (execTld o s))
  | .tst o => (stateOp_wf h _ (tileMove_wf h _ _) : NextWf (execTst o s))
  | .tzero o => execTzero_wf h o
  | .trow o => execTrow_wf h o
  | .tsetrow o => execTsetrow_wf h o
  | .msk o => execMsk_wf h o
  | .gwld o => execGwld_wf h o
  | .gmma o => (gangOp_wf h fun i => gmmaIssue_wf h _ _ i : NextWf (execGmma o s))
  | .gmmas o => (gangOp_wf h fun i => gmmaIssue_wf h _ _ i : NextWf (execGmmas o s))
  | .gmmag o => (gangOp_wf h fun i => gmmagIssue_wf h _ i : NextWf (execGmmag o s))
  | .gacc o => execGacc_wf h o
  | .gaccz o => execGaccz_wf h o
  | .evcfg o => execEvcfg_wf h o
  | .evinj o => execEvinj_wf h o
  | .evrd o => (stateOp_wf h _ (by simp [h]) : NextWf (execEvrd o s))
  | .evwr o => execEvwr_wf h o
  | .evfan o => execEvfan_wf h o
  | .evstat o => (stateOp_wf h _ (by simp [h]) : NextWf (execEvstat o s))
  | .bar o => (barOp_wf h _ _ : NextWf (execBar o s))
  | .bara o => (barOp_wf h _ _ : NextWf (execBara o s))
  | .barw o => (barOp_wf h _ _ : NextWf (execBarw o s))
  | .fturn o => (guardedStateOp_wf h _ _ (by simp [h]) : NextWf (execFturn o s))
  | .get o => (stateOp_wf h _ (podOp_wf h _ _ _ _ _ _ _ _) : NextWf (execGet o s))
  | .put o => (stateOp_wf h _ (podOp_wf h _ _ _ _ _ _ _ _) : NextWf (execPut o s))
  | .ramo o => (stateOp_wf h _ (podOp_wf h _ _ _ _ _ _ _ _) : NextWf (execRamo o s))
  | .collAllred o => (stateOp_wf h _ (collOp_wf h _ _ _) : NextWf (execCollAllred o s))
  | .collAllgth o => (stateOp_wf h _ (collOp_wf h _ _ _) : NextWf (execCollAllgth o s))
  | .collRedsct o => (stateOp_wf h _ (collOp_wf h _ _ _) : NextWf (execCollRedsct o s))
  | .collBar o => (stateOp_wf h _ (collOp_wf h _ _ _) : NextWf (execCollBar o s))
  | .bop o => (stateOp_wf h _ (bankIssue_wf h _ _ _ _ _) : NextWf (execBop o s))
  | .bred o => (stateOp_wf h _ (bankIssue_wf h _ _ _ _ _) : NextWf (execBred o s))
  | .bvec o => (stateOp_wf h _ (bankIssue_wf h _ _ _ _ _) : NextWf (execBvec o s))
  | .sysr o => execSysr_wf h o
  | .sysw o => (stateOp_wf h _ (by simp [h]) : NextWf (execSysw o s))
  | .icflush o => (guardedStateOp_wf h _ _ (by simp [h]) : NextWf (execIcflush o s))
  | .enrd o => execEnrd_wf h o
  | .lresume o => (resumeOp_wf h _ _ : NextWf (execLresume o s))
  | .lstep o => (resumeOp_wf h _ _ : NextWf (execLstep o s))
  | .lkill o => execLkill_wf h o
  | .tlbi o => execTlbi_wf h o
  | .hintSpace o => (laneOp_wf h _ _ : NextWf (execHintSpace o s))
  | .dispatch core => execDispatch_wf h core
  | .laneAged core lane => execLaneAged_wf h core lane
  | .laneUnblock core lane => execLaneUnblock_wf h core lane
  | .resultArrival core lane idx => execResultArrival_wf h core lane idx
  | .storePerformed core lane => execStorePerformed_wf h core lane
  | .faultFreeze core lane => execFaultFreeze_wf h core lane
  | .faultRingWrite die => execFaultRingWrite_wf h die
  | .messageAccept src dst => execMessageAccept_wf h src dst
  | .sendQueueReoffer src dst => execSendQueueReoffer_wf h src dst
  | .remotePushAccept src dst => execRemotePushAccept_wf h src dst
  | .taskAccept core => execTaskAccept_wf h core
  | .taskSpillReturn quad => execTaskSpillReturn_wf h quad
  | .stealRequest core lane => execStealRequest_wf h core lane
  | .stealAnswer core lane => execStealAnswer_wf h core lane
  | .eventAccept src dst => execEventAccept_wf h src dst
  | .eventSpillReturn core => execEventSpillReturn_wf h core
  | .eventDelivery core => execEventDelivery_wf h core
  | .eventDiscard core => execEventDiscard_wf h core
  | .fanoutEmit core => execFanoutEmit_wf h core
  | .fireMessagePost core => execFireMessagePost_wf h core
  | .asyncOpStart core queue slot => execAsyncOpStart_wf h core queue slot
  | .gangForm quad seat => execGangForm_wf h quad seat
  | .gangTimeout quad seat => execGangTimeout_wf h quad seat
  | .gangPositionExpiry quad seat => execGangPositionExpiry_wf h quad seat
  | .gangComplete quad => execGangComplete_wf h quad
  | .tileOpComplete core seat => execTileOpComplete_wf h core seat
  | .engineSectorComplete core slot sector data => execEngineSectorComplete_wf h core slot sector data
  | .engctlReplay who core slot => execEngctlReplay_wf h who core slot
  | .engctlFail who core slot => execEngctlFail_wf h who core slot
  | .txBarrierUpdate core => execTxBarrierUpdate_wf h core
  | .reduceSectorApply core slot sector => execReduceSectorApply_wf h core slot sector
  | .bankSectorApply core slot sector => execBankSectorApply_wf h core slot sector
  | .pageWalkComplete core va acc => execPageWalkComplete_wf h core va acc
  | .transientRequest core line write => execTransientRequest_wf h core line write
  | .transientTimeout core line => execTransientTimeout_wf h core line
  | .persistentRequest core line => execPersistentRequest_wf h core line
  | .persistentDeactivate die line => execPersistentDeactivate_wf h die line
  | .directoryRequest die line write => execDirectoryRequest_wf h die line write
  | .directoryRecall die line all => execDirectoryRecall_wf h die line all
  | .backInvalidate line => execBackInvalidate_wf h line
  | .hostMemWrite pa n value => execHostMemWrite_wf h pa n value
  | .hostMemRead pa n => execHostMemRead_wf h pa n
  | .spawnWindowStore off n value => execSpawnWindowStore_wf h off n value
  | .launchCommand off n value => execLaunchCommand_wf h off n value
  | .launchTake plan => execLaunchTake_wf h plan
  | .launchEnd launch verdict => execLaunchEnd_wf h launch verdict
  | .lstatRead => execLstatRead_wf h
  | .spwstatRead => execSpwstatRead_wf h
  | .attdropRead => execAttdropRead_wf h
  | .attreq value => execAttreq_wf h value
  | .attestationReport => execAttestationReport_wf h
  | .cctlRcflush who core => execCctlRcflush_wf h who core
  | .cctlFrzall who core => execCctlFrzall_wf h who core
  | .cctlHold who core hold => execCctlHold_wf h who core hold
  | .lctlFrzreq who core lane req => execLctlFrzreq_wf h who core lane req
  | .debugFrameWrite who core lane off n value => execDebugFrameWrite_wf h who core lane off n value
  | .registerWrite who pa n value => execRegisterWrite_wf h who pa n value
  | .domainCreate who slot value => execDomainCreate_wf h who slot value
  | .domainSuspend who slot => execDomainSuspend_wf h who slot
  | .domainResume who slot => execDomainResume_wf h who slot
  | .domainRetire who slot => execDomainRetire_wf h who slot
  | .hearthRoundStart => execHearthRoundStart_wf h
  | .hearthRootForm => execHearthRootForm_wf h
  | .hearthValuesArrive quad => execHearthValuesArrive_wf h quad
  | .taskAbort task => execTaskAbort_wf h task
  | .holdTimeout core lane => execHoldTimeout_wf h core lane
  | .spatialPreempt launch quads => execSpatialPreempt_wf h launch quads
  | .preemptDeadline launch => execPreemptDeadline_wf h launch
  | .dmaSave who row => execDmaSave_wf h who row
  | .dmaRestore who row => execDmaRestore_wf h who row
  | .dmaDone die row ok => execDmaDone_wf h die row ok
  | .dieNormalReset who die => execDieNormalReset_wf h who die
  | .dieAbruptReset who die => execDieAbruptReset_wf h who die
  | .dieResetEnter die => execDieResetEnter_wf h die
  | .dieRejoin who die => execDieRejoin_wf h who die
  | .flcmdWrite who flue value => execFlcmdWrite_wf h who flue value
  | .flueTurnStart flue => execFlueTurnStart_wf h flue
  | .flueGroupTurned flue => execFlueGroupTurned_wf h flue
  | .linkPacketReceive flue toB seq => execLinkPacketReceive_wf h flue toB seq
  | .linkRetry flue toB => execLinkRetry_wf h flue toB
  | .flueDrowsy flue => execFlueDrowsy_wf h flue
  | .flueTrained flue => execFlueTrained_wf h flue
  | .flueWakeTimeout flue => execFlueWakeTimeout_wf h flue
  | .dieUnresponsive core lane => execDieUnresponsive_wf h core lane
  | .barrierForce who scope die id => execBarrierForce_wf h who scope die id
  | .podBarrierForce who id => execPodBarrierForce_wf h who id
  | .podBarrierArrival id => execPodBarrierArrival_wf h id
  | .podBarrierRelease id => execPodBarrierRelease_wf h id
  | .hornFlitReceive port seq => execHornFlitReceive_wf h port seq
  | .hornRetry port => execHornRetry_wf h port
  | .hornRetrain port => execHornRetrain_wf h port
  | .podPacketReceive pkt => execPodPacketReceive_wf h pkt
  | .podOpTimeout core slot => execPodOpTimeout_wf h core slot
  | .collTimeout core slot => execCollTimeout_wf h core slot
  | .nvmeCompletion core slot status => execNvmeCompletion_wf h core slot status
  | .xblkTimeout core slot => execXblkTimeout_wf h core slot
  | .energyCharge charges => execEnergyCharge_wf h charges
  | .energyAccountWrite who acct off n value => execEnergyAccountWrite_wf h who acct off n value
  | .powerLimitThrottle quad => execPowerLimitThrottle_wf h quad
  | .freqChangeDone quad => execFreqChangeDone_wf h quad
  | .thermalThrottle quad => execThermalThrottle_wf h quad
  | .thermalDieReset die => execThermalDieReset_wf h die
  | .thermalShutdown => execThermalShutdown_wf h
  | .packageReset verdict => execPackageReset_wf h verdict
  | .functionReady idx => execFunctionReady_wf h idx
  | .functionFailed idx => execFunctionFailed_wf h idx
  | .lmDoubleBitError core word => execLmDoubleBitError_wf h core word
  | .hbmUncorrectableError line => execHbmUncorrectableError_wf h line
  | .thermalThrottleEnd quad => execThermalThrottleEnd_wf h quad
  | .dieRejoinComplete die => execDieRejoinComplete_wf h die
  | .hornPortTrained port => execHornPortTrained_wf h port

/-! ### Lanes at their turn -/

/-- What keeps a lane from issuing changes no byte. -/
theorem heldBack_mem {s t : State} {c l : Nat} (ht : heldBack s c l = some t) : t.mem = s.mem := by
  unfold heldBack at ht
  extract_lets x clear at ht
  clear_value clear
  split at ht
  · obtain rfl := Option.some.inj ht
    rw [takeFault_mem, setLane_mem, focusOn_mem]
  · split at ht
    · obtain rfl := Option.some.inj ht
      rw [takeFault_mem, setLane_mem, focusOn_mem]
    · split at ht
      · obtain rfl := Option.some.inj ht
        rw [requestFreeze_mem]
      · split at ht
        · obtain rfl := Option.some.inj ht
          rw [freeze_mem]
        · split at ht
          · obtain rfl := Option.some.inj ht
            rw [setLane_mem]
          · obtain ⟨w, -, rfl⟩ := Option.map_eq_some_iff.1 ht
            rw [setLane_mem]

theorem readied_mem (s : State) (c l n w : Nat) : (readied s c l n w).mem = s.mem := by
  unfold readied
  rw [focusOn_mem]
  split
  · rfl
  · rw [setLane_mem]

theorem fetchStopped_wf {s : State} (h : s.mem.wf = true) (c l : Nat) (e : Stop) : (fetchStopped s c l e).mem.wf = true := by
  unfold fetchStopped
  split
  · split
    · next ht =>
      rw [earlyFault_mem, focusOn_mem]
      exact fetchHalf_wf h _ _ _ _ ht
    · simp [h]
  · simp [h]
  · simp [h]
  · exact h

theorem issue_wf {s : State} (h : s.mem.wf = true) (c l : Nat) : PlanWf (issue s c l) := by
  unfold issue
  split
  · exact h
  · split
    · next ht =>
      rw [planWf_stay, heldBack_mem ht]
      exact h
    · split
      · exact fetchStopped_wf h _ _ _
      · next t n w hf =>
        have ht : t.mem.wf = true := fetchInstr_wf h c l _ hf
        have hr : (readied t c l n w).mem.wf = true := readied_mem t c l n w ▸ ht
        split
        · rw [planWf_stay, hitFreeze_mem]
          exact ht
        · split
          · exact hr
          · rw [planWf_stay, illegalIssue_mem]
            exact hr

theorem eligible_wf {s : State} (h : s.mem.wf = true) (c l : Nat) : (eligible s c l).1.mem.wf = true := by
  have hp := issue_wf h c l
  unfold eligible
  split
  · exact h
  · split
    · next hi =>
      rw [hi] at hp
      split
      · exact h
      · exact hp
    · next hi =>
      rw [hi] at hp
      split
      · next hu =>
        split
        · exact exec_wf hp _ _ hu
        · exact h
      · exact h

theorem competing_wf {s : State} (h : s.mem.wf = true) (c : Nat) (vector : Bool) (lanes : List Nat) :
    (competing s c vector lanes).1.mem.wf = true :=
  List.foldlRecOn lanes _ (motive := fun r : State × List Nat => r.1.mem.wf = true) h fun _ hr l _ => eligible_wf hr c l

theorem grant_mem (s : State) (c : Nat) (vector : Bool) (lanes : List Nat) : (grant s c vector lanes).1.mem = s.mem := by
  unfold grant
  split
  · rfl
  · dsimp only
    rw [onCore_mem, foldl_mem fun s l => onLaneAt_mem s c l passedOver]

theorem arbitrate_wf {s : State} (h : s.mem.wf = true) (c : Nat) : (arbitrate s c).mem.wf = true := by
  unfold arbitrate
  dsimp only
  rw [grant_mem]
  exact competing_wf h _ _ _

theorem vectorTurn_wf {s : State} (h : s.mem.wf = true) (c : Nat) (taken : Option Nat) : (vectorTurn s c taken).mem.wf = true := by
  unfold vectorTurn
  dsimp only
  rw [grant_mem]
  exact competing_wf h _ _ _

theorem coreTurn_wf {s : State} (h : s.mem.wf = true) (c : Nat) : (coreTurn s c).mem.wf = true := by
  have hu (s : State) := foldl_mem (f := fun s l => unblock s c l) (fun s l => unblock_mem s c l) (List.range 16) s
  unfold coreTurn
  refine arbitrate_wf (dispatchCore_wf ?_ c) c
  rw [retry_mem]
  refine foldl_wf (fun s l hs => ?_) _ ((hu s).symm ▸ h)
  dsimp only
  split
  · rw [requestFreeze_mem]
    exact hs
  · exact hs

/-! ### Plans and steps -/

theorem focusTurn_wf {s : State} (h : s.mem.wf = true) : (focusTurn s).mem.wf = true := by
  unfold focusTurn
  dsimp only
  split
  · exact coreTurn_wf h _
  · exact h

theorem eventTurn_wf {s : State} (h : s.mem.wf = true) (rest : List Turn) (i : Instr) : PlanWf (eventTurn s rest i) := by
  unfold eventTurn
  split
  · exact h
  · exact focusTurn_wf h

theorem plan_wf {s : State} (h : s.mem.wf = true) : PlanWf (plan s) := by
  unfold plan
  split
  · rw [planWf_stay]
    split
    · exact h
    · exact focusTurn_wf h
  · extract_lets sched rest'
    have hr : rest'.mem.wf = true := h
    clear_value rest'
    split
    · exact hr
    · split
      · exact issue_wf hr _ _
      · exact coreTurn_wf hr _
      · exact vectorTurn_wf hr _ _
      · exact eventTurn_wf h _ _
      · exact eventTurn_wf h _ _

theorem step_wf {s : State} (h : s.mem.wf = true) : NextWf (step s) := by
  have hp := plan_wf h
  unfold step
  split
  · next hs =>
    rw [hs] at hp
    exact (nextWf_next _).2 hp
  · next hs =>
    rw [hs] at hp
    exact exec_wf hp _

/-- Settles O57: each of the two plans of a step starts from a canonical memory, and each arm of `exec` keeps it canonical. -/
theorem memoryStaysCanonical : Obligations.MemoryStaysCanonical :=
  fun _ t h ht => step_wf h t ht

end Sys2Proof.Machine
end

section
/-! O58: the parts of the reset state, each read as the reset value of its kind, since no table lists an entry. -/

namespace Sys2Proof.Machine

@[simp] theorem coreOf_reset (c : Nat) : coreOf State.reset c = Core.reset := rfl

@[simp] theorem laneOf_reset (c l : Nat) : laneOf State.reset c l = Lane.reset := by
  simp [laneOf, Core.reset]

@[simp] theorem dieOf_reset (d : Nat) : dieOf State.reset d = Die.reset := rfl

@[simp] theorem quadOf_reset (q : Nat) : quadOf State.reset q = Quad.reset := rfl

@[simp] theorem flueOf_reset (f : Nat) : flueOf State.reset f = Flue.reset (if f < 8 then 8 else 4) := rfl

/-- R23: of the lane-state block, XFULL and VFULL are all ones, SRSTATE is 1, and every other field is 0. -/
theorem laneState_reset : laneState Lane.reset = BitVec.ofNat 512 (0xFFFFFFFFFFFFFFFF * 2 ^ 64 + 2 ^ 352) := by
  decide +kernel

/-- Every comparator of a core is off at reset (R219). -/
theorem comparators_reset (i : Fin 8) : Core.reset.ctl.comparators[i] = ⟨0, 0, 0, false, false, false, 0⟩ := by
  simp [Core.reset]

/-- The weight sets of a core are empty at reset (R224). -/
theorem weights_reset (i : Fin 2) : Core.reset.stove.weights[i].fmt = none := by
  simp [Core.reset, WeightSet.reset]

/-- GSTAT reads 0 at reset (R249). -/
theorem gstat_reset (i : Fin 2) : Quad.reset.gstat[i] = 0 := by
  simp [Quad.reset]

/-- Settles O58: each unit reads as its reset value; what the tables of a core or a quad hold is the same for every index. -/
theorem resetState : Obligations.ResetState := by
  unfold Obligations.ResetState
  simp only [coreOf_reset, laneOf_reset, dieOf_reset, quadOf_reset, flueOf_reset]
  exact ⟨reset_mem_wf, fun _ _ => ⟨rfl, laneState_reset, rfl, rfl, rfl⟩,
    fun _ => ⟨rfl, rfl, rfl, rfl, rfl, comparators_reset, weights_reset⟩,
    fun _ => ⟨rfl, rfl, rfl, rfl, rfl, rfl⟩,
    fun _ => ⟨rfl, gstat_reset⟩,
    fun _ => ⟨rfl, rfl, rfl, rfl⟩, rfl, rfl, rfl, rfl⟩

end Sys2Proof.Machine
end

section
/-! Rules of the lane in focus that the frames (O52) and the events of a lane (O43) share: one lane written leaves the rest of the
machine, and what each register operation does to the marks. -/

namespace Sys2Proof.Machine
open Sys2Proof.Safety

/-! ### A lane written -/

/-- Writing a lane leaves the parts of every core that hold no lanes. -/
theorem coreOf_setLane_part {α : Type} {f : Core → α} (hf : ∀ k l x, f (setLaneC k l x) = f k) (s : State) (c l : Nat) (x : Lane)
    (d : Nat) : f (coreOf (setLane s c l x) d) = f (coreOf s d) := by
  by_cases h : c = d
  · subst h
    rw [coreOf_setLane_same, hf]
  · rw [coreOf_setLane_other s l x h]

@[simp] theorem coreOf_setLane_ctl (s : State) (c l : Nat) (x : Lane) (d : Nat) :
    (coreOf (setLane s c l x) d).ctl = (coreOf s d).ctl := coreOf_setLane_part setLaneC_ctl s c l x d
@[simp] theorem coreOf_setLane_msg (s : State) (c l : Nat) (x : Lane) (d : Nat) :
    (coreOf (setLane s c l x) d).msg = (coreOf s d).msg := coreOf_setLane_part setLaneC_msg s c l x d
@[simp] theorem coreOf_setLane_ev (s : State) (c l : Nat) (x : Lane) (d : Nat) :
    (coreOf (setLane s c l x) d).ev = (coreOf s d).ev := coreOf_setLane_part setLaneC_ev s c l x d
@[simp] theorem coreOf_setLane_eng (s : State) (c l : Nat) (x : Lane) (d : Nat) :
    (coreOf (setLane s c l x) d).eng = (coreOf s d).eng := coreOf_setLane_part setLaneC_eng s c l x d
@[simp] theorem coreOf_setLane_stove (s : State) (c l : Nat) (x : Lane) (d : Nat) :
    (coreOf (setLane s c l x) d).stove = (coreOf s d).stove := coreOf_setLane_part setLaneC_stove s c l x d

/-- Of two writes of one lane the last stands. -/
@[simp] theorem setLane_setLane (s : State) (c l : Nat) (x y : Lane) : setLane (setLane s c l x) c l y = setLane s c l y := by
  have hk (k : Core) : setLaneC (setLaneC k l x) l y = setLaneC k l y := by simp [setLaneC]
  simp [setLane, onCore, setCore, coreOf, smSet_smSet_same, hk]

@[simp] theorem setCur_setCur (s : State) (x y : Lane) : setCur (setCur s x) y = setCur s y := setLane_setLane s _ _ x y

/-- A lane of the focus aside, writing the lane in focus changes no lane. -/
theorem laneOf_setCur_apart (s : State) (x : Lane) {c l : Nat} (h : c ≠ s.sched.core ∨ laneIx l ≠ laneIx s.sched.lane) :
    laneOf (setCur s x) c l = laneOf s c l := laneOf_setCur_other s x (h.imp Ne.symm Ne.symm)

theorem othersKept_setCur (s : State) (x : Lane) : OthersKept s (setCur s x) where
  mem _ := rfl
  poison := rfl
  quads := rfl
  hearth := rfl
  pkg := rfl
  lanes _ _ h := laneOf_setCur_apart s x h
  msg := coreOf_setLane_msg s _ _ x
  ev := coreOf_setLane_ev s _ _ x
  eng := coreOf_setLane_eng s _ _ x
  stove := coreOf_setLane_stove s _ _ x

theorem machineKept_setCur (s : State) (x : Lane) : MachineKept s (setCur s x) where
  quads := rfl
  dies := rfl
  hearth := rfl
  pkg := rfl
  lanes _ _ h := laneOf_setCur_apart s x h
  ctl := coreOf_setLane_ctl s _ _ x
  msg := coreOf_setLane_msg s _ _ x
  ev := coreOf_setLane_ev s _ _ x
  eng := coreOf_setLane_eng s _ _ x
  stove := coreOf_setLane_stove s _ _ x

/-- An event made due is no change of what `OthersKept` speaks of. -/
theorem othersKept_dueEvent {s t : State} (h : OthersKept s t) (d : Due) : OthersKept s (dueEvent t d) :=
  ⟨h.mem, h.poison, h.quads, h.hearth, h.pkg, h.lanes, h.msg, h.ev, h.eng, h.stove⟩

/-- An event made due is no change of what `MachineKept` speaks of. -/
theorem machineKept_dueEvent {s t : State} (h : MachineKept s t) (d : Due) : MachineKept s (dueEvent t d) :=
  ⟨h.quads, h.dies, h.hearth, h.pkg, h.lanes, h.ctl, h.msg, h.ev, h.eng, h.stove⟩

/-! ### Register masks and registers -/

@[simp] theorem getElem_setBit (m : BitVec 32) (r q : Reg) : (setBit m r)[q.val] = (m[q.val] || decide (r = q)) := by
  simp [setBit, Fin.ext_iff, eq_comm (a := r.val)]

@[simp] theorem getElem_clearBit (m : BitVec 32) (r q : Reg) : (clearBit m r)[q.val] = (m[q.val] && !decide (r = q)) := by
  simp [clearBit, Fin.ext_iff, eq_comm (a := r.val)]

theorem putX_zero (l : Lane) (v : X) : putX l 0 v = l := by simp [putX]

theorem putP_zero (l : Lane) (v : P) : putP l 0 v = l := by simp [putP]

/-- A written x register reads as the value. -/
theorem getX_putX_same (l : Lane) {d : Reg} (v : X) (h : d ≠ 0) : getX (putX l d v) d = v := by
  simp [getX, putX, h]

/-- A written x register is live (R27). -/
theorem putX_live (l : Lane) {d : Reg} (v : X) (h : d ≠ 0) : (putX l d v).marks.xdead.getLsbD d.val = false := by
  simp [putX, h]

theorem putX_x_other (l : Lane) {d r : Reg} (v : X) (h : d ≠ r) : (putX l d v).regs.x[r] = l.regs.x[r] := by
  have hv : d.val ≠ r.val := fun e => h (Fin.ext e)
  unfold putX
  split
  · rfl
  · simp [hv]

theorem putX_v (l : Lane) (d : Reg) (v : X) : (putX l d v).regs.v = l.regs.v := by unfold putX; split <;> rfl
theorem putX_p (l : Lane) (d : Reg) (v : X) : (putX l d v).regs.p = l.regs.p := by unfold putX; split <;> rfl
theorem putX_xfull (l : Lane) (d : Reg) (v : X) : (putX l d v).marks.xfull = l.marks.xfull := by unfold putX; split <;> rfl
theorem putX_vfull (l : Lane) (d : Reg) (v : X) : (putX l d v).marks.vfull = l.marks.vfull := by unfold putX; split <;> rfl

/-- A written v register holds the value. -/
theorem putV_v_same (l : Lane) (d : Reg) (v : V) : (putV l d v).regs.v[d] = v := by simp [putV]

/-- A written v register is live (R27). -/
theorem putV_live (l : Lane) (d : Reg) (v : V) : (putV l d v).marks.vdead.getLsbD d.val = false := by
  simp [putV]

theorem putV_v_other (l : Lane) {d r : Reg} (v : V) (h : d ≠ r) : (putV l d v).regs.v[r] = l.regs.v[r] := by
  have hv : d.val ≠ r.val := fun e => h (Fin.ext e)
  simp [putV, hv]

theorem putP_p_other (l : Lane) {d r : PReg} (v : P) (h : d ≠ r) : (putP l d v).regs.p[r] = l.regs.p[r] := by
  have hv : d.val ≠ r.val := fun e => h (Fin.ext e)
  unfold putP
  split
  · rfl
  · simp [hv]

theorem putP_x (l : Lane) (d : PReg) (v : P) : (putP l d v).regs.x = l.regs.x := by unfold putP; split <;> rfl
theorem putP_v (l : Lane) (d : PReg) (v : P) : (putP l d v).regs.v = l.regs.v := by unfold putP; split <;> rfl

/-! ### Last-use sources (R27) -/

theorem kill_cons (l : Lane) (o : Opnd) (srcs : List Opnd) : kill l (o :: srcs) = kill (killOpnd l o) srcs := rfl

theorem killOpnd_xfull (l : Lane) (o : Opnd) : (killOpnd l o).marks.xfull = l.marks.xfull := by
  unfold killOpnd; cases o <;> dsimp only <;> split <;> rfl

theorem killOpnd_vfull (l : Lane) (o : Opnd) : (killOpnd l o).marks.vfull = l.marks.vfull := by
  unfold killOpnd; cases o <;> dsimp only <;> split <;> rfl

theorem kill_xfull (l : Lane) (srcs : List Opnd) : (kill l srcs).marks.xfull = l.marks.xfull := by
  induction srcs generalizing l with
  | nil => rfl
  | cons o t ih => rw [kill_cons, ih, killOpnd_xfull]

theorem kill_vfull (l : Lane) (srcs : List Opnd) : (kill l srcs).marks.vfull = l.marks.vfull := by
  induction srcs generalizing l with
  | nil => rfl
  | cons o t ih => rw [kill_cons, ih, killOpnd_vfull]

/-- An operand kills its x register when it is read for the last time; x0 is never dead. -/
theorem killOpnd_xdead (l : Lane) (o : Opnd) (r : Reg) : (killOpnd l o).marks.xdead.getLsbD r.val = true ↔
    l.marks.xdead.getLsbD r.val = true ∨ (r ≠ 0 ∧ ∃ a, o = .x a ∧ a.last = true ∧ a.reg = r) := by
  cases o with
  | v a => unfold killOpnd; dsimp only; split <;> simp
  | x a =>
    by_cases h : a.last = true ∧ a.reg ≠ 0
    · obtain ⟨hl, h0⟩ := h
      simp only [killOpnd, hl, bne_iff_ne.2 h0, Bool.and_self, if_true, BitVec.getLsbD_eq_getElem, r.isLt, getElem_setBit,
        Bool.or_eq_true, decide_eq_true_eq, Opnd.x.injEq, exists_eq_left', true_and]
      exact or_congr_right ⟨fun e => ⟨e ▸ h0, e⟩, And.right⟩
    · have hk : killOpnd l (.x a) = l := if_neg (by simpa using h)
      have hr : ¬ (r ≠ 0 ∧ ∃ b, Opnd.x a = .x b ∧ b.last = true ∧ b.reg = r) := by
        rintro ⟨h0, b, ⟨⟩, hl, rfl⟩
        exact h ⟨hl, h0⟩
      rw [hk, or_iff_left hr]

/-- An operand kills its v register when it is read for the last time and names no payload register. -/
theorem killOpnd_vdead (l : Lane) (o : Opnd) (r : Reg) : (killOpnd l o).marks.vdead.getLsbD r.val = true ↔
    l.marks.vdead.getLsbD r.val = true ∨ ∃ a, o = .v a ∧ a.last = true ∧ a.trap = false ∧ a.reg = r := by
  cases o with
  | x a => unfold killOpnd; dsimp only; split <;> simp
  | v a =>
    by_cases h : a.last = true ∧ a.trap = false
    · simp [killOpnd, h]
    · have hk : killOpnd l (.v a) = l := if_neg (by simpa using h)
      have hr : ¬ ∃ b, Opnd.v a = .v b ∧ b.last = true ∧ b.trap = false ∧ b.reg = r := by
        rintro ⟨b, ⟨⟩, hl, ht, -⟩
        exact h ⟨hl, ht⟩
      rw [hk, or_iff_left hr]

theorem kill_xdead (l : Lane) (srcs : List Opnd) (r : Reg) : (kill l srcs).marks.xdead.getLsbD r.val = true ↔
    l.marks.xdead.getLsbD r.val = true ∨ (r ≠ 0 ∧ ∃ a, Opnd.x a ∈ srcs ∧ a.last = true ∧ a.reg = r) := by
  induction srcs generalizing l with
  | nil => simp [kill]
  | cons o t ih =>
    rw [kill_cons, ih, killOpnd_xdead, or_assoc, ← and_or_left]
    simp only [List.mem_cons, or_and_right, exists_or, eq_comm]

theorem kill_vdead (l : Lane) (srcs : List Opnd) (r : Reg) : (kill l srcs).marks.vdead.getLsbD r.val = true ↔
    l.marks.vdead.getLsbD r.val = true ∨ ∃ a, Opnd.v a ∈ srcs ∧ a.last = true ∧ a.trap = false ∧ a.reg = r := by
  induction srcs generalizing l with
  | nil => simp [kill]
  | cons o t ih =>
    rw [kill_cons, ih, killOpnd_vdead, or_assoc]
    simp only [List.mem_cons, or_and_right, exists_or, eq_comm]

/-! ### Long-latency producers (R26) -/

theorem emptyDest_xfull (l : Lane) (d : Dest) (q : Reg) : (emptyDest l d).marks.xfull.getLsbD q.val =
    if d = .x q ∧ q ≠ 0 then false else l.marks.xfull.getLsbD q.val := by
  cases d with
  | v r => simp [emptyDest]
  | x r =>
    by_cases hq : r = q
    · subst hq
      by_cases h0 : r = 0 <;> simp [emptyDest, h0]
    · by_cases h0 : r = 0
      · subst h0
        simp [emptyDest, hq]
      · simp [emptyDest, h0, hq]

theorem emptyDest_vfull (l : Lane) (d : Dest) (q : Reg) : (emptyDest l d).marks.vfull.getLsbD q.val =
    if d = .v q then false else l.marks.vfull.getLsbD q.val := by
  cases d with
  | x r => by_cases h0 : r = 0 <;> simp [emptyDest, h0]
  | v r => by_cases hq : r = q <;> simp [emptyDest, hq]

/-- The lane that `produce` leaves: the destination empty and the result outstanding. -/
def awaiting (l : Lane) (r : Result) : Lane :=
  { emptyDest l r.dest with results := l.results ++ [r], lcnt := if r.counted then l.lcnt + 1 else l.lcnt }

theorem produce_eq (s : State) (r : Result) :
    produce s r = dueEvent (setCur s (awaiting (cur s) r)) (.resultArrival s.sched.core s.sched.lane 0) := by
  simp [produce, awaiting]

/-- A producer completes with its lane awaiting the result, and the arrival due. -/
theorem after_produce (s : State) (k : Lane) (r : Result) (n : Nat) :
    after (produce (setCur s k) r) n (cur (produce (setCur s k) r))
      = dueEvent (setCur s (retire n (awaiting k r))) (.resultArrival s.sched.core s.sched.lane 0) := by
  have h (t : State) (d : Due) (x : Lane) : setCur (dueEvent t d) x = dueEvent (setCur t x) d := rfl
  simp [produce_eq, after, h]

end Sys2Proof.Machine
end

section
/-! O52: the frame of a lane with one register written, and instructions whose guard is off. -/

namespace Sys2Proof.Machine
open Sys2Proof.Safety

/-! ### The lane's frame -/

theorem laneKept_trans {l m k : Lane} {dx dv : Option Reg} {dp : Option PReg} (h : LaneKept l m dx dv dp)
    (h' : LaneKept m k dx dv dp) : LaneKept l k dx dv dp where
  x r hr := (h'.x r hr).trans (h.x r hr)
  v r hr := (h'.v r hr).trans (h.v r hr)
  p r hr := (h'.p r hr).trans (h.p r hr)
  xfull := h'.xfull.trans h.xfull
  vfull := h'.vfull.trans h.vfull
  firing := h'.firing.trans h.firing
  lcnt := h'.lcnt.trans h.lcnt
  scnt := h'.scnt.trans h.scnt
  results := h'.results.trans h.results

/-- A lane whose registers, full marks and outstanding work are the same is kept, whatever the destinations. -/
theorem laneKept_of_eq {l m : Lane} (hr : m.regs = l.regs) (hx : m.marks.xfull = l.marks.xfull) (hv : m.marks.vfull = l.marks.vfull)
    (hf : m.firing = l.firing) (hl : m.lcnt = l.lcnt) (hs : m.scnt = l.scnt) (ho : m.results = l.results)
    (dx dv : Option Reg) (dp : Option PReg) : LaneKept l m dx dv dp :=
  ⟨fun _ _ => by rw [hr], fun _ _ => by rw [hr], fun _ _ => by rw [hr], hx, hv, hf, hl, hs, ho⟩

theorem laneKept_retire (n : Nat) (l : Lane) (dx dv : Option Reg) (dp : Option PReg) : LaneKept l (retire n l) dx dv dp :=
  laneKept_of_eq (by simp) (by simp) (by simp) (by simp) (by simp) (by simp) (by simp) dx dv dp

theorem laneKept_kill (l : Lane) (srcs : List Opnd) (dx dv : Option Reg) (dp : Option PReg) : LaneKept l (kill l srcs) dx dv dp :=
  laneKept_of_eq (by simp) (kill_xfull l srcs) (kill_vfull l srcs) (by simp) (by simp) (by simp) (by simp) dx dv dp

theorem laneKept_sr (l : Lane) (sr : BitVec 32) (dx dv : Option Reg) (dp : Option PReg) : LaneKept l { l with sr := sr } dx dv dp :=
  laneKept_of_eq (l := l) (m := { l with sr := sr }) rfl rfl rfl rfl rfl rfl rfl dx dv dp

theorem laneKept_putX (l : Lane) (d : Reg) (v : X) : LaneKept l (putX l d v) (some d) none none where
  x _ hr := putX_x_other l v fun e => hr (congrArg some e)
  v r _ := by rw [putX_v]
  p r _ := by rw [putX_p]
  xfull := putX_xfull l d v
  vfull := putX_vfull l d v
  firing := putX_firing l d v
  lcnt := putX_lcnt l d v
  scnt := putX_scnt l d v
  results := putX_results l d v

theorem laneKept_putV (l : Lane) (d : Reg) (v : V) : LaneKept l (putV l d v) none (some d) none where
  x _ _ := rfl
  v _ hr := putV_v_other l v fun e => hr (congrArg some e)
  p _ _ := rfl
  xfull := rfl
  vfull := rfl
  firing := rfl
  lcnt := rfl
  scnt := rfl
  results := rfl

theorem laneKept_putP (l : Lane) (d : PReg) (v : P) : LaneKept l (putP l d v) none none (some d) where
  x r _ := by rw [putP_x]
  v r _ := by rw [putP_v]
  p _ hr := putP_p_other l v fun e => hr (congrArg some e)
  xfull := by rw [putP_marks]
  vfull := by rw [putP_marks]
  firing := putP_firing l d v
  lcnt := putP_lcnt l d v
  scnt := putP_scnt l d v
  results := putP_results l d v

/-- A lane changed after its sources are read, and then retired, is kept as the change keeps it. -/
theorem laneKept_completed {l m : Lane} {srcs : List Opnd} {dx dv : Option Reg} {dp : Option PReg}
    (h : LaneKept (kill l srcs) m dx dv dp) (n : Nat) : LaneKept l (retire n m) dx dv dp :=
  laneKept_trans (laneKept_kill l srcs dx dv dp) (laneKept_trans h (laneKept_retire n m dx dv dp))

/-! ### The frame of an instruction -/

/-- Instructions that write the lane in focus alone leave the rest of the package. -/
theorem kept_setCur (s : State) (x : Lane) : OthersKept s (setCur s x) ∧ MachineKept s (setCur s x) :=
  ⟨othersKept_setCur s x, machineKept_setCur s x⟩

/-- A long-latency producer empties its destination and changes no register; its result is the lane's last outstanding one (R26). -/
theorem produce_frame (s : State) (srcs : List Opnd) (n : Nat) (r : Result) :
    let t := produce (setCur s (kill (cur s) srcs)) r
    OthersKept s (after t n (cur t)) ∧ MachineKept s (after t n (cur t)) ∧ (cur (after t n (cur t))).regs = (cur s).regs
      ∧ (cur (after t n (cur t))).results = (cur s).results ++ [r]
      ∧ (cur (after t n (cur t))).lcnt = (cur s).lcnt + (if r.counted then 1 else 0)
      ∧ (∀ q : Reg, (cur (after t n (cur t))).marks.xfull.getLsbD q.val =
          if r.dest = .x q ∧ q ≠ 0 then false else (cur s).marks.xfull.getLsbD q.val)
      ∧ ∀ q : Reg, (cur (after t n (cur t))).marks.vfull.getLsbD q.val =
          if r.dest = .v q then false else (cur s).marks.vfull.getLsbD q.val := by
  intro t
  have ht : after t n (cur t) = dueEvent (setCur s (retire n (awaiting (kill (cur s) srcs) r))) _ := after_produce s _ r n
  simp only [ht, cur_dueEvent, cur_setCur, retire_regs, retire_results, retire_lcnt, retire_marks]
  refine ⟨othersKept_dueEvent (othersKept_setCur s _) _, machineKept_dueEvent (machineKept_setCur s _) _, ?_, ?_, ?_, ?_, ?_⟩
  · simp [awaiting]
  · simp [awaiting]
  · cases hc : r.counted <;> simp [awaiting, hc]
  · exact fun q => (emptyDest_xfull _ _ q).trans (by rw [kill_xfull])
  · exact fun q => (emptyDest_vfull _ _ q).trans (by rw [kill_vfull])

theorem frames_hold : Claims.Frames := by
  unfold Claims.Frames
  refine ⟨fun s _ _ => kept_setCur s _, fun s _ _ => kept_setCur s _, ?_, ?_, ?_, ?_, ?_, ?_, ?_, ?_, ?_⟩
  · exact fun n l srcs d v => laneKept_completed (laneKept_putX _ d v) n
  · exact fun n l srcs d v sr => laneKept_completed (laneKept_trans (laneKept_putV _ d v) (laneKept_sr _ sr _ _ _)) n
  · exact fun n l srcs d v => laneKept_completed (laneKept_putP _ d v) n
  · exact fun n l => laneKept_retire n l none none none
  · intro n l srcs d v
    rw [retire_sr, putX_sr, kill_sr]
  · exact fun l v w => ⟨putX_zero l v, putP_zero l w, rfl, rfl⟩
  · exact fun l d v w => ⟨fun h => ⟨getX_putX_same l v h, putX_live l v h⟩, putV_v_same l d w, putV_live l d w⟩
  · exact fun l srcs r => ⟨kill_xdead l srcs r, kill_vdead l srcs r⟩
  · exact produce_frame

/-! ### Guards (R47) -/

/-- The system registers of R106 that every lane may read without being a supervisor's have a value. -/
theorem sysr_readable (s : State) : ∀ n ∈ [0x000, 0x001, 0x002, 0x003, 0x004, 0x008, 0x009, 0x00A, 0x010, 0x040, 0x041, 0x042],
    n < 0x800 ∧ ((sysRead s n).isSome || (meterRead s n).isSome) = true := by
  simp [sysRead, meterRead]

/-- SYSR checks its number whatever its guard; with the guard off it does no more. -/
theorem execSysr_off {s : State} {o : SysrOp} (h : guardOn (cur s) o.guard = false)
    (hn : o.num.toNat ∈ [0x000, 0x001, 0x002, 0x003, 0x004, 0x008, 0x009, 0x00A, 0x010, 0x040, 0x041, 0x042]) :
    execSysr o s = .next (after s 8 (cur s)) := by
  obtain ⟨hlow, hsome⟩ := sysr_readable s _ hn
  exact stateOp_ok (by simp only [sysAllowed, need, hlow, hsome, h, bind_ok, decide_true, Bool.true_or, if_true, Bool.not_false])

/-- SYSW of SRSTATE with its guard off does no more than check its number. -/
theorem execSysw_off {s : State} {o : SyswOp} (h : guardOn (cur s) o.guard = false) (hn : o.num = 0x004) :
    execSysw o s = .next (after s 8 (cur s)) :=
  stateOp_ok (by simp [hn, sysAllowed, need, h, bind_ok])

theorem barOp_off {s : State} {o : BarOp} (h : guardOn (cur s) o.guard = false) (what : BarDo) :
    barOp what o s = .next (after s 8 (cur s)) := by
  simp [barOp, h, after]

theorem guardedVec_off {s : State} {g : PReg} {srcs : List Opnd} (f : Lane → Except Stop Lane) (h : guardOn (cur s) g = false)
    (hs : srcs.any (opndIllegal (cur s)) = false) : guardedVec g srcs f s = .next (after s 8 (cur s)) :=
  laneOp_ok (by simp only [h, hs, Bool.false_eq_true, if_false])

/-- A payload register named outside a handler firing is illegal even with the guard off (R55). -/
theorem guardedVec_off_illegal {s : State} {g : PReg} {srcs : List Opnd} (f : Lane → Except Stop Lane)
    (h : guardOn (cur s) g = false) (hs : srcs.any (opndIllegal (cur s)) = true) :
    guardedVec g srcs f s = .next (takeFault s .illegal 0) :=
  laneOp_error (e := .fault .illegal 0) (by simp only [h, hs, Bool.false_eq_true, if_false, if_true, trap])

theorem supervisorOnly_ok {s : State} (h : isSup s.sched.core = true) : supervisorOnly s = .ok () := if_pos h

theorem resumeOp_off {s : State} {o : LresumeOp} (hs : isSup s.sched.core = true) (h : guardOn (cur s) o.guard = false)
    (step : Bool) : resumeOp step o s = .next (after s 8 (cur s)) := by
  unfold resumeOp
  rw [supervisorOnly_ok hs]
  exact guardedStateOp_off h

theorem execLkill_off {s : State} {o : LkillOp} (hs : isSup s.sched.core = true) (h : guardOn (cur s) o.guard = false) :
    execLkill o s = .next (after s 8 (cur s)) := by
  unfold execLkill
  rw [supervisorOnly_ok hs]
  exact guardedStateOp_off h

/-- TLBI with its guard off waits for no sector either. -/
theorem execTlbi_off {s : State} {o : TlbiOp} (hs : isSup s.sched.core = true) (h : guardOn (cur s) o.guard = false) :
    execTlbi o s = .next (after s 8 (cur s)) := by
  unfold execTlbi
  rw [supervisorOnly_ok hs]
  simp only [h, Bool.false_and, Bool.false_eq_true, if_false]
  exact guardedStateOp_off h

theorem guardOff_holds : Claims.GuardOff := by
  intro s g hg none'
  have off : guardOn (cur s) g = false := hg
  refine ⟨?_, ?_, ?_, ?_, ?_, ?_, ?_, ?_, ?_, ?_, ?_, ?_, ?_, fun hs => ⟨?_, ?_, ?_⟩⟩
  · rintro o rfl; exact (guardedStateOp_off off : execLdX o s = _)
  · rintro o rfl; exact (guardedStateOp_off off : execStX o s = _)
  · rintro o rfl; exact (guardedStateOp_off off : execAmo o s = _)
  · rintro o rfl; exact (guardedStateOp_off off : execCas o s = _)
  · rintro o rfl hn; exact execSysr_off off hn
  · rintro o rfl hn; exact execSysw_off off hn
  · rintro o rfl; exact (guardedStateOp_off off : execEnrd o s = _)
  · rintro o rfl; exact ⟨barOp_off off .both, barOp_off off .arrive, barOp_off off .wait⟩
  · rintro o rfl; exact (guardedStateOp_off off : execIcflush o s = _)
  · rintro o rfl; exact (guardedStateOp_off off : execFturn o s = _)
  · rintro o rfl hs; exact (guardedVec_off _ off hs : execVcmp o s = _)
  · rintro o rfl hs; exact (guardedVec_off _ off hs : execVextr o s = _)
  · rintro o rfl hs; exact (guardedVec_off_illegal _ off hs : execVcmp o s = _)
  · rintro o rfl; exact ⟨resumeOp_off hs off false, resumeOp_off hs off true⟩
  · rintro o rfl; exact execLkill_off hs off
  · rintro o rfl; exact execTlbi_off hs off

/-- Settles O52: the frame of a lane written once, and of a producer; each guarded instruction is one of a few shapes, whose rule
with the guard off says that it only counts. -/
theorem framesAndGuards : Obligations.FramesAndGuards := ⟨frames_hold, guardOff_holds⟩

end Sys2Proof.Machine
end

section
/-! O43, part 1: the events of a lane (R24, R26, R32, R149, R213, R218) and the packet ring (R216). -/

namespace Sys2Proof.Machine
open Sys2Proof.Safety

/-! ### Lanes that do not drain -/

@[simp] theorem laneOf_dueEvent (s : State) (e : Due) (c l : Nat) : laneOf (dueEvent s e) c l = laneOf s c l := rfl

@[simp] theorem dieOf_dueEvent (s : State) (e : Due) (d : Nat) : dieOf (dueEvent s e) d = dieOf s d := rfl

theorem drain_of_not_draining {s : State} {c l : Nat} (h : (laneOf s c l).status ≠ .draining) : drain s c l = s := by
  simp [drain, h]

/-- A Draining lane with every register full and no join counter becomes Free (R24). -/
theorem drain_drained {s : State} {c l : Nat} (h : (laneOf s c l).status = .draining)
    (hx : (laneOf s c l).marks.xfull ||| 1 = BitVec.allOnes 32) (hv : (laneOf s c l).marks.vfull = BitVec.allOnes 32)
    (hj : (laneOf s c l).firing.join = none) : drain s c l = setLane s c l (freed (laneOf s c l)) := by
  simp only [drain, h, hx, hv, hj, BEq.rfl, Bool.and_self, if_true]

/-! ### Results and stores (R26, R149) -/

/-- The lane with its outstanding result `ix` no longer outstanding and `v` in its register. -/
def resultWritten (x : Lane) (ix : Nat) (r : Result) (v : V) : Lane :=
  fillDest { x with results := x.results.eraseIdx ix, lcnt := if r.counted then x.lcnt - 1 else x.lcnt } r.dest v

theorem resultWritten_status (x : Lane) (ix : Nat) (r : Result) (v : V) : (resultWritten x ix r v).status = x.status :=
  fillDest_status _ _ _
theorem resultWritten_frz (x : Lane) (ix : Nat) (r : Result) (v : V) : (resultWritten x ix r v).frz = x.frz := fillDest_frz _ _ _
theorem resultWritten_results (x : Lane) (ix : Nat) (r : Result) (v : V) : (resultWritten x ix r v).results = x.results.eraseIdx ix :=
  fillDest_results _ _ _

/-- The lane is to freeze before its next issue, with the address and the instruction of its first poisoned result (R153). -/
def poisonMarked (x : Lane) (m : X × X) : Lane := { x with frz := { x.frz with poisoned := some (x.frz.poisoned.getD m) } }

section
variable {s : State} {c l ix : Nat} {r : Result} (hr : (laneOf s c l).results[ix]? = some r)
  (hd : (laneOf s c l).status ≠ .draining)
include hr hd

/-- A result without poison is written; the last one that a pending fault waits for makes the freeze due (R213). -/
theorem resultArrival_clean (hp : r.poisonAt = none) : exec (.resultArrival c l ix) s = .next
    (if ((laneOf s c l).results.eraseIdx ix).isEmpty && (laneOf s c l).frz.pending.isSome
     then dueEvent (setLane s c l (resultWritten (laneOf s c l) ix r r.value)) (.faultFreeze c l)
     else setLane s c l (resultWritten (laneOf s c l) ix r r.value)) := by
  have hu : (laneOf (setLane s c l (resultWritten (laneOf s c l) ix r r.value)) c l).status ≠ .draining := by
    rw [laneOf_setLane_same, resultWritten_status]
    exact hd
  have hres : execResultArrival c l ix s = .next (drain (if (resultWritten (laneOf s c l) ix r r.value).results.isEmpty
      && (resultWritten (laneOf s c l) ix r r.value).frz.pending.isSome
      then dueEvent (setLane s c l (resultWritten (laneOf s c l) ix r r.value)) (.faultFreeze c l)
      else setLane s c l (resultWritten (laneOf s c l) ix r r.value)) c l) := by
    simp only [execResultArrival, hr, hp]
    rfl
  show execResultArrival c l ix s = _
  rw [hres, resultWritten_results, resultWritten_frz]
  split
  · rw [drain_of_not_draining (by rw [laneOf_dueEvent]; exact hu)]
  · rw [drain_of_not_draining hu]

/-- A poisoned result is zero, and the lane is marked to freeze (R153). -/
theorem resultArrival_poisoned {a : X} (hp : r.poisonAt = some a) (hf : (laneOf s c l).frz.pending = none) :
    exec (.resultArrival c l ix) s = .next (setLane s c l (poisonMarked (resultWritten (laneOf s c l) ix r 0) (a, r.instr))) := by
  have hdrain : ((resultWritten (laneOf s c l) ix r 0).status == .draining) = false := by
    rw [resultWritten_status]
    simpa using hd
  have hpend : (resultWritten (laneOf s c l) ix r 0).frz.pending = none := by rw [resultWritten_frz, hf]
  have hmarked : laneOf (setLane s c l (poisonMarked (resultWritten (laneOf s c l) ix r 0) (a, r.instr))) c l = _ :=
    laneOf_setLane_same _ _ _ _
  have hres : execResultArrival c l ix s
      = .next (drain (setLane s c l (poisonMarked (resultWritten (laneOf s c l) ix r 0) (a, r.instr))) c l) := by
    simp only [execResultArrival, hr, hp, Option.isSome_some, if_true]
    generalize hx : fillDest _ _ _ = x
    have hx' : resultWritten (laneOf s c l) ix r 0 = x := hx
    rw [hx'] at hdrain hpend ⊢
    simp only [hdrain, hpend, Option.isSome_none, Bool.and_false, Bool.false_eq_true, if_false, setLane_setLane, poisonMarked]
  show execResultArrival c l ix s = _
  rw [hres, drain_of_not_draining]
  rw [hmarked]
  exact fun h => hd ((resultWritten_status _ ix r 0).symm.trans h)

end

theorem eraseIdx_of_length_one {α : Type} {l : List α} {ix : Nat} {a : α} (h : l[ix]? = some a) (hl : l.length = 1) :
    l.eraseIdx ix = [] := by
  obtain ⟨hix, -⟩ := List.getElem?_eq_some_iff.1 h
  exact List.eq_nil_of_length_eq_zero (by rw [List.length_eraseIdx_of_lt hix, hl])

/-! ### Leaving Blocked (R24) -/

theorem unblock_of_not_blocked {s : State} {c l : Nat} (h : (laneOf s c l).status ≠ .blocked) : unblock s c l = s := by
  unfold unblock
  dsimp only
  split
  · next hb _ _ => exact absurd hb h
  · rfl

theorem released_status (s : State) (c : Nat) (x : Lane) (w : Wait) : (released s c x w).status = .ready := by
  cases w <;> simp [released]

theorem xFull_iff (x : Lane) (r : Reg) : xFull x r = true ↔ r = 0 ∨ x.marks.xfull.getLsbD r.val = true := by
  simp only [xFull, Bool.or_eq_true, beq_iff_eq]
  rfl

theorem vFull_iff (x : Lane) (r : Reg) : vFull x r = true ↔ x.marks.vfull.getLsbD r.val = true := Iff.rfl

/-- A waiting lane leaves Blocked when its condition has cleared, and stays as it is otherwise. -/
theorem laneUnblock_waiting {s : State} {c l : Nat} {w : Wait} (hs : (laneOf s c l).status = .blocked)
    (hw : (laneOf s c l).wait = some w) (hf : (laneOf s c l).frz.pending = none) {p : Prop} [Decidable p]
    (hp : waitClear s c l w = true ↔ p) :
    exec (.laneUnblock c l) s = .next (if p then setLane s c l (released s c (laneOf s c l) w) else s) := by
  have hu : unblock s c l = if p then setLane s c l (released s c (laneOf s c l) w) else s := by
    simp only [unblock, hs, hw, hf, hp]
  have hd : (laneOf (unblock s c l) c l).status ≠ .draining := by
    rw [hu]
    split
    · rw [laneOf_setLane_same, released_status]
      exact fun h => nomatch h
    · rw [hs]
      exact fun h => nomatch h
  show Host.Outcome.next (drain (unblock s c l) c l) = _
  rw [drain_of_not_draining hd, hu]

/-! ### Freezing (R213, R218) -/

/-- The packet as core `c` sends it: with its sequence number, its incarnation and the time of its sending (R214). -/
def sentPacket (s : State) (c : Nat) (p : Packet) : Packet :=
  { p with seq := (coreOf s c).ctl.faultSeq, inc := (dieOf s (dieNo c)).inc, gtime := (sampleTime s).sched.gtime }

theorem sendPacket_fpqWait (s : State) (c : Nat) (p : Packet) :
    (dieOf (sendPacket s c false p) (dieNo c)).fpqWait = queuePacket (dieOf s (dieNo c)).fpqWait (sentPacket s c p) := by
  unfold sendPacket
  dsimp only
  rw [dieOf_dueEvent, dieOf_onDie_same]
  rfl

/-- A lane that freezes at once has its frame written back and sends its packet to its die's queue. -/
theorem freezes (s : State) (c l : Nat) (x : Lane) (p : Packet) :
    let t := sendPacket (setLane s c l (frozen x)) c false p
    laneOf t c l = frozen x ∧ t.mem = s.mem
      ∧ (dieOf t (dieNo c)).fpqWait = queuePacket (dieOf s (dieNo c)).fpqWait (sentPacket (setLane s c l (frozen x)) c p)
      ∧ (sentPacket (setLane s c l (frozen x)) c p).seq = (coreOf s c).ctl.faultSeq :=
  ⟨by rw [laneOf_sendPacket, laneOf_setLane_same], rfl, sendPacket_fpqWait _ c p, by simp [sentPacket]⟩

/-- A fault whose results have all arrived freezes its lane (R213). -/
theorem faultFreeze_pending {s : State} {c l : Nat} {p : Packet} (hp : (laneOf s c l).frz.pending = some p)
    (hr : (laneOf s c l).results = []) (hs : (laneOf s c l).status ≠ .frozen) :
    exec (.faultFreeze c l) s = .next (sendPacket (setLane s c l (frozen (laneOf s c l))) c false p) := by
  show execFaultFreeze c l s = _
  simp [execFaultFreeze, hp, hr, hs]

/-- The machine with a lane's freeze request ended (R218). -/
def unrequested (s : State) (c l : Nat) : State :=
  setLane s c l { laneOf s c l with frz := { (laneOf s c l).frz with frzreq := false } }

theorem laneOf_unrequested (s : State) (c l : Nat) :
    laneOf (unrequested s c l) c l = { laneOf s c l with frz := { (laneOf s c l).frz with frzreq := false } } :=
  laneOf_setLane_same s c l _

/-- The packet of a requested freeze: a comparator's, with 0xFF for the comparator (R218). -/
def requestPacket (s : State) (c l : Nat) : Packet := { packetFor (unrequested s c l) c l .comparator 0 0 with aux := 0xFF }

/-- A requested freeze ends its request (R218). -/
theorem faultFreeze_requested {s : State} {c l : Nat} (hp : (laneOf s c l).frz.pending = none) (hq : (laneOf s c l).frz.frzreq = true)
    (hs : (laneOf s c l).status = .ready) (hr : (laneOf s c l).results = []) :
    exec (.faultFreeze c l) s = .next (sendPacket (setLane (unrequested s c l) c l (frozen (laneOf (unrequested s c l) c l))) c false
      (requestPacket s c l)) := by
  have hreq : execFaultFreeze c l s = .next (freeze (unrequested s c l) c l (requestPacket s c l)) := by
    simp only [execFaultFreeze, hp, hq, hs, BEq.rfl, Bool.true_or, Bool.and_self, if_true]
    rfl
  have hb : (LaneStatus.ready == LaneStatus.frozen) = false := rfl
  show execFaultFreeze c l s = _
  rw [hreq]
  simp only [freeze, laneOf_unrequested, hp, hs, hr, hb, Option.isSome_none, List.isEmpty_nil, Bool.false_eq_true, if_false, if_true]

/-! ### The packet ring (R216) -/

/-- A write of no memory line touches no die. -/
theorem storeKey_dies_of_ge {s : State} {a : Nat} (h : 2 ^ 40 ≤ a) (n v : Nat) : (storeKey s a n v).dies = s.dies := by
  have hlt : ¬ a < 2 ^ 40 := Nat.not_lt.2 h
  have hp (t : State) (u : List Nat) : (if t.poison.isEmpty then t else { t with poison := u }).dies = t.dies := by split <;> rfl
  unfold storeKey putBytes
  rw [if_neg hlt, if_neg hlt]
  exact hp _ _

theorem lmKey_ge (c o : Nat) : 2 ^ 40 ≤ lmKey c o := by unfold lmKey; omega

/-- Bytes written to a canonical memory are stored (R9). -/
theorem stored_storeKey {s : State} (h : MemoryOk s) (a n v : Nat) : Stored s (storeKey s a n v) a n v := by
  intro b
  rw [storeKey_mem]
  exact memGet_memWrite h a n v b

/-- What is stored is seen in memory alone. -/
theorem stored_congr {s t u : State} {a n v : Nat} (hm : u.mem = t.mem) (h : Stored s t a n v) : Stored s u a n v := by
  intro b
  rw [hm]
  exact h b

/-- The LM offset of the slot at the ring's tail (R216). -/
def ringSlot (e : Die) : Nat := (e.fpqBase.toNat + 64 * (e.fpqTail % e.fpqSize)) % 2 ^ 19

/-- The ring has no room: it has no size, or as many packets as its size (R216). -/
def RingFull (e : Die) : Prop := e.fpqSize = 0 ∨ e.fpqSize ≤ (e.fpqTail + 2 ^ 32 - e.fpqHead) % 2 ^ 32

/-- The machine with packet `p` written at the tail of the die's ring, and `rest` still waiting. -/
def ringWritten (s : State) (d : Nat) (p : Packet) (rest : List Packet) : State :=
  onDie (storeKey s (lmKey (supCore d 0) (ringSlot (dieOf s d))) 64 (packetBytes p)) d
    (fun e => { e with fpqWait := rest, fpqTail := (e.fpqTail + 1) % 2 ^ 32 })

section
variable {s : State} {d : Nat} {p : Packet} {rest : List Packet} (hw : (dieOf s d).fpqWait = p :: rest)
include hw

theorem faultRingWrite_full (h : RingFull (dieOf s d)) : exec (.faultRingWrite d) s = .next s := by
  have hfull : (decide ((dieOf s d).fpqSize = 0)
      || decide ((dieOf s d).fpqSize ≤ ((dieOf s d).fpqTail + 2 ^ 32 - (dieOf s d).fpqHead) % 2 ^ 32)) = true := by
    rw [Bool.or_eq_true, decide_eq_true_iff, decide_eq_true_iff]
    exact h
  show execFaultRingWrite d s = _
  unfold execFaultRingWrite
  dsimp only
  rw [hw]
  dsimp only
  rw [if_pos hfull]

theorem faultRingWrite_room (h : ¬ RingFull (dieOf s d)) : exec (.faultRingWrite d) s = .next
    (if rest.isEmpty then ringWritten s d p rest else dueEvent (ringWritten s d p rest) (.faultRingWrite d)) := by
  have hroom : ¬ (decide ((dieOf s d).fpqSize = 0)
      || decide ((dieOf s d).fpqSize ≤ ((dieOf s d).fpqTail + 2 ^ 32 - (dieOf s d).fpqHead) % 2 ^ 32)) = true := by
    rw [Bool.or_eq_true, decide_eq_true_iff, decide_eq_true_iff]
    exact h
  show execFaultRingWrite d s = _
  unfold execFaultRingWrite
  dsimp only
  rw [hw]
  dsimp only
  rw [if_neg hroom]
  unfold ringWritten ringSlot
  rfl

end

/-- The packet's bytes are in its slot, and of the die only the queue and the tail have changed. -/
theorem ringWritten_spec {s : State} (hm : MemoryOk s) (d : Nat) (p : Packet) (rest : List Packet) :
    Stored s (ringWritten s d p rest) (lmKey (supCore d 0) (ringSlot (dieOf s d))) 64 (packetBytes p)
      ∧ dieOf (ringWritten s d p rest) d = { dieOf s d with fpqWait := rest, fpqTail := ((dieOf s d).fpqTail + 1) % 2 ^ 32 } := by
  have hdie : dieOf (storeKey s (lmKey (supCore d 0) (ringSlot (dieOf s d))) 64 (packetBytes p)) d = dieOf s d := by
    rw [dieOf, storeKey_dies_of_ge (lmKey_ge _ _), ← dieOf]
  unfold ringWritten
  refine ⟨stored_congr (onDie_mem _ _ _) (stored_storeKey hm _ _ _), ?_⟩
  rw [dieOf_onDie_same, hdie]

theorem laneEvents_hold : Claims.LaneEvents := by
  intro s c l x
  refine ⟨fun ix r hr => ⟨?clean, ?poisoned, ?lastResult⟩, rfl, ?aged, ⟨?xfull, ?vfull, ?counters, ?barrier⟩, ?draining,
    ?pendingFault, ?request, ?ring⟩
  case clean =>
    intro hp hd hf
    rw [resultArrival_clean hr hd hp, hf, Option.isSome_none, Bool.and_false, if_neg Bool.false_ne_true]
    rfl
  case poisoned =>
    intro a hp hd hf
    refine ⟨_, resultArrival_poisoned hr hd hp hf, ?_⟩
    rw [laneOf_setLane_same]
    exact ⟨rfl, rfl, by rw [poisonMarked, resultWritten_frz]⟩
  case lastResult =>
    intro p hf hl hd hp
    have h := resultArrival_clean hr hd hp
    rw [eraseIdx_of_length_one hr hl, hf, List.isEmpty_nil, Option.isSome_some, Bool.and_self, if_pos rfl] at h
    exact ⟨_, h, (laneOf_dueEvent _ _ c l).trans (laneOf_setLane_same _ _ _ _), by simp [dueEvent, due]⟩
  case aged =>
    intro hs
    show Host.Outcome.next (setLane s c l (if (laneOf s c l).status == .ready then _ else _)) = _
    rw [if_pos (beq_iff_eq.2 hs)]
  case xfull => exact fun r hs hw hf => laneUnblock_waiting hs hw hf (xFull_iff _ r)
  case vfull => exact fun r hs hw hf => laneUnblock_waiting hs hw hf (vFull_iff _ r)
  case counters => exact fun a b hs hw hf => laneUnblock_waiting hs hw hf decide_eq_true_iff
  case barrier =>
    intro sc d id ph r hs hw hf b
    have hword : barrierWord 0 b.phase = BitVec.ofNat 64 (b.phase % 16) := by simp [barrierWord]
    rw [← hword]
    exact laneUnblock_waiting hs hw hf bne_iff_ne
  case draining =>
    intro hs hx hv hj
    refine ⟨setLane s c l (freed x), ?_, by rw [laneOf_setLane_same]; rfl, rfl⟩
    show Host.Outcome.next (drain (unblock s c l) c l) = _
    rw [unblock_of_not_blocked (by rw [hs]; exact fun h => nomatch h), drain_drained hs hx hv hj]
  case pendingFault =>
    intro p hp hr hs
    obtain ⟨hlane, hmem, hq, hseq⟩ := freezes s c l x p
    exact ⟨_, faultFreeze_pending hp hr hs, by rw [hlane]; rfl, by rw [hlane]; rfl, hmem, _, hq, rfl, rfl, rfl, hseq⟩
  case request =>
    intro hp hq hs hr
    obtain ⟨hlane, hmem, hwait, -⟩ := freezes (unrequested s c l) c l (laneOf (unrequested s c l) c l) (requestPacket s c l)
    refine ⟨_, faultFreeze_requested hp hq hs hr, by rw [hlane]; rfl, ?_, hmem, _, hwait, rfl, rfl, rfl⟩
    rw [hlane, laneOf_unrequested]
    rfl
  case ring =>
    intro d p rest
    dsimp only
    intro hw hm
    obtain ⟨hstored, hdie⟩ := ringWritten_spec hm d p rest
    rw [ringSlot] at hstored
    refine ⟨fun h0 hlt => ?_, faultRingWrite_full hw⟩
    have hroom : ¬ RingFull (dieOf s d) := by
      rw [RingFull, not_or, Nat.not_le]
      exact ⟨h0, hlt⟩
    refine ⟨_, faultRingWrite_room hw hroom, ?_⟩
    split
    · exact ⟨hstored, hdie⟩
    · exact ⟨stored_congr (dueEvent_mem _ _) hstored, (dieOf_dueEvent _ _ d).trans hdie⟩

end Sys2Proof.Machine
end

section
/-! O43, part 2: the dispatcher (R16, R17, R25, R443). -/

namespace Sys2Proof.Machine
open Sys2Proof.Safety

/-! ### What starting a firing leaves -/

/-- A change of a core that keeps its lanes changes no lane. -/
theorem laneOf_onCore_lanes {f : Core → Core} (hf : ∀ k, (f k).lanes = k.lanes) (s : State) (c d l : Nat) :
    laneOf (onCore s c f) d l = laneOf s d l := by
  by_cases h : c = d
  · subst h
    rw [laneOf, coreOf_onCore_same, hf]
    rfl
  · rw [laneOf, coreOf_onCore_other s f h]
    rfl

theorem takeSeat_lanes (k : Core) (l cls : Nat) : (takeSeat k l cls).lanes = k.lanes := by
  unfold takeSeat
  split <;> rfl

theorem takeSeat_msg (k : Core) (l cls : Nat) : (takeSeat k l cls).msg = k.msg := by
  unfold takeSeat
  split <;> rfl

/-- Taking a seat for a class-1 firing, with any other change that keeps the lanes, changes no lane (R25). -/
theorem laneOf_takeSeat {g : Core → Core} (hg : ∀ k, (g k).lanes = k.lanes) (s : State) (c l cls d m : Nat) :
    laneOf (onCore s c (fun k => takeSeat (g k) l cls)) d m = laneOf s d m :=
  laneOf_onCore_lanes (fun k => (takeSeat_lanes (g k) l cls).trans (hg k)) s c d m

theorem laneOf_capMark (s : State) (c d l : Nat) : laneOf (capMark s c) d l = laneOf s d l := by
  unfold capMark
  split
  · exact laneOf_onCore_lanes (by intro; rfl) s c d l
  · rfl

theorem coreOf_capMark_msg (s : State) (c : Nat) : (coreOf (capMark s c) c).msg = (coreOf s c).msg := by
  unfold capMark
  split
  · rw [coreOf_onCore_same]
  · rfl

theorem laneOf_spillDue (s : State) (q c l : Nat) : laneOf (spillDue s q) c l = laneOf s c l := by
  unfold spillDue
  split <;> rfl

/-- Unless the launch is over its cap, no clock is sampled (R443). -/
theorem capClock_of_not_overCap {s : State} {c : Nat} (h : overCap s c = false) : capClock s c = s := by
  rw [capClock, h, if_neg Bool.false_ne_true]

/-! ### The entry values (R17) -/

/-- Arguments laid into consecutive registers from the one after `k` on: each register above `k` holds the argument at its place,
and the others keep what they held. -/
theorem foldl_zipIdx_setIfInBounds (xs : List X) (k : Nat) (v : Vector X 32) {r : Nat} (hr : r < 32) :
    ((xs.zipIdx k).foldl (fun (v : Vector X 32) e => v.setIfInBounds (e.2 + 1) e.1) v)[r]
      = if k < r then (xs[r - (k + 1)]?).getD v[r] else v[r] := by
  induction xs generalizing k v with
  | nil => simp
  | cons a t ih =>
    rw [List.zipIdx_cons, List.foldl_cons, ih, Vector.getElem_setIfInBounds hr]
    obtain hlt | rfl | hgt := Nat.lt_trichotomy r (k + 1)
    · rw [if_neg (by omega), if_neg (by omega), if_neg (by omega)]
    · simp
    · have hi : r - (k + 1) = r - (k + 1 + 1) + 1 := by omega
      rw [if_pos hgt, if_neg (by omega), if_pos (by omega), hi, List.getElem?_cons_succ]

/-- The arguments of a firing stand in x1 and the registers after it, and every other x register is 0. -/
theorem entered_x (l : Lane) (pc : Nat) (f : Firing) (xs : List X) (r : Reg) :
    (entered l pc f xs).regs.x[r] = if 0 < r.val then (xs[r.val - 1]?).getD 0 else 0 := by
  show ((xs.zipIdx).foldl (fun (v : Vector X 32) e => v.setIfInBounds (e.2 + 1) e.1) (Vector.replicate 32 0))[r.val] = _
  rw [foldl_zipIdx_setIfInBounds]
  simp

theorem entered_v (l : Lane) (pc : Nat) (f : Firing) (xs : List X) (r : Reg) : (entered l pc f xs).regs.v[r] = 0 := by
  simp [entered]

/-- p0 is all ones at entry, and every other predicate register 0. -/
theorem entered_p (l : Lane) (pc : Nat) (f : Firing) (xs : List X) (p : PReg) :
    (entered l pc f xs).regs.p[p] = if p = 0 then BitVec.allOnes 32 else 0 := by
  by_cases h : p = 0
  · subst h
    simp [entered]
  · have hv : p.val ≠ 0 := fun e => h (Fin.ext e)
    simp [entered, h, hv.symm]

/-- The arguments of a task's record (R17, R18): its four words, and then its timestamp. -/
def taskArgs (record : Nat) : List X :=
  (List.range 4).map (fun i => BitVec.ofNat 64 (bits record (192 + 64 * i) 64)) ++ [BitVec.ofNat 64 (bits record 128 64)]

theorem taskArgs_getD (record : Nat) (r : Reg) : (if 0 < r.val then ((taskArgs record)[r.val - 1]?).getD 0 else 0)
    = if 1 ≤ r.val ∧ r.val ≤ 4 then BitVec.ofNat 64 (bits record (128 + 64 * r.val) 64)
      else if r = 5 then BitVec.ofNat 64 (bits record 128 64) else 0 := by
  have h5 : r = 5 ↔ r.val = 5 := Fin.ext_iff
  obtain h | ⟨h1, h4⟩ | h | h : r.val = 0 ∨ (1 ≤ r.val ∧ r.val ≤ 4) ∨ r.val = 5 ∨ 5 < r.val := by omega
  · rw [if_neg (by omega), if_neg (by omega), if_neg (mt h5.1 (by omega))]
  · have hword : 192 + 64 * (r.val - 1) = 128 + 64 * r.val := by omega
    have hi : r.val - 1 < 4 := by omega
    rw [if_pos (by omega), if_pos ⟨h1, h4⟩, taskArgs, List.getElem?_append_left (by simpa using hi), List.getElem?_map,
      List.getElem?_range hi, Option.map_some, Option.getD_some, hword]
  · rw [if_pos (by omega), if_neg (by omega), if_pos (h5.2 h), taskArgs, h]
    rfl
  · rw [if_pos (by omega), if_neg (by omega), if_neg (mt h5.1 (by omega)), taskArgs,
      List.getElem?_eq_none (by simp; omega), Option.getD_none]

/-! ### The lane of a started firing -/

/-- A task's firing enters its lane at the entry point and with the arguments of its record (R17, R25). -/
theorem laneOf_startFiring_task (s : State) (c l n : Nat) (k : Task) : ∃ f : Firing,
    laneOf (startFiring s c l (.task n k)) c l = entered (laneOf s c l) (recField k.record 8 0 48) f (taskArgs k.record)
      ∧ f.domain = k.domain ∧ f.cls = recField k.record 56 16 2 ∧ f.prio = recField k.record 56 18 2
      ∧ f.task = (if k.ordered then some n else none) := by
  have hquad (p : Prop) [Decidable p] (f : Quad → Quad) : laneOf (if p then onQuad s k.quad f else s) c l = laneOf s c l := by
    split <;> rfl
  have htask (p : Prop) [Decidable p] (u : State) (k' : Task) : laneOf (if p then setTask u n k' else delTask u n) c l = laneOf u c l := by
    split <;> rfl
  unfold startFiring
  dsimp only
  rw [laneOf_setLane_same, laneOf_onCore_lanes (fun k => takeSeat_lanes k l _), htask, hquad]
  exact ⟨_, rfl, rfl, rfl, rfl, rfl⟩

/-- An actor's firing enters its lane at its registration's entry point, with its argument and its number (R17, R187). -/
theorem laneOf_startFiring_actor (s : State) (c l n r : Nat) : ∃ f : Firing,
    laneOf (startFiring s c l (.actor n r)) c l
        = entered (laneOf s c l) (bits r 0 48) f [BitVec.ofNat 64 (bits r 64 64), BitVec.ofNat 64 n]
      ∧ f.kind = .actor ∧ f.actor = n := by
  unfold startFiring
  dsimp only
  rw [laneOf_setLane_same, laneOf_takeSeat (by intro; rfl)]
  exact ⟨_, rfl, rfl, rfl⟩

/-- A handler's firing enters its lane at its entry's address, with its argument and the message's header (R17, R20). -/
theorem laneOf_startFiring_handler (s : State) (c l ix : Nat) (m : Message) : ∃ f : Firing,
    laneOf (startFiring s c l (.handler ix m)) c l
        = entered (laneOf s c l) (bits (handlerEntry s c m.type).1 0 48) f
            [BitVec.ofNat 64 (handlerEntry s c m.type).2, BitVec.ofNat 64 (m.src + m.srcLane * 2 ^ 12), m.seq.setWidth 64,
              BitVec.ofNat 64 (m.type + m.flags * 2 ^ 8)]
      ∧ f.kind = .handler := by
  unfold startFiring
  dsimp only
  rw [laneOf_setLane_same, laneOf_takeSeat (by intro; rfl)]
  exact ⟨_, rfl, rfl⟩

/-- The message of a started handler leaves the arrival buffer (R17). -/
theorem startFiring_handler_arrival (s : State) (c l ix : Nat) (m : Message) :
    (coreOf (startFiring s c l (.handler ix m)) c).msg.arrival = (coreOf s c).msg.arrival.eraseIdx ix := by
  unfold startFiring
  dsimp only
  rw [coreOf_setLane_msg, coreOf_onCore_same, takeSeat_msg]

/-! ### The dispatcher's choice (R16) -/

/-- What the dispatcher of core `c` finds: commit pressure has been met, and the clock of a core over its cap sampled (R321, R443). -/
def dispatchBase (s : State) (c : Nat) : State := capClock (if isSup c then s else commitPressure s (quadNo c)) c

/-- Without a Free lane, or while dispatch is withheld, nothing starts (R37). -/
theorem dispatch_withheld {s u : State} {c : Nat} (hu : dispatchBase s c = u)
    (h : freeLaneOf (coreOf u c) = none ∨ coreHeld u c = true) : exec (.dispatch c) s = .next u := by
  show Host.Outcome.next (dispatchCore s c) = _
  unfold dispatchCore
  dsimp only
  rw [← dispatchBase, hu]
  split
  · rfl
  · next hfree =>
    rw [hfree] at h
    rw [if_pos (h.resolve_left (fun h => nomatch h))]

/-- The machine after the dispatcher has considered what it found best for lane `l` (R16, R21). -/
def startBest (s : State) (c l : Nat) : Option Candidate → State
  | none => s
  | some (.handler ix m) =>
    if handlerOk (handlerEntry s c m.type).1 then capMark (startFiring s c l (.handler ix m)) c else discardMessage s c ix m
  | some (.actor n r) => spillDue (capMark (startFiring s c l (.actor n r)) c) (quadNo c)
  | some (.task n k) => spillDue (capMark (startFiring s c l (.task n k)) c) (quadNo c)

/-- With a Free lane and dispatch open, the best candidate of an open class is started (R16). -/
theorem dispatch_open {s u : State} {c l : Nat} (hu : dispatchBase s c = u) (hl : freeLaneOf (coreOf u c) = some l)
    (hh : coreHeld u c = false) {best : Option Candidate}
    (hb : bestBy (candBefore u c) ((candidates u c).filter (classOpen u c)) = best) :
    exec (.dispatch c) s = .next (startBest u c l best) := by
  show Host.Outcome.next (dispatchCore s c) = _
  unfold dispatchCore
  dsimp only
  rw [← dispatchBase, hu, hl]
  dsimp only
  rw [hh, if_neg Bool.false_ne_true, hb]
  cases best with
  | none => rfl
  | some x =>
    cases x with
    | handler ix m => rfl
    | actor n r => rfl
    | task n k => rfl

theorem laneOf_startBest_task (s : State) (c l n : Nat) (k : Task) :
    laneOf (startBest s c l (some (.task n k))) c l = laneOf (startFiring s c l (.task n k)) c l :=
  (laneOf_spillDue _ _ c l).trans (laneOf_capMark _ c c l)

theorem laneOf_startBest_actor (s : State) (c l n r : Nat) :
    laneOf (startBest s c l (some (.actor n r))) c l = laneOf (startFiring s c l (.actor n r)) c l :=
  (laneOf_spillDue _ _ c l).trans (laneOf_capMark _ c c l)

theorem startBest_handler {s : State} {c : Nat} {m : Message} (l ix : Nat) (h : handlerOk (handlerEntry s c m.type).1 = true) :
    startBest s c l (some (.handler ix m)) = capMark (startFiring s c l (.handler ix m)) c := if_pos h

theorem startBest_handler_stale {s : State} {c : Nat} {m : Message} (l ix : Nat) (h : handlerOk (handlerEntry s c m.type).1 = false) :
    startBest s c l (some (.handler ix m)) = discardMessage s c ix m := if_neg (by rw [h]; exact Bool.false_ne_true)

theorem dispatch_holds : Claims.Dispatch := by
  intro s c u
  refine ⟨capClock_of_not_overCap, ?_⟩
  have hu : dispatchBase s c = u := rfl
  clear_value u
  refine ⟨dispatch_withheld hu, fun l hl hh => ⟨fun hb => dispatch_open hu hl hh hb, ?task, ?actor, ?stale, ?handler⟩⟩
  case task =>
    intro n k hb
    obtain ⟨f, hlane, hdom, hcls, hprio, htask⟩ := laneOf_startFiring_task u c l n k
    refine ⟨_, dispatch_open hu hl hh hb, by simp [startBest], ?_⟩
    rw [laneOf_startBest_task, hlane]
    exact ⟨rfl, rfl, rfl, rfl, rfl, rfl, rfl, rfl, fun r => (entered_x _ _ _ _ r).trans (taskArgs_getD k.record r), entered_v _ _ _ _,
      entered_p _ _ _ _, hdom, hcls, hprio, htask⟩
  case actor =>
    intro n r hb
    obtain ⟨f, hlane, hkind, hactor⟩ := laneOf_startFiring_actor u c l n r
    refine ⟨_, dispatch_open hu hl hh hb, by simp [startBest], ?_⟩
    rw [laneOf_startBest_actor, hlane]
    exact ⟨rfl, rfl, hkind, hactor, entered_x _ _ _ _ 1, entered_x _ _ _ _ 2⟩
  case stale =>
    intro ix m hb hok
    rw [dispatch_open hu hl hh hb]
    exact congrArg _ (startBest_handler_stale l ix hok)
  case handler =>
    intro ix m hb hok
    obtain ⟨f, hlane, hkind⟩ := laneOf_startFiring_handler u c l ix m
    refine ⟨_, dispatch_open hu hl hh hb, ?_⟩
    rw [startBest_handler l ix hok, coreOf_capMark_msg, startFiring_handler_arrival, laneOf_capMark, hlane]
    exact ⟨by simp, rfl, rfl, rfl, hkind, entered_x _ _ _ _ 1, entered_x _ _ _ _ 2, entered_x _ _ _ _ 3, entered_x _ _ _ _ 4⟩

/-- Settles O43: the steps of a lane's events, each by its own rule, and the dispatcher by what it finds best on its lowest Free lane. -/
theorem lanesAndDispatch : Obligations.LanesAndDispatch := ⟨laneEvents_hold, dispatch_holds⟩

end Sys2Proof.Machine
end

section
/-! O55 and O56, part 1: the fields of instruction words (R42 to R54). A word has the fields of a row just when it is the sum of
their values at their places; a shape of words is such a row beside the bits that select an instruction. -/

namespace Sys2Proof

/-! ### Words as rows of fields -/

/-- A field of a word: its width in bits and its value. -/
structure WField where
  width : Nat
  val : Fin (2 ^ width)

/-- The field stands in `w` from bit `lo` on. -/
def WField.At (f : WField) (w lo : Nat) : Prop := bits w lo f.width = f.val

/-- The fields of a row stand in `w` one after another from bit `lo` on. -/
def Holds (w : Nat) : Nat → List WField → Prop
  | _, [] => True
  | lo, f :: fs => f.At w lo ∧ Holds w (lo + f.width) fs

/-- The word with the fields of a row one after another from bit `lo` on, and no other bit set. -/
def packed : Nat → List WField → Nat
  | _, [] => 0
  | lo, f :: fs => f.val * 2 ^ lo + packed (lo + f.width) fs

/-- The width of a row. -/
def widths : List WField → Nat
  | [] => 0
  | f :: fs => f.width + widths fs

@[simp] theorem holds_nil (w lo : Nat) : Holds w lo [] ↔ True := Iff.rfl
@[simp] theorem holds_cons (w lo : Nat) (f : WField) (fs : List WField) :
    Holds w lo (f :: fs) ↔ f.At w lo ∧ Holds w (lo + f.width) fs := Iff.rfl
@[simp] theorem packed_nil (lo : Nat) : packed lo [] = 0 := rfl
@[simp] theorem packed_cons (lo : Nat) (f : WField) (fs : List WField) :
    packed lo (f :: fs) = f.val * 2 ^ lo + packed (lo + f.width) fs := rfl
@[simp] theorem widths_nil : widths [] = 0 := rfl
@[simp] theorem widths_cons (f : WField) (fs : List WField) : widths (f :: fs) = f.width + widths fs := rfl

theorem packed_dvd (lo : Nat) (fs : List WField) : 2 ^ lo ∣ packed lo fs := by
  induction fs generalizing lo with
  | nil => exact Nat.dvd_zero _
  | cons f fs ih => exact Nat.dvd_add (Nat.dvd_mul_left _ _) ((Nat.pow_dvd_pow 2 (Nat.le_add_right _ _)).trans (ih _))

/-- A number is cut in one way into a low part of `n` bits and the rest. -/
theorem eq_add_two_pow_mul_iff {q v m n : Nat} (hv : v < 2 ^ n) : q = v + 2 ^ n * m ↔ q % 2 ^ n = v ∧ q / 2 ^ n = m := by
  constructor
  · rintro rfl
    rw [Nat.add_mul_mod_self_left, Nat.add_mul_div_left _ _ (Nat.two_pow_pos n), Nat.mod_eq_of_lt hv, Nat.div_eq_of_lt hv, Nat.zero_add]
    exact ⟨rfl, rfl⟩
  · rintro ⟨rfl, rfl⟩
    exact (Nat.mod_add_div q _).symm

/-- A word without bits past a row has the row's fields exactly when it is the row's word: the lowest field and the rest are cut
off one after another. -/
theorem holds_iff_eq_packed (w lo : Nat) (fs : List WField) :
    w / 2 ^ lo < 2 ^ widths fs ∧ Holds w lo fs ↔ w / 2 ^ lo * 2 ^ lo = packed lo fs := by
  induction fs generalizing lo with
  | nil =>
    have := Nat.two_pow_pos lo
    simp
  | cons f fs ih =>
    obtain ⟨m, hm⟩ := packed_dvd (lo + f.width) fs
    have ih := ih (lo + f.width)
    have hq : w / 2 ^ (lo + f.width) = w / 2 ^ lo / 2 ^ f.width := by rw [Nat.pow_add, Nat.div_div_eq_div_mul]
    rw [hq, hm, Nat.mul_comm, Nat.mul_right_inj (Nat.two_pow_pos _).ne'] at ih
    simp only [widths_cons, holds_cons, packed_cons, WField.At, hm, bits]
    generalize w / 2 ^ lo = q at *
    have hlt : q < 2 ^ (f.width + widths fs) ↔ q / 2 ^ f.width < 2 ^ widths fs := by
      rw [Nat.pow_add, Nat.div_lt_iff_lt_mul (Nat.two_pow_pos _), Nat.mul_comm]
    have hcut : q * 2 ^ lo = f.val * 2 ^ lo + 2 ^ (lo + f.width) * m ↔ q = f.val + 2 ^ f.width * m := by
      rw [Nat.pow_add, Nat.mul_assoc, Nat.mul_comm (2 ^ lo), ← Nat.add_mul, Nat.mul_left_inj (Nat.two_pow_pos lo).ne']
    rw [hlt, hcut, eq_add_two_pow_mul_iff f.val.isLt, and_left_comm, ih]

theorem bits_lt (w lo n : Nat) : bits w lo n < 2 ^ n := Nat.mod_lt _ (Nat.two_pow_pos n)

@[simp] theorem bits_two_lt (w lo : Nat) : bits w lo 2 < 4 := bits_lt w lo 2
@[simp] theorem bits_three_lt (w lo : Nat) : bits w lo 3 < 8 := bits_lt w lo 3
@[simp] theorem bits_four_lt (w lo : Nat) : bits w lo 4 < 16 := bits_lt w lo 4

/-- A field of three bits with a code below 3 has its code in the low two. -/
theorem bits_two_of_lt {w lo : Nat} (h : bits w lo 3 < 3) : bits w lo 2 = bits w lo 3 := by
  unfold bits at *
  omega

/-! ### Tables of codes (R52) -/

/-- `code` numbers a type of `k` values from 0 on, and `ofCode` reads the numbers back. -/
structure Codes {α : Type} (k : Nat) (code : α → Nat) (ofCode : Nat → α) : Prop where
  code_lt : ∀ c, code c < k
  ofCode_code : ∀ c, ofCode (code c) = c
  code_ofCode : ∀ x < k, code (ofCode x) = x

theorem Codes.eq_code_iff {α : Type} {k x : Nat} {code : α → Nat} {ofCode : Nat → α} (t : Codes k code ofCode) (c : α) :
    x = code c ↔ x < k ∧ ofCode x = c := by
  constructor
  · rintro rfl
    exact ⟨t.code_lt c, t.ofCode_code c⟩
  · rintro ⟨hx, rfl⟩
    exact (t.code_ofCode x hx).symm

theorem Cond.codes : Codes 6 Cond.code Cond.ofCode := ⟨by rintro ⟨⟩ <;> decide, by rintro ⟨⟩ <;> rfl, by decide⟩
theorem ElemTy.codes : Codes 8 ElemTy.code ElemTy.ofCode := ⟨by rintro ⟨⟩ <;> decide, by rintro ⟨⟩ <;> rfl, by decide⟩
theorem Round.codes : Codes 6 Round.code Round.ofCode := ⟨by rintro ⟨⟩ <;> decide, by rintro ⟨⟩ <;> rfl, by decide⟩
theorem Fmt.codes : Codes 16 Fmt.code Fmt.ofCode := ⟨by rintro ⟨⟩ <;> decide, by rintro ⟨⟩ <;> rfl, by decide⟩
theorem Scope.codes : Codes 6 Scope.code Scope.ofCode := ⟨by rintro ⟨⟩ <;> decide, by rintro ⟨⟩ <;> rfl, by decide⟩
theorem Order.codes : Codes 5 Order.code Order.ofCode := ⟨by rintro ⟨⟩ <;> decide, by rintro ⟨⟩ <;> rfl, by decide⟩
theorem AmoFn.codes : Codes 11 AmoFn.code AmoFn.ofCode := ⟨by rintro ⟨⟩ <;> decide, by rintro ⟨⟩ <;> rfl, by decide⟩
theorem RedOp.codes : Codes 8 RedOp.code RedOp.ofCode := ⟨by rintro ⟨⟩ <;> decide, by rintro ⟨⟩ <;> rfl, by decide⟩
theorem RedFn.codes : Codes 6 RedFn.code RedFn.ofCode := ⟨by rintro ⟨⟩ <;> decide, by rintro ⟨⟩ <;> rfl, by decide⟩
theorem BankFn.codes : Codes 7 BankFn.code BankFn.ofCode := ⟨by rintro ⟨⟩ <;> decide, by rintro ⟨⟩ <;> rfl, by decide⟩

theorem finOf_codes {k : Nat} (h : 0 < k) : Codes k Fin.val (fun x => finOf k x h) :=
  ⟨Fin.isLt, fun c => Fin.ext (Nat.mod_eq_of_lt c.isLt), fun _ hx => Nat.mod_eq_of_lt hx⟩

/-! ### The kinds of fields (R42 to R54) -/

theorem Src.code_lt (s : Src) : s.code < 2 ^ 7 := by
  have := s.reg.isLt
  have := s.last.toNat_lt
  have := s.trap.toNat_lt
  unfold Src.code
  omega

theorem PSrc.code_lt (s : PSrc) : s.code < 2 ^ 7 := by
  have := s.reg.isLt
  have := s.last.toNat_lt
  have := s.trap.toNat_lt
  unfold PSrc.code
  omega

namespace WField

/-- The `n` bits of `b` from bit `k` on, which select an instruction. -/
def op (b k n : Nat) : WField := ⟨n, bits b k n, bits_lt b k n⟩

/-- An unused field (R55). -/
def zero (n : Nat) : WField := ⟨n, 0, Nat.two_pow_pos n⟩

def reg (r : Reg) : WField := ⟨5, r⟩
def preg (r : PReg) : WField := ⟨3, r⟩
def src (s : Src) : WField := ⟨7, s.code, s.code_lt⟩
def psrc (s : PSrc) : WField := ⟨7, s.code, s.code_lt⟩
def imm {n : Nat} (v : BitVec n) : WField := ⟨n, v.toFin⟩
def flag (b : Bool) : WField := ⟨1, b.toNat, b.toNat_lt⟩

/-- The code of a value of a table, in `n` bits. -/
def coded {α : Type} {k : Nat} {code : α → Nat} {ofCode : Nat → α} (t : Codes k code ofCode) (n : Nat) (h : k ≤ 2 ^ n) (c : α) :
    WField := ⟨n, code c, (t.code_lt c).trans_le h⟩

abbrev num {k : Nat} [NeZero k] (n : Nat) (h : k ≤ 2 ^ n) (v : Fin k) : WField :=
  coded (finOf_codes (Nat.pos_of_neZero k)) n h v
abbrev cond : Cond → WField := coded Cond.codes 3 (by decide)
abbrev elemTy : ElemTy → WField := coded ElemTy.codes 3 (by decide)
abbrev round : Round → WField := coded Round.codes 3 (by decide)
abbrev fmt : Fmt → WField := coded Fmt.codes 4 (by decide)
abbrev scope : Scope → WField := coded Scope.codes 3 (by decide)
abbrev order : Order → WField := coded Order.codes 3 (by decide)
abbrev amoFn : AmoFn → WField := coded AmoFn.codes 4 (by decide)
abbrev redOp : RedOp → WField := coded RedOp.codes 3 (by decide)
abbrev redFn : RedFn → WField := coded RedFn.codes 3 (by decide)
abbrev bankFn : BankFn → WField := coded BankFn.codes 3 (by decide)

section
variable (w lo n : Nat)

@[simp] theorem op_width (b k : Nat) : (op b k n).width = n := rfl
@[simp] theorem op_val (b k : Nat) : (op b k n).val = bits b k n := rfl
@[simp] theorem op_at (b k : Nat) : (op b k n).At w lo ↔ bits w lo n = bits b k n := Iff.rfl

@[simp] theorem zero_width : (zero n).width = n := rfl
@[simp] theorem zero_val : (zero n).val.val = 0 := rfl
@[simp] theorem zero_at : (zero n).At w lo ↔ bits w lo n = 0 := Iff.rfl

@[simp] theorem reg_width (r : Reg) : (reg r).width = 5 := rfl
@[simp] theorem reg_val (r : Reg) : (reg r).val.val = r.val := rfl
@[simp] theorem reg_at (r : Reg) : (reg r).At w lo ↔ Sys2Proof.reg w lo = r := (Fin.ext_iff (a := Sys2Proof.reg w lo)).symm

@[simp] theorem preg_width (r : PReg) : (preg r).width = 3 := rfl
@[simp] theorem preg_val (r : PReg) : (preg r).val.val = r.val := rfl
@[simp] theorem preg_at (r : PReg) : (preg r).At w lo ↔ Sys2Proof.preg w lo = r := (Fin.ext_iff (a := Sys2Proof.preg w lo)).symm

@[simp] theorem imm_width (v : BitVec n) : (imm v).width = n := rfl
@[simp] theorem imm_val (v : BitVec n) : (imm v).val.val = v.toNat := rfl
@[simp] theorem imm_at (v : BitVec n) : (imm v).At w lo ↔ BitVec.ofNat n (w / 2 ^ lo) = v := by
  rw [← BitVec.toNat_inj, BitVec.toNat_ofNat]
  rfl

@[simp] theorem flag_width (b : Bool) : (flag b).width = 1 := rfl
@[simp] theorem flag_val (b : Bool) : (flag b).val.val = b.toNat := rfl
@[simp] theorem flag_at (b : Bool) : (flag b).At w lo ↔ bit w lo = b := by
  show w / 2 ^ lo % 2 = b.toNat ↔ (w / 2 ^ lo % 2 == 1) = b
  cases b <;> simp

@[simp] theorem src_width (s : Src) : (src s).width = 7 := rfl
@[simp] theorem src_val (s : Src) : (src s).val.val = s.code := rfl
@[simp] theorem src_at (s : Src) : (src s).At w lo ↔ Sys2Proof.src w lo = s := by
  obtain ⟨⟨r, hr⟩, l, t⟩ := s
  simp only [At, src_width, src_val, Src.code, Sys2Proof.src, Sys2Proof.reg, Src.mk.injEq, Fin.mk.injEq, bits, bit, Nat.pow_add,
    ← Nat.div_div_eq_div_mul]
  cases l <;> cases t <;> simp <;> omega

@[simp] theorem psrc_width (s : PSrc) : (psrc s).width = 7 := rfl
@[simp] theorem psrc_val (s : PSrc) : (psrc s).val.val = s.code := rfl
@[simp] theorem psrc_at (s : PSrc) : (psrc s).At w lo ↔ bits w (lo + 3) 2 = 0 ∧ Sys2Proof.psrc w lo = s := by
  obtain ⟨⟨r, hr⟩, l, t⟩ := s
  simp only [At, psrc_width, psrc_val, PSrc.code, Sys2Proof.psrc, Sys2Proof.preg, PSrc.mk.injEq, Fin.mk.injEq, bits, bit, Nat.pow_add,
    ← Nat.div_div_eq_div_mul]
  cases l <;> cases t <;> simp <;> omega

variable {α : Type} {k : Nat} {code : α → Nat} {ofCode : Nat → α} (t : Codes k code ofCode) {n : Nat} (h : k ≤ 2 ^ n) (c : α)

@[simp] theorem coded_width : (coded t n h c).width = n := rfl
@[simp] theorem coded_val : (coded t n h c).val.val = code c := rfl
@[simp] theorem coded_at : (coded t n h c).At w lo ↔ bits w lo n < k ∧ ofCode (bits w lo n) = c := t.eq_code_iff c

end

end WField

/-! ### Shapes of words -/

/-- The bits of `b` at the places `ops`, which select an instruction. -/
def opcode (ops : List (Nat × Nat)) (b : Nat) : Nat := (ops.map fun p => bits b p.1 p.2 * 2 ^ p.1).sum

/-- `w` and `b` agree at the places `ops`. -/
def Agree (ops : List (Nat × Nat)) (w b : Nat) : Prop := ∀ p ∈ ops, bits w p.1 p.2 = bits b p.1 p.2

@[simp] theorem opcode_nil (b : Nat) : opcode [] b = 0 := rfl
@[simp] theorem opcode_cons (p : Nat × Nat) (ops : List (Nat × Nat)) (b : Nat) :
    opcode (p :: ops) b = bits b p.1 p.2 * 2 ^ p.1 + opcode ops b := by simp [opcode]
@[simp] theorem agree_nil (w b : Nat) : Agree [] w b ↔ True := by simp [Agree]
@[simp] theorem agree_cons (p : Nat × Nat) (ops : List (Nat × Nat)) (w b : Nat) :
    Agree (p :: ops) w b ↔ bits w p.1 p.2 = bits b p.1 p.2 ∧ Agree ops w b := by simp [Agree]

@[simp] theorem fields_eq_some {α : Type} (ok : Bool) (a b : α) : fields ok a = some b ↔ ok = true ∧ a = b := by
  simp [fields]

/-- `dec` reads from words of `n` bits just the operands that `enc` writes, beside the opcode bits at the places `ops`; the operands
that it reads are those with `ok`. -/
def Shape {α : Type} (n : Nat) (ops : List (Nat × Nat)) (dec : Nat → Option α) (enc : α → Nat) (ok : α → Prop := fun _ => True) :
    Prop := ∀ w b o, w < 2 ^ n ∧ Agree ops w b ∧ dec w = some o ↔ ok o ∧ w = opcode ops b + enc o

/-- A shape, from the row of its fields. -/
theorem Shape.of_fields {α : Type} {n : Nat} {ops : List (Nat × Nat)} {dec : Nat → Option α} {enc : α → Nat} {ok : α → Prop}
    (fs : Nat → α → List WField) (hdec : ∀ w b o, Agree ops w b ∧ dec w = some o ↔ ok o ∧ Holds w 0 (fs b o))
    (henc : ∀ b o, widths (fs b o) = n ∧ packed 0 (fs b o) = opcode ops b + enc o) : Shape n ops dec enc ok := by
  intro w b o
  obtain ⟨hn, hp⟩ := henc b o
  have h := holds_iff_eq_packed w 0 (fs b o)
  rw [Nat.pow_zero, Nat.div_one, Nat.mul_one, hn, hp] at h
  rw [hdec, and_left_comm, h]

end Sys2Proof
end

section
/-! O55 and O56, part 2: the shape of the words of each operand record, as its format lays out the fields; `zero` is a field that must be
zero (R55), and `op` holds bits that select the instruction. -/

namespace Sys2Proof
open WField (op zero)

/-! ### C format (R42, R51) -/

theorem shape_C2 : Shape 16 [(0, 6)] decodeC2 encodeC2 :=
  .of_fields (fun b o => [op b 0 6, .reg o.a, .reg o.b]) (fun _ _ o => by cases o; simp [decodeC2]) (fun _ _ => by simp [encodeC2])

theorem shape_CI : Shape 16 [(0, 6)] decodeCI encodeCI :=
  .of_fields (fun b o => [op b 0 6, .reg o.a, .imm o.imm]) (fun _ _ o => by cases o; simp [decodeCI]) (fun _ _ => by simp [encodeCI])

theorem shape_C1 : Shape 16 [(0, 6)] decodeC1 encodeC1 :=
  .of_fields (fun b o => [op b 0 6, .reg o.a, zero 5]) (fun _ _ o => by cases o; simp [decodeC1]; grind) (fun _ _ => by simp [encodeC1])

theorem shape_C0 : Shape 16 [(0, 6)] decodeC0 encodeC0 :=
  .of_fields (fun b _ => [op b 0 6, zero 10]) (fun _ _ o => by cases o; simp [decodeC0]) (fun _ _ => by simp [encodeC0])

theorem shape_CCode : Shape 16 [(0, 6)] decodeCCode encodeCCode :=
  .of_fields (fun b o => [op b 0 6, .imm o.code]) (fun _ _ o => by cases o; simp [decodeCCode]) (fun _ _ => by simp [encodeCCode])

/-! ### R, I and B formats (R43) -/

theorem shape_R3 : Shape 32 [(0, 10)] decodeR3 encodeR3 :=
  .of_fields (fun b o => [op b 0 10, .reg o.d, .src o.a, .src o.b, zero 3])
    (fun _ _ o => by cases o; simp [decodeR3]; grind) (fun _ _ => by simp [encodeR3, Nat.add_assoc])

theorem shape_R2 : Shape 32 [(0, 10)] decodeR2 encodeR2 :=
  .of_fields (fun b o => [op b 0 10, .reg o.d, .src o.a, zero 10])
    (fun _ _ o => by cases o; simp [decodeR2]; grind) (fun _ _ => by simp [encodeR2])

theorem shape_RW : Shape 32 [(0, 10)] decodeRW encodeRW :=
  .of_fields (fun b o => [op b 0 10, .reg o.d, .src o.a, zero 7, .num 3 (by decide) o.w])
    (fun _ _ o => by cases o; simp [decodeRW]; grind [bits_two_of_lt]) (fun _ _ => by simp [encodeRW, Nat.add_assoc])

theorem shape_RCmp : Shape 32 [(0, 10)] decodeRCmp encodeRCmp :=
  .of_fields (fun b o => [op b 0 10, .reg o.d, .src o.a, .src o.b, .cond o.cond])
    (fun _ _ o => by cases o; simp [decodeRCmp]; grind) (fun _ _ => by simp [encodeRCmp, Nat.add_assoc])

theorem shape_RI : Shape 32 [(0, 10)] decodeRI encodeRI :=
  .of_fields (fun b o => [op b 0 10, .reg o.d, .src o.a, .imm o.imm])
    (fun _ _ o => by cases o; simp [decodeRI]) (fun _ _ => by simp [encodeRI, Nat.add_assoc])

theorem shape_RSh : Shape 32 [(0, 10)] decodeRSh encodeRSh :=
  .of_fields (fun b o => [op b 0 10, .reg o.d, .src o.a, .imm o.n, zero 4])
    (fun _ _ o => by cases o; simp [decodeRSh]; grind) (fun _ _ => by simp [encodeRSh, Nat.add_assoc])

theorem shape_DI : Shape 32 [(0, 10)] decodeDI encodeDI :=
  .of_fields (fun b o => [op b 0 10, .reg o.d, zero 7, .imm o.imm])
    (fun _ _ o => by cases o; simp [decodeDI]; grind) (fun _ _ => by simp [encodeDI])

theorem shape_RICmp : Shape 32 [(0, 2), (5, 5)] decodeRICmp encodeRICmp :=
  .of_fields (fun b o => [op b 0 2, .cond o.cond, op b 5 5, .reg o.d, .src o.a, .imm o.imm])
    (fun _ _ o => by cases o; simp [decodeRICmp]; grind) (fun _ _ => by simp [encodeRICmp]; omega)

theorem shape_Br : Shape 32 [(0, 2), (5, 5)] decodeBr encodeBr :=
  .of_fields (fun b o => [op b 0 2, .cond o.cond, op b 5 5, .reg o.a, .reg o.b, .imm o.off])
    (fun _ _ o => by cases o; simp [decodeBr]; grind) (fun _ _ => by simp [encodeBr]; omega)

theorem shape_Bz : Shape 32 [(0, 10)] decodeBz encodeBz :=
  .of_fields (fun b o => [op b 0 10, .reg o.a, zero 5, .imm o.off])
    (fun _ _ o => by cases o; simp [decodeBz]; grind) (fun _ _ => by simp [encodeBz])

theorem shape_Bp : Shape 32 [(0, 10)] decodeBp encodeBp :=
  .of_fields (fun b o => [op b 0 10, .preg o.p, zero 7, .imm o.off])
    (fun _ _ o => by cases o; simp [decodeBp]; grind) (fun _ _ => by simp [encodeBp])

theorem shape_BOff : Shape 32 [(0, 10)] decodeBOff encodeBOff :=
  .of_fields (fun b o => [op b 0 10, zero 10, .imm o.off]) (fun _ _ o => by cases o; simp [decodeBOff]) (fun _ _ => by simp [encodeBOff])

theorem shape_A1 : Shape 32 [(0, 10)] decodeA1 encodeA1 :=
  .of_fields (fun b o => [op b 0 10, zero 5, .src o.a, zero 10])
    (fun _ _ o => by cases o; simp [decodeA1]; grind) (fun _ _ => by simp [encodeA1])

theorem shape_LoopOp : Shape 32 [(0, 10)] decodeLoopOp encodeLoopOp :=
  .of_fields (fun b o => [op b 0 10, zero 5, .src o.a, .imm o.len])
    (fun _ _ o => by cases o; simp [decodeLoopOp]) (fun _ _ => by simp [encodeLoopOp])

theorem shape_Z32 : Shape 32 [(0, 10)] decodeZ32 encodeZ32 :=
  .of_fields (fun b _ => [op b 0 10, zero 22]) (fun _ _ o => by cases o; simp [decodeZ32]) (fun _ _ => by simp [encodeZ32])

theorem shape_CodeOp : Shape 32 [(0, 10)] decodeCodeOp encodeCodeOp :=
  .of_fields (fun b o => [op b 0 10, zero 12, .imm o.code])
    (fun _ _ o => by cases o; simp [decodeCodeOp]) (fun _ _ => by simp [encodeCodeOp])

/-! ### M format (R43) -/

theorem shape_LdOp : Shape 32 [(0, 2), (5, 5)] decodeLdOp encodeLdOp :=
  .of_fields (fun b o => [op b 0 2, .num 3 (by decide) o.f, op b 5 5, .reg o.d, .src o.a, .imm o.imm])
    (fun _ _ o => by cases o; simp [decodeLdOp]; grind) (fun _ _ => by simp [encodeLdOp]; omega)

theorem shape_StOp : Shape 32 [(0, 2), (4, 6)] decodeStOp encodeStOp :=
  .of_fields (fun b o => [op b 0 2, .num 2 (by decide) o.f, op b 4 6, .reg o.d, .src o.a, .imm o.imm])
    (fun _ _ o => by cases o; simp [decodeStOp]; grind) (fun _ _ => by simp [encodeStOp]; omega)

theorem shape_LdxOp : Shape 32 [(0, 10)] decodeLdxOp encodeLdxOp :=
  .of_fields (fun b o => [op b 0 10, .reg o.d, .src o.a, .src o.b, .num 3 (by decide) o.f])
    (fun _ _ o => by cases o; simp [decodeLdxOp]; grind) (fun _ _ => by simp [encodeLdxOp, Nat.add_assoc])

theorem shape_StxOp : Shape 32 [(0, 10)] decodeStxOp encodeStxOp :=
  .of_fields (fun b o => [op b 0 10, .reg o.d, .src o.a, .src o.b, .num 3 (by decide) o.f])
    (fun _ _ o => by cases o; simp [decodeStxOp]; grind) (fun _ _ => by simp [encodeStxOp, Nat.add_assoc])

/-! ### V format (R43) -/

theorem shape_V2 : Shape 32 [(0, 10)] decodeV2 encodeV2 :=
  .of_fields (fun b o => [op b 0 10, .reg o.d, .src o.a, .src o.b, .elemTy o.ty])
    (fun _ _ o => by cases o; simp [decodeV2]) (fun _ _ => by simp [encodeV2, Nat.add_assoc])

theorem shape_V1 : Shape 32 [(0, 10)] decodeV1 encodeV1 :=
  .of_fields (fun b o => [op b 0 10, .reg o.d, .src o.a, zero 7, .elemTy o.ty])
    (fun _ _ o => by cases o; simp [decodeV1]; grind) (fun _ _ => by simp [encodeV1, Nat.add_assoc])

/-! ### R and I formats: prefetch, predicates, messages and streams (R43) -/

theorem shape_PrefOp : Shape 32 [(0, 10)] decodePrefOp encodePrefOp :=
  .of_fields (fun b o => [op b 0 10, .num 5 (by decide) o.level, .src o.a, .imm o.imm])
    (fun _ _ o => by cases o; simp [decodePrefOp]; grind) (fun _ _ => by simp [encodePrefOp]; omega)

theorem shape_WaitcOp : Shape 32 [(0, 10)] decodeWaitcOp encodeWaitcOp :=
  .of_fields (fun b o => [op b 0 10, zero 5, .imm o.l, zero 1, .imm o.s, zero 4])
    (fun _ _ o => by cases o; simp [decodeWaitcOp]; grind) (fun _ _ => by simp [encodeWaitcOp])

theorem shape_PsetOp : Shape 32 [(0, 10)] decodePsetOp encodePsetOp :=
  .of_fields (fun b o => [op b 0 10, .preg o.d, zero 2, .src o.a, .imm o.imm])
    (fun _ _ o => by cases o; simp [decodePsetOp]; grind) (fun _ _ => by simp [encodePsetOp, Nat.add_assoc])

theorem shape_P3 : Shape 32 [(0, 10)] decodeP3 encodeP3 :=
  .of_fields (fun b o => [op b 0 10, .preg o.d, zero 2, .psrc o.a, .psrc o.b, zero 3])
    (fun _ _ o => by cases o; simp [decodeP3]; grind) (fun _ _ => by simp [encodeP3, Nat.add_assoc])

theorem shape_P2 : Shape 32 [(0, 10)] decodeP2 encodeP2 :=
  .of_fields (fun b o => [op b 0 10, .preg o.d, zero 2, .psrc o.a, zero 10])
    (fun _ _ o => by cases o; simp [decodeP2]; grind) (fun _ _ => by simp [encodeP2])

theorem shape_XP : Shape 32 [(0, 10), (29, 3)] decodeXP encodeXP :=
  .of_fields (fun b o => [op b 0 10, .reg o.d, .psrc o.a, zero 7, op b 29 3])
    (fun _ _ o => by cases o; simp [decodeXP]; grind) (fun _ _ => by simp [encodeXP]; omega)

theorem shape_PX : Shape 32 [(0, 10), (29, 3)] decodePX encodePX :=
  .of_fields (fun b o => [op b 0 10, .preg o.d, zero 2, .src o.a, zero 7, op b 29 3])
    (fun _ _ o => by cases o; simp [decodePX]; grind) (fun _ _ => by simp [encodePX]; omega)

theorem shape_S2 : Shape 32 [(0, 10)] decodeS2 encodeS2 :=
  .of_fields (fun b o => [op b 0 10, zero 5, .src o.a, .src o.b, zero 3])
    (fun _ _ o => by cases o; simp [decodeS2]; grind) (fun _ _ => by simp [encodeS2])

theorem shape_SendvOp : Shape 32 [(0, 10)] decodeSendvOp encodeSendvOp :=
  .of_fields (fun b o => [op b 0 10, zero 5, .src o.a, .src o.b, .num 3 (by decide) o.n])
    (fun _ _ o => by cases o; simp [decodeSendvOp]; grind) (fun _ _ => by simp [encodeSendvOp, Nat.add_assoc])

theorem shape_SendoOp : Shape 32 [(0, 10)] decodeSendoOp encodeSendoOp :=
  .of_fields (fun b o => [op b 0 10, .reg o.d, .src o.a, .src o.b, .num 3 (by decide) o.n])
    (fun _ _ o => by cases o; simp [decodeSendoOp]; grind) (fun _ _ => by simp [encodeSendoOp, Nat.add_assoc])

theorem shape_S1 : Shape 32 [(0, 10)] decodeS1 encodeS1 :=
  .of_fields (fun b o => [op b 0 10, zero 12, .src o.b, zero 3])
    (fun _ _ o => by cases o; simp [decodeS1]; grind) (fun _ _ => by simp [encodeS1])

theorem shape_D1 : Shape 32 [(0, 10), (29, 3)] decodeD1 encodeD1 :=
  .of_fields (fun b o => [op b 0 10, .reg o.d, zero 14, op b 29 3])
    (fun _ _ o => by cases o; simp [decodeD1]; grind) (fun _ _ => by simp [encodeD1]; omega)

theorem shape_RangeOp : Shape 32 [(0, 10)] decodeRangeOp encodeRangeOp :=
  .of_fields (fun b o => [op b 0 10, zero 5, .src o.a, .src o.b, .num 3 (by decide) o.k])
    (fun _ _ o => by cases o; simp [decodeRangeOp]; grind) (fun _ _ => by simp [encodeRangeOp, Nat.add_assoc])

theorem shape_ChunkOp : Shape 32 [(0, 10)] decodeChunkOp encodeChunkOp :=
  .of_fields (fun b o => [op b 0 10, .reg o.d, .src o.a, zero 7, .num 3 (by decide) o.k])
    (fun _ _ o => by cases o; simp [decodeChunkOp]; grind) (fun _ _ => by simp [encodeChunkOp, Nat.add_assoc])

theorem shape_StealOp : Shape 32 [(0, 10)] decodeStealOp encodeStealOp :=
  .of_fields (fun b o => [op b 0 10, .reg o.d, zero 14, .num 3 (by decide) o.k])
    (fun _ _ o => by cases o; simp [decodeStealOp]; grind) (fun _ _ => by simp [encodeStealOp])

/-! ### X format: vectors (R46) -/

theorem shape_VX3 : Shape 64 [(0, 12)] decodeVX3 encodeVX3 :=
  .of_fields (fun b o => [op b 0 12, .reg o.d, .src o.a, .src o.b, .src o.c, .preg o.guard, .elemTy o.ty, .round o.rnd, zero 17])
    (fun _ _ o => by cases o; simp [decodeVX3]; grind) (fun _ _ => by simp [encodeVX3, Nat.add_assoc])

theorem shape_VX2 : Shape 64 [(0, 12)] decodeVX2 encodeVX2 :=
  .of_fields (fun b o => [op b 0 12, .reg o.d, .src o.a, .src o.b, zero 7, .preg o.guard, .elemTy o.ty, .round o.rnd, zero 17])
    (fun _ _ o => by cases o; simp [decodeVX2]; grind) (fun _ _ => by simp [encodeVX2, Nat.add_assoc])

theorem shape_VX1 : Shape 64 [(0, 12)] decodeVX1 encodeVX1 :=
  .of_fields (fun b o => [op b 0 12, .reg o.d, .src o.a, zero 14, .preg o.guard, .elemTy o.ty, .round o.rnd, zero 17])
    (fun _ _ o => by cases o; simp [decodeVX1]; grind) (fun _ _ => by simp [encodeVX1, Nat.add_assoc])

theorem shape_VcmpOp : Shape 64 [(0, 12)] decodeVcmpOp encodeVcmpOp (fun o => o.cond.code < 4) :=
  .of_fields (fun b o => [op b 0 12, .preg o.d, zero 2, .src o.a, .src o.b, zero 7, .preg o.guard, .elemTy o.ty, zero 3, .cond o.cond,
      zero 14])
    (fun _ _ o => by cases o; simp [decodeVcmpOp]; grind [Cond.codes.code_ofCode]) (fun _ _ => by simp [encodeVcmpOp, Nat.add_assoc])

theorem shape_VselOp : Shape 64 [(0, 12)] decodeVselOp encodeVselOp :=
  .of_fields (fun b o => [op b 0 12, .reg o.d, .src o.a, .src o.b, .psrc o.c, .preg o.guard, .elemTy o.ty, zero 20])
    (fun _ _ o => by cases o; simp [decodeVselOp]; grind) (fun _ _ => by simp [encodeVselOp, Nat.add_assoc])

theorem shape_VcvtOp : Shape 64 [(0, 12)] decodeVcvtOp encodeVcvtOp :=
  .of_fields (fun b o => [op b 0 12, .reg o.d, .src o.a, zero 14, .preg o.guard, zero 3, .round o.rnd, .fmt o.dfmt, .fmt o.sfmt,
      .num 3 (by decide) o.dpart, .num 3 (by decide) o.spart, zero 3])
    (fun _ _ o => by cases o; simp [decodeVcvtOp]; grind) (fun _ _ => by simp [encodeVcvtOp, Nat.add_assoc])

theorem shape_XX1 : Shape 64 [(0, 12)] decodeXX1 encodeXX1 :=
  .of_fields (fun b o => [op b 0 12, .reg o.d, .src o.a, zero 14, .preg o.guard, .elemTy o.ty, zero 20])
    (fun _ _ o => by cases o; simp [decodeXX1]; grind) (fun _ _ => by simp [encodeXX1, Nat.add_assoc])

theorem shape_XX2 : Shape 64 [(0, 12)] decodeXX2 encodeXX2 :=
  .of_fields (fun b o => [op b 0 12, .reg o.d, .src o.a, .src o.b, zero 7, .preg o.guard, .elemTy o.ty, zero 20])
    (fun _ _ o => by cases o; simp [decodeXX2]; grind) (fun _ _ => by simp [encodeXX2, Nat.add_assoc])

theorem shape_ViotaOp : Shape 64 [(0, 12)] decodeViotaOp encodeViotaOp :=
  .of_fields (fun b o => [op b 0 12, .reg o.d, .psrc o.a, zero 14, .preg o.guard, .elemTy o.ty, zero 20])
    (fun _ _ o => by cases o; simp [decodeViotaOp]; grind) (fun _ _ => by simp [encodeViotaOp, Nat.add_assoc])

theorem shape_VslideOp : Shape 64 [(0, 12)] decodeVslideOp encodeVslideOp :=
  .of_fields (fun b o => [op b 0 12, .reg o.d, .src o.a, .src o.b, zero 7, .preg o.guard, .elemTy o.ty, zero 3, .imm o.k, zero 11])
    (fun _ _ o => by cases o; simp [decodeVslideOp]; grind) (fun _ _ => by simp [encodeVslideOp, Nat.add_assoc])

theorem shape_VcompOp : Shape 64 [(0, 12)] decodeVcompOp encodeVcompOp :=
  .of_fields (fun b o => [op b 0 12, .reg o.d, .src o.a, .psrc o.b, zero 10, .elemTy o.ty, zero 20])
    (fun _ _ o => by cases o; simp [decodeVcompOp]; grind) (fun _ _ => by simp [encodeVcompOp, Nat.add_assoc])

theorem shape_VredOp : Shape 64 [(0, 12)] decodeVredOp encodeVredOp :=
  .of_fields (fun b o => [op b 0 12, .reg o.d, .src o.a, zero 14, .preg o.guard, .elemTy o.ty, .round o.rnd, .redOp o.op, zero 14])
    (fun _ _ o => by cases o; simp [decodeVredOp]; grind) (fun _ _ => by simp [encodeVredOp, Nat.add_assoc])

theorem shape_VscanOp : Shape 64 [(0, 12)] decodeVscanOp encodeVscanOp :=
  .of_fields (fun b o => [op b 0 12, .reg o.d, .src o.a, zero 14, .preg o.guard, .elemTy o.ty, .round o.rnd, .redOp o.op, .flag o.excl,
      zero 13])
    (fun _ _ o => by cases o; simp [decodeVscanOp]; grind) (fun _ _ => by simp [encodeVscanOp, Nat.add_assoc])

theorem shape_TopkOp : Shape 64 [(0, 12)] decodeTopkOp encodeTopkOp :=
  .of_fields (fun b o => [op b 0 12, .reg o.d, .src o.a, .src o.b, zero 10, .elemTy o.ty, zero 3, .imm o.k, .flag o.max, zero 11])
    (fun _ _ o => by cases o; simp [decodeTopkOp]; grind) (fun _ _ => by simp [encodeTopkOp, Nat.add_assoc])

/-! ### X format: three sources and bit fields (R46, R94) -/

theorem shape_X3 : Shape 64 [(0, 12)] decodeX3 encodeX3 :=
  .of_fields (fun b o => [op b 0 12, .reg o.d, .src o.a, .src o.b, .src o.c, .preg o.guard, zero 23])
    (fun _ _ o => by cases o; simp [decodeX3]; grind) (fun _ _ => by simp [encodeX3, Nat.add_assoc])

theorem shape_BfxOp : Shape 64 [(0, 12)] decodeBfxOp encodeBfxOp :=
  .of_fields (fun b o => [op b 0 12, .reg o.d, .src o.a, zero 14, .preg o.guard, zero 6, .imm o.pos, .imm o.len, zero 4])
    (fun _ _ o => by cases o; simp [decodeBfxOp]; grind) (fun _ _ => by simp [encodeBfxOp, Nat.add_assoc])

theorem shape_BfiOp : Shape 64 [(0, 12)] decodeBfiOp encodeBfiOp :=
  .of_fields (fun b o => [op b 0 12, .reg o.d, .src o.a, .src o.b, zero 7, .preg o.guard, zero 6, .imm o.pos, .imm o.len, zero 4])
    (fun _ _ o => by cases o; simp [decodeBfiOp]; grind) (fun _ _ => by simp [encodeBfiOp, Nat.add_assoc])

/-! ### L format (R50) -/

theorem shape_LImm : Shape 64 [(0, 12)] decodeLImm encodeLImm :=
  .of_fields (fun b o => [op b 0 12, .reg o.d, zero 14, .imm o.imm, zero 1])
    (fun _ _ o => by cases o; simp [decodeLImm]; grind) (fun _ _ => by simp [encodeLImm])

theorem shape_LJmp : Shape 64 [(0, 12)] decodeLJmp encodeLJmp :=
  .of_fields (fun b o => [op b 0 12, zero 19, .imm o.off]) (fun _ _ o => by cases o; simp [decodeLJmp]) (fun _ _ => by simp [encodeLJmp])

theorem shape_LCall : Shape 64 [(0, 12)] decodeLCall encodeLCall :=
  .of_fields (fun b o => [op b 0 12, .reg o.d, zero 14, .imm o.off])
    (fun _ _ o => by cases o; simp [decodeLCall]; grind) (fun _ _ => by simp [encodeLCall])

/-! ### X format: extended memory (R46) -/

theorem shape_LdXOp : Shape 64 [(0, 12)] decodeLdXOp encodeLdXOp :=
  .of_fields (fun b o => [op b 0 12, .reg o.d, .src o.a, zero 14, .preg o.guard, .scope o.scope, .order o.order, .fmt o.fmt, zero 4,
      .imm o.off])
    (fun _ _ o => by cases o; simp [decodeLdXOp]; grind) (fun _ _ => by simp [encodeLdXOp, Nat.add_assoc])

theorem shape_StXOp : Shape 64 [(0, 12)] decodeStXOp encodeStXOp :=
  .of_fields (fun b o => [op b 0 12, zero 5, .src o.a, .src o.b, zero 7, .preg o.guard, .scope o.scope, .order o.order, .fmt o.fmt,
      zero 4, .imm o.off])
    (fun _ _ o => by cases o; simp [decodeStXOp]; grind) (fun _ _ => by simp [encodeStXOp, Nat.add_assoc])

theorem shape_AmoOp : Shape 64 [(0, 12)] decodeAmoOp encodeAmoOp :=
  .of_fields (fun b o => [op b 0 12, .reg o.d, .src o.a, .src o.b, zero 7, .preg o.guard, .scope o.scope, .order o.order, .fmt o.fmt,
      .amoFn o.op, .imm o.off])
    (fun _ _ o => by cases o; simp [decodeAmoOp]; grind) (fun _ _ => by simp [encodeAmoOp, Nat.add_assoc])

theorem shape_CasOp : Shape 64 [(0, 12)] decodeCasOp encodeCasOp :=
  .of_fields (fun b o => [op b 0 12, .reg o.d, .src o.a, .src o.b, .src o.c, .preg o.guard, .scope o.scope, .order o.order, .fmt o.fmt,
      zero 4, .imm o.off])
    (fun _ _ o => by cases o; simp [decodeCasOp]; grind) (fun _ _ => by simp [encodeCasOp, Nat.add_assoc])

theorem shape_VldXOp : Shape 64 [(0, 12)] decodeVldXOp encodeVldXOp :=
  .of_fields (fun b o => [op b 0 12, .reg o.d, .src o.a, zero 14, .preg o.guard, zero 6, .fmt o.fmt, zero 4, .imm o.off])
    (fun _ _ o => by cases o; simp [decodeVldXOp]; grind) (fun _ _ => by simp [encodeVldXOp, Nat.add_assoc])

theorem shape_VstXOp : Shape 64 [(0, 12)] decodeVstXOp encodeVstXOp :=
  .of_fields (fun b o => [op b 0 12, zero 5, .src o.a, .src o.b, zero 7, .preg o.guard, zero 6, .fmt o.fmt, zero 4, .imm o.off])
    (fun _ _ o => by cases o; simp [decodeVstXOp]; grind) (fun _ _ => by simp [encodeVstXOp, Nat.add_assoc])

theorem shape_VgthXOp : Shape 64 [(0, 12)] decodeVgthXOp encodeVgthXOp :=
  .of_fields (fun b o => [op b 0 12, .reg o.d, .src o.a, .src o.b, zero 7, .preg o.guard, zero 6, .fmt o.fmt, zero 13])
    (fun _ _ o => by cases o; simp [decodeVgthXOp]; grind) (fun _ _ => by simp [encodeVgthXOp, Nat.add_assoc])

theorem shape_VsctXOp : Shape 64 [(0, 12)] decodeVsctXOp encodeVsctXOp :=
  .of_fields (fun b o => [op b 0 12, zero 5, .src o.a, .src o.b, .src o.c, .preg o.guard, zero 6, .fmt o.fmt, zero 13])
    (fun _ _ o => by cases o; simp [decodeVsctXOp]; grind) (fun _ _ => by simp [encodeVsctXOp, Nat.add_assoc])

theorem shape_VsctaXOp : Shape 64 [(0, 12)] decodeVsctaXOp encodeVsctaXOp :=
  .of_fields (fun b o => [op b 0 12, zero 5, .src o.a, .src o.b, .src o.c, .preg o.guard, .scope o.scope, zero 3, .fmt o.fmt, zero 13])
    (fun _ _ o => by cases o; simp [decodeVsctaXOp]; grind) (fun _ _ => by simp [encodeVsctaXOp, Nat.add_assoc])

/-! ### E format (R48) -/

theorem shape_XcopyOp : Shape 64 [(0, 12), (45, 3)] decodeXcopyOp encodeXcopyOp :=
  .of_fields (fun b o => [op b 0 12, .reg o.xs, .reg o.xc, .reg o.xl, .reg o.xb, zero 9, .scope o.scope, .flag o.nosb, op b 45 3,
      zero 4, .num 4 (by decide) o.buf, .flag o.sb, zero 7])
    (fun _ _ o => by cases o; simp [decodeXcopyOp]; grind) (fun _ _ => by simp [encodeXcopyOp]; omega)

theorem shape_XxOp : Shape 64 [(0, 12), (45, 3)] decodeXxOp encodeXxOp :=
  .of_fields (fun b o => [op b 0 12, .reg o.xs, .reg o.xc, zero 5, .reg o.xb, .reg o.xn, zero 4, .scope o.scope, .flag o.nosb,
      op b 45 3, zero 16])
    (fun _ _ o => by cases o; simp [decodeXxOp]; grind) (fun _ _ => by simp [encodeXxOp]; omega)

theorem shape_XgatherOp : Shape 64 [(0, 12)] decodeXgatherOp encodeXgatherOp :=
  .of_fields (fun b o => [op b 0 12, .reg o.xs, .reg o.xc, .reg o.xl, .reg o.xb, .reg o.xn, zero 4, .scope o.scope, .flag o.nosb,
      zero 7, .imm o.cnt])
    (fun _ _ o => by cases o; simp [decodeXgatherOp]; grind) (fun _ _ => by simp [encodeXgatherOp]; omega)

theorem shape_XredOp : Shape 64 [(0, 12)] decodeXredOp encodeXredOp :=
  .of_fields (fun b o => [op b 0 12, .reg o.xs, .reg o.xc, .reg o.xl, .reg o.xb, zero 9, .scope o.scope, .flag o.nosb, .redFn o.op,
      .fmt o.fmt, .num 4 (by decide) o.buf, .flag o.sb, zero 7])
    (fun _ _ o => by cases o; simp [decodeXredOp]; grind) (fun _ _ => by simp [encodeXredOp, Nat.add_assoc])

theorem shape_XfillOp : Shape 64 [(0, 12)] decodeXfillOp encodeXfillOp :=
  .of_fields (fun b o => [op b 0 12, .reg o.xs, .reg o.xc, zero 5, .reg o.xb, zero 9, .scope o.scope, .flag o.nosb, zero 19])
    (fun _ _ o => by cases o; simp [decodeXfillOp]; grind) (fun _ _ => by simp [encodeXfillOp, Nat.add_assoc])

theorem shape_XblkOp : Shape 64 [(0, 12), (45, 3)] decodeXblkOp encodeXblkOp :=
  .of_fields (fun b o => [op b 0 12, .reg o.xs, zero 5, .reg o.xl, .reg o.xb, .reg o.xn, zero 4, .scope o.scope, .flag o.nosb,
      op b 45 3, zero 4, .imm o.cnt])
    (fun _ _ o => by cases o; simp [decodeXblkOp]; grind) (fun _ _ => by simp [encodeXblkOp]; omega)

theorem shape_TxinitOp : Shape 64 [(0, 12)] decodeTxinitOp encodeTxinitOp :=
  .of_fields (fun b o => [op b 0 12, zero 15, .reg o.xb, .reg o.xn, zero 15, .imm o.ph, zero 8])
    (fun _ _ o => by cases o; simp [decodeTxinitOp]; grind) (fun _ _ => by simp [encodeTxinitOp, Nat.add_assoc])

theorem shape_TxarrOp : Shape 64 [(0, 12)] decodeTxarrOp encodeTxarrOp :=
  .of_fields (fun b o => [op b 0 12, zero 15, .reg o.xb, zero 9, .scope o.scope, zero 8, .imm o.n])
    (fun _ _ o => by cases o; simp [decodeTxarrOp]; grind) (fun _ _ => by simp [encodeTxarrOp, Nat.add_assoc])

theorem shape_TxexpOp : Shape 64 [(0, 12)] decodeTxexpOp encodeTxexpOp :=
  .of_fields (fun b o => [op b 0 12, zero 15, .reg o.xb, .reg o.xn, zero 15, .imm o.n])
    (fun _ _ o => by cases o; simp [decodeTxexpOp]; grind) (fun _ _ => by simp [encodeTxexpOp, Nat.add_assoc])

theorem shape_TxwaitOp : Shape 64 [(0, 12)] decodeTxwaitOp encodeTxwaitOp :=
  .of_fields (fun b o => [op b 0 12, zero 15, .reg o.xb, zero 9, .scope o.scope, zero 8, .imm o.ph, zero 8])
    (fun _ _ o => by cases o; simp [decodeTxwaitOp]; grind) (fun _ _ => by simp [encodeTxwaitOp, Nat.add_assoc])

theorem shape_TxtestOp : Shape 64 [(0, 12), (59, 1)] decodeTxtestOp encodeTxtestOp :=
  .of_fields (fun b o => [op b 0 12, zero 15, .reg o.xb, zero 20, .imm o.ph, .preg o.p, op b 59 1, zero 4])
    (fun _ _ o => by cases o; simp [decodeTxtestOp]; grind) (fun _ _ => by simp [encodeTxtestOp]; omega)

theorem shape_TxtestErrOp : Shape 64 [(0, 12), (59, 1)] decodeTxtestErrOp encodeTxtestErrOp :=
  .of_fields (fun b o => [op b 0 12, zero 15, .reg o.xb, zero 24, .preg o.p, op b 59 1, zero 4])
    (fun _ _ o => by cases o; simp [decodeTxtestErrOp]; grind) (fun _ _ => by simp [encodeTxtestErrOp]; omega)

theorem shape_Z64 : Shape 64 [(0, 12)] decodeZ64 encodeZ64 :=
  .of_fields (fun b _ => [op b 0 12, zero 52]) (fun _ _ o => by cases o; simp [decodeZ64]) (fun _ _ => by simp [encodeZ64])

theorem shape_ShpfOp : Shape 64 [(0, 12)] decodeShpfOp encodeShpfOp :=
  .of_fields (fun b o => [op b 0 12, .reg o.xs, zero 47])
    (fun _ _ o => by cases o; simp [decodeShpfOp]; grind) (fun _ _ => by simp [encodeShpfOp])

theorem shape_GetOp : Shape 64 [(0, 12)] decodeGetOp encodeGetOp :=
  .of_fields (fun b o => [op b 0 12, .reg o.xs, zero 5, .reg o.xl, .reg o.xb, .reg o.xn, zero 4, .scope o.scope, .flag o.nosb, zero 7,
      .imm o.n])
    (fun _ _ o => by cases o; simp [decodeGetOp]; grind) (fun _ _ => by simp [encodeGetOp]; omega)

theorem shape_PutOp : Shape 64 [(0, 12)] decodePutOp encodePutOp :=
  .of_fields (fun b o => [op b 0 12, .reg o.xs, zero 5, .reg o.xl, .reg o.xb, .reg o.xn, zero 7, .flag o.nosb, zero 7, .imm o.n])
    (fun _ _ o => by cases o; simp [decodePutOp]; grind) (fun _ _ => by simp [encodePutOp]; omega)

theorem shape_RamoOp : Shape 64 [(0, 12)] decodeRamoOp encodeRamoOp :=
  .of_fields (fun b o => [op b 0 12, .reg o.xs, zero 5, .reg o.xl, .reg o.xb, .reg o.xn, zero 7, .flag o.nosb, .redFn o.op, .fmt o.fmt,
      .imm o.n])
    (fun _ _ o => by cases o; simp [decodeRamoOp]; grind) (fun _ _ => by simp [encodeRamoOp]; omega)

theorem shape_CollOp : Shape 64 [(0, 12), (45, 3)] decodeCollOp encodeCollOp :=
  .of_fields (fun b o => [op b 0 12, .reg o.xs, zero 10, .reg o.xb, zero 13, op b 45 3, .fmt o.fmt, .redFn o.op, zero 9])
    (fun _ _ o => by cases o; simp [decodeCollOp]; grind) (fun _ _ => by simp [encodeCollOp]; omega)

theorem shape_BopOp : Shape 64 [(0, 12)] decodeBopOp encodeBopOp :=
  .of_fields (fun b o => [op b 0 12, .reg o.xs, zero 10, .reg o.xb, .reg o.xn, zero 8, .bankFn o.op, .fmt o.fmt, .imm o.n])
    (fun _ _ o => by cases o; simp [decodeBopOp]; grind) (fun _ _ => by simp [encodeBopOp]; omega)

theorem shape_BredOp : Shape 64 [(0, 12)] decodeBredOp encodeBredOp :=
  .of_fields (fun b o => [op b 0 12, .reg o.xs, zero 5, .reg o.xl, .reg o.xb, zero 12, .flag o.nosb, .redFn o.op, .fmt o.fmt, .imm o.n])
    (fun _ _ o => by cases o; simp [decodeBredOp]; grind) (fun _ _ => by simp [encodeBredOp, Nat.add_assoc])

theorem shape_BvecOp : Shape 64 [(0, 12)] decodeBvecOp encodeBvecOp :=
  .of_fields (fun b o => [op b 0 12, .reg o.xs, zero 10, .reg o.xb, .reg o.xn, zero 8, .redFn o.op, .fmt o.fmt, .imm o.n])
    (fun _ _ o => by cases o; simp [decodeBvecOp]; grind) (fun _ _ => by simp [encodeBvecOp]; omega)

/-! ### G format (R49) -/

theorem shape_TcfgOp : Shape 64 [(0, 12)] decodeTcfgOp encodeTcfgOp :=
  .of_fields (fun b o => [op b 0 12, .num 3 (by decide) o.ta, zero 7, .reg o.xa, .reg o.xb, .fmt o.fmt, zero 28])
    (fun _ _ o => by cases o; simp [decodeTcfgOp]; grind) (fun _ _ => by simp [encodeTcfgOp, Nat.add_assoc])

theorem shape_TldOp : Shape 64 [(0, 12)] decodeTldOp encodeTldOp :=
  .of_fields (fun b o => [op b 0 12, .num 3 (by decide) o.ta, zero 7, .reg o.xa, .reg o.xb, zero 8, .flag o.nosb, zero 23])
    (fun _ _ o => by cases o; simp [decodeTldOp]; grind) (fun _ _ => by simp [encodeTldOp, Nat.add_assoc])

theorem shape_TzeroOp : Shape 64 [(0, 12)] decodeTzeroOp encodeTzeroOp :=
  .of_fields (fun b o => [op b 0 12, .num 3 (by decide) o.ta, zero 25, .flag o.nosb, zero 23])
    (fun _ _ o => by cases o; simp [decodeTzeroOp]; grind) (fun _ _ => by simp [encodeTzeroOp])

theorem shape_TrowOp : Shape 64 [(0, 12)] decodeTrowOp encodeTrowOp :=
  .of_fields (fun b o => [op b 0 12, .num 3 (by decide) o.ta, zero 7, .reg o.xa, zero 21, .reg o.vd, zero 11])
    (fun _ _ o => by cases o; simp [decodeTrowOp]; grind) (fun _ _ => by simp [encodeTrowOp, Nat.add_assoc])

theorem shape_TsetrowOp : Shape 64 [(0, 12)] decodeTsetrowOp encodeTsetrowOp :=
  .of_fields (fun b o => [op b 0 12, .num 3 (by decide) o.ta, zero 7, .reg o.xa, zero 21, .src o.vb, zero 9])
    (fun _ _ o => by cases o; simp [decodeTsetrowOp]; grind) (fun _ _ => by simp [encodeTsetrowOp, Nat.add_assoc])

theorem shape_MskOp : Shape 64 [(0, 12)] decodeMskOp encodeMskOp :=
  .of_fields (fun b o => [op b 0 12, zero 10, .reg o.xa, zero 21, .num 2 (by decide) o.mask, zero 14])
    (fun _ _ o => by cases o; simp [decodeMskOp]; grind) (fun _ _ => by simp [encodeMskOp])

theorem shape_GwldOp : Shape 64 [(0, 12)] decodeGwldOp encodeGwldOp :=
  .of_fields (fun b o => [op b 0 12, .num 3 (by decide) o.ta, zero 12, .reg o.xb, .fmt o.fmt, zero 4, .flag o.nosb, zero 7,
      .num 3 (by decide) o.pat, zero 13])
    (fun _ _ o => by cases o; simp [decodeGwldOp]; grind) (fun _ _ => by simp [encodeGwldOp, Nat.add_assoc])

theorem shape_GmmaOp : Shape 64 [(0, 12)] decodeGmmaOp encodeGmmaOp :=
  .of_fields (fun b o => [op b 0 12, .num 3 (by decide) o.ta, zero 3, .num 2 (by decide) o.acc, .num 2 (by decide) o.feeder, .reg o.xa,
      .reg o.xb, .fmt o.fmt, zero 4, .flag o.nosb, zero 7, .flag o.z, zero 15])
    (fun _ _ o => by cases o; simp [decodeGmmaOp]; grind) (fun _ _ => by simp [encodeGmmaOp, Nat.add_assoc])

theorem shape_GmmagOp : Shape 64 [(0, 12)] decodeGmmagOp encodeGmmagOp :=
  .of_fields (fun b o => [op b 0 12, .num 3 (by decide) o.ta, zero 3, .num 2 (by decide) o.acc, .num 2 (by decide) o.feeder, .reg o.xa,
      .reg o.xb, .fmt o.fmt, zero 4, .flag o.nosb, zero 7, .num 4 (by decide) o.g, .flag o.z, zero 11])
    (fun _ _ o => by cases o; simp [decodeGmmagOp]; grind) (fun _ _ => by simp [encodeGmmagOp, Nat.add_assoc])

theorem shape_GaccOp : Shape 64 [(0, 12)] decodeGaccOp encodeGaccOp :=
  .of_fields (fun b o => [op b 0 12, zero 3, .num 3 (by decide) o.tb, .num 2 (by decide) o.acc, zero 2, .reg o.xa, zero 5, .fmt o.fmt,
      .round o.rnd, .flag o.sat, .flag o.nosb, zero 23])
    (fun _ _ o => by cases o; simp [decodeGaccOp]; grind) (fun _ _ => by simp [encodeGaccOp, Nat.add_assoc])

theorem shape_GacczOp : Shape 64 [(0, 12)] decodeGacczOp encodeGacczOp :=
  .of_fields (fun b o => [op b 0 12, zero 28, .flag o.nosb, zero 7, .imm o.mask, zero 12])
    (fun _ _ o => by cases o; simp [decodeGacczOp]; grind) (fun _ _ => by simp [encodeGacczOp])

/-! ### X format: event banks, barriers and the system (R46) -/

theorem shape_EvcfgOp : Shape 64 [(0, 12)] decodeEvcfgOp encodeEvcfgOp :=
  .of_fields (fun b o => [op b 0 12, zero 5, .src o.a, zero 23, .num 4 (by decide) o.n, zero 13])
    (fun _ _ o => by cases o; simp [decodeEvcfgOp]; grind) (fun _ _ => by simp [encodeEvcfgOp])

theorem shape_EvinjOp : Shape 64 [(0, 12)] decodeEvinjOp encodeEvinjOp :=
  .of_fields (fun b o => [op b 0 12, zero 5, .src o.a, .src o.b, .src o.c, zero 26])
    (fun _ _ o => by cases o; simp [decodeEvinjOp]; grind) (fun _ _ => by simp [encodeEvinjOp, Nat.add_assoc])

theorem shape_EvrdOp : Shape 64 [(0, 12)] decodeEvrdOp encodeEvrdOp :=
  .of_fields (fun b o => [op b 0 12, .reg o.d, .src o.a, zero 40])
    (fun _ _ o => by cases o; simp [decodeEvrdOp]; grind) (fun _ _ => by simp [encodeEvrdOp])

theorem shape_EvwrOp : Shape 64 [(0, 12)] decodeEvwrOp encodeEvwrOp :=
  .of_fields (fun b o => [op b 0 12, zero 5, .src o.a, .src o.b, zero 33])
    (fun _ _ o => by cases o; simp [decodeEvwrOp]; grind) (fun _ _ => by simp [encodeEvwrOp])

theorem shape_EvfanOp : Shape 64 [(0, 12)] decodeEvfanOp encodeEvfanOp :=
  .of_fields (fun b o => [op b 0 12, zero 5, .src o.a, .src o.b, zero 16, .num 2 (by decide) o.k, zero 15])
    (fun _ _ o => by cases o; simp [decodeEvfanOp]; grind) (fun _ _ => by simp [encodeEvfanOp, Nat.add_assoc])

theorem shape_EvstatOp : Shape 64 [(0, 12)] decodeEvstatOp encodeEvstatOp :=
  .of_fields (fun b o => [op b 0 12, .reg o.d, .src o.a, zero 23, .imm o.sel, zero 13])
    (fun _ _ o => by cases o; simp [decodeEvstatOp]; grind) (fun _ _ => by simp [encodeEvstatOp, Nat.add_assoc])

theorem shape_BarOp : Shape 64 [(0, 12)] decodeBarOp encodeBarOp :=
  .of_fields (fun b o => [op b 0 12, .reg o.d, .src o.a, zero 14, .preg o.guard, zero 6, .imm o.id, .scope o.scope, zero 8])
    (fun _ _ o => by cases o; simp [decodeBarOp]; grind) (fun _ _ => by simp [encodeBarOp, Nat.add_assoc])

theorem shape_FturnOp : Shape 64 [(0, 12)] decodeFturnOp encodeFturnOp :=
  .of_fields (fun b o => [op b 0 12, .reg o.d, .src o.a, zero 14, .preg o.guard, zero 6, .num 2 (by decide) o.sel, zero 15])
    (fun _ _ o => by cases o; simp [decodeFturnOp]; grind) (fun _ _ => by simp [encodeFturnOp, Nat.add_assoc])

theorem shape_SysrOp : Shape 64 [(0, 12)] decodeSysrOp encodeSysrOp :=
  .of_fields (fun b o => [op b 0 12, .reg o.d, zero 21, .preg o.guard, zero 6, .imm o.num, zero 5])
    (fun _ _ o => by cases o; simp [decodeSysrOp]; grind) (fun _ _ => by simp [encodeSysrOp, Nat.add_assoc])

theorem shape_SyswOp : Shape 64 [(0, 12)] decodeSyswOp encodeSyswOp :=
  .of_fields (fun b o => [op b 0 12, zero 5, .src o.a, zero 14, .preg o.guard, zero 6, .imm o.num, zero 5])
    (fun _ _ o => by cases o; simp [decodeSyswOp]; grind) (fun _ _ => by simp [encodeSyswOp, Nat.add_assoc])

theorem shape_IcflushOp : Shape 64 [(0, 12)] decodeIcflushOp encodeIcflushOp :=
  .of_fields (fun b o => [op b 0 12, zero 26, .preg o.guard, zero 6, .imm o.scope, zero 14])
    (fun _ _ o => by cases o; simp [decodeIcflushOp]; grind) (fun _ _ => by simp [encodeIcflushOp])

theorem shape_EnrdOp : Shape 64 [(0, 12)] decodeEnrdOp encodeEnrdOp :=
  .of_fields (fun b o => [op b 0 12, .reg o.d, zero 21, .preg o.guard, zero 6, .num 2 (by decide) o.sel, zero 15])
    (fun _ _ o => by cases o; simp [decodeEnrdOp]; grind) (fun _ _ => by simp [encodeEnrdOp, Nat.add_assoc])

theorem shape_LresumeOp : Shape 64 [(0, 12)] decodeLresumeOp encodeLresumeOp :=
  .of_fields (fun b o => [op b 0 12, .reg o.d, .src o.a, zero 14, .preg o.guard, zero 6, .flag o.skip, zero 16])
    (fun _ _ o => by cases o; simp [decodeLresumeOp]; grind) (fun _ _ => by simp [encodeLresumeOp, Nat.add_assoc])

theorem shape_LkillOp : Shape 64 [(0, 12)] decodeLkillOp encodeLkillOp :=
  .of_fields (fun b o => [op b 0 12, .reg o.d, .src o.a, zero 14, .preg o.guard, zero 23])
    (fun _ _ o => by cases o; simp [decodeLkillOp]; grind) (fun _ _ => by simp [encodeLkillOp, Nat.add_assoc])

theorem shape_TlbiOp : Shape 64 [(0, 12)] decodeTlbiOp encodeTlbiOp :=
  .of_fields (fun b o => [op b 0 12, zero 5, .src o.a, .src o.b, zero 7, .preg o.guard, zero 6, .num 2 (by decide) o.kind, zero 15])
    (fun _ _ o => by cases o; simp [decodeTlbiOp]; grind) (fun _ _ => by simp [encodeTlbiOp, Nat.add_assoc])

/-! ### Hint space (R56) -/

theorem shape_HintOp : Shape 64 [(0, 2), (8, 4)] decodeHintOp encodeHintOp :=
  .of_fields (fun b o => [op b 0 2, .imm o.op, op b 8 4, .imm o.rest])
    (fun _ _ o => by cases o; simp [decodeHintOp]; grind) (fun _ _ => by simp [encodeHintOp]; omega)

end Sys2Proof
end

section
/-! O56: a word that decodes is the encoding of the instruction that it decodes to. In each group of opcodes (R51, R53, R54) the operands
that are read from the word's shape are those that the encoder writes. -/

namespace Sys2Proof

/-! ### Opcodes -/

theorem bits_of_bits {w b lo n m : Nat} (h : bits w 0 m = bits b 0 m) (hm : lo + n ≤ m) : bits w lo n = bits b lo n := by
  have key (x : Nat) : bits x lo n = bits (bits x 0 m) lo n := by
    obtain ⟨d, rfl⟩ := Nat.exists_eq_add_of_le hm
    simp only [bits, Nat.pow_zero, Nat.div_one, Nat.pow_add, Nat.mul_assoc, Nat.mod_mul_right_div_self, Nat.mod_mul_right_mod]
  rw [key w, key b, h]

/-- Words that agree in the low `m` bits agree at every place there. -/
theorem Agree.of_low {ops : List (Nat × Nat)} {w b m : Nat} (h : Agree [(0, m)] w b) (hops : ∀ p ∈ ops, p.1 + p.2 ≤ m) :
    Agree ops w b :=
  fun p hp => bits_of_bits (h _ (List.mem_singleton.2 rfl)) (hops p hp)

theorem Agree.low {ops : List (Nat × Nat)} {w b m lo n : Nat} (h : Agree ((0, m) :: ops) w b) (hm : lo + n ≤ m) :
    bits w lo n = bits b lo n := bits_of_bits (h _ (List.mem_cons_self ..)) hm

/-- The second place of an opcode beside the low bits. -/
theorem Agree.sub {w c m : Nat} (h : Agree [(0, m)] w c) (lo n : Nat) (hm : m ≤ lo) :
    Agree [(0, m), (lo, n)] w (bits c 0 m + bits w lo n * 2 ^ lo) := by
  obtain ⟨d, rfl⟩ := Nat.exists_eq_add_of_le hm
  have hc := bits_lt c 0 m
  have hk := bits_lt w (m + d) n
  simp only [agree_cons, agree_nil, and_true] at h ⊢
  have hcd : bits c 0 m < 2 ^ (m + d) := hc.trans_le (Nat.pow_le_pow_right (by decide) (Nat.le_add_right _ _))
  constructor
  · rw [h]
    generalize bits c 0 m = x at *
    rw [bits, Nat.pow_zero, Nat.div_one, Nat.pow_add, Nat.mul_left_comm, Nat.add_mul_mod_self_left, Nat.mod_eq_of_lt hc]
  · generalize bits w (m + d) n = x at *
    rw [bits, Nat.add_mul_div_right _ _ (Nat.two_pow_pos _), Nat.div_eq_of_lt hcd, Nat.zero_add, Nat.mod_eq_of_lt hk]

section
variable {α : Type} {n : Nat} {ops : List (Nat × Nat)} {dec : Nat → Option α} {enc : α → Nat} {ok : α → Prop}

/-- An instruction built from a word of a shape is the one whose operands the word holds. -/
theorem Shape.build_iff (hs : Shape n ops dec enc ok) {w b : Nat} (hw : w < 2 ^ n) (ha : Agree ops w b) (mk : α → Instr) (i : Instr) :
    build mk (dec w) = .ok i ↔ ∃ o, i = mk o ∧ ok o ∧ w = opcode ops b + enc o := by
  have h (o : α) : dec w = some o ↔ ok o ∧ w = opcode ops b + enc o := by simp [← hs w b o, hw, ha]
  simp only [← h]
  cases dec w <;> simp [build, eq_comm]

end

/-! ### The groups of opcodes -/

section
variable {w op : Nat} {i : Instr} (hw : w < 2 ^ 16) (ha : Agree [(0, 6)] w (2 * op))
include hw ha

theorem pickC0_encodes (h : pickC0 w op = .ok i) : encode i = some (16, w) := by
  unfold pickC0 at h
  split at h
  all_goals simp only [shape_C2.build_iff hw ha, shape_CI.build_iff hw ha, shape_C1.build_iff hw ha, shape_C0.build_iff hw ha,
    shape_CCode.build_iff hw ha, reduceCtorEq] at h
  all_goals obtain ⟨o, rfl, -, rfl⟩ := h; rfl

end

section
variable {w op : Nat} {i : Instr} (hw : w < 2 ^ 32) (ha : Agree [(0, 10)] w (4 * op + 1))
include hw ha

theorem pickW0_encodes (h : pickW0 w op = .ok i) : encode i = some (32, w) := by
  unfold pickW0 at h
  split at h
  all_goals simp only [shape_R3.build_iff hw ha, shape_R2.build_iff hw ha, reduceCtorEq] at h
  all_goals obtain ⟨o, rfl, -, rfl⟩ := h; rfl

theorem pickW1_encodes (h : pickW1 w op = .ok i) : encode i = some (32, w) := by
  unfold pickW1 at h
  split at h
  all_goals simp only [shape_R3.build_iff hw ha, shape_R2.build_iff hw ha, shape_RW.build_iff hw ha, shape_RCmp.build_iff hw ha,
    reduceCtorEq] at h
  all_goals obtain ⟨o, rfl, -, rfl⟩ := h; rfl

theorem pickW2_encodes (h : pickW2 w op = .ok i) : encode i = some (32, w) := by
  unfold pickW2 at h
  split at h
  all_goals simp only [shape_RI.build_iff hw ha, shape_RSh.build_iff hw ha, shape_DI.build_iff hw ha, reduceCtorEq] at h
  all_goals obtain ⟨o, rfl, -, rfl⟩ := h; rfl

theorem pickW3_encodes (h : pickW3 w op = .ok i) : encode i = some (32, w) := by
  unfold pickW3 at h
  split at h
  all_goals simp only [shape_RICmp.build_iff hw (ha.of_low (by decide)), reduceCtorEq] at h
  all_goals obtain ⟨o, rfl, -, rfl⟩ := h; rfl

theorem pickW4_encodes (h : pickW4 w op = .ok i) : encode i = some (32, w) := by
  unfold pickW4 at h
  split at h
  all_goals simp only [shape_Br.build_iff hw (ha.of_low (by decide)), shape_Bz.build_iff hw ha, shape_Bp.build_iff hw ha,
    shape_BOff.build_iff hw ha, shape_A1.build_iff hw ha, shape_R2.build_iff hw ha, reduceCtorEq] at h
  all_goals obtain ⟨o, rfl, -, rfl⟩ := h; rfl

theorem pickW5_encodes (h : pickW5 w op = .ok i) : encode i = some (32, w) := by
  unfold pickW5 at h
  split at h
  all_goals simp only [shape_LoopOp.build_iff hw ha, shape_Z32.build_iff hw ha, shape_CodeOp.build_iff hw ha, reduceCtorEq] at h
  all_goals obtain ⟨o, rfl, -, rfl⟩ := h; rfl

theorem pickW6_encodes (h : pickW6 w op = .ok i) : encode i = some (32, w) := by
  unfold pickW6 at h
  split at h
  all_goals simp only [shape_LdOp.build_iff hw (ha.of_low (by decide)), shape_StOp.build_iff hw (ha.of_low (by decide)),
    shape_RI.build_iff hw ha, shape_LdxOp.build_iff hw ha, shape_StxOp.build_iff hw ha, reduceCtorEq] at h
  all_goals obtain ⟨o, rfl, -, rfl⟩ := h; rfl

theorem pickW7_encodes (h : pickW7 w op = .ok i) : encode i = some (32, w) := by
  unfold pickW7 at h
  split at h
  all_goals simp only [shape_V2.build_iff hw ha, shape_PrefOp.build_iff hw ha, shape_WaitcOp.build_iff hw ha, reduceCtorEq] at h
  all_goals obtain ⟨o, rfl, -, rfl⟩ := h; rfl

theorem pickW8_encodes (h : pickW8 w op = .ok i) : encode i = some (32, w) := by
  unfold pickW8 at h
  split at h
  all_goals simp only [shape_V2.build_iff hw ha, shape_V1.build_iff hw ha, reduceCtorEq] at h
  all_goals obtain ⟨o, rfl, -, rfl⟩ := h; rfl

theorem pickW9_encodes (h : pickW9 w op = .ok i) : encode i = some (32, w) := by
  unfold pickW9 at h
  split at h
  all_goals simp only [shape_V1.build_iff hw ha, shape_V2.build_iff hw ha, shape_R3.build_iff hw ha, reduceCtorEq] at h
  all_goals obtain ⟨o, rfl, -, rfl⟩ := h; rfl

theorem pickW12_encodes (h : pickW12 w op = .ok i) : encode i = some (32, w) := by
  unfold pickW12 at h
  repeat' split at h
  all_goals simp only [shape_PsetOp.build_iff hw ha, shape_P3.build_iff hw ha, shape_P2.build_iff hw ha,
    shape_XP.build_iff hw (ha.sub 29 3 (by decide)), shape_PX.build_iff hw (ha.sub 29 3 (by decide)), shape_S2.build_iff hw ha,
    shape_SendvOp.build_iff hw ha, shape_SendoOp.build_iff hw ha, shape_S1.build_iff hw ha,
    shape_D1.build_iff hw (ha.sub 29 3 (by decide)), reduceCtorEq, *] at h
  all_goals obtain ⟨o, rfl, -, rfl⟩ := h; rfl

theorem pickW13_encodes (h : pickW13 w op = .ok i) : encode i = some (32, w) := by
  unfold pickW13 at h
  repeat' split at h
  all_goals simp only [shape_D1.build_iff hw (ha.sub 29 3 (by decide)), shape_RangeOp.build_iff hw ha,
    shape_ChunkOp.build_iff hw ha, shape_StealOp.build_iff hw ha, shape_S2.build_iff hw ha, shape_R2.build_iff hw ha, reduceCtorEq, *] at h
  all_goals obtain ⟨o, rfl, -, rfl⟩ := h; rfl

end

section
variable {w op : Nat} {i : Instr} (hw : w < 2 ^ 64) (ha : Agree [(0, 12)] w (4 * op + 3))
include hw ha

theorem pickX0_encodes (h : pickX0 w op = .ok i) : encode i = some (64, w) := by
  unfold pickX0 at h
  split at h
  all_goals simp only [shape_VX2.build_iff hw ha, shape_VX3.build_iff hw ha, shape_VX1.build_iff hw ha, reduceCtorEq] at h
  all_goals obtain ⟨o, rfl, -, rfl⟩ := h; rfl

theorem pickX1_encodes (h : pickX1 w op = .ok i) : encode i = some (64, w) := by
  unfold pickX1 at h
  split at h
  all_goals simp only [shape_VcmpOp.build_iff hw ha, shape_VselOp.build_iff hw ha, shape_VcvtOp.build_iff hw ha,
    shape_VX1.build_iff hw ha, shape_VX3.build_iff hw ha, shape_XX1.build_iff hw ha, shape_XX2.build_iff hw ha,
    shape_ViotaOp.build_iff hw ha, shape_VslideOp.build_iff hw ha, shape_VcompOp.build_iff hw ha, shape_VredOp.build_iff hw ha,
    shape_VscanOp.build_iff hw ha, shape_TopkOp.build_iff hw ha, reduceCtorEq] at h
  all_goals obtain ⟨o, rfl, -, rfl⟩ := h; rfl

theorem pickX2_encodes (h : pickX2 w op = .ok i) : encode i = some (64, w) := by
  unfold pickX2 at h
  split at h
  all_goals simp only [shape_X3.build_iff hw ha, shape_BfxOp.build_iff hw ha, shape_BfiOp.build_iff hw ha, reduceCtorEq] at h
  all_goals obtain ⟨o, rfl, -, rfl⟩ := h; rfl

theorem pickX7_encodes (h : pickX7 w op = .ok i) : encode i = some (64, w) := by
  unfold pickX7 at h
  split at h
  all_goals simp only [shape_LImm.build_iff hw ha, shape_LJmp.build_iff hw ha, shape_LCall.build_iff hw ha, reduceCtorEq] at h
  all_goals obtain ⟨o, rfl, -, rfl⟩ := h; rfl

theorem pickX8_encodes (h : pickX8 w op = .ok i) : encode i = some (64, w) := by
  unfold pickX8 at h
  split at h
  all_goals simp only [shape_LdXOp.build_iff hw ha, shape_StXOp.build_iff hw ha, shape_AmoOp.build_iff hw ha,
    shape_CasOp.build_iff hw ha, shape_VldXOp.build_iff hw ha, shape_VstXOp.build_iff hw ha, shape_VgthXOp.build_iff hw ha,
    shape_VsctXOp.build_iff hw ha, shape_VsctaXOp.build_iff hw ha, reduceCtorEq] at h
  all_goals obtain ⟨o, rfl, -, rfl⟩ := h; rfl

theorem pickX12_encodes (h : pickX12 w op = .ok i) : encode i = some (64, w) := by
  unfold pickX12 at h
  repeat' split at h
  all_goals simp only [shape_XcopyOp.build_iff hw (ha.sub 45 3 (by decide)), shape_XxOp.build_iff hw (ha.sub 45 3 (by decide)),
    shape_XgatherOp.build_iff hw ha, shape_XredOp.build_iff hw ha, shape_XfillOp.build_iff hw ha,
    shape_XblkOp.build_iff hw (ha.sub 45 3 (by decide)), shape_TxinitOp.build_iff hw ha, shape_TxarrOp.build_iff hw ha,
    shape_TxexpOp.build_iff hw ha, shape_TxwaitOp.build_iff hw ha, shape_TxtestOp.build_iff hw (ha.sub 59 1 (by decide)),
    shape_TxtestErrOp.build_iff hw (ha.sub 59 1 (by decide)), shape_Z64.build_iff hw ha, shape_ShpfOp.build_iff hw ha, reduceCtorEq, *] at h
  all_goals obtain ⟨o, rfl, -, rfl⟩ := h; rfl

theorem pickX16_encodes (h : pickX16 w op = .ok i) : encode i = some (64, w) := by
  unfold pickX16 at h
  split at h
  all_goals simp only [shape_TcfgOp.build_iff hw ha, shape_TldOp.build_iff hw ha, shape_TzeroOp.build_iff hw ha,
    shape_TrowOp.build_iff hw ha, shape_TsetrowOp.build_iff hw ha, shape_MskOp.build_iff hw ha, shape_GwldOp.build_iff hw ha,
    shape_GmmaOp.build_iff hw ha, shape_GmmagOp.build_iff hw ha, shape_GaccOp.build_iff hw ha, shape_GacczOp.build_iff hw ha,
    reduceCtorEq] at h
  all_goals obtain ⟨o, rfl, -, rfl⟩ := h; rfl

theorem pickX20_encodes (h : pickX20 w op = .ok i) : encode i = some (64, w) := by
  unfold pickX20 at h
  split at h
  all_goals simp only [shape_EvcfgOp.build_iff hw ha, shape_EvinjOp.build_iff hw ha, shape_EvrdOp.build_iff hw ha,
    shape_EvwrOp.build_iff hw ha, shape_EvfanOp.build_iff hw ha, shape_EvstatOp.build_iff hw ha, reduceCtorEq] at h
  all_goals obtain ⟨o, rfl, -, rfl⟩ := h; rfl

theorem pickX22_encodes (h : pickX22 w op = .ok i) : encode i = some (64, w) := by
  unfold pickX22 at h
  repeat' split at h
  all_goals simp only [shape_BarOp.build_iff hw ha, shape_FturnOp.build_iff hw ha, shape_GetOp.build_iff hw ha,
    shape_PutOp.build_iff hw ha, shape_RamoOp.build_iff hw ha, shape_CollOp.build_iff hw (ha.sub 45 3 (by decide)),
    shape_BopOp.build_iff hw ha, shape_BredOp.build_iff hw ha, shape_BvecOp.build_iff hw ha, reduceCtorEq, *] at h
  all_goals obtain ⟨o, rfl, -, rfl⟩ := h; rfl

theorem pickX24_encodes (h : pickX24 w op = .ok i) : encode i = some (64, w) := by
  unfold pickX24 at h
  split at h
  all_goals simp only [shape_SysrOp.build_iff hw ha, shape_SyswOp.build_iff hw ha, shape_IcflushOp.build_iff hw ha,
    shape_EnrdOp.build_iff hw ha, shape_LresumeOp.build_iff hw ha, shape_LkillOp.build_iff hw ha, shape_TlbiOp.build_iff hw ha,
    reduceCtorEq] at h
  all_goals obtain ⟨o, rfl, -, rfl⟩ := h; rfl

end

theorem decode16_encodes {w : Nat} {i : Instr} (hw : w < 2 ^ 16) (hl : w % 2 = 0) (h : decode16 w = .ok i) : encode i = some (16, w) := by
  have ha : Agree [(0, 6)] w (2 * bits w 1 5) := by
    simp only [agree_cons, agree_nil, and_true, bits]
    omega
  exact pickC0_encodes hw ha h

theorem decode32_encodes {w : Nat} {i : Instr} (hw : w < 2 ^ 32) (hl : w % 4 = 1) (h : decode32 w = .ok i) : encode i = some (32, w) := by
  have ha : Agree [(0, 10)] w (4 * bits w 2 8 + 1) := by
    simp only [agree_cons, agree_nil, and_true, bits]
    omega
  unfold decode32 at h
  split at h
  · exact pickW0_encodes hw ha h
  · exact pickW1_encodes hw ha h
  · exact pickW2_encodes hw ha h
  · exact pickW3_encodes hw ha h
  · exact pickW4_encodes hw ha h
  · exact pickW5_encodes hw ha h
  · exact pickW6_encodes hw ha h
  · exact pickW7_encodes hw ha h
  · exact pickW8_encodes hw ha h
  · exact pickW9_encodes hw ha h
  · exact pickW12_encodes hw ha h
  · exact pickW13_encodes hw ha h
  · exact nomatch h

/-- The words of hint space are those whose op10 lies in 0x3C0 to 0x3FF (R56). -/
theorem hintSpace_encodes {w : Nat} {i : Instr} (hw : w < 2 ^ 64) (hl : w % 4 = 3) (hop : bits w 2 10 / 64 = 15)
    (h : build .hintSpace (decodeHintOp w) = .ok i) : encode i = some (64, w) := by
  have ha : Agree [(0, 2), (8, 4)] w 0xF03 := by
    simp only [agree_cons, agree_nil, and_true, bits] at hop ⊢
    omega
  obtain ⟨o, rfl, -, rfl⟩ := (shape_HintOp.build_iff hw ha _ _).1 h
  rfl

theorem decode64_encodes {w : Nat} {i : Instr} (hw : w < 2 ^ 64) (hl : w % 4 = 3) (h : decode64 w = .ok i) : encode i = some (64, w) := by
  have ha : Agree [(0, 12)] w (4 * bits w 2 10 + 3) := by
    simp only [agree_cons, agree_nil, and_true, bits]
    omega
  unfold decode64 at h
  split at h
  · exact pickX0_encodes hw ha h
  · exact pickX1_encodes hw ha h
  · exact pickX2_encodes hw ha h
  · exact pickX7_encodes hw ha h
  · exact pickX8_encodes hw ha h
  · exact pickX12_encodes hw ha h
  · exact pickX16_encodes hw ha h
  · exact pickX20_encodes hw ha h
  · exact pickX22_encodes hw ha h
  · exact pickX24_encodes hw ha h
  · exact hintSpace_encodes hw hl (by omega) h
  · exact hintSpace_encodes hw hl (by omega) h
  · exact nomatch h

theorem lengthOf_eq_iff (w : Nat) : (lengthOf (w % 65536) = 16 ↔ w % 2 = 0) ∧ (lengthOf (w % 65536) = 32 ↔ w % 4 = 1)
    ∧ (lengthOf (w % 65536) = 64 ↔ w % 4 = 3) := by
  unfold lengthOf
  split
  · next h => simp at h ⊢; omega
  · next h =>
    split
    · next h' => simp at h h' ⊢; omega
    · next h' => simp at h h' ⊢; omega

theorem decodeFields_encodes {n w : Nat} {i : Instr} (hn : n = 16 ∨ n = 32 ∨ n = 64) (hw : w < 2 ^ n) (hl : lengthOf (w % 65536) = n)
    (h : decodeFields n w = .ok i) : encode i = some (n, w) := by
  obtain ⟨h16, h32, h64⟩ := lengthOf_eq_iff w
  obtain rfl | rfl | rfl := hn
  · exact decode16_encodes hw (h16.1 hl) h
  · exact decode32_encodes hw (h32.1 hl) h
  · exact decode64_encodes hw (h64.1 hl) h

theorem decodeWord_eq_ok_iff {n w : Nat} {i : Instr} : decodeWord n w = .ok i ↔ decodeFields n w = .ok i ∧ wf i = true := by
  unfold decodeWord
  split
  · next j hj =>
    rw [hj]
    split
    · next hwf =>
      simp only [Except.ok.injEq]
      exact ⟨fun e => ⟨e, e ▸ hwf⟩, And.left⟩
    · next hwf =>
      simp only [Except.ok.injEq, reduceCtorEq, false_iff, not_and]
      rintro rfl
      exact hwf
  · next hj => simp [hj]

/-- Settles O56: each group of opcodes reads the operands of a shape, whose encoding is the word. -/
theorem decodeEncode : Obligations.DecodeEncode := by
  intro i n w hn hw hl h
  obtain ⟨hd, hwf⟩ := decodeWord_eq_ok_iff.1 h
  exact ⟨hwf, decodeFields_encodes hn hw hl hd⟩

end Sys2Proof
end

section
/-! O55 and O54: an encoded instruction is read back. Its word has the shape of its operands, and its opcode bits lead the decoder to the
same shape. -/

namespace Sys2Proof

/-! ### Instructions that are read back -/

/-- `w` is a word of `n` bits, of the length that its low bits announce, and the fields of `i` are read from it (R40). -/
def Reads (n w : Nat) (i : Instr) : Prop := decodeFields n w = .ok i ∧ w < 2 ^ n ∧ lengthOf (w % 65536) = n

/-- The well-formed instruction has no words, or its word is read as it. -/
def Readable (i : Instr) : Prop := wf i = true → ∀ n w, encode i = some (n, w) → Reads n w i

theorem lengthOf_halfword (w : Nat) : lengthOf (w % 65536) = lengthOf (bits w 0 2) := by
  have h2 : w % 65536 % 2 = bits w 0 2 % 2 := by unfold bits; omega
  have h4 : w % 65536 % 4 = bits w 0 2 % 4 := by unfold bits; omega
  rw [lengthOf, lengthOf, h2, h4]

theorem bits_add (w lo m n : Nat) : bits w lo (m + n) = bits w lo m + 2 ^ m * bits w (lo + m) n := by
  simp only [bits, Nat.pow_add, Nat.mod_mul, Nat.div_div_eq_div_mul]

section
variable {α : Type} {ops : List (Nat × Nat)} {dec : Nat → Option α} {enc : α → Nat} {ok : α → Prop} {mk : α → Instr}
  {m b : Nat} {o : α}

/-- An instruction whose word has a shape is readable when the opcode bits lead the decoder to its fields. -/
theorem Shape.readable {n : Nat} (hs : Shape n ((0, m) :: ops) dec enc ok) (henc : encode (mk o) = some (n, b + enc o))
    (hok : wf (mk o) = true → ok o) (hb : opcode ((0, m) :: ops) b = b) (hm : 2 ≤ m) (hl : lengthOf (bits b 0 2) = n)
    (sel : ∀ w, Agree ((0, m) :: ops) w b → dec w = some o → decodeFields n w = build mk (dec w)) : Readable (mk o) := by
  intro hwf n' w h
  obtain ⟨rfl, rfl⟩ : n = n' ∧ b + enc o = w := by simpa [henc] using h
  obtain ⟨hw, ha, hd⟩ := (hs (b + enc o) b o).2 ⟨hok hwf, by rw [hb]⟩
  refine ⟨?_, hw, ?_⟩
  · rw [sel _ ha hd, hd, build]
  · rw [lengthOf_halfword, ha.low hm, hl]

theorem Shape.readable16 (hs : Shape 16 ((0, m) :: ops) dec enc ok) (henc : encode (mk o) = some (16, b + enc o))
    (hok : wf (mk o) = true → ok o := by exact fun _ => trivial)
    (sel : ∀ w, bits w 1 5 = bits b 1 5 → decode16 w = build mk (dec w) := by intro w h; rw [decode16, h]; rfl)
    (hb : opcode ((0, m) :: ops) b = b := by rfl) (hm : 6 ≤ m := by decide) (hl : lengthOf (bits b 0 2) = 16 := by rfl) :
    Readable (mk o) :=
  hs.readable henc hok hb (by omega) hl fun w ha _ => sel w (ha.low hm)

theorem Shape.readable32 (hs : Shape 32 ((0, m) :: ops) dec enc ok) (henc : encode (mk o) = some (32, b + enc o))
    (hok : wf (mk o) = true → ok o := by exact fun _ => trivial)
    (sel : ∀ w, bits w 2 8 = bits b 2 8 → decode32 w = build mk (dec w) := by intro w h; rw [decode32, h]; rfl)
    (hb : opcode ((0, m) :: ops) b = b := by rfl) (hm : 10 ≤ m := by decide) (hl : lengthOf (bits b 0 2) = 32 := by rfl) :
    Readable (mk o) :=
  hs.readable henc hok hb (by omega) hl fun w ha _ => sel w (ha.low hm)

theorem Shape.readable64 (hs : Shape 64 ((0, m) :: ops) dec enc ok) (henc : encode (mk o) = some (64, b + enc o))
    (hok : wf (mk o) = true → ok o := by exact fun _ => trivial)
    (sel : ∀ w, bits w 2 10 = bits b 2 10 → decode64 w = build mk (dec w) := by intro w h; rw [decode64, h]; rfl)
    (hb : opcode ((0, m) :: ops) b = b := by rfl) (hm : 12 ≤ m := by decide) (hl : lengthOf (bits b 0 2) = 64 := by rfl) :
    Readable (mk o) :=
  hs.readable henc hok hb (by omega) hl fun w ha _ => sel w (ha.low hm)

theorem Shape.readableSub32 {lo k : Nat} (hs : Shape 32 [(0, m), (lo, k)] dec enc ok) (henc : encode (mk o) = some (32, b + enc o))
    (hok : wf (mk o) = true → ok o := by exact fun _ => trivial)
    (sel : ∀ w, bits w 2 8 = bits b 2 8 → bits w lo k = bits b lo k → decode32 w = build mk (dec w) := by
      intro w h h'; delta decode32 pickW12 pickW13; rw [h, h']; rfl)
    (hb : opcode [(0, m), (lo, k)] b = b := by rfl) (hm : 10 ≤ m := by decide) (hl : lengthOf (bits b 0 2) = 32 := by rfl) :
    Readable (mk o) :=
  hs.readable henc hok hb (by omega) hl fun w ha _ => sel w (ha.low hm) (ha (lo, k) (by simp))

theorem Shape.readableSub64 {lo k : Nat} (hs : Shape 64 [(0, m), (lo, k)] dec enc ok) (henc : encode (mk o) = some (64, b + enc o))
    (hok : wf (mk o) = true → ok o := by exact fun _ => trivial)
    (sel : ∀ w, bits w 2 10 = bits b 2 10 → bits w lo k = bits b lo k → decode64 w = build mk (dec w) := by
      intro w h h'; delta decode64 pickX12 pickX22; rw [h, h']; rfl)
    (hb : opcode [(0, m), (lo, k)] b = b := by rfl) (hm : 12 ≤ m := by decide) (hl : lengthOf (bits b 0 2) = 64 := by rfl) :
    Readable (mk o) :=
  hs.readable henc hok hb (by omega) hl fun w ha _ => sel w (ha.low hm) (ha (lo, k) (by simp))

/-- CMPI, BR, LD and ST have an operand in the low bits of op8, so that each takes a row of opcodes (R53). -/
theorem Shape.readableRow32 {lo k : Nat} (j lim : Nat) (hs : Shape 32 [(0, 2), (lo, k)] dec enc ok)
    (henc : encode (mk o) = some (32, b + enc o)) (hd : ∀ w, dec w = some o → bits w 2 j < lim)
    (hok : wf (mk o) = true → ok o := by exact fun _ => trivial)
    (sel : ∀ x < lim, ∀ w, bits w 2 8 = x + 2 ^ j * bits b lo k → decode32 w = build mk (dec w) := by
      intro x hx w h; rw [decode32, h]; interval_cases x <;> rfl)
    (hb : opcode [(0, 2), (lo, k)] b = b := by rfl) (hlo : 2 + j = lo := by rfl) (hk : j + k = 8 := by rfl)
    (hl : lengthOf (bits b 0 2) = 32 := by rfl) : Readable (mk o) := by
  refine hs.readable henc hok hb (by decide) hl fun w ha h => sel _ (hd w h) w ?_
  rw [← ha (lo, k) (by simp), ← hk, bits_add, hlo]

end

/-- The words of hint space are those whose op10 lies in 0x3C0 to 0x3FF (R56). -/
theorem hintSpace_readable (o : HintOp) : Readable (.hintSpace o) := by
  refine shape_HintOp.readable (mk := .hintSpace) (b := 0xF03) rfl (fun _ => trivial) rfl (by decide) rfl fun w ha _ => ?_
  have hop : bits w 2 10 / 32 = 30 ∨ bits w 2 10 / 32 = 31 := by
    have h8 : bits w 8 4 = 15 := ha (8, 4) (by simp)
    unfold bits at *
    omega
  show decode64 w = _
  obtain h | h := hop <;> simp only [decode64, h]

/-- An event of the machine has no word. -/
theorem readable_of_event {i : Instr} (h : encode i = none) : Readable i := by
  intro _ n w e
  rw [h] at e
  exact nomatch e

theorem readable (i : Instr) : Readable i := by
  cases i
  case movC | addC | subC | andC | orC | xorC | shlC | shrC | sraC | negC | ldI64C | stI64C | ldI32C | stI32C | vaddC | vmulC
       | vsubC | vldC | vstC =>
    exact shape_C2.readable16 rfl
  case addiC | ldiC | shliC | shriC | sraiC | andiC | bzC | bnzC => exact shape_CI.readable16 rfl
  case jmprC | retC => exact shape_C1.readable16 rfl
  case doneC | nopC => exact shape_C0.readable16 rfl
  case brkC => exact shape_CCode.readable16 rfl
  case add | sub | mul | mulhi | mulhiu | div | divu | rem | remu | and | or | xor | andn | shl | shr | sra | rot | min | max
       | minu | maxu | vlut =>
    exact shape_R3.readable32 rfl
  case neg | abs | clz | ctz | popc | brev | bswap | mov | callr | pop => exact shape_R2.readable32 rfl
  case sext | zext => exact shape_RW.readable32 rfl
  case cmp => exact shape_RCmp.readable32 rfl
  case addi | muli | andi | ori | xori | vld | vst => exact shape_RI.readable32 rfl
  case shli | shri | srai | roti => exact shape_RSh.readable32 rfl
  case ldi | lea => exact shape_DI.readable32 rfl
  case cmpi => exact shape_RICmp.readableRow32 3 6 rfl fun w h => by simp_all [decodeRICmp]
  case br => exact shape_Br.readableRow32 3 6 rfl fun w h => by simp_all [decodeBr]
  case bz | bnz => exact shape_Bz.readable32 rfl
  case bpAny | bpAll | bpNone => exact shape_Bp.readable32 rfl
  case jmp | call => exact shape_BOff.readable32 rfl
  case jmpr | ret => exact shape_A1.readable32 rfl
  case loop => exact shape_LoopOp.readable32 rfl
  case done | nop => exact shape_Z32.readable32 rfl
  case trap | brk => exact shape_CodeOp.readable32 rfl
  case ld => exact shape_LdOp.readableRow32 3 7 rfl fun w h => by simp_all [decodeLdOp]
  case st => exact shape_StOp.readableRow32 2 4 rfl fun w _ => bits_lt w 2 2
  case ldx => exact shape_LdxOp.readable32 rfl
  case stx => exact shape_StxOp.readable32 rfl
  case vlds | vsts | vgth | vsct | vscta | vadd | vsub | vmul | vfma | vfms | vfnma | vmin | vmax | vminn | vmaxn | vdiv | vand
       | vor | vxor | vshl | vshr | vsra | vperm | vdot | vdistL2sq | vdistIp | vdistCos =>
    exact shape_V2.readable32 rfl
  case pref => exact shape_PrefOp.readable32 rfl
  case waitc => exact shape_WaitcOp.readable32 rfl
  case vneg | vabs | vrcp | vrsq | vsqrt | vexp2 | vlog2 | vnorm => exact shape_V1.readable32 rfl
  case pset => exact shape_PsetOp.readable32 rfl
  case pand | por | pxor | pandn => exact shape_P3.readable32 rfl
  case pnot => exact shape_P2.readable32 rfl
  case pcnt | pfirst | pmovxToX => exact shape_XP.readableSub32 rfl
  case pmovxToP => exact shape_PX.readableSub32 rfl
  case send | spawnc | joinat | actor | sbcfg | push | hvw => exact shape_S2.readable32 rfl
  case sendv => exact shape_SendvOp.readable32 rfl
  case sendo => exact shape_SendoOp.readable32 rfl
  case spawn => exact shape_S1.readable32 rfl
  case tsrd | abortt | aborttDrop => exact shape_D1.readableSub32 rfl
  case range => exact shape_RangeOp.readable32 rfl
  case chunk => exact shape_ChunkOp.readable32 rfl
  case steal => exact shape_StealOp.readable32 rfl
  case vaddX | vsubX | vmulX | vminX | vmaxX | vminnX | vmaxnX | vdivX | vandX | vorX | vxorX | vshlX | vshrX | vsraX | vpermX
       | vdotX | vlutX | vdistL2sqX | vdistIpX | vdistCosX =>
    exact shape_VX2.readable64 rfl
  case vfmaX | vfmsX | vfnmaX | vclamp => exact shape_VX3.readable64 rfl
  case vnegX | vabsX | vrcpX | vrsqX | vsqrtX | vexp2X | vlog2X | vnormX | vround => exact shape_VX1.readable64 rfl
  case vcmp => exact shape_VcmpOp.readable64 rfl fun h => by simp_all [wf]
  case vsel => exact shape_VselOp.readable64 rfl
  case vcvt => exact shape_VcvtOp.readable64 rfl
  case vsplat => exact shape_XX1.readable64 rfl
  case vextr | vins => exact shape_XX2.readable64 rfl
  case viota => exact shape_ViotaOp.readable64 rfl
  case vslide => exact shape_VslideOp.readable64 rfl
  case vcomp | vexpd => exact shape_VcompOp.readable64 rfl
  case vred => exact shape_VredOp.readable64 rfl
  case vscan => exact shape_VscanOp.readable64 rfl
  case topk | topkm => exact shape_TopkOp.readable64 rfl
  case sel | madd => exact shape_X3.readable64 rfl
  case bfx | bfxu => exact shape_BfxOp.readable64 rfl
  case bfi => exact shape_BfiOp.readable64 rfl
  case ldiL | ldih => exact shape_LImm.readable64 rfl
  case jmpL => exact shape_LJmp.readable64 rfl
  case callL => exact shape_LCall.readable64 rfl
  case ldX => exact shape_LdXOp.readable64 rfl
  case stX => exact shape_StXOp.readable64 rfl
  case amo => exact shape_AmoOp.readable64 rfl
  case cas => exact shape_CasOp.readable64 rfl
  case vldX => exact shape_VldXOp.readable64 rfl
  case vstX => exact shape_VstXOp.readable64 rfl
  case vgthX => exact shape_VgthXOp.readable64 rfl
  case vsctX => exact shape_VsctXOp.readable64 rfl
  case vsctaX => exact shape_VsctaXOp.readable64 rfl
  case xcopyIn | xcopyOut => exact shape_XcopyOp.readableSub64 rfl
  case xcopyXx => exact shape_XxOp.readableSub64 rfl
  case xgather | xscatter => exact shape_XgatherOp.readable64 rfl
  case xred => exact shape_XredOp.readable64 rfl
  case xfill => exact shape_XfillOp.readable64 rfl
  case xblkRd | xblkWr | xblkFlush => exact shape_XblkOp.readableSub64 rfl
  case txinit => exact shape_TxinitOp.readable64 rfl
  case txarr => exact shape_TxarrOp.readable64 rfl
  case txexp => exact shape_TxexpOp.readable64 rfl
  case txwait => exact shape_TxwaitOp.readable64 rfl
  case txtest => exact shape_TxtestOp.readableSub64 rfl
  case txtestErr => exact shape_TxtestErrOp.readableSub64 rfl
  case shfence => exact shape_Z64.readable64 rfl
  case shpf => exact shape_ShpfOp.readable64 rfl
  case tcfg => exact shape_TcfgOp.readable64 rfl
  case tld | tst => exact shape_TldOp.readable64 rfl
  case tzero => exact shape_TzeroOp.readable64 rfl
  case trow => exact shape_TrowOp.readable64 rfl
  case tsetrow => exact shape_TsetrowOp.readable64 rfl
  case msk => exact shape_MskOp.readable64 rfl
  case gwld => exact shape_GwldOp.readable64 rfl
  case gmma | gmmas => exact shape_GmmaOp.readable64 rfl
  case gmmag => exact shape_GmmagOp.readable64 rfl
  case gacc => exact shape_GaccOp.readable64 rfl
  case gaccz => exact shape_GacczOp.readable64 rfl
  case evcfg => exact shape_EvcfgOp.readable64 rfl
  case evinj => exact shape_EvinjOp.readable64 rfl
  case evrd => exact shape_EvrdOp.readable64 rfl
  case evwr => exact shape_EvwrOp.readable64 rfl
  case evfan => exact shape_EvfanOp.readable64 rfl
  case evstat => exact shape_EvstatOp.readable64 rfl
  case bar | bara | barw => exact shape_BarOp.readable64 rfl
  case fturn => exact shape_FturnOp.readable64 rfl
  case get => exact shape_GetOp.readable64 rfl
  case put => exact shape_PutOp.readable64 rfl
  case ramo => exact shape_RamoOp.readable64 rfl
  case collAllred | collAllgth | collRedsct | collBar => exact shape_CollOp.readableSub64 rfl
  case bop => exact shape_BopOp.readable64 rfl
  case bred => exact shape_BredOp.readable64 rfl
  case bvec => exact shape_BvecOp.readable64 rfl
  case sysr => exact shape_SysrOp.readable64 rfl
  case sysw => exact shape_SyswOp.readable64 rfl
  case icflush => exact shape_IcflushOp.readable64 rfl
  case enrd => exact shape_EnrdOp.readable64 rfl
  case lresume | lstep => exact shape_LresumeOp.readable64 rfl
  case lkill => exact shape_LkillOp.readable64 rfl
  case tlbi => exact shape_TlbiOp.readable64 rfl
  case hintSpace => exact hintSpace_readable _
  all_goals exact readable_of_event rfl

/-- An encoding of a well-formed instruction decodes to it. -/
theorem decodeWord_encode {i : Instr} {n w : Nat} (hwf : wf i = true) (h : encode i = some (n, w)) : decodeWord n w = .ok i :=
  decodeWord_eq_ok_iff.2 ⟨(readable i hwf n w h).1, hwf⟩

/-- Settles O55: the word of each instruction has the shape of its operands, and is read back from it. -/
theorem encodeDecode : Obligations.EncodeDecode := fun i n w hwf h =>
  ⟨decodeWord_encode hwf h, (readable i hwf n w h).2⟩

/-- Settles O54: each word is the encoding of the instruction that it stands for. -/
theorem decodeWords : Obligations.DecodeWords := by
  refine ⟨?_, ?_, ?_, ?_, ?_, ?_, ?_, ?_, ?_, ?_, ?_, ?_, ?_, ?_, ?_, ?_, ?_, ?_, ?_, ?_, ?_, ?_⟩ <;>
    exact decodeWord_encode (by decide) rfl

end Sys2Proof
end

section
/-! O3: the results of the bit-field, multiply-add, long-immediate and predicate instructions (R47, R91, R93 to R95). -/

namespace Sys2Proof.Machine
open Sys2Proof.Safety

/-! ### The shared operations, with their operands ready -/

theorem free_x {l : Lane} {d : Reg} (h : XFree l d) : Free l [.x d] := free_cons.2 ⟨h, free_nil l⟩

section
variable {l : Lane} {d : Reg} {a b c : Src}

theorem alu0_ok (v : Lane → X) (hd : XFree l d) : alu0 d v l = .ok (putX l d (v l)) := by
  simp only [alu0, gate_ok (ready_nil l) (free_x hd), bind_ok]

theorem alu1_ok (g : X → X) (hs : Ready l [.x a]) (hd : XFree l d) : alu1 d a g l = .ok (putX (kill l [.x a]) d (g (getX l a.reg))) := by
  simp only [alu1, gate_ok hs (free_x hd), bind_ok]

theorem alu2_ok (g : X → X → X) (hs : Ready l [.x a, .x b]) (hd : XFree l d) :
    alu2 d a b g l = .ok (putX (kill l [.x a, .x b]) d (g (getX l a.reg) (getX l b.reg))) := by
  simp only [alu2, gate_ok hs (free_x hd), bind_ok]

theorem alu3_ok (g : X → X → X → X) (hs : Ready l [.x a, .x b, .x c]) (hd : XFree l d) :
    alu3 d a b c g l = .ok (putX (kill l [.x a, .x b, .x c]) d (g (getX l a.reg) (getX l b.reg) (getX l c.reg))) := by
  simp only [alu3, gate_ok hs (free_x hd), bind_ok]

theorem predToX_ok {p : PReg} (g : P → X) (hd : XFree l d) : predToX d p g l = .ok (putX l d (g (getP l p))) := by
  simp only [predToX, gate_ok (ready_nil l) (free_x hd), bind_ok]

theorem xToPred_ok {p : PReg} (g : X → P) (hs : Ready l [.x a]) : xToPred p a g l = .ok (putP (kill l [.x a]) p (g (getX l a.reg))) := by
  simp only [xToPred, gate_ok hs (free_nil l), bind_ok]

end

/-- A lane operation that answers its result completes with it. -/
theorem resultX_of_laneOp {i : Instr} {n : Nat} {f : Lane → Except Stop Lane} {srcs : List Opnd} {d : Reg} {v : Lane → X}
    (hi : ∀ s, exec i s = laneOp n f s) (hf : ∀ l, Ready l srcs → XFree l d → f l = .ok (putX (kill l srcs) d (v l))) :
    ResultX i n srcs d v := fun s hs hd => (hi s).trans (laneOp_ok (hf _ hs hd))

theorem resultP_of_laneOp {i : Instr} {n : Nat} {f : Lane → Except Stop Lane} {srcs : List Opnd} {d : PReg} {v : Lane → P}
    (hi : ∀ s, exec i s = laneOp n f s) (hf : ∀ l, Ready l srcs → f l = .ok (putP (kill l srcs) d (v l))) :
    ResultP i n srcs d v := fun s hs => (hi s).trans (laneOp_ok (hf _ hs))

/-- A guarded lane operation that answers its result completes with it when its guard is on, and only counts when it is off (R47). -/
theorem guardedX_of_guardedLaneOp {i : Instr} {n : Nat} {g : PReg} {f : Lane → Except Stop Lane} {srcs : List Opnd} {d : Reg}
    {v : Lane → X} (hi : ∀ s, exec i s = guardedLaneOp n g f s)
    (hf : ∀ l, Ready l srcs → XFree l d → f l = .ok (putX (kill l srcs) d (v l))) : GuardedX i n g srcs d v := fun s =>
  ⟨fun hg hs hd => (hi s).trans ((guardedLaneOp_on hg).trans (laneOp_ok (hf _ hs hd))),
    fun hg => (hi s).trans (guardedLaneOp_off hg)⟩

/-! ### Bit fields (R94) -/

theorem bfxuX_eq (pos len : Nat) (a : X) : bfxuX pos len a = (a.extractLsb' pos len).setWidth 64 := by
  apply BitVec.eq_of_toNat_eq
  simp [bfxuX, Nat.shiftRight_eq_div_pow]

theorem sgn_eq_toInt {n v : Nat} (h : v < 2 ^ n) : sgn n v = (BitVec.ofNat n v).toInt := by
  simp only [sgn, BitVec.toInt_eq_toNat_cond, BitVec.toNat_ofNat, Nat.mod_eq_of_lt h]
  norm_cast

theorem bfxX_eq {pos len : Nat} (hlen : len ≤ 64) (a : X) : bfxX pos len a = (a.extractLsb' pos len).signExtend 64 := by
  have hle : 2 ^ len ≤ 2 ^ 64 := Nat.pow_le_pow_right (by decide) hlen
  have hlt : a.toNat / 2 ^ pos % 2 ^ len < 2 ^ len := Nat.mod_lt _ (Nat.two_pow_pos len)
  have hv : (bfxuX pos len a).toNat = a.toNat / 2 ^ pos % 2 ^ len := Nat.mod_eq_of_lt (hlt.trans_le hle)
  have hx : a.extractLsb' pos len = BitVec.ofNat len (a.toNat / 2 ^ pos % 2 ^ len) := by
    apply BitVec.eq_of_toNat_eq
    simp [Nat.shiftRight_eq_div_pow]
  rw [bfxX, sext, hv, sgn_eq_toInt hlt, hx, BitVec.signExtend]

/-- A number is its high part, the `n`-bit field at `lo`, and its low part. -/
theorem eq_cut (w lo n : Nat) : w = 2 ^ (lo + n) * (w / 2 ^ (lo + n)) + (2 ^ lo * bits w lo n + w % 2 ^ lo) := by
  have h1 := Nat.div_add_mod w (2 ^ lo)
  have h2 := Nat.div_add_mod (w / 2 ^ lo) (2 ^ n)
  rw [Nat.div_div_eq_div_mul, ← pow_add] at h2
  calc w = 2 ^ lo * (2 ^ n * (w / 2 ^ (lo + n)) + w / 2 ^ lo % 2 ^ n) + w % 2 ^ lo := by rw [h2, h1]
    _ = _ := by rw [bits]; ring

/-- Each bit of a number with a field replaced is one of the field's new bits or the number's own. -/
theorem testBit_putBits (w lo n v i : Nat) :
    (putBits w lo n v).testBit i = if lo ≤ i ∧ i < lo + n then v.testBit (i - lo) else w.testBit i := by
  have hput : putBits w lo n v = 2 ^ (lo + n) * (w / 2 ^ (lo + n)) + (2 ^ lo * (v % 2 ^ n) + w % 2 ^ lo) := by
    have := eq_cut w lo n
    rw [putBits, mul_comm (bits w lo n), mul_comm (v % 2 ^ n)]
    omega
  have hlow : w % 2 ^ lo < 2 ^ lo := Nat.mod_lt _ (Nat.two_pow_pos lo)
  have hmid : 2 ^ lo * (v % 2 ^ n) + w % 2 ^ lo < 2 ^ (lo + n) := by
    rw [pow_add]
    exact (Nat.add_lt_add_left hlow _).trans_le (Nat.mul_le_mul_left _ (Nat.mod_lt v (Nat.two_pow_pos n)))
  rw [hput, Nat.testBit_two_pow_mul_add _ hmid, Nat.testBit_two_pow_mul_add _ hlow]
  rcases lt_or_ge i lo with h | h
  · simp [Nat.testBit_mod_two_pow, h, Nat.lt_add_right n h, Nat.not_le.2 h]
  · rcases lt_or_ge i (lo + n) with h' | h'
    · simp [Nat.testBit_mod_two_pow, h, h', Nat.not_lt.2 h]
      omega
    · simp [Nat.testBit_div_two_pow, Nat.not_lt.2 h', h']

theorem bfiX_eq {pos len : Nat} (h : pos + len ≤ 64) (a b : X) : bfiX pos len a b =
    (a &&& ~~~ ((BitVec.allOnes len).setWidth 64 <<< pos)) ||| ((b <<< pos) &&& ((BitVec.allOnes len).setWidth 64 <<< pos)) := by
  apply BitVec.eq_of_getLsbD_eq
  intro i hi
  have hmask : ((BitVec.allOnes len).setWidth 64 <<< pos).getLsbD i = decide (pos ≤ i ∧ i < pos + len) := by
    rw [BitVec.getLsbD_shiftLeft, BitVec.getLsbD_setWidth, BitVec.getLsbD_allOnes, Bool.eq_iff_iff]
    simp only [hi, Bool.and_eq_true, decide_eq_true_eq, Bool.not_eq_true', decide_eq_false_iff_not, true_and]
    omega
  rw [bfiX, BitVec.getLsbD_or, BitVec.getLsbD_and, BitVec.getLsbD_and, BitVec.getLsbD_not, hmask, BitVec.getLsbD_ofNat, testBit_putBits]
  by_cases hf : pos ≤ i ∧ i < pos + len
  · rw [if_pos hf, BitVec.testBit_toNat]
    simp only [hf, hi, Nat.not_lt.2 hf.1, decide_true, decide_false, Bool.not_true, Bool.and_false, Bool.and_true, Bool.true_and,
      Bool.false_or, BitVec.getLsbD_shiftLeft, Bool.not_false, and_self]
  · simp [hf, hi, BitVec.testBit_toNat]

theorem ldih_eq (v : BitVec 32) (a : X) : a &&& (0xFFFFFFFF : X) ||| v.setWidth 64 <<< 32 = v ++ a.setWidth 32 := by
  apply BitVec.eq_of_getLsbD_eq
  intro i hi
  have hmask : (0xFFFFFFFF : X).getLsbD i = decide (i < 32) := by
    rw [show (0xFFFFFFFF : X) = (BitVec.allOnes 32).setWidth 64 by decide, BitVec.getLsbD_setWidth, BitVec.getLsbD_allOnes]
    simp [hi]
  rw [BitVec.getLsbD_or, BitVec.getLsbD_and, hmask, BitVec.getLsbD_shiftLeft, BitVec.getLsbD_append]
  by_cases h : i < 32
  · simp [h, hi]
  · simp [h, hi, show i - 32 < 64 by omega]

/-! ### Predicates (R95) -/

theorem psetMask_eq (a : X) (imm : BitVec 10) :
    psetMask a imm = BitVec.ofNat 32 (2 ^ (min 32 (max 0 (a + imm.signExtend 64).toInt)).toNat - 1) := by
  unfold psetMask
  generalize (a + imm.signExtend 64).toInt = n
  dsimp only
  split
  · next h => rw [max_eq_left h]; rfl
  · next h =>
    rw [max_eq_right (by omega)]
    split
    · next h' => rw [min_eq_left h']; rfl
    · next h' => rw [min_eq_right (by omega)]

theorem bit_toNat {n : Nat} (x : BitVec n) (i : Nat) : bit x.toNat i = x.getLsbD i := by
  rw [BitVec.getLsbD, Nat.testBit_eq_decide_div_mod_eq]
  rfl

theorem popBelow_eq_cpopNatRec {w : Nat} (x : BitVec w) (n : Nat) : popBelow x.toNat n = x.cpopNatRec n 0 := by
  induction n with
  | zero => rfl
  | succ n ih =>
    rw [popBelow, ih, bit_toNat, BitVec.cpopNatRec_succ, BitVec.cpopNatRec_eq (acc := _ + _)]
    cases x.getLsbD n <;> simp

theorem pcount_eq (p : P) : BitVec.ofNat 64 (pcount p) = p.cpop.setWidth 64 := by
  apply BitVec.eq_of_toNat_eq
  rw [pcount, popBelow_eq_cpopNatRec, BitVec.toNat_ofNat, BitVec.toNat_setWidth, BitVec.toNat_cpop]

/-- The first of `n` bits that is one is the one after which all before it are zero. -/
theorem firstOne_eq {a k n m : Nat} (hk : k ≤ m) (hn : m ≤ k + n) (hz : ∀ i < m, bit a i = false)
    (ho : m < k + n → bit a m = true) :
    firstOne a k n = m := by
  induction n generalizing k with
  | zero => exact Nat.le_antisymm hk hn
  | succ n ih =>
    obtain rfl | hlt := Nat.eq_or_lt_of_le hk
    · simp [firstOne, ho (by omega)]
    · simp only [firstOne, hz k hlt, Bool.false_eq_true, if_false]
      exact ih hlt (by omega) fun h => ho (by omega)

theorem ctz_toNat_lt_iff {p : P} : p.ctz.toNat < 32 ↔ p ≠ 0#32 := BitVec.ctz_lt_iff_ne_zero

theorem pfirstIx_eq (p : P) : BitVec.ofNat 64 (pfirstIx p) = p.ctz.setWidth 64 := by
  have hle : p.ctz.toNat ≤ 0 + 32 := BitVec.clz_le (x := p.reverse)
  have hix : pfirstIx p = p.ctz.toNat := by
    refine firstOne_eq (Nat.zero_le _) hle (fun i hi => ?_) (fun h => ?_)
    · rw [bit_toNat, BitVec.getLsbD_false_of_lt_ctz hi]
    · rw [bit_toNat]
      exact BitVec.getLsbD_true_ctz_of_ne_zero (ctz_toNat_lt_iff.1 (by rwa [Nat.zero_add] at h))
  rw [hix, BitVec.ofNat_toNat]

/-! ### The instructions -/

theorem threeSourceAndFields_hold : Claims.ThreeSourceAndFields := by
  refine ⟨fun o => ?sel, fun o => ?madd, fun o h => ?bfxu, fun o h => ?bfx, fun o h => ?bfi, fun o => ?ldi, fun o => ?ldih⟩
  case sel => exact guardedX_of_guardedLaneOp (fun _ => rfl) fun l hs hd => alu3_ok selX hs hd
  case madd => exact guardedX_of_guardedLaneOp (fun _ => rfl) fun l hs hd => alu3_ok _ hs hd
  case bfxu => exact guardedX_of_guardedLaneOp (fun _ => rfl) fun l hs hd => (alu1_ok _ hs hd).trans (by rw [bfxuX_eq])
  case bfx =>
    exact guardedX_of_guardedLaneOp (fun _ => rfl) fun l hs hd => (alu1_ok _ hs hd).trans (by rw [bfxX_eq]; simp [wf, fieldOk] at h; omega)
  case bfi =>
    exact guardedX_of_guardedLaneOp (fun _ => rfl) fun l hs hd => (alu2_ok _ hs hd).trans (by rw [bfiX_eq]; simp [wf, fieldOk] at h; omega)
  case ldi => exact resultX_of_laneOp (fun _ => rfl) fun l _ hd => alu0_ok _ hd
  case ldih =>
    exact resultX_of_laneOp (fun _ => rfl) fun l hs hd => (alu1_ok _ hs hd).trans (congrArg (fun v => Except.ok (putX _ _ v)) (ldih_eq o.imm _))

theorem predicateInstructions_hold : Claims.PredicateInstructions := by
  refine ⟨fun o => ?pset, fun o => ?pand, fun o => ?por, fun o => ?pxor, fun o => ?pandn, fun o => ?pnot, 
    fun o => ?pcnt, fun o => ?pfirst, fun o => ?toP, fun o => ?toX⟩
  case pset => exact resultP_of_laneOp (fun _ => rfl) fun l hs => (xToPred_ok _ hs).trans (by rw [psetMask_eq])
  case pand | por | pxor | pandn | pnot => exact resultP_of_laneOp (fun _ => rfl) fun l _ => rfl
  case pcnt => exact resultX_of_laneOp (fun _ => rfl) fun l _ hd => (predToX_ok _ hd).trans (by rw [pcount_eq]; rfl)
  case pfirst => exact resultX_of_laneOp (fun _ => rfl) fun l _ hd => (predToX_ok _ hd).trans (by rw [pfirstIx_eq]; rfl)
  case toP => exact resultP_of_laneOp (fun _ => rfl) fun l hs => xToPred_ok _ hs
  case toX => exact resultX_of_laneOp (fun _ => rfl) fun l _ hd => predToX_ok _ hd

/-- Settles O3: each instruction is one of the shared operations with its own function of the sources (`alu0_ok` to `xToPred_ok`),
and that function is the value which R91 and R93 to R95 give (`bfxuX_eq` to `pfirstIx_eq`). -/
theorem fieldsAndPredicates : Obligations.FieldsAndPredicates := ⟨threeSourceAndFields_hold, predicateInstructions_hold⟩

end Sys2Proof.Machine
end

section
/-! O12: hint space, WAITC, PREF, SHFENCE and SHPF (R56, R155, R157, R271, R272). -/

namespace Sys2Proof.Machine
open Sys2Proof.Safety

/-! ### Hint space (R56) -/

theorem decode64_hintSpace {w : Nat} (h : 0x3C0 ≤ w / 4 % 1024) : ∃ o, decode64 w = .ok (.hintSpace o) := by
  refine ⟨{ op := BitVec.ofNat 6 (w / 2 ^ 2), rest := BitVec.ofNat 52 (w / 2 ^ 12) }, ?_⟩
  have hgroup : bits w 2 10 / 32 = 30 ∨ bits w 2 10 / 32 = 31 := by
    simp only [bits]
    omega
  obtain hg | hg := hgroup <;> simp only [decode64, hg] <;> rfl

theorem hintSpace_holds : Claims.HintSpace := by
  refine ⟨fun s o => laneOp_ok rfl, fun w _ _ h => ?_⟩
  obtain ⟨o, ho⟩ := decode64_hintSpace h
  exact ⟨o, decodeWord_eq_ok_iff.2 ⟨ho, rfl⟩⟩

/-! ### WAITC and PREF (R155, R157) -/

theorem takeStop_wait_xfull (s : State) (r : Reg) : takeStop s (.wait (.xfull r)) = .next (waiting s (.xfull r)) := rfl

theorem takeStop_wait_counters (s : State) (l n : Nat) : takeStop s (.wait (.counters l n)) = .next (waiting s (.counters l n)) := rfl

theorem execWaitc_of_le {s : State} {o : WaitcOp} (h : (cur s).lcnt ≤ o.l.toNat ∧ (cur s).scnt ≤ o.s.toNat) :
    execWaitc o s = .next (after s 4 (cur s)) := by
  refine laneOp_ok ?_
  simp only [await, h, decide_true, if_true, and_self, bind_ok]

theorem execWaitc_waits {s : State} {o : WaitcOp} (h : ¬ ((cur s).lcnt ≤ o.l.toNat ∧ (cur s).scnt ≤ o.s.toNat)) :
    execWaitc o s = .next (waiting s (.counters o.l.toNat o.s.toNat)) := by
  refine (laneOp_error ?_).trans (takeStop_wait_counters s _ _)
  simp only [await, h, decide_false, Bool.false_eq_true, if_false]
  rfl

theorem ready_x {l : Lane} {a : Src} (h : XReady l a) : Ready l [.x a] := ready_cons.2 ⟨h, ready_nil l⟩

theorem execPref_ready {s : State} {o : PrefOp} (h : XReady (cur s) o.a) : execPref o s = .next (after s 4 (kill (cur s) [.x o.a])) := by
  refine laneOp_ok ?_
  simp only [gate_ok (ready_x h) (free_nil _)]

theorem countersAndPrefetch_hold : Claims.CountersAndPrefetch :=
  ⟨fun _ _ => ⟨execWaitc_of_le, execWaitc_waits⟩, fun _ _ => execPref_ready⟩

/-! ### SHFENCE and SHPF (R271, R272) -/

theorem xFull_of_ne_zero {l : Lane} {r : Reg} (h0 : r ≠ 0) : xFull l r = l.marks.xfull.getLsbD r.val := by
  rw [xFull, beq_false_of_ne h0, Bool.false_or]
  rfl

theorem xDead_of_ne_zero {l : Lane} {r : Reg} (h0 : r ≠ 0) : xDead l r = l.marks.xdead.getLsbD r.val := by
  rw [xDead, bne_iff_ne.2 h0, Bool.true_and]
  rfl

theorem gate_plain_empty {l : Lane} {r : Reg} (h0 : r ≠ 0) (hf : l.marks.xfull.getLsbD r.val = false)
    (hd : l.marks.xdead.getLsbD r.val = false) : gate l [.x (plain r)] [] = .error (.wait (.xfull r)) := by
  have hfull : xFull l r = false := (xFull_of_ne_zero h0).trans hf
  have hdead : xDead l r = false := (xDead_of_ne_zero h0).trans hd
  simp [gate, opndIllegal, opndWait, plain, hfull, hdead, waitFor]

theorem gate_plain_dead {l : Lane} {r : Reg} (h0 : r ≠ 0) (hd : l.marks.xdead.getLsbD r.val = true) :
    gate l [.x (plain r)] [] = .error (.fault .deadReg 0) := by
  have hdead : xDead l r = true := (xDead_of_ne_zero h0).trans hd
  simp [gate, opndIllegal, opndWait, opndFault, plain, hdead, trap]

/-- The record cache holds at most 16 records, with the one just read first (R271). -/
theorem records_cacheRecord (s : State) (c : Nat) (ctx : Option Nat) (a v : Nat) :
    (coreOf (cacheRecord s c ctx a v) c).ctl.records.length ≤ 16
      ∧ (coreOf (cacheRecord s c ctx a v) c).ctl.records.head? = some (ctx, a, v) := by
  simp only [cacheRecord, coreOf_onCore_same]
  exact ⟨List.length_take_le _ _, rfl⟩

theorem bind_eq_ok {α β : Type} {x : Except Stop α} {f : α → Except Stop β} {b : β} (h : (x >>= f) = .ok b) :
    ∃ a, x = .ok a ∧ f a = .ok b := by
  cases x with
  | error e => cases h
  | ok a => exact ⟨a, rfl, h⟩

/-- A record that was read is in the cache, whether it was there or was fetched. -/
theorem eq_cacheRecord_of_readRecord {s u : State} {c v : Nat} {l : Lane} {a : X} (h : readRecord s c l a = .ok (u, v)) :
    ∃ t, u = cacheRecord t c (ctxOf s c l) a.toNat v := by
  unfold readRecord at h
  dsimp only at h
  split at h
  · cases h
    exact ⟨s, rfl⟩
  · obtain ⟨p0, -, h⟩ := bind_eq_ok h
    obtain ⟨p1, -, h⟩ := bind_eq_ok h
    obtain ⟨p2, -, h⟩ := bind_eq_ok h
    cases h
    exact ⟨_, rfl⟩

/-- The state with the record cache of the issuing core forgotten (R272). -/
def forgotten (s : State) : State := onCurCore s (fun k => { k with ctl := { k.ctl with records := [] } })

theorem cur_forgotten (s : State) : cur (forgotten s) = cur s := by
  simp [forgotten, cur, laneOf, onCurCore]

theorem records_forgotten (s : State) : (coreOf (forgotten s) s.sched.core).ctl.records = [] := by
  simp [forgotten, onCurCore]

section
variable {s : State} (o : ShpfOp)

theorem execShfence_of_scnt (o : Z64) (h : (cur s).scnt = 0) : execShfence o s = .next (after (forgotten s) 8 (cur (forgotten s))) := by
  refine stateOp_ok ?_
  simp only [await, h, decide_true, if_true, bind_ok]
  rfl

theorem execShfence_waits (o : Z64) (h : (cur s).scnt ≠ 0) : execShfence o s = .next (waiting s (.counters 63 0)) := by
  refine (stateOp_error ?_).trans (takeStop_wait_counters s _ _)
  simp only [await, h, decide_false, Bool.false_eq_true, if_false]
  rfl

theorem execShpf_empty (h0 : o.xs ≠ 0) (hf : (cur s).marks.xfull.getLsbD o.xs.val = false)
    (hd : (cur s).marks.xdead.getLsbD o.xs.val = false) : execShpf o s = .next (waiting s (.xfull o.xs)) := by
  refine (stateOp_error ?_).trans (takeStop_wait_xfull s _)
  simp only [gate_plain_empty h0 hf hd]

theorem execShpf_dead (h0 : o.xs ≠ 0) (hd : (cur s).marks.xdead.getLsbD o.xs.val = true) :
    execShpf o s = .next (after s 8 (cur s)) := by
  refine stateOp_ok ?_
  simp only [gate_plain_dead h0 hd]

variable (hr : XReady (cur s) (plain o.xs))
include hr

theorem execShpf_misaligned (ha : (getX (cur s) o.xs).toNat % 64 ≠ 0) : execShpf o s = .next (after s 8 (cur s)) := by
  refine stateOp_ok ?_
  simp only [gate_ok (ready_x hr) (free_nil _), ha, if_false]
  rfl

variable (ha : (getX (cur s) o.xs).toNat % 64 = 0)
include ha

theorem execShpf_read {u : State} {v : Nat} (h : readRecord s s.sched.core (cur s) (getX (cur s) o.xs) = .ok (u, v)) :
    execShpf o s = .next (after u 8 (cur u)) := by
  refine stateOp_ok ?_
  simp only [gate_ok (ready_x hr) (free_nil _), ha, if_true, h]

theorem execShpf_fault {code : FaultCode} {x : X} (h : readRecord s s.sched.core (cur s) (getX (cur s) o.xs) = .error (.fault code x)) :
    execShpf o s = .next (after s 8 (cur s)) := by
  refine stateOp_ok ?_
  simp only [gate_ok (ready_x hr) (free_nil _), ha, if_true, h]

theorem execShpf_wait {w : Wait} (h : readRecord s s.sched.core (cur s) (getX (cur s) o.xs) = .error (.wait w)) :
    execShpf o s = takeStop s (.wait w) := by
  refine stateOp_error ?_
  simp only [gate_ok (ready_x hr) (free_nil _), ha, if_true, h]

end

theorem shapeInstructions_hold : Claims.ShapeInstructions := by
  refine ⟨fun s o h => ⟨_, execShfence_of_scnt o h, ?records, rfl, ?lane⟩, fun s o h => execShfence_waits o h, fun s o =>
    ⟨execShpf_empty o, execShpf_dead o, fun hr => ⟨execShpf_misaligned o hr, fun ha u v h => ⟨execShpf_read o hr ha h, ?_⟩,
      fun ha code x h => execShpf_fault o hr ha h, fun ha w h => execShpf_wait o hr ha h⟩⟩⟩
  case records => exact (congrArg (·.records) (coreOf_setLane_ctl (forgotten s) _ _ _ _)).trans (records_forgotten s)
  case lane => rw [after, cur_setCur, cur_forgotten]
  obtain ⟨t, rfl⟩ := eq_cacheRecord_of_readRecord h
  exact records_cacheRecord t _ _ _ v

/-- Settles O12: a hint's op10 selects it among the words, and each of the other instructions is the completion or the wait that
its condition gives; a record that SHPF reads stands first in the cache, whether it was fetched or stood there. -/
theorem hintsCountersAndShapes : Obligations.HintsCountersAndShapes :=
  ⟨hintSpace_holds, countersAndPrefetch_hold, shapeInstructions_hold⟩

end Sys2Proof.Machine
end

section
/-! O60: no step is refused. Each operation of the model ends in `finish` or in a next state. -/

namespace Sys2Proof.Machine

/-- An outcome that is no refusal. -/
def Answers (r : Host.Outcome State Fault Refusal) : Prop := ∀ x, r ≠ .refused x

theorem next_answers (s : State) : Answers (.next s) := fun _ h => nomatch h

theorem takeStop_answers (s : State) (e : Stop) : Answers (takeStop s e) := by
  cases e with
  | fault c a => exact next_answers _
  | wait w => exact next_answers _
  | stuck f => exact fun _ h => nomatch h

/-- An operation that ends in `finish` answers: lane operations, vector operations, branches and every operation on the whole state. -/
theorem finish_answers (s : State) (r : Except Stop State) : Answers (finish s r) := by
  cases r with
  | ok t => exact next_answers t
  | error e => exact takeStop_answers s e

theorem ite_answers {p : Prop} [Decidable p] {a b : Host.Outcome State Fault Refusal} (ha : Answers a) (hb : Answers b) :
    Answers (if p then a else b) := by
  split
  · exact ha
  · exact hb

section
variable (s : State)

/-! ### Instructions that choose between endings -/

theorem execTrap_answers (o : CodeOp) : Answers (execTrap o s) := by
  unfold execTrap
  split <;> exact next_answers _

theorem abortOp_answers (d : Reg) (drop : Bool) : Answers (abortOp d drop s) := by
  unfold abortOp
  dsimp only
  split
  · split
    · exact finish_answers s _
    · exact next_answers _
  · exact finish_answers s _

theorem gangOp_answers (f : Fin 2 → State → Except Stop State) : Answers (gangOp f s) := by
  unfold gangOp
  split
  · exact finish_answers s _
  · split
    · exact next_answers _
    · exact finish_answers s _

theorem barOp_answers (what : BarDo) (o : BarOp) : Answers (barOp what o s) := by
  unfold barOp
  split
  · exact next_answers _
  · exact finish_answers s _

theorem resumeOp_answers (step : Bool) (o : LresumeOp) : Answers (resumeOp step o s) := by
  unfold resumeOp
  split
  · exact takeStop_answers s _
  · exact finish_answers s _

theorem execLkill_answers (o : LkillOp) : Answers (execLkill o s) := by
  unfold execLkill
  split
  · exact takeStop_answers s _
  · exact finish_answers s _

theorem execTlbi_answers (o : TlbiOp) : Answers (execTlbi o s) := by
  unfold execTlbi
  split
  · exact takeStop_answers s _
  · exact ite_answers (takeStop_answers _ _) (finish_answers s _)

/-! ### Events that choose between next states -/

theorem execTaskAccept_answers (core : Nat) : Answers (execTaskAccept core s) := by
  unfold execTaskAccept
  dsimp only
  split <;> exact next_answers _

theorem execStealRequest_answers (core lane : Nat) : Answers (execStealRequest core lane s) := by
  unfold execStealRequest
  split
  · exact next_answers _
  · dsimp only
    split
    · exact next_answers _
    · split <;> exact next_answers _

theorem execStealAnswer_answers (core lane : Nat) : Answers (execStealAnswer core lane s) := by
  unfold execStealAnswer
  split
  · exact next_answers _
  · split
    · exact next_answers _
    · split <;> exact next_answers _
    · exact next_answers _

theorem execGangTimeout_answers (quad seat : Nat) : Answers (execGangTimeout quad seat s) := by
  unfold execGangTimeout
  dsimp only
  split <;> exact next_answers _

theorem execGangComplete_answers (quad : Nat) : Answers (execGangComplete quad s) := by
  unfold execGangComplete
  split <;> exact next_answers _

theorem execTileOpComplete_answers (core seat : Nat) : Answers (execTileOpComplete core seat s) := by
  unfold execTileOpComplete
  dsimp only
  split <;> exact next_answers _

theorem execEngineSectorComplete_answers (core slot sector : Nat) (data : BitVec 256) :
    Answers (execEngineSectorComplete core slot sector data s) := by
  unfold execEngineSectorComplete
  split <;> exact next_answers _

theorem execReduceSectorApply_answers (core slot sector : Nat) : Answers (execReduceSectorApply core slot sector s) := by
  unfold execReduceSectorApply
  split
  · exact next_answers _
  · split
    · exact next_answers _
    · split
      · exact next_answers _
      · split <;> exact next_answers _

theorem execBankSectorApply_answers (core slot sector : Nat) : Answers (execBankSectorApply core slot sector s) := by
  unfold execBankSectorApply
  split
  · exact next_answers _
  · split
    · exact next_answers _
    · split
      · exact next_answers _
      · dsimp only
        split
        · exact next_answers _
        · split <;> exact next_answers _

theorem execPodPacketReceive_answers (pkt : PodPacket) : Answers (execPodPacketReceive pkt s) := by
  unfold execPodPacketReceive
  split <;> exact next_answers _

theorem execPodOpTimeout_answers (core slot : Nat) : Answers (execPodOpTimeout core slot s) := by
  unfold execPodOpTimeout
  split <;> exact next_answers _

theorem execCollTimeout_answers (core slot : Nat) : Answers (execCollTimeout core slot s) := by
  unfold execCollTimeout
  split <;> exact next_answers _

theorem execNvmeCompletion_answers (core slot status : Nat) : Answers (execNvmeCompletion core slot status s) := by
  unfold execNvmeCompletion
  split
  · exact next_answers _
  · dsimp only
    split
    · exact next_answers _
    · split
      · exact next_answers _
      · split <;> exact next_answers _

theorem execXblkTimeout_answers (core slot : Nat) : Answers (execXblkTimeout core slot s) := by
  unfold execXblkTimeout
  split
  · exact next_answers _
  · dsimp only
    split <;> exact next_answers _

end

/-! ### Every arm -/

/-- An instruction that is not named above ends in `finish`, or in one next state as every other event does. -/
theorem exec_answers (i : Instr) (s : State) : Answers (exec i s) := by
  cases i with
  | trap o => exact execTrap_answers s o
  | abortt | aborttDrop => exact abortOp_answers s _ _
  | gwld o => exact (gangOp_answers s _ : Answers (execGwld o s))
  | gmma | gmmas | gmmag => exact gangOp_answers s _
  | bar | bara | barw => exact barOp_answers s _ _
  | lresume | lstep => exact resumeOp_answers s _ _
  | lkill o => exact execLkill_answers s o
  | tlbi o => exact execTlbi_answers s o
  | taskAccept core => exact execTaskAccept_answers s core
  | stealRequest core lane => exact execStealRequest_answers s core lane
  | stealAnswer core lane => exact execStealAnswer_answers s core lane
  | gangTimeout quad seat => exact execGangTimeout_answers s quad seat
  | gangComplete quad => exact execGangComplete_answers s quad
  | tileOpComplete core seat => exact execTileOpComplete_answers s core seat
  | engineSectorComplete core slot sector data => exact execEngineSectorComplete_answers s core slot sector data
  | reduceSectorApply core slot sector => exact execReduceSectorApply_answers s core slot sector
  | bankSectorApply core slot sector => exact execBankSectorApply_answers s core slot sector
  | podPacketReceive pkt => exact execPodPacketReceive_answers s pkt
  | podOpTimeout core slot => exact execPodOpTimeout_answers s core slot
  | collTimeout core slot => exact execCollTimeout_answers s core slot
  | nvmeCompletion core slot status => exact execNvmeCompletion_answers s core slot status
  | xblkTimeout core slot => exact execXblkTimeout_answers s core slot
  | movC | addC | subC | andC | orC | xorC | shlC | shrC | sraC | addiC | ldiC | shliC | shriC | sraiC | andiC | negC | ldI64C
    | stI64C | ldI32C | stI32C | vaddC | vmulC | vsubC | vldC | vstC | bzC | bnzC | jmprC | retC | add | sub | neg | mul | mulhi
    | mulhiu | div | divu | rem | remu | and | or | xor | andn | shl | shr | sra | rot | min | max | minu | maxu | abs | clz | ctz
    | popc | brev | bswap | sext | zext | cmp | mov | addi | muli | andi | ori | xori | shli | shri | srai | roti | ldi | lea | cmpi
    | br | bz | bnz | bpAny | bpAll | bpNone | jmp | call | jmpr | callr | ret | loop | ld | st | vld | vst | ldx | stx | vlds
    | vsts | vgth | vsct | vscta | pref | waitc | vadd | vsub | vmul | vfma | vfms | vfnma | vneg | vabs | vmin | vmax | vminn
    | vmaxn | vrcp | vrsq | vsqrt | vdiv | vexp2 | vlog2 | vand | vor | vxor | vshl | vshr | vsra | vperm | vdot | vlut | vdistL2sq
    | vdistIp | vdistCos | vnorm | pset | pcnt | pfirst | pmovxToP | pmovxToX | send | sendv | sendo | spawn | spawnc | joinat
    | tsrd | range | chunk | steal | actor | sbcfg | push | pop | hvw | vaddX | vsubX | vmulX | vfmaX | vfmsX | vfnmaX | vnegX
    | vabsX | vminX | vmaxX | vminnX | vmaxnX | vrcpX | vrsqX | vsqrtX | vdivX | vexp2X | vlog2X | vandX | vorX | vxorX | vshlX
    | vshrX | vsraX | vpermX | vdotX | vlutX | vdistL2sqX | vdistIpX | vdistCosX | vnormX | vcmp | vsel | vcvt | vround | vclamp
    | vsplat | vextr | vins | viota | vslide | vcomp | vexpd | vred | vscan | topk | topkm | sel | madd | bfx | bfxu | bfi | ldiL
    | ldih | jmpL | callL | ldX | stX | amo | cas | vldX | vstX | vgthX | vsctX | vsctaX | xcopyIn | xcopyOut | xcopyXx | xgather
    | xscatter | xred | xfill | xblkRd | xblkWr | xblkFlush | txinit | txarr | txexp | txwait | txtest | txtestErr | shfence | shpf
    | tcfg | tld | tst | tzero | trow | tsetrow | msk | gacc | gaccz | evcfg | evinj | evrd | evwr | evfan | evstat | fturn | get
    | put | ramo | collAllred | collAllgth | collRedsct | collBar | bop | bred | bvec | sysr | sysw | icflush | enrd =>
    exact finish_answers s _
  | doneC | nopC | brkC | done | nop | brk | pand | por | pxor | pandn | pnot | hintSpace | dispatch | laneAged | laneUnblock
    | resultArrival | storePerformed | faultFreeze | faultRingWrite | messageAccept | sendQueueReoffer | remotePushAccept
    | taskSpillReturn | eventAccept | eventSpillReturn | eventDelivery | eventDiscard | fanoutEmit | fireMessagePost | asyncOpStart
    | gangForm | gangPositionExpiry | engctlReplay | engctlFail | txBarrierUpdate | pageWalkComplete | transientRequest
    | transientTimeout | persistentRequest | persistentDeactivate | directoryRequest | directoryRecall | backInvalidate
    | hostMemWrite | hostMemRead | spawnWindowStore | launchCommand | launchTake | launchEnd | lstatRead | spwstatRead | attdropRead
    | attreq | attestationReport | cctlRcflush | cctlFrzall | cctlHold | lctlFrzreq | debugFrameWrite | registerWrite
    | domainCreate | domainSuspend | domainResume | domainRetire | hearthRoundStart | hearthRootForm | hearthValuesArrive
    | taskAbort | holdTimeout | spatialPreempt | preemptDeadline | dmaSave | dmaRestore | dmaDone | dieNormalReset | dieAbruptReset
    | dieResetEnter | dieRejoin | flcmdWrite | flueTurnStart | flueGroupTurned | linkPacketReceive | linkRetry | flueDrowsy
    | flueTrained | flueWakeTimeout | dieUnresponsive | barrierForce | podBarrierForce | podBarrierArrival | podBarrierRelease
    | hornFlitReceive | hornRetry | hornRetrain | energyCharge | energyAccountWrite | powerLimitThrottle | freqChangeDone
    | thermalThrottle | thermalDieReset | thermalShutdown | packageReset | functionReady | functionFailed | lmDoubleBitError
    | hbmUncorrectableError | thermalThrottleEnd | dieRejoinComplete | hornPortTrained =>
    exact next_answers _

theorem step_answers (s : State) : Answers (step s) := by
  unfold step
  split
  · exact next_answers _
  · exact exec_answers _ _

/-- Settles O60: a step stays in a state or runs an arm of `exec`, and every arm answers. -/
theorem neverRefused : Obligations.NeverRefused := fun s r => step_answers s r

end Sys2Proof.Machine
end

section
/-! O53: a step runs the instruction decoded at the PC (R40, R41, R212, R219, R55). -/

namespace Sys2Proof.Machine

/-! ### A step at a lane's turn -/

section
variable {s : State} {c l : Nat}

theorem plan_lane {rest : List Turn} (ha : s.sched.agenda = .lane c l :: rest) (hd : s.pkg.down = false) :
    plan s = issue { s with sched := { s.sched with agenda := rest } } c l := by
  simp [plan, ha, powered, hd]

theorem step_of_stay {t : State} (h : plan s = .stay t) : step s = .next t := by
  simp only [step, h]

theorem step_of_run {t : State} {i : Instr} (h : plan s = .run t i) : step s = exec i t := by
  simp only [step, h]

/-! What `issue` does with a Ready lane that nothing holds back (R212). -/

section
variable (hs : (laneOf s c l).status = .ready) (hh : heldBack s c l = none)
include hs hh

theorem issue_fetch_error {e : Stop} (hf : fetchInstr s c l = .error e) : issue s c l = .stay (fetchStopped s c l e) := by
  simp only [issue, hs, hh, hf, bne_self_eq_false, Bool.false_eq_true, if_false]

variable {u : State} {n w : Nat} (hf : fetchInstr s c l = .ok (u, n, w))
include hf

theorem issue_comparator_hit {k : Fin 8} {ks : List (Fin 8)} (hk : hits u c l = k :: ks) :
    issue s c l = .stay (hitFreeze u c l w (k :: ks)) := by
  simp only [issue, hs, hh, hf, hk, bne_self_eq_false, Bool.false_eq_true, if_false]

theorem issue_decoded {i : Instr} (hk : hits u c l = []) (hi : decodeWord n w = .ok i) :
    issue s c l = .run (readied u c l n w) i := by
  simp only [issue, hs, hh, hf, hk, hi, bne_self_eq_false, Bool.false_eq_true, if_false]

theorem issue_no_instruction {e : DecodeError} (hk : hits u c l = []) (he : decodeWord n w = .error e) :
    issue s c l = .stay (illegalIssue (readied u c l n w) n w) := by
  simp only [issue, hs, hh, hf, hk, he, bne_self_eq_false, Bool.false_eq_true, if_false]

end

theorem fetchStopped_firstHalf {a : X} (h : ∀ v, fetchHalf s c l (laneOf s c l).pc.toNat ≠ .ok v) :
    fetchStopped s c l (.fault .fetch a) = takeFault (focusOn s c l 0) .fetch 0 := by
  simp only [fetchStopped]
  split
  · next hf => exact absurd hf (h _)
  · rfl

theorem readied_of_no_loop {n w : Nat} (h : (laneOf s c l).loop.len = 0) : readied s c l n w = focusOn s c l w := by
  simp only [readied, h, if_true]

/-! ### Fetching -/

theorem fetchInstr_firstHalf {u : State} {n w : Nat} (h : fetchInstr s c l = .ok (u, n, w)) :
    ∃ v h, fetchHalf s c l (laneOf s c l).pc.toNat = .ok (v, h) ∧ n = lengthOf h := by
  obtain ⟨⟨v, k⟩, hv, h⟩ := bind_eq_ok h
  obtain ⟨⟨v', w'⟩, -, h⟩ := bind_eq_ok h
  cases h
  exact ⟨v, k, hv, rfl⟩

theorem bufferedHalf_of_loop {x : Lane} (a : Nat) (h : x.loop.len ≠ 0) : bufferedHalf x a = smGet x.loop.buf a := if_neg h

theorem bufferedHalf_eq_none {x : Lane} {a : Nat} (h : x.loop.len = 0 ∨ smGet x.loop.buf a = none) : bufferedHalf x a = none := by
  unfold bufferedHalf
  split
  · rfl
  · next hl => exact h.resolve_left hl

theorem fetchHalf_buffered {a h : Nat} (hb : bufferedHalf (laneOf s c l) a = some h) : fetchHalf s c l a = .ok (s, h) := by
  simp only [fetchHalf, hb]

/-- A halfword that the loop buffer does not hold is the one at its place in the line at its translation (R140, R264). -/
theorem fetchHalf_translated {u t : State} {a pa mt line : Nat} {de : Bool} (hb : bufferedHalf (laneOf s c l) a = none)
    (ha : a < 2 ^ 48) (hw : transWay s c (ctxOf s c (laneOf s c l)) a .fetch = .opened)
    (ht : translate s c (ctxOf s c (laneOf s c l)) a .fetch = some (u, pa, mt, de)) (hp : pa < 2 ^ 41)
    (hl : l1iLine u c pa mt = .ok (t, line)) : fetchHalf s c l a = .ok (t, line / 2 ^ (8 * (pa % 64)) % 2 ^ 16) := by
  simp only [fetchHalf, hb, Nat.not_le.2 ha, if_false, hw, reach, ht, hp, if_true, bind_ok, hl]

end

/-! ### The line of a halfword (R140) -/

theorem l1iLine_held {s : State} {c pa line : Nat} (mt : Nat) (h : smGet (coreOf s c).ctl.l1i (lineOf pa) = some line) :
    l1iLine s c pa mt = .ok (s, line) := by
  simp only [l1iLine, h]

theorem l1iLine_memory {s : State} {c pa mt : Nat} (h : smGet (coreOf s c).ctl.l1i (lineOf pa) = none)
    (hw : pathPhys s (dieNo c) pa mt false = .opened) :
    ∃ t, l1iLine s c pa mt = .ok (t, memRead s.mem (lineOf pa) 64) ∧ t.mem = s.mem := by
  simp only [l1iLine, h, hw, reach, bind_ok]
  refine ⟨_, rfl, ?_⟩
  split
  · rw [l1iFill_mem, grantRead_mem]
  · rfl

theorem memRead_add (m : Memory) (a j k : Nat) : memRead m a (j + k) = memRead m a j + 256 ^ j * memRead m (a + j) k := by
  induction j generalizing a with
  | zero => simp [memRead]
  | succ j ih =>
    rw [Nat.succ_add, memRead, ih, memRead, Nat.add_assoc a 1 j, Nat.add_comm 1 j]
    ring

/-- Bytes read together hold the bytes read apart. -/
theorem memRead_slice (m : Memory) (a : Nat) {j k n : Nat} (h : j + k ≤ n) : memRead m a n / 256 ^ j % 256 ^ k = memRead m (a + j) k := by
  obtain ⟨r, rfl⟩ := Nat.exists_eq_add_of_le h
  rw [Nat.add_assoc, memRead_add, memRead_add, Nat.add_mul_div_left _ _ (by positivity), Nat.div_eq_of_lt (memRead_lt m a j), Nat.zero_add,
    Nat.add_mul_mod_self_left, Nat.mod_eq_of_lt (memRead_lt m (a + j) k)]

/-- The halfword at an even address is the one at its place in its line (R9). -/
theorem memRead_line_half (m : Memory) {pa : Nat} (h : pa % 2 = 0) :
    memRead m (lineOf pa) 64 / 2 ^ (8 * (pa % 64)) % 2 ^ 16 = memRead m pa 2 := by
  have hpa : lineOf pa + pa % 64 = pa := by
    simp only [lineOf]
    omega
  rw [Nat.pow_mul, show (2 : Nat) ^ 16 = (2 ^ 8) ^ 2 by norm_num]
  exact (memRead_slice m _ (by omega)).trans (by rw [hpa])

/-- Settles O53: a lane's turn is `issue`, whose choices are those of the statement; a halfword is read from the loop buffer, or
from the line at its translation, which is a line of memory. -/
theorem stepRunsDecoded : Obligations.StepRunsDecoded := by
  refine ⟨fun s c l rest ha hd => ?turn, fun s c l n w => readied_of_no_loop, fun s c l u n w => fetchInstr_firstHalf,
    fun s c l a h hl hb => fetchHalf_buffered ((bufferedHalf_of_loop a hl).trans hb),
    fun s c l a u pa mt de hb ha hw ht hp h2 => ⟨fun line hline => ?held, fun hline hway => ?memory⟩⟩
  case turn =>
    intro r hr hh
    have hp : plan s = issue r c l := plan_lane ha hd
    refine ⟨fun e he => ?stopped, fun u n w hf => ⟨fun k ks hk => step_of_stay (hp.trans (issue_comparator_hit hr hh hf hk)),
      fun hk => ⟨fun i hi => step_of_run (hp.trans (issue_decoded hr hh hf hk hi)),
        fun e he => step_of_stay (hp.trans (issue_no_instruction hr hh hf hk he))⟩⟩⟩
    have hstop := step_of_stay (hp.trans (issue_fetch_error hr hh he))
    refine ⟨hstop, ?_⟩
    rintro ⟨a, rfl⟩ hv
    exact hstop.trans (congrArg _ (fetchStopped_firstHalf hv))
  case held => exact ⟨u, fetchHalf_translated (bufferedHalf_eq_none hb) ha hw ht hp (l1iLine_held mt hline)⟩
  case memory =>
    obtain ⟨t, ht', hmem⟩ := l1iLine_memory hline hway
    exact ⟨t, (fetchHalf_translated (bufferedHalf_eq_none hb) ha hw ht hp ht').trans (by rw [memRead_line_half _ h2]), hmem⟩

end Sys2Proof.Machine
end

section
/-! Vectors: the elements that a packed vector reads back (R108), and maps over the active elements, with and without draws (R47, R76). -/

namespace Sys2Proof.Machine
open Sys2Proof.Safety

/-! ### Elements -/

theorem elem_lt (W : Nat) (v : V) (i : Nat) : elem W v i < 2 ^ W := bits_lt _ _ _

theorem packElems_lt (W : Nat) (l : List Nat) : packElems W l < 2 ^ (W * l.length) := by
  induction l with
  | nil => simp [packElems]
  | cons e t ih =>
    have he : e % 2 ^ W < 2 ^ W := Nat.mod_lt _ (Nat.two_pow_pos W)
    calc packElems W (e :: t) = e % 2 ^ W + 2 ^ W * packElems W t := rfl
      _ < 2 ^ W * (packElems W t + 1) := by rw [Nat.mul_succ]; omega
      _ ≤ 2 ^ W * 2 ^ (W * t.length) := Nat.mul_le_mul_left _ ih
      _ = 2 ^ (W * (e :: t).length) := by rw [← Nat.pow_add, List.length_cons, Nat.mul_succ, Nat.add_comm]

theorem bits_packElems (W : Nat) (l : List Nat) {k : Nat} (hk : k < l.length) : bits (packElems W l) (W * k) W = l[k] % 2 ^ W := by
  induction l generalizing k with
  | nil => exact absurd hk (Nat.not_lt_zero k)
  | cons e t ih =>
    cases k with
    | zero => simp [bits, packElems]
    | succ k =>
      have hdiv : packElems W (e :: t) / 2 ^ W = packElems W t := by
        rw [packElems, Nat.add_mul_div_left _ _ (Nat.two_pow_pos W), Nat.div_eq_of_lt (Nat.mod_lt _ (Nat.two_pow_pos W)), Nat.zero_add]
      rw [bits, Nat.mul_succ, Nat.add_comm, Nat.pow_add, ← Nat.div_div_eq_div_mul, hdiv]
      exact ih (Nat.lt_of_succ_lt_succ hk)

/-- An element of a packed vector is the one that was packed, modulo 2^W. -/
theorem elem_packElems {W : Nat} {l : List Nat} (hl : W * l.length ≤ 1024) {k : Nat} (hk : k < l.length) :
    elem W (BitVec.ofNat 1024 (packElems W l)) k = l[k] % 2 ^ W := by
  rw [elem, BitVec.toNat_ofNat, Nat.mod_eq_of_lt, bits_packElems W l hk]
  exact (packElems_lt W l).trans_le (Nat.pow_le_pow_right Nat.two_pos hl)

/-! ### Maps over the active elements -/

theorem mapActive_append (f : Nat → BitVec 32 → Nat × BitVec 32) (act : Nat → Bool) (old : Nat → Nat) (l m : List Nat)
    (s : BitVec 32) :
    mapActive f act old (l ++ m) s = ((mapActive f act old l s).1 ++ (mapActive f act old m (mapActive f act old l s).2).1,
      (mapActive f act old m (mapActive f act old l s).2).2) := by
  induction l generalizing s with
  | nil => rfl
  | cons i t ih => simp [mapActive, ih]

/-- A map that takes no draws leaves the generator alone. -/
theorem mapActive_pure (g : Nat → Nat) (act : Nat → Bool) (old : Nat → Nat) (l : List Nat) (s : BitVec 32) :
    mapActive (fun i s => (g i, s)) act old l s = (l.map fun i => if act i then g i else old i, s) := by
  induction l with
  | nil => rfl
  | cons i t ih => cases h : act i <;> simp [mapActive, h, ih]

/-- How many elements below `k` are active. -/
def activeBelow (act : Nat → Bool) (k : Nat) : Nat := ((List.range k).filter act).length

theorem activeBelow_succ (act : Nat → Bool) (k : Nat) : activeBelow act (k + 1) = activeBelow act k + if act k then 1 else 0 := by
  cases h : act k <;> simp [activeBelow, List.range_succ, h]

/-- A map that takes one draw for every active element: element `k` gets the draw of as many steps as there are active elements up to
it, and the generator ends one step further for each (R76). -/
theorem mapActive_drawing (value : Nat → Nat → Nat) (act : Nat → Bool) (old : Nat → Nat) (s : BitVec 32) (n : Nat) :
    mapActive (fun i s => (value ((srStep s).toNat % 2 ^ 16) i, srStep s)) act old (List.range n) s
      = ((List.range n).map fun k => if act k then value ((srAfter s (activeBelow act k + 1)).toNat % 2 ^ 16) k else old k,
        srAfter s (activeBelow act n)) := by
  induction n with
  | zero => rfl
  | succ n ih =>
    rw [List.range_succ, mapActive_append, ih, List.map_append, activeBelow_succ]
    cases h : act n <;> simp [mapActive, h, srAfter]

section
variable {W : Nat} {act : P} {old : V} {sr : BitVec 32} {k : Nat}

/-- What the elements of a mapped vector read back as, and where the generator stands, are those of the list mapped. -/
theorem vecMap_of_mapActive {f : Nat → BitVec 32 → Nat × BitVec 32} {g : Nat → Nat} {r : BitVec 32}
    (h : mapActive f (pbit act) (elem W old) (List.range (1024 / W)) sr = ((List.range (1024 / W)).map g, r)) :
    (vecMap W act old sr f).2 = r ∧ ∀ k, k < 1024 / W → elem W (vecMap W act old sr f).1 k = g k % 2 ^ W := by
  refine ⟨congrArg Prod.snd h, fun k hk => ?_⟩
  have hlen : ((List.range (1024 / W)).map g).length = 1024 / W := by simp
  simp only [vecMap, h]
  rw [elem_packElems (by rw [hlen]; exact Nat.mul_div_le 1024 W) (hlen.symm ▸ hk)]
  simp

/-- What an inactive element keeps is an element already. -/
theorem ite_elem_mod (c : Prop) [Decidable c] (W a : Nat) (v : V) (k : Nat) :
    (if c then a else elem W v k) % 2 ^ W = if c then a % 2 ^ W else elem W v k := by
  rw [apply_ite (· % 2 ^ W), Nat.mod_eq_of_lt (elem_lt W v k)]

theorem vecMap_pure_sr (W : Nat) (act : P) (old : V) (sr : BitVec 32) (g : Nat → Nat) :
    (vecMap W act old sr fun i s => (g i, s)).2 = sr :=
  (vecMap_of_mapActive (mapActive_pure g _ _ _ sr)).1

theorem elem_vecMap_pure (g : Nat → Nat) (hk : k < 1024 / W) : elem W (vecMap W act old sr fun i s => (g i, s)).1 k
    = if act.getLsbD k = true then g k % 2 ^ W else elem W old k :=
  ((vecMap_of_mapActive (mapActive_pure g _ _ _ sr)).2 k hk).trans (ite_elem_mod _ W _ old k)

/-- The map under .sr: the generator's end, and the elements with their draws (R76). -/
theorem vecMap_drawing (W : Nat) (act : P) (old : V) (sr : BitVec 32) (value : Nat → Nat → Nat) :
    let r := vecMap W act old sr fun i s => (value ((srStep s).toNat % 2 ^ 16) i, srStep s)
    r.2 = srAfter sr (activeBelow (pbit act) (1024 / W))
    ∧ ∀ k, k < 1024 / W → elem W r.1 k = if act.getLsbD k = true then
        value ((srAfter sr (activeBelow (pbit act) k + 1)).toNat % 2 ^ 16) k % 2 ^ W else elem W old k := by
  obtain ⟨hsr, helem⟩ := vecMap_of_mapActive (mapActive_drawing value (pbit act) (elem W old) sr (1024 / W))
  exact ⟨hsr, fun k hk => (helem k hk).trans (ite_elem_mod _ W _ old k)⟩

end

/-! ### Instructions that write a vector -/

theorem free_v {l : Lane} {d : Reg} (h : VFree l d) : Free l [.v d] := free_cons.2 ⟨h, free_nil l⟩

theorem ready_v {l : Lane} {a : Src} (h : VReady l a) : Ready l [.v a] := ready_cons.2 ⟨h, ready_nil l⟩

/-- A lane whose generator is set to where it stands. -/
theorem with_sr_self {l : Lane} {r : BitVec 32} (h : r = l.sr) : { l with sr := r } = l := by
  rw [h]

theorem vecLane_ok {srcs : List Opnd} {d : Reg} {l : Lane} (hs : Ready l srcs) (hd : VFree l d) (f : Lane → V × BitVec 32) :
    vecLane srcs d f l = .ok { putV (kill l srcs) d (f l).1 with sr := (f l).2 } := by
  rw [vecLane, gate_ok hs (free_v hd), bind_ok]

/-- A vector operation on its lane alone completes with its result. -/
theorem resultV_of_vecLane {i : Instr} {n : Nat} {srcs : List Opnd} {d : Reg} {f : Lane → V × BitVec 32}
    (hi : ∀ s, exec i s = laneOp n (vecLane srcs d f) s) : ResultV i n srcs d f :=
  fun s hs hd => (hi s).trans (laneOp_ok (vecLane_ok hs hd f))

/-- One that takes no draw. -/
theorem exec_vecLane_pure {i : Instr} {n : Nat} {srcs : List Opnd} {d : Reg} {f : Lane → V × BitVec 32}
    (hi : ∀ s, exec i s = laneOp n (vecLane srcs d f) s) {s : State} (hs : Ready (cur s) srcs) (hd : VFree (cur s) d)
    (hsr : (f (cur s)).2 = (cur s).sr) : exec i s = .next (after s n (putV (kill (cur s) srcs) d (f (cur s)).1)) :=
  (resultV_of_vecLane hi s hs hd).trans (by rw [with_sr_self (hsr.trans (by simp))])

end Sys2Proof.Machine
end

section
/-! O18: the stochastic-rounding generator and its draws (R75, R76, R105). -/

namespace Sys2Proof.Machine
open Sys2Proof.Safety

/-! ### The generator (R75) -/

/-- Lowest bit first: a bit below the shift is 0, and any other is a copy of one lower. -/
theorem eq_zero_of_xor_shiftLeft {w k : Nat} (hk : 0 < k) {x : BitVec w} (h : x ^^^ (x <<< k) = 0#w) : x = 0#w := by
  have hx : x = x <<< k := BitVec.xor_eq_zero_iff.1 h
  have hbit (i : Nat) : x.getLsbD i = false := by
    induction i using Nat.strongRecOn with
    | ind i ih =>
      rw [hx, BitVec.getLsbD_shiftLeft]
      by_cases hik : i < k
      · simp [hik]
      · simp [ih (i - k) (by omega)]
  exact BitVec.eq_of_getLsbD_eq fun i _ => by simp [hbit i]

theorem eq_zero_of_xor_shiftRight {w k : Nat} (hk : 0 < k) {x : BitVec w} (h : x ^^^ (x >>> k) = 0#w) : x = 0#w := by
  have hx : x.toNat = x.toNat / 2 ^ k := by
    conv_lhs => rw [BitVec.xor_eq_zero_iff.1 h]
    rw [BitVec.toNat_ushiftRight, Nat.shiftRight_eq_div_pow]
  refine BitVec.eq_of_toNat_eq (Nat.eq_zero_of_not_pos fun hpos => ?_)
  have := Nat.div_lt_self hpos (Nat.one_lt_two_pow hk.ne')
  omega

/-- Each of the three shifts keeps a value other than 0 from 0. -/
theorem srStep_ne_zero {x : BitVec 32} (hx : x ≠ 0) : srStep x ≠ 0 := fun h =>
  hx (eq_zero_of_xor_shiftLeft (by omega) (eq_zero_of_xor_shiftRight (by omega) (eq_zero_of_xor_shiftLeft (by omega) h)))

theorem after_setCur (s : State) (n : Nat) (l : Lane) : after (setCur s l) n (cur (setCur s l)) = after s n l := by
  simp [after]

/-- SYSW of SRSTATE with its guard on (R75, R105). -/
theorem execSysw_seed {s : State} {o : SyswOp} (hn : o.num = 0x004) (hg : guardOn (cur s) o.guard = true)
    (hspec : (cur s).firing.spec = false) (ha : XReady (cur s) o.a) :
    execSysw o s = .next (after s 8 { kill (cur s) [.x o.a] with sr := srWrite ((getX (cur s) o.a.reg).setWidth 32) }) := by
  have hgate : gate (cur s) [.x o.a] [] = .ok () := gate_ok (ready_x ha) (free_nil _)
  refine (stateOp_ok ?_).trans (congrArg _ (after_setCur s 8 _))
  simp [hn, sysAllowed, need, hg, irrevocable, await, hspec, hgate, bind_ok]

theorem stochasticGenerator_holds : Claims.StochasticGenerator :=
  ⟨fun _ _ hn hg hspec ha => execSysw_seed hn hg hspec ha, fun _ => ⟨rfl, srStep_ne_zero⟩⟩

/-! ### Rounding with draws (R76) -/

/-- Under .sr an arithmetic operation on a floating type takes the draw of the next step, whether or not it needs one. -/
theorem arith_sr {g : VArgs} (hsr : g.rnd = .sr) (hflt : (tyFlt g.ty).isSome = true) (fl : List Num → Num) (it it' : List Int → Int)
    (xs : List Nat) (s : BitVec 32) : arith g fl it xs s = (arithValue g fl it' ((srStep s).toNat % 2 ^ 16) xs, srStep s) := by
  obtain ⟨f, hf⟩ := Option.isSome_iff_exists.1 hflt
  simp [arith, arithValue, roundStep, takeDraw, hsr, hf]

/-- An element-wise operation of the vector unit; under .sr an exact cancellation gives +0 (R67). -/
theorem stochasticWise_of_arith {i : Instr} {n : Nat} {g : VArgs} {fl : Bool → List Num → Num} {it it' : List Int → Int}
    (hi : ∀ s, exec i s = laneOp n (vecLane (g.srcs.map .v) g.d (elemResult (arith g (fl (downMode g.rnd)) it) g)) s) :
    StochasticWise i n g (arithValue g (fl false) it') := by
  intro s hsr hflt hs hd
  have hresult : elemResult (arith g (fl (downMode g.rnd)) it) g (cur s)
      = vecMap (tyW g.ty) (getP (cur s) g.guard) (cur s).regs.v[g.d] (cur s).sr
          (fun k r => (arithValue g (fl false) it' ((srStep r).toNat % 2 ^ 16) (sourceElems g (cur s) k), srStep r)) := by
    simp only [elemResult, arith_sr hsr hflt _ it it', show downMode g.rnd = false by rw [hsr]; rfl]
    rfl
  obtain ⟨hend, helem⟩ := vecMap_drawing (tyW g.ty) (getP (cur s) g.guard) (cur s).regs.v[g.d] (cur s).sr
    (fun draw k => arithValue g (fl false) it' draw (sourceElems g (cur s) k))
  refine ⟨_, (resultV_of_vecLane hi s hs hd).trans ?_, helem⟩
  rw [hresult, hend]
  rfl

theorem stochasticRounding_holds : Claims.StochasticRounding := by
  refine ⟨fun o => ⟨?add, ?sub, ?mul⟩, fun o => ?fma⟩
  case add => exact stochasticWise_of_arith (fl := fun rd x => addNum rd (num x 0) (num x 1)) fun _ => rfl
  case sub => exact stochasticWise_of_arith (fl := fun rd x => addNum rd (num x 0) (negNum (num x 1))) fun _ => rfl
  case mul => exact stochasticWise_of_arith (fl := fun _ x => mulNum (num x 0) (num x 1)) fun _ => rfl
  case fma => exact stochasticWise_of_arith (fl := fun rd x => addNum rd (mulNum (num x 0) (num x 1)) (num x 2)) fun _ => rfl

/-- Settles O18: each shift of a step loses no value to 0, so the generator stays off 0; the map over the active elements takes its
draws in ascending order, and SYSW of the seed register completes as its shape says. -/
theorem stochasticDraws : Obligations.StochasticDraws := ⟨stochasticGenerator_holds, stochasticRounding_holds⟩

end Sys2Proof.Machine
end

section
/-! O22, part 1: the tree of R81. An associative operation does not see it, so an integer sum is the sum of the active elements. -/

namespace Sys2Proof.Machine
open Sys2Proof.Safety

/-! ### Trees of an associative operation -/

section
variable {α : Type} (f : α → α → α)

/-- A node of the tree is the merge of its children: an absent one passes the other on. -/
theorem treeLevel_cons_cons (a b : Option α) {l r : List (Option α)} {s : BitVec 32}
    (h : treeLevel (fun a b s => (f a b, s)) l s = (r, s)) :
    treeLevel (fun a b s => (f a b, s)) (a :: b :: l) s = (Option.merge f a b :: r, s) := by
  cases a <;> cases b <;> simp [treeLevel, h]

variable [Std.Associative f]

/-- A level of the tree takes no draw, halves the nodes, and keeps what they come to together. -/
theorem treeLevel_fold (l : List (Option α)) (s : BitVec 32) :
    ∃ r, treeLevel (fun a b s => (f a b, s)) l s = (r, s) ∧ r.length = (l.length + 1) / 2
      ∧ r.foldr (Option.merge f) none = l.foldr (Option.merge f) none :=
  match l with
  | [] => ⟨[], rfl, by simp, rfl⟩
  | [a] => ⟨[a], by cases a <;> rfl, by simp, rfl⟩
  | a :: b :: l => by
    obtain ⟨r, hr, hlen, hfold⟩ := treeLevel_fold l s
    refine ⟨Option.merge f a b :: r, treeLevel_cons_cons f a b hr, ?_, ?_⟩
    · simp only [List.length_cons, hlen]
      omega
    · simp only [List.foldr_cons, hfold]
      exact Std.Associative.assoc a b _

/-- R81: the root of a tree high enough for its leaves is what they come to together, whatever the tree. -/
theorem treeRoot_fold (z : α) (k : Nat) (l : List (Option α)) (s : BitVec 32) (h : l.length ≤ 2 ^ k) :
    treeRoot (fun a b s => (f a b, s)) z k l s = ((l.foldr (Option.merge f) none).getD z, s) := by
  induction k generalizing l with
  | zero =>
    match l, h with
    | [], _ => rfl
    | [x], _ => cases x <;> rfl
  | succ k ih =>
    obtain ⟨r, hr, hlen, hfold⟩ := treeLevel_fold f l s
    simp only [treeRoot, hr]
    rw [ih r (by rw [Nat.pow_succ] at h; omega), hfold]

end

/-! ### Integer sums -/

theorem associative_addMod (m : Nat) : Std.Associative fun a b : Nat => (a + b) % m :=
  ⟨fun a b c => by simp [Nat.add_assoc]⟩

theorem merge_addMod {m : Nat} (l : List (Option Nat)) (h : ∀ a, some a ∈ l → a < m) :
    (l.foldr (Option.merge fun a b => (a + b) % m) none).getD 0 = l.reduceOption.sum % m := by
  induction l with
  | nil => simp
  | cons x l ih =>
    have ih := ih fun a ha => h a (List.mem_cons_of_mem x ha)
    cases x with
    | none => simpa using ih
    | some a =>
      have ha : a % m = a := Nat.mod_eq_of_lt (h a List.mem_cons_self)
      rw [List.foldr_cons, List.reduceOption_cons_of_some, List.sum_cons, Nat.add_mod, ← ih]
      cases l.foldr (Option.merge fun a b => (a + b) % m) none <;> simp [ha]

theorem leaves_reduceOption {α : Type} (t : ElemTy) (act : P) (f : Nat → α) :
    (leaves t act f).reduceOption = ((List.range (tyN t)).filter (pbit act)).map f := by
  rw [leaves]
  induction List.range (tyN t) with
  | nil => rfl
  | cons i l ih => cases h : pbit act i <;> simp [h, ih]

theorem leaves_length {α : Type} (t : ElemTy) (act : P) (f : Nat → α) : (leaves t act f).length ≤ 2 ^ tyLevels t := by
  cases t <;> simp [leaves, tyLevels, tyN, tyW]

/-- The tree sum of the active elements of an integer type (R81, R127, R129). -/
theorem treeRoot_sum (t : ElemTy) (act : P) (f : Nat → Nat) (hf : ∀ i, f i < 2 ^ tyW t) (s : BitVec 32) :
    treeRoot (fun a b s => ((a + b) % 2 ^ tyW t, s)) 0 (tyLevels t) (leaves t act f) s
      = ((((List.range (tyN t)).filter (pbit act)).map f).sum % 2 ^ tyW t, s) := by
  have := associative_addMod (2 ^ tyW t)
  have hlt : ∀ a, some a ∈ leaves t act f → a < 2 ^ tyW t := by
    intro a ha
    obtain ⟨i, -, hi⟩ := List.mem_map.1 ha
    obtain ⟨-, rfl⟩ : pbit act i = true ∧ f i = a := by simpa using hi
    exact hf i
  rw [treeRoot_fold (fun a b => (a + b) % 2 ^ tyW t) 0 (tyLevels t) _ s (leaves_length t act f), merge_addMod _ hlt, leaves_reduceOption]

theorem combine_sum_int {t : ElemTy} (h : tyFlt t = none) (rnd : Round) : combine t .sum rnd = fun a b s => ((a + b) % 2 ^ tyW t, s) := by
  funext a b s
  simp [combine, h]

theorem identity_sum (t : ElemTy) : identity t .sum = 0 := by
  cases t <;> rfl

theorem canonElem_int {t : ElemTy} (h : tyFlt t = none) (c : Nat) : canonElem t c = c := by
  simp [canonElem, h]

/-- VRED.sum on an integer type writes the sum of the active elements to each of them, and takes no draw. -/
theorem execVred_sum {s : State} {o : VredOp} (hop : o.op = .sum) (hint : tyFlt o.ty = none) (ha : VReady (cur s) o.a)
    (hd : VFree (cur s) o.d) :
    let act := getP (cur s) o.guard
    let total := (((List.range (tyN o.ty)).filter (pbit act)).map (elem (tyW o.ty) (getV (cur s) o.a))).sum % 2 ^ tyW o.ty
    exec (.vred o) s = .next (after s 8 (putV (kill (cur s) [.v o.a]) o.d
      (vecMap (tyW o.ty) act (cur s).regs.v[o.d] (cur s).sr fun _ r => (total, r)).1)) := by
  intro act total
  have hroot : treeRoot (combine o.ty o.op o.rnd) (identity o.ty o.op) (tyLevels o.ty)
      (leaves o.ty act fun i => canonElem o.ty (elem (tyW o.ty) (getV (cur s) o.a) i)) (cur s).sr = (total, (cur s).sr) := by
    simp only [hop, combine_sum_int hint, identity_sum, canonElem_int hint]
    exact treeRoot_sum o.ty act _ (elem_lt _ _) _
  have hspread : spread o.ty act (cur s).regs.v[o.d] (total, (cur s).sr)
      = vecMap (tyW o.ty) act (cur s).regs.v[o.d] (cur s).sr fun _ r => (total, r) := rfl
  rw [← hspread, ← hroot]
  refine exec_vecLane_pure (i := .vred o) (fun _ => rfl) (ready_v ha) hd ?_
  exact (congrArg (fun r => (spread o.ty act _ r).2) hroot).trans (vecMap_pure_sr _ _ _ _ _)

theorem integerReductionSum_holds : Claims.IntegerReductionSum := by
  intro s o hop hint ha hd act
  refine ⟨_, execVred_sum hop hint ha hd, fun k hk => (elem_vecMap_pure _ hk).trans ?_⟩
  have hmem : k ∈ act ↔ (getP (cur s) o.guard).getLsbD k = true := by simp [act, hk]
  exact if_congr hmem.symm (Nat.mod_mod _ _) rfl

end Sys2Proof.Machine
end

section
/-! O22, part 2: top-k (R132, R133). The rank of a candidate is an order of keys, and the entries kept are the first of the candidates
sorted by it. -/

namespace Sys2Proof.Machine
open Sys2Proof.Safety

/-! ### The rank as a key in a linear order -/

/-- What an exact value comes to among the extended reals; a NaN has no place there. -/
noncomputable def Num.value : Num → EReal
  | .nan => 0
  | .inf neg => if neg then ⊥ else ⊤
  | .fin neg m e _ => (((if neg then -(m : ℝ) else m) * 2 ^ e : ℝ) : EReal)

theorem scaledInt_mul_zpow (neg : Bool) (m : Nat) {e k : Int} (h : k ≤ e) :
    (scaledInt neg m (e - k) : ℝ) * 2 ^ k = (if neg then -(m : ℝ) else m) * 2 ^ e := by
  have hpow : (2 : ℝ) ^ (e - k).toNat * 2 ^ k = 2 ^ e := by
    rw [← zpow_natCast, Int.toNat_of_nonneg (by omega), ← zpow_add₀ two_ne_zero, sub_add_cancel]
  cases neg <;> simp [scaledInt, mul_assoc, hpow]

/-- Numbers are compared by what they come to (R114). -/
theorem lessNum_iff {x y : Num} (hx : x.isNan = false) (hy : y.isNan = false) : lessNum false x y = true ↔ x.value < y.value := by
  cases x with
  | nan => simp [Num.isNan] at hx
  | inf a => cases y with
    | nan => simp [Num.isNan] at hy
    | inf b => cases a <;> cases b <;> simp [lessNum, Num.value]
    | fin b n f q => cases a <;> simp [lessNum, Num.value]
  | fin a m e p => cases y with
    | nan => simp [Num.isNan] at hy
    | inf b => cases b <;> simp [lessNum, Num.value]
    | fin b n f q =>
      have hpos : (0 : ℝ) < 2 ^ min e f := by positivity
      rw [Num.value, Num.value, EReal.coe_lt_coe_iff, ← scaledInt_mul_zpow a m (min_le_left e f),
        ← scaledInt_mul_zpow b n (min_le_right e f), mul_lt_mul_iff_left₀ hpos, Int.cast_lt]
      simp [lessNum]

/-- The place of a key in the rank order: numbers as they are or, for the greatest first, negated, and every NaN behind them (R132). -/
noncomputable def keyPlace (t : ElemTy) (most : Bool) (c : Nat) : WithTop EReal :=
  match tyFlt t with
  | some f => if (decodeFlt f c).isNan then ⊤ else if most then ↑(-(decodeFlt f c).value) else ↑(decodeFlt f c).value
  | none => if most then ↑((-(elemInt t c : ℝ) : ℝ) : EReal) else ↑((elemInt t c : ℝ) : EReal)

theorem keyBefore_iff (t : ElemTy) (most : Bool) (a b : Nat) : keyBefore t most a b = true ↔ keyPlace t most a < keyPlace t most b := by
  unfold keyBefore keyPlace
  cases tyFlt t with
  | none => cases most <;> simp
  | some f =>
    cases ha : (decodeFlt f a).isNan with
    | true => simp [ha]
    | false => cases hb : (decodeFlt f b).isNan with
      | true => cases most <;> simp [ha, hb]
      | false => cases most <;> simp [ha, hb, lessNum_iff]

/-- The place of a candidate: that of its key, then its id (R132). -/
noncomputable def rankPlace (t : ElemTy) (most : Bool) (c : Ranked) : WithTop EReal ×ₗ Nat := toLex (keyPlace t most c.1, c.2)

theorem rankedBefore_iff (t : ElemTy) (most : Bool) (a b : Ranked) :
    rankedBefore t most a b = true ↔ rankPlace t most a < rankPlace t most b := by
  have hle : keyBefore t most b.1 a.1 = false ↔ keyPlace t most a.1 ≤ keyPlace t most b.1 := by
    rw [← not_lt, ← keyBefore_iff, Bool.not_eq_true]
  simp only [rankedBefore, rankPlace, Prod.Lex.toLex_lt_toLex, Bool.or_eq_true, Bool.and_eq_true, Bool.not_eq_true', decide_eq_true_eq,
    keyBefore_iff, hle, le_iff_lt_or_eq]
  tauto

theorem not_rankedBefore_iff (t : ElemTy) (most : Bool) (a b : Ranked) :
    rankedBefore t most b a = false ↔ rankPlace t most a ≤ rankPlace t most b := by
  rw [← not_lt, ← rankedBefore_iff, Bool.not_eq_true]

/-! ### Sorting by rank -/

section
variable {t : ElemTy} {most : Bool}

/-- A list of candidates in rank order. -/
def RankSorted (t : ElemTy) (most : Bool) (l : List Ranked) : Prop := l.Pairwise fun a b => rankedBefore t most b a = false

theorem insertRanked_perm (c : Ranked) (l : List Ranked) : (insertRanked t most c l).Perm (c :: l) := by
  induction l with
  | nil => rfl
  | cons h r ih =>
    rw [insertRanked]
    split
    · rfl
    · exact (ih.cons h).trans (.swap c h r)

theorem insertRanked_sorted (c : Ranked) {l : List Ranked} (hl : RankSorted t most l) : RankSorted t most (insertRanked t most c l) := by
  induction l with
  | nil => exact List.pairwise_singleton _ _
  | cons h r ih =>
    obtain ⟨hhead, htail⟩ := List.pairwise_cons.1 hl
    rw [insertRanked]
    split
    case isTrue hch =>
      have hle : rankPlace t most c ≤ rankPlace t most h := ((rankedBefore_iff t most c h).1 hch).le
      refine List.pairwise_cons.2 ⟨fun b hb => (not_rankedBefore_iff t most c b).2 ?_, hl⟩
      obtain rfl | hb := List.mem_cons.1 hb
      · exact hle
      · exact hle.trans ((not_rankedBefore_iff t most h b).1 (hhead b hb))
    case isFalse hch =>
      refine List.pairwise_cons.2 ⟨fun b hb => ?_, ih htail⟩
      obtain rfl | hb := List.mem_cons.1 ((insertRanked_perm c r).mem_iff.1 hb)
      · exact Bool.eq_false_of_not_eq_true hch
      · exact hhead b hb

/-- Candidates inserted one after another are sorted by rank. -/
theorem foldl_insertRanked (l : List Ranked) {acc : List Ranked} (hacc : RankSorted t most acc) :
    RankSorted t most (l.foldl (fun acc c => insertRanked t most c acc) acc)
    ∧ (l.foldl (fun acc c => insertRanked t most c acc) acc).Perm (l ++ acc) := by
  induction l generalizing acc with
  | nil => exact ⟨hacc, .rfl⟩
  | cons c l ih =>
    obtain ⟨hsorted, hperm⟩ := ih (insertRanked_sorted c hacc)
    exact ⟨hsorted, (hperm.trans ((insertRanked_perm c acc).append_left l)).trans List.perm_middle⟩

end

/-- The entries kept are the first `k` of a list in rank order of the candidates that are not empty. -/
theorem bestRanked_eq_take (t : ElemTy) (most : Bool) (k : Nat) (cs : List Ranked) :
    ∃ l, bestRanked t most k cs = l.take k ∧ RankSorted t most l ∧ l.Perm (cs.filter fun c => c.2 ≠ emptyId) := by
  obtain ⟨hsorted, hperm⟩ := foldl_insertRanked (t := t) (most := most) (cs.filter fun c => c.2 ≠ emptyId) .nil
  exact ⟨_, rfl, hsorted, by simpa using hperm⟩

theorem topkKeepsTheBest_holds : Claims.TopkKeepsTheBest := by
  intro t most k cs best
  obtain ⟨l, hbest, hsorted, hperm⟩ := bestRanked_eq_take t most k cs
  have hmem (c : Ranked) : c ∈ l ↔ c ∈ cs ∧ c.2 ≠ emptyId := by simp [hperm.mem_iff]
  rw [show best = l.take k from hbest]
  refine ⟨by rw [List.length_take, hperm.length_eq], hsorted.sublist (List.take_sublist k l),
    fun c hc => ((hmem c).1 (List.mem_of_mem_take hc)).1, fun c hc hid hout b hb => ?_⟩
  have hdrop : c ∈ l.drop k := by
    have hl : c ∈ l.take k ++ l.drop k := (List.take_append_drop k l).symm ▸ (hmem c).2 ⟨hc, hid⟩
    exact (List.mem_append.1 hl).resolve_left hout
  rw [RankSorted, ← List.take_append_drop k l, List.pairwise_append] at hsorted
  obtain ⟨-, -, hacross⟩ := hsorted
  exact hacross b hb c hdrop

end Sys2Proof.Machine
end

section
/-! O22, part 3: where the vector instructions complete (R108, R110, R111, R116 to R134). -/

namespace Sys2Proof.Machine
open Sys2Proof.Safety

/-- A vector operation on its lane alone completes, whatever its result. -/
theorem completesV_of_vecLane {i : Instr} {n : Nat} {srcs : List Opnd} {d : Reg} {f : Lane → V × BitVec 32}
    (hi : ∀ s, exec i s = laneOp n (vecLane srcs d f) s) : CompletesV i n srcs d :=
  fun s hs hd => ⟨_, _, resultV_of_vecLane hi s hs hd⟩

theorem guardedVec_on {s : State} {g : PReg} {srcs : List Opnd} {f : Lane → Except Stop Lane} {l : Lane} (h : guardOn (cur s) g = true)
    (hf : f (cur s) = .ok l) : guardedVec g srcs f s = .next (after s 8 l) :=
  laneOp_ok (by simp only [h, if_true, hf])

/-- A long-latency vector operation leaves its destination empty until the vector, fixed at issue, arrives (R26, R111). -/
theorem longV_of_vecLong {i : Instr} {n : Nat} {f : VArgs → Lane → V × BitVec 32} {g : VArgs}
    (hi : ∀ s, exec i s = vecLong n f g s) : LongV i n (g.srcs.map .v) g.d (f g) :=
  fun s hs hd => (hi s).trans (stateOp_ok (by simp only [gate_ok hs (free_v hd), bind_ok]))

/-- The record of a top-k operation is outstanding; it takes no draw (R133, R134). -/
theorem topkOp_outstanding {i : Instr} {cand : V → V → List Ranked} {o : TopkOp} (hi : ∀ s, exec i s = topkOp cand o s) {s : State}
    (hs : Ready (cur s) [.v o.a, .v o.b]) (hd : VFree (cur s) o.d) : ∃ v : V,
      let t := produce (setCur s (kill (cur s) [.v o.a, .v o.b])) ⟨.v o.d, v, false, none, s.sched.bits, 0, siteOf s⟩
      exec i s = .next (after t 8 (cur t)) := by
  have hlong := longV_of_vecLong (g := ⟨o.d, [o.a, o.b], 0, o.ty, .rne⟩) hi s hs hd
  rw [with_sr_self (kill_sr (cur s) _).symm] at hlong
  exact ⟨_, hlong⟩

theorem execVextr_ready {s : State} {o : XX2} (hg : guardOn (cur s) o.guard = true) (hs : Ready (cur s) [.v o.a, .x o.b])
    (hd : XFree (cur s) o.d) : execVextr o s = .next (after s 8 (putX (kill (cur s) [.v o.a, .x o.b]) o.d
      (extracted o.ty (elem (tyW o.ty) (getV (cur s) o.a) ((getX (cur s) o.b.reg).toNat % tyN o.ty))))) :=
  guardedVec_on hg (by rw [gate_ok hs (free_x hd), bind_ok])

theorem execVcmp_ready {s : State} {o : VcmpOp} (hg : guardOn (cur s) o.guard = true) (hs : Ready (cur s) [.v o.a, .v o.b]) :
    execVcmp o s = .next (after s 8 (putP (kill (cur s) [.v o.a, .v o.b]) o.d
      (vcmpMask o.ty o.cond (getV (cur s) o.a) (getV (cur s) o.b)))) :=
  guardedVec_on hg (by rw [gate_ok hs (free_nil _), bind_ok])

theorem vectorCompletion_holds : Claims.VectorCompletion := by
  refine ⟨fun o => ?twoV, fun o => ?twoX, fun o => ?threeX, fun o => ?oneX, fun o => ?lut, fun o => ?norm, fun o => ?cvt, fun o => ?red,
    fun o => ?scan, fun o => ?sel, fun o => ?splat, fun o => ?ins, fun o => ?iota, fun o => ?slide, fun o => ?pack,
    fun o s hg hs hd => ?extr, fun o s hg hs => ?cmp, fun o s hs hd => ?topk⟩
  case twoV => refine ⟨?_, ?_, ?_, ?_, ?_, ?_, ?_, ?_, ?_, ?_, ?_⟩ <;> exact completesV_of_vecLane fun _ => rfl
  case twoX => refine ⟨?_, ?_, ?_, ?_, ?_, ?_, ?_, ?_, ?_, ?_, ?_, ?_, ?_, ?_, ?_⟩ <;> exact completesV_of_vecLane fun _ => rfl
  case threeX => refine ⟨?_, ?_, ?_⟩ <;> exact completesV_of_vecLane fun _ => rfl
  case oneX => refine ⟨?_, ?_, ?_, ?_, ?_, ?_⟩ <;> exact completesV_of_vecLane fun _ => rfl
  case pack => constructor <;> exact completesV_of_vecLane fun _ => rfl
  case extr => exact ⟨_, execVextr_ready hg hs hd⟩
  case cmp => exact ⟨_, execVcmp_ready hg hs⟩
  case topk => exact ⟨topkOp_outstanding (i := .topk o) (cand := topkPairs) (fun _ => rfl) hs hd,
    topkOp_outstanding (i := .topkm o) (cand := fun a b => recordPairs a ++ recordPairs b) (fun _ => rfl) hs hd⟩
  all_goals exact completesV_of_vecLane fun _ => rfl

/-- Settles O22: addition modulo 2^W is associative, so no tree changes an integer sum; the entries that top-k keeps are the first of
the candidates sorted by rank, an order of keys; and each vector instruction is of a shape that completes. -/
theorem reductionSumAndTopk : Obligations.ReductionSumAndTopk :=
  ⟨integerReductionSum_holds, topkKeepsTheBest_holds, vectorCompletion_holds⟩

end Sys2Proof.Machine
end

section
/-! O1, O2 and O4: the values of the integer instructions (R51, R86 to R90, R92). -/

namespace Sys2Proof.Machine
open Sys2Proof.Safety

/-! ### Products and quotients (R87, R89) -/

theorem mulhiX_eq (a b : X) : mulhiX a b = (a.signExtend 128 * b.signExtend 128).extractLsb' 64 64 := by
  have hprod : a.signExtend 128 * b.signExtend 128 = BitVec.ofInt 128 (a.toInt * b.toInt) := by
    rw [BitVec.ofInt_mul]
    rfl
  rw [hprod, mulhiX]
  generalize a.toInt * b.toInt = z
  apply BitVec.eq_of_toNat_eq
  simp only [BitVec.toNat_ofInt, BitVec.extractLsb'_toNat, Nat.shiftRight_eq_div_pow]
  omega

theorem mulhiuX_eq (a b : X) : mulhiuX a b = (a.setWidth 128 * b.setWidth 128).extractLsb' 64 64 := by
  have hprod : a.setWidth 128 * b.setWidth 128 = BitVec.ofNat 128 (a.toNat * b.toNat) := by
    rw [BitVec.ofNat_mul, BitVec.ofNat_toNat, BitVec.ofNat_toNat]
  rw [hprod, mulhiuX]
  generalize a.toNat * b.toNat = n
  apply BitVec.eq_of_toNat_eq
  simp only [BitVec.toNat_ofNat, BitVec.extractLsb'_toNat, Nat.shiftRight_eq_div_pow]
  omega

theorem divX_eq (a b : X) : divX a b = if b = 0 then BitVec.allOnes 64 else BitVec.ofInt 64 (a.toInt.tdiv b.toInt) := by
  have hquot : a.sdiv b = BitVec.ofInt 64 (a.toInt.tdiv b.toInt) := BitVec.eq_of_toInt_eq (by rw [BitVec.toInt_sdiv, BitVec.toInt_ofInt])
  rw [divX, hquot]

theorem divuX_eq (a b : X) : divuX a b = if b = 0 then BitVec.allOnes 64 else BitVec.ofNat 64 (a.toNat / b.toNat) := by
  rw [divuX, ← BitVec.toNat_udiv, BitVec.ofNat_toNat, BitVec.setWidth_eq]

theorem remX_eq (a b : X) : remX a b = if b = 0 then a else BitVec.ofInt 64 (a.toInt.tmod b.toInt) := by
  rw [remX, ← BitVec.toInt_srem, BitVec.ofInt_toInt]

theorem remuX_eq (a b : X) : remuX a b = if b = 0 then a else BitVec.ofNat 64 (a.toNat % b.toNat) := by
  rw [remuX, ← BitVec.toNat_umod, BitVec.ofNat_toNat, BitVec.setWidth_eq]

/-! ### Shifts (R88) -/

theorem toNat_and_63 (b : X) : (b &&& 63).toNat = b.toNat % 64 := Nat.and_two_pow_sub_one_eq_mod b.toNat 6

theorem shlX_eq (a b : X) : shlX a b = a <<< (b &&& 63) := by
  rw [BitVec.shiftLeft_eq', toNat_and_63, shlX]

theorem shrX_eq (a b : X) : shrX a b = a >>> (b &&& 63) := by
  rw [BitVec.ushiftRight_eq', toNat_and_63, shrX]

theorem sraX_eq (a b : X) : sraX a b = a.sshiftRight (b &&& 63).toNat := by
  rw [toNat_and_63, sraX]

theorem rotX_eq (a b : X) : rotX a b = (a >>> (b &&& 63)) ||| (a <<< (64 - (b &&& 63).toNat)) := by
  rw [BitVec.ushiftRight_eq', toNat_and_63, rotX, BitVec.rotateRight_def, Nat.mod_mod]

/-- A count that has at most six bits is its own low six bits. -/
theorem setWidth_and_63 {n : Nat} (hn : n ≤ 6) (c : BitVec n) : c.setWidth 64 &&& (63 : X) = c.setWidth 64 := by
  apply BitVec.eq_of_toNat_eq
  rw [toNat_and_63, BitVec.toNat_setWidth]
  have := c.isLt.trans_le (Nat.pow_le_pow_right (by decide : 2 > 0) hn)
  omega

/-! ### Comparisons (R86, R90) -/

theorem absX_eq (a : X) : absX a = if 0 ≤ a.toInt then a else 0 - a := by
  have hneg : a.slt 0 = true ↔ ¬ 0 ≤ a.toInt := BitVec.slt_iff_toInt_lt.trans Int.not_le.symm
  rw [absX, if_congr hneg rfl rfl, ite_not]

theorem minX_eq (a b : X) : minX a b = if a.toInt ≤ b.toInt then a else b := if_congr BitVec.sle_iff_toInt_le rfl rfl

theorem maxX_eq (a b : X) : maxX a b = if a.toInt ≤ b.toInt then b else a := if_congr BitVec.sle_iff_toInt_le rfl rfl

theorem minuX_eq (a b : X) : minuX a b = if a.toNat ≤ b.toNat then a else b := if_congr BitVec.ule_iff_toNat_le rfl rfl

theorem maxuX_eq (a b : X) : maxuX a b = if a.toNat ≤ b.toNat then b else a := if_congr BitVec.ule_iff_toNat_le rfl rfl

theorem condHolds_iff (c : Cond) (a b : X) : condHolds c a b = true ↔
    match c with
    | .eq => a = b
    | .ne => a ≠ b
    | .lt => a.toInt < b.toInt
    | .le => a.toInt ≤ b.toInt
    | .ltu => a.toNat < b.toNat
    | .leu => a.toNat ≤ b.toNat := by
  cases c with
  | eq => exact beq_iff_eq
  | ne => exact bne_iff_ne
  | lt => exact BitVec.slt_iff_toInt_lt
  | le => exact BitVec.sle_iff_toInt_le
  | ltu => exact BitVec.ult_iff_toNat_lt
  | leu => exact BitVec.ule_iff_toNat_le

/-! ### Counting and reversing (R86) -/

/-- `m` zero bits down from the top of `n` bits, and then a one bit or no bit left, are the leading zeros. -/
theorem leadingZeros_eq {a n m : Nat} (hm : m ≤ n) (hz : ∀ i < m, bit a (n - 1 - i) = false)
    (ho : m < n → bit a (n - 1 - m) = true) : leadingZeros a n = m := by
  induction n generalizing m with
  | zero => exact (Nat.le_zero.1 hm).symm
  | succ n ih =>
    cases m with
    | zero =>
      have htop : bit a n = true := ho n.succ_pos
      simp [leadingZeros, htop]
    | succ m =>
      have htop : bit a n = false := hz 0 m.succ_pos
      have hstep (i : Nat) : n + 1 - 1 - (i + 1) = n - 1 - i := by omega
      have hrest : leadingZeros a n = m := ih (Nat.le_of_succ_le_succ hm)
        (fun i hi => hstep i ▸ hz (i + 1) (Nat.succ_lt_succ hi)) fun h => hstep m ▸ ho (Nat.succ_lt_succ h)
      simp [leadingZeros, htop, hrest, Nat.add_comm]

theorem clzX_eq (a : X) : clzX a = a.clz := by
  have hlead : leadingZeros a.toNat 64 = a.clz.toNat := by
    refine leadingZeros_eq BitVec.clz_le (fun i hi => ?_) (fun h => ?_)
    · have hlt : i < 64 := hi.trans_le BitVec.clz_le
      have hrev : a.reverse.getLsbD i = false := BitVec.getLsbD_false_of_lt_ctz (BitVec.clz_eq_reverse_ctz ▸ hi)
      rwa [BitVec.getLsbD_reverse, BitVec.getMsbD_eq_getLsbD, decide_eq_true hlt, Bool.true_and, ← bit_toNat] at hrev
    · rw [bit_toNat]
      exact BitVec.getLsbD_true_clz_of_ne_zero (by decide) (BitVec.clz_lt_iff_ne_zero.1 h)
  rw [clzX, hlead, BitVec.ofNat_toNat, BitVec.setWidth_eq]

theorem ctzX_eq (a : X) : ctzX a = a.ctz := by
  have hlow : firstOne a.toNat 0 64 = a.ctz.toNat := by
    refine firstOne_eq (Nat.zero_le _) BitVec.clz_le (fun i hi => ?_) (fun h => ?_)
    · rw [bit_toNat, BitVec.getLsbD_false_of_lt_ctz hi]
    · rw [bit_toNat]
      exact BitVec.getLsbD_true_ctz_of_ne_zero (BitVec.ctz_lt_iff_ne_zero.1 h)
  rw [ctzX, hlow, BitVec.ofNat_toNat, BitVec.setWidth_eq]

theorem popcX_eq (a : X) : popcX a = a.cpop := by
  rw [popcX, popBelow_eq_cpopNatRec]
  rfl

theorem toNat_append_eq {m n : Nat} (x : BitVec m) (y : BitVec n) : (x ++ y).toNat = x.toNat * 2 ^ n + y.toNat := by
  rw [BitVec.toNat_append, ← Nat.shiftLeft_add_eq_or_of_lt y.isLt, Nat.shiftLeft_eq]

theorem swapBytes_eight (a : Nat) : swapBytes a 8 =
    ((((((bits a 0 8 * 2 ^ 8 + bits a 8 8) * 2 ^ 8 + bits a 16 8) * 2 ^ 8 + bits a 24 8) * 2 ^ 8 + bits a 32 8) * 2 ^ 8
      + bits a 40 8) * 2 ^ 8 + bits a 48 8) * 2 ^ 8 + bits a 56 8 := by
  simp only [swapBytes, bits, Nat.div_div_eq_div_mul]
  norm_num
  ring

theorem bswapX_eq (a : X) : bswapX a = a.extractLsb' 0 8 ++ a.extractLsb' 8 8 ++ a.extractLsb' 16 8 ++ a.extractLsb' 24 8
    ++ a.extractLsb' 32 8 ++ a.extractLsb' 40 8 ++ a.extractLsb' 48 8 ++ a.extractLsb' 56 8 := by
  have hbyte (k : Nat) : (a.extractLsb' k 8).toNat = bits a.toNat k 8 := by
    rw [BitVec.extractLsb'_toNat, Nat.shiftRight_eq_div_pow, bits]
  have hnum : (a.extractLsb' 0 8 ++ a.extractLsb' 8 8 ++ a.extractLsb' 16 8 ++ a.extractLsb' 24 8 ++ a.extractLsb' 32 8
      ++ a.extractLsb' 40 8 ++ a.extractLsb' 48 8 ++ a.extractLsb' 56 8).toNat = swapBytes a.toNat 8 := by
    simp only [toNat_append_eq, hbyte, swapBytes_eight]
  rw [bswapX, ← hnum, BitVec.ofNat_toNat, BitVec.setWidth_eq]

/-! ### Widths (R84, R86) -/

theorem sext_eq (n : Nat) (a : X) : sext n a = (a.setWidth n).signExtend 64 := by
  have hsgn : sgn n a.toNat = sgn n (a.toNat % 2 ^ n) := by simp only [sgn, Nat.mod_mod]
  have hmod : BitVec.ofNat n (a.toNat % 2 ^ n) = a.setWidth n := BitVec.eq_of_toNat_eq (by simp)
  rw [sext, hsgn, sgn_eq_toInt (Nat.mod_lt _ (Nat.two_pow_pos n)), hmod, BitVec.signExtend]

theorem zext_eq (n : Nat) (a : X) : zext n a = (a.setWidth n).setWidth 64 := BitVec.eq_of_toNat_eq (by simp [zext])

/-! ### The instructions -/

section
variable {i : Instr} {n : Nat} {d : Reg} {a b : Src} {v : Lane → X}

theorem resultX_of_alu0 (hi : ∀ s, exec i s = laneOp n (alu0 d v) s) : ResultX i n [] d v :=
  resultX_of_laneOp hi fun _ _ hd => alu0_ok v hd

theorem resultX_of_alu1 {f : X → X} (hi : ∀ s, exec i s = laneOp n (alu1 d a f) s) (h : ∀ l, f (getX l a.reg) = v l) :
    ResultX i n [.x a] d v := resultX_of_laneOp hi fun l hs hd => h l ▸ alu1_ok f hs hd

theorem resultX_of_alu2 {f : X → X → X} (hi : ∀ s, exec i s = laneOp n (alu2 d a b f) s)
    (h : ∀ l, f (getX l a.reg) (getX l b.reg) = v l) : ResultX i n [.x a, .x b] d v :=
  resultX_of_laneOp hi fun l hs hd => h l ▸ alu2_ok f hs hd

/-- A long-latency operation leaves x0 alone, and any other destination empty until its value arrives (R26, R44). -/
theorem longX_of_stateOp {f : X → X → X} (hi : ∀ s, exec i s = stateOp n (longX d a b f) s)
    (h : ∀ l, f (getX l a.reg) (getX l b.reg) = v l) : LongX i n [.x a, .x b] d v := by
  intro s hs hd
  have hgate : gate (cur s) [.x a, .x b] [.x d] = .ok () := gate_ok hs (free_x hd)
  rw [hi]
  constructor
  · intro h0
    refine (stateOp_ok (t := setCur s (kill (cur s) [.x a, .x b])) ?_).trans (congrArg _ (after_setCur s n _))
    simp only [longX, hgate, bind_ok, if_pos h0]
  · intro h0
    refine stateOp_ok ?_
    simp only [longX, hgate, bind_ok, if_neg h0, h]

end

theorem condWord_eq (c : Cond) (a b : X) : condWord c a b =
    match c with
    | .eq => if a = b then 1 else 0
    | .ne => if a ≠ b then 1 else 0
    | .lt => if a.toInt < b.toInt then 1 else 0
    | .le => if a.toInt ≤ b.toInt then 1 else 0
    | .ltu => if a.toNat < b.toNat then 1 else 0
    | .leu => if a.toNat ≤ b.toNat then 1 else 0 := by
  have h := condHolds_iff c a b
  cases c <;> exact if_congr h rfl rfl

theorem integerTwoSource_hold : Claims.IntegerTwoSource := by
  refine ⟨fun o => ?add, fun o => ?sub, fun o => ?mul, fun o => ?mulhi, fun o => ?mulhiu, fun o => ?and, fun o => ?or, fun o => ?xor,
    fun o => ?andn, fun o => ?shl, fun o => ?shr, fun o => ?sra, fun o => ?rot, fun o => ?min, fun o => ?max, fun o => ?minu,
    fun o => ?maxu, fun o => ?cmp⟩
  case mulhi => exact resultX_of_alu2 (fun _ => rfl) fun _ => mulhiX_eq _ _
  case mulhiu => exact resultX_of_alu2 (fun _ => rfl) fun _ => mulhiuX_eq _ _
  case shl => exact resultX_of_alu2 (fun _ => rfl) fun _ => shlX_eq _ _
  case shr => exact resultX_of_alu2 (fun _ => rfl) fun _ => shrX_eq _ _
  case sra => exact resultX_of_alu2 (fun _ => rfl) fun _ => sraX_eq _ _
  case rot => exact resultX_of_alu2 (fun _ => rfl) fun _ => rotX_eq _ _
  case min => exact resultX_of_alu2 (fun _ => rfl) fun _ => minX_eq _ _
  case max => exact resultX_of_alu2 (fun _ => rfl) fun _ => maxX_eq _ _
  case minu => exact resultX_of_alu2 (fun _ => rfl) fun _ => minuX_eq _ _
  case maxu => exact resultX_of_alu2 (fun _ => rfl) fun _ => maxuX_eq _ _
  case cmp => exact resultX_of_alu2 (fun _ => rfl) fun _ => condWord_eq _ _ _
  all_goals exact resultX_of_alu2 (fun _ => rfl) fun _ => rfl

theorem integerOneSource_hold : Claims.IntegerOneSource := by
  refine ⟨fun o => ?neg, fun o => ?abs, fun o => ?clz, fun o => ?ctz, fun o => ?popc, fun o => ?brev, fun o => ?bswap, fun o => ?mov,
    fun o => ?sext, fun o => ?zext⟩
  case neg | brev | mov => exact resultX_of_alu1 (fun _ => rfl) fun _ => rfl
  case abs => exact resultX_of_alu1 (fun _ => rfl) fun _ => absX_eq _
  case clz => exact resultX_of_alu1 (fun _ => rfl) fun _ => clzX_eq _
  case ctz => exact resultX_of_alu1 (fun _ => rfl) fun _ => ctzX_eq _
  case popc => exact resultX_of_alu1 (fun _ => rfl) fun _ => popcX_eq _
  case bswap => exact resultX_of_alu1 (fun _ => rfl) fun _ => bswapX_eq _
  case sext => exact resultX_of_alu1 (fun _ => rfl) fun _ => sext_eq _ _
  case zext => exact resultX_of_alu1 (fun _ => rfl) fun _ => zext_eq _ _

/-- Settles O1: each R-format instruction is one of two shared operations with its own function of the sources, and that function is the
value which R86 and R88 to R90 give (`mulhiX_eq` to `condWord_eq`). -/
theorem integerRegisters : Obligations.IntegerRegisters := ⟨integerTwoSource_hold, integerOneSource_hold⟩

theorem integerImmediate_hold : Claims.IntegerImmediate := by
  refine ⟨fun o => ?add, fun o => ?mul, fun o => ?and, fun o => ?or, fun o => ?xor, fun o => ?shl, fun o => ?shr, fun o => ?sra,
    fun o => ?rot, fun o => ?cmp, fun o => ?ldi, fun o => ?lea⟩
  case shl => exact resultX_of_alu1 (fun _ => rfl) fun _ => (shlX_eq _ _).trans (by rw [setWidth_and_63 (by decide)])
  case shr => exact resultX_of_alu1 (fun _ => rfl) fun _ => (shrX_eq _ _).trans (by rw [setWidth_and_63 (by decide)])
  case sra => exact resultX_of_alu1 (fun _ => rfl) fun _ => (sraX_eq _ _).trans (by rw [setWidth_and_63 (by decide)])
  case rot => exact resultX_of_alu1 (fun _ => rfl) fun _ => (rotX_eq _ _).trans (by rw [setWidth_and_63 (by decide)])
  case cmp => exact resultX_of_alu1 (fun _ => rfl) fun _ => condWord_eq _ _ _
  case ldi | lea => exact resultX_of_alu0 fun _ => rfl
  all_goals exact resultX_of_alu1 (fun _ => rfl) fun _ => rfl

/-- A compressed count has at most six bits too, so that a shift takes it whole (R51). -/
theorem toNat_setWidth_five (c : BitVec 5) : (c.setWidth 64 &&& (63 : X)).toNat = c.toNat := by
  rw [setWidth_and_63 (by decide), BitVec.toNat_setWidth_of_le (by decide)]

theorem compressedInteger_hold : Claims.CompressedInteger := by
  refine ⟨fun o => ?add, fun o => ?sub, fun o => ?and, fun o => ?or, fun o => ?xor, fun o => ?shl, fun o => ?shr, fun o => ?sra,
    fun o => ?mov, fun o => ?neg, fun o => ?addi, fun o => ?andi, fun o => ?ldi, fun o => ?shli, fun o => ?shri, fun o => ?srai⟩
  case add | sub | and | or | xor => exact resultX_of_alu2 (fun _ => rfl) fun _ => rfl
  case shl => exact resultX_of_alu2 (fun _ => rfl) fun _ => shlX_eq _ _
  case shr => exact resultX_of_alu2 (fun _ => rfl) fun _ => shrX_eq _ _
  case sra => exact resultX_of_alu2 (fun _ => rfl) fun _ => sraX_eq _ _
  case mov | neg | addi | andi => exact resultX_of_alu1 (fun _ => rfl) fun _ => rfl
  case ldi => exact resultX_of_alu0 fun _ => rfl
  case shli =>
    exact resultX_of_alu1 (fun _ => rfl) fun _ => by rw [shlX_eq, BitVec.shiftLeft_eq', toNat_setWidth_five]; rfl
  case shri =>
    exact resultX_of_alu1 (fun _ => rfl) fun _ => by rw [shrX_eq, BitVec.ushiftRight_eq', toNat_setWidth_five]; rfl
  case srai =>
    exact resultX_of_alu1 (fun _ => rfl) fun _ => by rw [sraX_eq, toNat_setWidth_five]; rfl

/-- Settles O2: each I-format and compressed instruction is a shared operation with the function of its wider form, and a count of at
most six bits is taken whole (`setWidth_and_63`, `toNat_setWidth_five`). -/
theorem integerImmediates : Obligations.IntegerImmediates := ⟨integerImmediate_hold, compressedInteger_hold⟩

/-- Settles O4: the four instructions are long-latency producers of the quotients and remainders of R87 (`divX_eq` to `remuX_eq`). -/
theorem division : Obligations.Division := fun _ =>
  ⟨longX_of_stateOp (fun _ => rfl) fun _ => divX_eq _ _, longX_of_stateOp (fun _ => rfl) fun _ => divuX_eq _ _,
    longX_of_stateOp (fun _ => rfl) fun _ => remX_eq _ _, longX_of_stateOp (fun _ => rfl) fun _ => remuX_eq _ _⟩

end Sys2Proof.Machine
end

section
/-! O5: SEL reads all three sources (R91). -/

namespace Sys2Proof.Machine
open Sys2Proof.Safety

/-- The fields of a scalar X-format word stand above its op10 (R48). -/
theorem encodeX3_opcode (o : X3) : (0x103 + encodeX3 o) % 4 = 3 ∧ (0x103 + encodeX3 o) / 4 % 1024 = 0x040 := by
  unfold encodeX3
  omega

/-- An empty x source with F = block makes the instruction wait for some empty source, whatever stands beside it (R27). -/
theorem gate_x_empty {l : Lane} {srcs : List Src} {dsts : List Dst} {a : Src} (ha : a ∈ srcs) (ht : a.trap = false) (h0 : a.reg ≠ 0)
    (hf : l.marks.xfull.getLsbD a.reg.val = false) (hd : l.marks.xdead.getLsbD a.reg.val = false) :
    ∃ r : Reg, gate l (srcs.map .x) dsts = .error (.wait (.xfull r)) := by
  have hlegal : (srcs.map Opnd.x).any (opndIllegal l) = false := by simp [opndIllegal]
  have hwaits : opndWait l (.x a) = some (.xfull a.reg) := by
    simp [opndWait, (xFull_of_ne_zero h0).trans hf, (xDead_of_ne_zero h0).trans hd, ht]
  cases hfind : (srcs.map Opnd.x).findSome? (opndWait l) with
  | none => exact nomatch (List.findSome?_eq_none_iff.1 hfind (.x a) (List.mem_map_of_mem ha)).symm.trans hwaits
  | some w =>
    obtain ⟨_, ho, hw⟩ := List.exists_of_findSome?_eq_some hfind
    obtain ⟨b, -, rfl⟩ := List.mem_map.1 ho
    obtain ⟨-, rfl⟩ : _ ∧ Wait.xfull b.reg = w := by simpa [opndWait] using hw
    exact ⟨b.reg, by simp only [gate, hlegal, hfind, Bool.false_eq_true, if_false, waitFor]⟩

theorem execSel_waits {s : State} {o : X3} {r : Reg} (hg : guardOn (cur s) o.guard = true)
    (h : gate (cur s) [.x o.a, .x o.b, .x o.c] [.x o.d] = .error (.wait (.xfull r))) :
    execSel o s = .next (waiting s (.xfull r)) :=
  (guardedLaneOp_on hg).trans ((laneOp_error (by rw [alu3, h]; rfl)).trans (takeStop_wait_xfull s r))

/-- Settles O5: the gate looks at all three sources before the choice, and the chosen value is O3's. -/
theorem selectReadsAll : Obligations.SelectReadsAll := by
  intro o
  obtain ⟨hsel, -⟩ := threeSourceAndFields_hold
  refine ⟨⟨_, rfl, encodeX3_opcode o⟩, hsel o, fun s a ha hg ht h0 hf hd => ?_⟩
  obtain ⟨r, hgate⟩ := gate_x_empty (dsts := [.x o.d]) ha ht h0 hf hd
  exact ⟨r, execSel_waits hg hgate⟩

end Sys2Proof.Machine
end

section
/-! O6, O7 and O8: branches, transfers, and what an active LOOP body permits (R51, R96 to R98, R101). -/

namespace Sys2Proof.Machine
open Sys2Proof.Safety

/-! ### The checks of a transfer (R98, R101) -/

theorem takeStop_fault (s : State) (c : FaultCode) (a : X) : takeStop s (.fault c a) = .next (takeFault s c a) := rfl

/-- The head of an `Except` block whose first action stops. -/
theorem bind_error {α β : Type} (e : Stop) (f : α → Except Stop β) : ((.error e : Except Stop α) >>= f) = .error e := rfl

theorem noLoop_ok {l : Lane} (h : l.loop.len = 0) : noLoop l = .ok () := if_pos (beq_iff_eq.2 h)

theorem noLoop_error {l : Lane} (h : l.loop.len ≠ 0) : noLoop l = .error (.fault .loopBody 0) := if_neg (mt beq_iff_eq.1 h)

theorem transferPc_ok {t : X} (h : TargetOk t) : transferPc t = .ok (t.setWidth 48) := by
  obtain ⟨hlow, heven⟩ := h
  simp only [transferPc, need, hlow, heven, decide_true, Bool.not_false, if_true, bind_ok]

theorem transferPc_high {t : X} (h : 2 ^ 48 ≤ t.toNat) : transferPc t = .error (.fault .instrAddr 0) := by
  simp only [transferPc, need, decide_eq_false (Nat.not_lt.2 h), Bool.false_eq_true, if_false, trap, bind_error]

theorem transferPc_odd {t : X} (h : t.toNat < 2 ^ 48) (ho : t.getLsbD 0 = true) : transferPc t = .error (.fault .instrAlign 0) := by
  simp only [transferPc, need, h, ho, decide_true, Bool.not_true, Bool.false_eq_true, if_true, if_false, trap, bind_ok, bind_error]

/-! ### Branches (R96) -/

section
variable {s : State} {n : Nat} {srcs : List Opnd} {taken : Lane → Bool} {off : X}

theorem loopBody_of_branch (h : (cur s).loop.len ≠ 0) {f : State → Host.Outcome State Fault Refusal}
    (hf : f = branch n srcs taken off) : f s = .next (takeFault s .loopBody 0) := by
  rw [hf]
  simp only [branch, noLoop_error h, bind_error, finish_error, takeStop_fault]

variable (hl : (cur s).loop.len = 0) (hs : Ready (cur s) srcs)
include hl hs

theorem branch_taken (ht : taken (cur s) = true) (ho : TargetOk (targetOf (cur s) off)) :
    branch n srcs taken off s = .next (afterJump s ((targetOf (cur s) off).setWidth 48) (cur s)) := by
  have hpc : transferPc (relTarget (cur s) off) = .ok ((targetOf (cur s) off).setWidth 48) := transferPc_ok ho
  simp only [branch, noLoop_ok hl, gate_ok hs (free_nil _), ht, hpc, if_true, bind_ok, finish_ok, afterJump]

theorem branch_not_taken (ht : taken (cur s) = false) : branch n srcs taken off s = .next (after s n (cur s)) := by
  simp only [branch, noLoop_ok hl, gate_ok hs (free_nil _), ht, Bool.false_eq_true, if_false, bind_ok, finish_ok, after]

end

theorem branchWhen_of_branch {i : Instr} {n : Nat} {srcs : List Opnd} {taken : Lane → Bool} {p : Lane → Prop} {off : X}
    (hi : ∀ s, exec i s = branch n srcs taken off s) (hp : ∀ l, taken l = true ↔ p l) : BranchWhen i n srcs p off := fun s hl hs =>
  ⟨fun ht ho => (hi s).trans (branch_taken hl hs ((hp _).2 ht) ho),
    fun ht => (hi s).trans (branch_not_taken hl hs (Bool.eq_false_of_not_eq_true (mt (hp _).1 ht)))⟩

/-- Settles O6: each branch is the one of its condition, outside a LOOP body. -/
theorem conditionalBranches : Obligations.ConditionalBranches := by
  refine ⟨fun o => ?br, fun o => ?bz, fun o => ?bnz, fun o => ?bzC, fun o => ?bnzC, fun o => ?any, fun o => ?all, fun o => ?none⟩
  case br => exact branchWhen_of_branch (fun _ => rfl) fun _ => condHolds_iff _ _ _
  case bz | bzC | all | none => exact branchWhen_of_branch (fun _ => rfl) fun _ => beq_iff_eq
  case bnz | bnzC | any => exact branchWhen_of_branch (fun _ => rfl) fun _ => bne_iff_ne

/-! ### Transfers (R97, R98) -/

section
variable {s : State} {n : Nat} {srcs : List Opnd} {link : Option Reg} {target : Lane → X} {ras : Lane → Lane}

theorem loopBody_of_jump (h : (cur s).loop.len ≠ 0) {f : State → Host.Outcome State Fault Refusal}
    (hf : f = jump n srcs link target ras) : f s = .next (takeFault s .loopBody 0) := by
  rw [hf]
  simp only [jump, noLoop_error h, bind_error, finish_error, takeStop_fault]

variable (hl : (cur s).loop.len = 0) (hs : Ready (cur s) srcs)
include hl hs

theorem jump_completes (ht : TargetOk (target (cur s))) : jump n srcs none target ras s
    = .next (afterJump s ((target (cur s)).setWidth 48) (ras (kill (cur s) srcs))) := by
  simp only [jump, noLoop_ok hl, Option.toList_none, List.map_nil, gate_ok hs (free_nil _), transferPc_ok ht, bind_ok, finish_ok,
    afterJump]

theorem call_completes {r : Reg} (hr : XFree (cur s) r) (ht : TargetOk (target (cur s))) : jump n srcs (some r) target id s
    = .next (afterJump s ((target (cur s)).setWidth 48)
      (pushRas (putX (kill (cur s) srcs) r (((cur s).pc + BitVec.ofNat 48 n).setWidth 64)) ((cur s).pc + BitVec.ofNat 48 n))) := by
  simp only [jump, noLoop_ok hl, Option.toList_some, List.map_cons, List.map_nil, gate_ok hs (free_x hr), transferPc_ok ht, bind_ok,
    finish_ok, afterJump, id_eq]

/-- A transfer whose target may not be gone to faults before it changes any register (R98, R212). -/
theorem jump_target_fault (hd : Free (cur s) (link.toList.map .x)) {c : FaultCode}
    (ht : transferPc (target (cur s)) = .error (.fault c 0)) : jump n srcs link target ras s = .next (takeFault s c 0) := by
  simp only [jump, noLoop_ok hl, gate_ok hs hd, ht, bind_ok, bind_error, finish_error, takeStop_fault]

end

theorem jumps_of_jump {i : Instr} {n : Nat} {srcs : List Opnd} {target : Lane → X} {ras : Lane → Lane}
    (hi : ∀ s, exec i s = jump n srcs none target ras s) : Jumps i srcs target ras :=
  fun s hl hs ht => (hi s).trans (jump_completes hl hs ht)

theorem calls_of_jump {i : Instr} {n : Nat} {srcs : List Opnd} {link : Reg} {target : Lane → X}
    (hi : ∀ s, exec i s = jump n srcs (some link) target id s) : Calls i n srcs link target :=
  fun s hl hs hr ht => (hi s).trans (call_completes hl hs hr ht)

theorem transfers_hold : Claims.Transfers := by
  refine ⟨fun o => ?jmp, fun o => ?jmpL, fun o => ?jmpr, fun o => ?jmprC, fun o => ?ret, fun o => ?retC, fun o => ?call, fun o => ?callL,
    fun o => ?callr⟩
  case call | callL | callr => exact calls_of_jump fun _ => rfl
  case jmpL => exact jumps_of_jump (n := 8) fun _ => rfl
  case jmprC | retC => exact jumps_of_jump (n := 2) fun _ => rfl
  case jmp | jmpr | ret => exact jumps_of_jump (n := 4) fun _ => rfl

/-- The transfers to a register's value fault alike when its value is no target. -/
theorem register_transfers_fault {s : State} {o : R2} (hl : (cur s).loop.len = 0) (ha : XReady (cur s) o.a) (hd : XFree (cur s) o.d)
    {c : FaultCode} (ht : transferPc (getX (cur s) o.a.reg) = .error (.fault c 0)) :
    exec (.callr o) s = .next (takeFault s c 0) ∧ exec (.jmpr ⟨o.a⟩) s = .next (takeFault s c 0)
      ∧ exec (.ret ⟨o.a⟩) s = .next (takeFault s c 0) :=
  ⟨(jump_target_fault (link := some o.d) hl (ready_x ha) (free_x hd) ht : execCallr o s = _),
    (jump_target_fault (link := none) hl (ready_x ha) (free_nil _) ht : execJmpr ⟨o.a⟩ s = _),
    (jump_target_fault (link := none) hl (ready_x ha) (free_nil _) ht : execRet ⟨o.a⟩ s = _)⟩

/-- Settles O7: each transfer is a jump or a call to its target, and a target that `transferPc` refuses faults at it. -/
theorem transfersAndTheirFaults : Obligations.TransfersAndTheirFaults :=
  ⟨transfers_hold, fun _ _ hl ha hd => ⟨fun h => register_transfers_fault hl ha hd (transferPc_high h),
    fun h ho => register_transfers_fault hl ha hd (transferPc_odd h ho)⟩⟩

/-! ### In an active LOOP body (R101) -/

theorem execLoop_loopBody {s : State} (h : (cur s).loop.len ≠ 0) (o : LoopOp) : execLoop o s = .next (takeFault s .loopBody 0) := by
  simp only [execLoop, noLoop_error h, bind_error, finish_error, takeStop_fault]

theorem execTrap_freezes {s : State} (h : (cur s).firing.spec = false) (o : CodeOp) :
    execTrap o s = .next (freeze (after s 4 (cur s)) s.sched.core s.sched.lane
      (packetFor s s.sched.core s.sched.lane .softTrap 0 (o.code.setWidth 64))) := by
  simp only [execTrap, h, Bool.false_eq_true, if_false, after]

theorem execTrap_deferred {s : State} (h : (cur s).firing.spec = true) (o : CodeOp) : execTrap o s = .next (takeFault s .softTrap 0) := by
  simp only [execTrap, h, if_true]

theorem doneOp_unstepped {s : State} (h : (cur s).frz.step = false) (n : Nat) :
    doneOp n s = .next (doneFiring (after s n (cur s)) s.sched.core s.sched.lane) := by
  simp only [doneOp, h, Bool.false_eq_true, if_false, after]

/-- Settles O8: branches, transfers and LOOP ask for no active body before anything else, and the others never ask. -/
theorem loopBodyFaults : Obligations.LoopBodyFaults := fun _ h =>
  ⟨fun o => loopBody_of_branch (f := execBr o) h rfl, fun o => loopBody_of_branch (f := execBz o) h rfl,
    fun o => loopBody_of_branch (f := execBnz o) h rfl, fun o => loopBody_of_branch (f := execBzC o) h rfl,
    fun o => loopBody_of_branch (f := execBnzC o) h rfl, fun o => loopBody_of_branch (f := execBpAny o) h rfl,
    fun o => loopBody_of_branch (f := execBpAll o) h rfl, fun o => loopBody_of_branch (f := execBpNone o) h rfl,
    fun o => loopBody_of_jump (f := execJmp o) h rfl, fun o => loopBody_of_jump (f := execJmpL o) h rfl,
    fun o => loopBody_of_jump (f := execCall o) h rfl, fun o => loopBody_of_jump (f := execCallL o) h rfl,
    fun o => loopBody_of_jump (f := execJmpr o) h rfl, fun o => loopBody_of_jump (f := execJmprC o) h rfl,
    fun o => loopBody_of_jump (f := execCallr o) h rfl, fun o => loopBody_of_jump (f := execRet o) h (funext fun _ => rfl),
    fun o => loopBody_of_jump (f := execRetC o) h (funext fun _ => rfl), execLoop_loopBody h, fun _ => laneOp_ok rfl,
    fun _ => laneOp_ok rfl, fun _ => laneOp_ok rfl, fun _ => rfl, fun _ => rfl, fun o hs => execTrap_freezes hs o,
    fun hd => ⟨fun _ => doneOp_unstepped hd 4, fun _ => doneOp_unstepped hd 2⟩⟩

end Sys2Proof.Machine
end

section
/-! O14: what only a supervisor core may use (R105, R106, R220, R266). -/

namespace Sys2Proof.Machine
open Sys2Proof.Safety

/-! ### System registers (R105, R106) -/

theorem sysAllowed_low {s : State} {n : Nat} (h : n < 0x800) : sysAllowed s n = .ok () := by
  simp only [sysAllowed, need, h, decide_true, Bool.true_or, if_true]

theorem sysAllowed_sup {s : State} (n : Nat) (h : isSup s.sched.core = true) : sysAllowed s n = .ok () := by
  simp only [sysAllowed, need, h, Bool.or_true, if_true]

theorem sysAllowed_error {s : State} {n : Nat} (hn : 0x800 ≤ n) (hs : isSup s.sched.core = false) :
    sysAllowed s n = .error (.fault .illegal 0) := by
  simp only [sysAllowed, need, decide_eq_false (Nat.not_lt.2 hn), hs, Bool.or_false, Bool.false_eq_true, if_false, trap]

/-- The check of a register's number passes, or the instruction is illegal. -/
theorem sysAllowed_cases (s : State) (n : Nat) : sysAllowed s n = .ok () ∨ sysAllowed s n = .error (.fault .illegal 0) := by
  unfold sysAllowed need
  split
  · exact .inl rfl
  · exact .inr rfl

/-- The numbers that the table of R106 lists. -/
def sysrNumbers : List Nat := [0x000, 0x001, 0x002, 0x003, 0x004, 0x008, 0x009, 0x00A, 0x010, 0x040, 0x041, 0x042, 0x800, 0x801, 0x802,
  0x803, 0x804, 0x810, 0x811, 0x812, 0x813, 0x814]

/-- Only a number that the table lists has a value. -/
theorem mem_sysrNumbers {s : State} {n : Nat} (h : ((sysRead s n).isSome || (meterRead s n).isSome) = true) : n ∈ sysrNumbers := by
  rw [Bool.or_eq_true] at h
  obtain h | h := h
  · unfold sysRead at h
    dsimp only at h
    split at h
    case h_20 => exact nomatch h
    all_goals decide
  · unfold meterRead at h
    dsimp only at h
    split at h
    case h_4 => exact nomatch h
    all_goals decide

section
variable {s : State}

theorem execSysr_not_allowed {o : SysrOp} (h : sysAllowed s o.num.toNat = .error (.fault .illegal 0)) :
    execSysr o s = .next (takeFault s .illegal 0) := stateOp_error (e := .fault .illegal 0) (by simp only [h, bind_error])

theorem execSysw_not_allowed {p : SyswOp} (h : sysAllowed s p.num.toNat = .error (.fault .illegal 0)) :
    execSysw p s = .next (takeFault s .illegal 0) := stateOp_error (e := .fault .illegal 0) (by simp only [h, bind_error])

theorem execSysr_unlisted {o : SysrOp} (hn : o.num.toNat ∉ sysrNumbers) : execSysr o s = .next (takeFault s .illegal 0) := by
  have hno : ((sysRead s o.num.toNat).isSome || (meterRead s o.num.toNat).isSome) = false :=
    Bool.eq_false_of_not_eq_true (mt mem_sysrNumbers hn)
  obtain ha | ha := sysAllowed_cases s o.num.toNat
  · exact stateOp_error (e := .fault .illegal 0)
      (by simp only [ha, bind_ok, need, hno, Bool.false_eq_true, if_false, trap, bind_error])
  · exact execSysr_not_allowed ha

/-- SRSTATE is the one register below the supervisor's that SYSW writes. -/
theorem execSysw_readOnly {p : SyswOp} (hn : p.num.toNat < 0x800) (h4 : p.num ≠ 0x004) :
    execSysw p s = .next (takeFault s .illegal 0) := by
  have hne : p.num.toNat ≠ 0x004 := fun h => h4 (BitVec.eq_of_toNat_eq h)
  have hno : ¬ (p.num.toNat = 0x004 ∨ (0x800 ≤ p.num.toNat ∧ p.num.toNat ≤ 0x802)) := by omega
  exact stateOp_error (e := .fault .illegal 0)
    (by simp only [sysAllowed_low hn, bind_ok, need, hno, decide_false, Bool.false_eq_true, if_false, trap, bind_error])

end

theorem systemRegisterPrivilege_holds : Claims.SystemRegisterPrivilege := fun _ _ _ =>
  ⟨fun hn hs => execSysr_not_allowed (sysAllowed_error hn hs), fun hn hs => execSysw_not_allowed (sysAllowed_error hn hs),
    execSysr_unlisted, execSysw_readOnly⟩

/-! ### Instructions (R220, R266) -/

theorem supervisorOnly_error {s : State} (h : isSup s.sched.core = false) : supervisorOnly s = .error (.fault .illegal 0) := by
  simp only [supervisorOnly, need, h, Bool.false_eq_true, if_false, trap]

theorem supervisorOnly_holds : Claims.SupervisorOnly := by
  intro s h
  have hno := supervisorOnly_error h
  have hresume (step : Bool) (o : LresumeOp) : resumeOp step o s = .next (takeFault s .illegal 0) := by
    simp only [resumeOp, hno, takeStop_fault]
  refine ⟨hresume false, hresume true, fun o => ?lkill, fun o => ?tlbi⟩
  case lkill =>
    show execLkill o s = _
    simp only [execLkill, hno, takeStop_fault]
  case tlbi =>
    show execTlbi o s = _
    simp only [execTlbi, hno, takeStop_fault]

/-- Settles O14: the number of a register, and then whether it is listed or written, are checked before the guard; the instructions of a
supervisor check their core first. -/
theorem privilege : Obligations.Privilege := ⟨systemRegisterPrivilege_holds, supervisorOnly_holds⟩

end Sys2Proof.Machine
end

section
/-! O9 and O10: LOOP and the repetition of its body (R99), DONE and NOP (R24, R102). -/

namespace Sys2Proof.Machine
open Sys2Proof.Safety

/-! ### LOOP (R99) -/

section
variable {s : State} {o : LoopOp} (hl : (cur s).loop.len = 0) (ha : XReady (cur s) o.a)
include hl ha

theorem execLoop_enters (hn : getX (cur s) o.a.reg ≠ 0) : execLoop o s = .next (after s 4
    { kill (cur s) [.x o.a] with loop := ⟨o.len.toNat, getX (cur s) o.a.reg, (cur s).pc + 4, none, [], false⟩ }) := by
  simp only [execLoop, noLoop_ok hl, gate_ok (ready_x ha) (free_nil _), bind_ok, if_neg hn, finish_ok, after]

theorem execLoop_skips (hn : getX (cur s) o.a.reg = 0) {e : Nat}
    (he : bodyEnd s s.sched.core s.sched.lane ((cur s).pc.toNat + 4) o.len.toNat = .ok e) :
    execLoop o s = .next (afterJump s (BitVec.ofNat 48 e) (kill (cur s) [.x o.a])) := by
  simp only [execLoop, noLoop_ok hl, gate_ok (ready_x ha) (free_nil _), bind_ok, if_pos hn, he, finish_ok, afterJump]

theorem execLoop_stops (hn : getX (cur s) o.a.reg = 0) {e : Stop}
    (he : bodyEnd s s.sched.core s.sched.lane ((cur s).pc.toNat + 4) o.len.toNat = .error e) : execLoop o s = takeStop s e := by
  simp only [execLoop, noLoop_ok hl, gate_ok (ready_x ha) (free_nil _), bind_ok, bind_error, if_pos hn, he, finish_error]

end

/-! ### The end of an instruction -/

/-- At the end address of the body a remaining count above 1 goes back to its start. -/
theorem loopStep_back {l : Lane} {next : BitVec 48} (hl : l.loop.len ≠ 0) (hs : l.loop.stop = some next) (hr : 1 < l.loop.rem.toNat) :
    loopStep l next = { l with pc := l.loop.pc, loop := { l.loop with rem := l.loop.rem - 1 } } := by
  rw [loopStep, if_pos ⟨hl, hs⟩, if_pos hr]

/-- At the end address of the body a remaining count of 1 ends the loop. -/
theorem loopStep_ends {l : Lane} {next : BitVec 48} (hl : l.loop.len ≠ 0) (hs : l.loop.stop = some next) (hr : l.loop.rem.toNat ≤ 1) :
    loopStep l next = { l with pc := next, loop := LoopState.reset } := by
  rw [loopStep, if_pos ⟨hl, hs⟩, if_neg (Nat.not_lt.2 hr)]

theorem loopStep_on {l : Lane} {next : BitVec 48} (h : l.loop.len = 0 ∨ l.loop.stop ≠ some next) :
    loopStep l next = { l with pc := next } := by
  rw [loopStep, if_neg (fun hb => h.elim hb.1 fun hne => hne hb.2)]

/-- An instruction issued in a body sets the body's end address to what the length rule finds; outside a body it has none (R99). -/
theorem readied_stop (s : State) (c l n w : Nat) :
    ((laneOf s c l).loop.len = 0 → (laneOf (readied s c l n w) c l).loop.stop = (laneOf s c l).loop.stop)
    ∧ ((laneOf s c l).loop.len ≠ 0 → (laneOf (readied s c l n w) c l).loop.stop
        = (peekEnd s c l (laneOf s c l).loop.pc.toNat (laneOf s c l).loop.len).map (BitVec.ofNat 48)) := by
  constructor
  · intro h
    rw [readied_of_no_loop h]
    rfl
  · intro h
    have hfocus (t : State) : laneOf (focusOn t c l w) c l = laneOf t c l := rfl
    simp only [readied, if_neg h, hfocus, laneOf_setLane_same, withStop]

/-- Settles O9: LOOP by its count, the end of an instruction by where the loop stands, and the end address as its issue finds it. -/
theorem loopInstruction : Obligations.LoopInstruction := by
  refine ⟨fun s o hl ha => ⟨execLoop_enters hl ha, fun hn e => execLoop_skips hl ha hn, fun hn he => ?fetchFault⟩,
    fun l n => ⟨?instcnt, ?back, ?ends, ?on⟩, readied_stop⟩
  case fetchFault => exact (execLoop_stops hl ha hn he).trans (takeStop_fault s _ _)
  case instcnt => exact loopStep_instcnt (counted l) _
  case back =>
    intro hl hs hr
    rw [retire, loopStep_back (l := counted l) hl hs hr]
    exact ⟨rfl, rfl⟩
  case ends =>
    intro hl hs hr
    rw [retire, loopStep_ends (l := counted l) hl hs hr]
    exact ⟨rfl, rfl, rfl, rfl⟩
  case on =>
    intro h
    rw [retire, loopStep_on (l := counted l) h]
    exact ⟨rfl, rfl⟩

/-! ### The end of a firing (R14, R24, R102) -/

theorem laneOf_evalActors (s : State) (c d l : Nat) : laneOf (evalActors s c) d l = laneOf s d l := by
  unfold evalActors
  dsimp only
  split
  · rfl
  · exact laneOf_onCore_lanes (by intro; rfl) s c d l

theorem laneOf_endFiring (s : State) (c l d m : Nat) : laneOf (endFiring s c l) d m = laneOf s d m := by
  have hslot : laneOf (onCore s c fun k => releaseSlot k l) d m = laneOf s d m := laneOf_onCore_lanes (by intro; rfl) s c d m
  unfold endFiring
  dsimp only
  split
  · rw [laneOf_evalActors, laneOf_onCore_lanes (by intro; rfl), hslot]
  · exact hslot

theorem laneOf_onTask (s : State) (n : Nat) (f : Task → Task) (c l : Nat) : laneOf (onTask s n f) c l = laneOf s c l := by
  unfold onTask
  split <;> rfl

/-- A Draining lane without a firing is Free once its registers are full, and Draining until then. -/
theorem drain_ended {s : State} {c l : Nat} (hs : (laneOf s c l).status = .draining) (hk : (laneOf s c l).firing.kind = .none) :
    (laneOf (drain s c l) c l).firing.kind = .none ∧ (laneOf (drain s c l) c l).status =
      if (laneOf s c l).marks.xfull ||| 1 = BitVec.allOnes 32 ∧ (laneOf s c l).marks.vfull = BitVec.allOnes 32
        then LaneStatus.free else LaneStatus.draining := by
  have hfull : ((laneOf s c l).status == .draining && (laneOf s c l).marks.xfull ||| 1 == BitVec.allOnes 32
      && (laneOf s c l).marks.vfull == BitVec.allOnes 32) = true
      ↔ (laneOf s c l).marks.xfull ||| 1 = BitVec.allOnes 32 ∧ (laneOf s c l).marks.vfull = BitVec.allOnes 32 := by
    simp [hs]
  unfold drain
  dsimp only
  by_cases h : (laneOf s c l).marks.xfull ||| 1 = BitVec.allOnes 32 ∧ (laneOf s c l).marks.vfull = BitVec.allOnes 32
  · rw [if_pos (hfull.2 h), if_pos h, laneOf_setLane_same]
    exact ⟨rfl, rfl⟩
  · rw [if_neg (mt hfull.1 h), if_neg h]
    exact ⟨hk, hs⟩

/-- A lane whose firing has ended by DONE: Draining, with what its join counter and its results still need (R102, R171). -/
def firingEnded (x : Lane) : Lane :=
  { x with status := .draining, wait := none, loop := LoopState.reset,
           firing := { Firing.reset with domain := x.firing.domain, join := x.firing.join, launch := x.firing.launch } }

/-- DONE drains the lane after what its firing leaves behind, which changes no lane. -/
theorem doneFiring_eq (s : State) (c l : Nat) : ∃ u, doneFiring s c l = drain (setLane u c l (firingEnded (laneOf s c l))) c l := by
  unfold doneFiring
  dsimp only
  split
  · rw [laneOf_onTask, laneOf_endFiring]
    exact ⟨_, rfl⟩
  · rw [laneOf_endFiring]
    exact ⟨_, rfl⟩

/-- The lane of a firing that is done has none, and is Free or drains by the registers that it has (R24, R102). -/
theorem laneOf_doneFiring (s : State) (c l : Nat) :
    (laneOf (doneFiring s c l) c l).firing.kind = .none ∧ (laneOf (doneFiring s c l) c l).status =
      if (laneOf s c l).marks.xfull ||| 1 = BitVec.allOnes 32 ∧ (laneOf s c l).marks.vfull = BitVec.allOnes 32
        then LaneStatus.free else LaneStatus.draining := by
  obtain ⟨u, hu⟩ := doneFiring_eq s c l
  have hlane : laneOf (setLane u c l (firingEnded (laneOf s c l))) c l = firingEnded (laneOf s c l) := laneOf_setLane_same _ _ _ _
  have h := drain_ended (congrArg Lane.status hlane) (congrArg (·.firing.kind) hlane)
  rw [hlane] at h
  rw [hu]
  exact h

/-- DONE ends the firing, whether or not it is stepped: a stepped one's packet touches no lane (R220). -/
theorem doneOp_lane (s : State) (n : Nat) : ∃ t, doneOp n s = .next t
    ∧ laneOf t s.sched.core s.sched.lane
      = laneOf (doneFiring (after s n (cur s)) s.sched.core s.sched.lane) s.sched.core s.sched.lane := by
  refine ⟨_, rfl, ?_⟩
  dsimp only
  split
  · exact laneOf_sendPacket _ _ _ _ _ _
  · rfl

theorem doneOp_ends (s : State) (n : Nat) : ∃ t, doneOp n s = .next t ∧ (laneOf t s.sched.core s.sched.lane).firing.kind = .none
    ∧ (laneOf t s.sched.core s.sched.lane).status =
      if (cur s).marks.xfull ||| 1 = BitVec.allOnes 32 ∧ (cur s).marks.vfull = BitVec.allOnes 32
        then LaneStatus.free else LaneStatus.draining := by
  obtain ⟨t, ht, hlane⟩ := doneOp_lane s n
  have hmarks : (laneOf (after s n (cur s)) s.sched.core s.sched.lane).marks = (cur s).marks :=
    (congrArg Lane.marks (cur_setCur s _)).trans (retire_marks n (cur s))
  have h := laneOf_doneFiring (after s n (cur s)) s.sched.core s.sched.lane
  rw [hmarks] at h
  rw [← hlane] at h
  exact ⟨t, ht, h⟩

/-- Settles O10: the words are those of the encoder, NOP is the operation that changes nothing, and DONE drains its lane. -/
theorem doneAndNop : Obligations.DoneAndNop := by
  refine ⟨rfl, rfl, rfl, rfl, fun s => ⟨laneOp_ok rfl, laneOp_ok rfl, ?_⟩⟩
  rintro i (rfl | rfl)
  · exact doneOp_ends s 4
  · exact doneOp_ends s 2

end Sys2Proof.Machine
end

section
/-! O11: TRAP, BRK and the taking of a fault (R103, R104, R211, R213 to R215, R217, R331). -/

namespace Sys2Proof.Machine
open Sys2Proof.Safety

theorem trapAndBreak_hold : Claims.TrapAndBreak := fun _ o _ =>
  ⟨fun h => execTrap_freezes h o, fun h => execTrap_deferred h o, rfl, rfl⟩

/-! ### The lane-state block (R23) -/

theorem statusCode_lt (t : LaneStatus) : statusCode t < 8 := by cases t <;> decide

theorem kindCode_lt (k : FiringKind) : kindCode k < 8 := by cases k <;> decide

/-- The block begins with the PC, nine bits on the firing, and the status. -/
theorem laneState_low (l : Lane) : ∃ m < 2 ^ 9,
    (laneState l).toNat % 2 ^ 60 = l.pc.toNat + m * 2 ^ 48 + statusCode l.status * 2 ^ 57 := by
  have hpc := l.pc.isLt
  have hkind := kindCode_lt l.firing.kind
  have hspec := l.firing.spec.toNat_lt
  have haged := l.aged.toNat_lt
  have hstatus := statusCode_lt l.status
  refine ⟨kindCode l.firing.kind + l.firing.cls % 4 * 2 ^ 3 + l.firing.prio % 4 * 2 ^ 5 + l.firing.spec.toNat * 2 ^ 7
    + l.aged.toNat * 2 ^ 8, by omega, ?_⟩
  unfold laneState
  rw [BitVec.toNat_ofNat]
  omega

theorem bits_laneState_pc (l : Lane) : bits (laneState l).toNat 0 48 = l.pc.toNat := by
  obtain ⟨m, -, hlow⟩ := laneState_low l
  have hpc := l.pc.isLt
  unfold bits
  omega

theorem bits_laneState_status (l : Lane) : bits (laneState l).toNat 57 3 = statusCode l.status := by
  obtain ⟨m, hm, hlow⟩ := laneState_low l
  have hpc := l.pc.isLt
  have hstatus := statusCode_lt l.status
  unfold bits
  omega

/-! ### Freezing (R213 to R215) -/

/-- The lane is Blocked with its packet until its last result has arrived (R213). -/
def freezePending (x : Lane) (p : Packet) : Lane :=
  { x with status := .blocked, wait := keptWait x, waitCount := 0, frz := { x.frz with pending := some p } }

section
variable {s : State} {c l : Nat} {p : Packet} (hs : (laneOf s c l).status ≠ .frozen) (hp : (laneOf s c l).frz.pending = none)
include hs hp

theorem freeze_without_results (hr : (laneOf s c l).results = []) :
    freeze s c l p = sendPacket (setLane s c l (frozen (laneOf s c l))) c false p := by
  simp only [freeze, beq_false_of_ne hs, hp, hr, Option.isSome_none, List.isEmpty_nil, Bool.false_eq_true, if_false, if_true]

theorem freeze_with_results (hr : (laneOf s c l).results ≠ []) :
    freeze s c l p = setLane s c l (freezePending (laneOf s c l) p) := by
  simp only [freeze, beq_false_of_ne hs, hp, List.isEmpty_eq_false_iff.2 hr, Option.isSome_none, Bool.false_eq_true, if_false,
    freezePending]

end

theorem sendPacket_faultSeq (s : State) (c : Nat) (p : Packet) :
    (coreOf (sendPacket s c false p) c).ctl.faultSeq = (coreOf s c).ctl.faultSeq + 1 := by
  unfold sendPacket
  dsimp only
  rw [coreOf_dueEvent, coreOf_onDie, coreOf_onCore_same]
  rfl

theorem frozen_frame (x : Lane) : (frozen x).frame.regs = x.regs ∧ bits (frozen x).frame.st.toNat 0 48 = x.pc.toNat
    ∧ bits (frozen x).frame.st.toNat 57 3 = 3 :=
  ⟨rfl, bits_laneState_pc _, bits_laneState_status _⟩

/-! ### Taking a fault -/

/-- The packet of a fault at the current instruction, as its lane holds it (R214). -/
def faultPacket (s : State) (code : FaultCode) (addr : X) : Packet :=
  packetFor s s.sched.core s.sched.lane code addr s.sched.bits

theorem takeFault_deferred {s : State} {code : FaultCode} (h : deferrable (cur s) code = true) (addr : X) : takeFault s code addr =
    setCur s { blocked (cur s) .earliest with frz := { (cur s).frz with deferred := some code } } := by
  simp only [takeFault, h, if_true]

section
variable {s : State} {code : FaultCode} (hd : deferrable (cur s) code = false) (hs : (cur s).status ≠ .frozen)
  (hp : (cur s).frz.pending = none) (addr : X)
include hd

theorem takeFault_freezes :
    takeFault s code addr = freeze s s.sched.core s.sched.lane (faultPacket s code addr) := by
  simp only [takeFault, hd, Bool.false_eq_true, if_false, faultPacket]

include hs hp

theorem takeFault_without_results (hr : (cur s).results = []) : takeFault s code addr
    = sendPacket (setCur s (frozen (cur s))) s.sched.core false (faultPacket s code addr) :=
  (takeFault_freezes hd addr).trans (freeze_without_results hs hp hr)

theorem takeFault_with_results (hr : (cur s).results ≠ []) : takeFault s code addr
    = setCur s (freezePending (cur s) (faultPacket s code addr)) :=
  (takeFault_freezes hd addr).trans (freeze_with_results hs hp hr)

/-- The lane of a fault that is not deferred: Frozen, or Blocked until its results have arrived. -/
theorem cur_takeFault : cur (takeFault s code addr)
    = if (cur s).results = [] then frozen (cur s) else freezePending (cur s) (faultPacket s code addr) := by
  split
  · next hr =>
    rw [takeFault_without_results hd hs hp addr hr]
    exact (laneOf_sendPacket _ _ _ _ _ _).trans (cur_setCur s _)
  · next hr => rw [takeFault_with_results hd hs hp addr hr, cur_setCur]

end

theorem faultEntry_holds : Claims.FaultEntry := by
  intro s code addr l c d t
  refine ⟨fun h => takeFault_deferred h addr, fun hd hs hp => ?_⟩
  have hcur : cur t = _ := cur_takeFault hd hs hp addr
  refine ⟨takeFault_mem s code addr, ?regs, ?pc, ?marks, ?instcnt,
    fun e m h => laneOf_takeFault_other s code addr (h.imp Ne.symm Ne.symm), fun hr => ?frozen, fun hr => ?pending⟩
  case regs | pc | marks | instcnt =>
    rw [hcur]
    split <;> rfl
  case frozen =>
    have ht : t = _ := takeFault_without_results hd hs hp addr hr
    obtain ⟨hregs, hpc, hstatus⟩ := frozen_frame l
    obtain ⟨-, -, hwait, hseq⟩ := freezes s c s.sched.lane l (faultPacket s code addr)
    rw [if_pos hr] at hcur
    refine ⟨by rw [hcur]; rfl, hcur ▸ hregs, hcur ▸ hpc, hcur ▸ hstatus, ?_,
      _, ht ▸ hwait, rfl, rfl, rfl, rfl, rfl, rfl, hseq, rfl, rfl, rfl, rfl⟩
    rw [ht, sendPacket_faultSeq]
    exact congrArg (·.faultSeq + 1) (coreOf_setLane_ctl s c _ _ c)
  case pending =>
    have ht : t = _ := takeFault_with_results hd hs hp addr hr
    rw [if_neg hr] at hcur
    rw [hcur]
    refine ⟨rfl, rfl, ?_, _, rfl, rfl, rfl, rfl⟩
    rw [ht]
    rfl

/-- Settles O11: TRAP and BRK as they are, and a fault that is not deferred by whether results are outstanding: the lane's frame and its
packet at once, or its packet kept until the last result. -/
theorem takingFaults : Obligations.TakingFaults := ⟨trapAndBreak_hold, faultEntry_holds⟩

end Sys2Proof.Machine
end

section
/-! O13: SYSR, SYSW and ENRD of the registers of the table (R105 to R107, R216, R444). -/

namespace Sys2Proof.Machine
open Sys2Proof.Safety

/-! ### SYSR (R105 to R107) -/

section
variable {s : State} {o : SysrOp} (hg : guardOn (cur s) o.guard = true) (hd : XFree (cur s) o.d)
include hg hd

/-- SYSR of a register that is not metered completes with the value that it has once its clock is sampled. -/
theorem execSysr_reads {n : Nat} (ha : sysAllowed s n = .ok ()) (hn : o.num.toNat = n) (hm : meterRead s n = none) {v w : X} {t : State}
    (hs : sysRead s n = some w) (ht : sampleClocks s n = t) (hv : sysRead t n = some v) :
    execSysr o s = .next (after t 8 (putX (cur t) o.d v)) := by
  subst hn ht
  refine (stateOp_ok ?_).trans (congrArg _ (after_setCur _ 8 _))
  simp only [ha, need, hs, hm, hv, hg, Option.isSome_some, Bool.true_or, Bool.not_true, Bool.false_eq_true, if_true, if_false, bind_ok,
    gate_ok (ready_nil _) (free_x hd), Option.getD_some]

/-- SYSR of a metered register is a long-latency producer of its value. -/
theorem execSysr_meters {n : Nat} (hn : o.num.toNat = n) (hlow : n < 0x800) {v : X} (hm : meterRead s n = some v) {t : State}
    (ht : sampleClocks s n = t) :
    let u := produce t ⟨.x o.d, v.setWidth 1024, false, none, s.sched.bits, 0, siteOf s⟩
    execSysr o s = .next (after u 8 (cur u)) := by
  subst hn ht
  refine stateOp_ok ?_
  simp only [sysAllowed_low hlow, need, hm, hg, Option.isSome_some, Bool.or_true, Bool.not_true, Bool.false_eq_true, if_true, if_false,
    bind_ok, gate_ok (ready_nil _) (free_x hd)]

end

theorem readSystemRegisters_hold : Claims.ReadSystemRegisters := by
  intro s o hd hg l reads
  have low {n : Nat} (hn : n < 0x800) := execSysr_reads hg hd (sysAllowed_low hn)
  refine ⟨fun hn => ?id, fun hn => ?vcore, fun hn => ?firing, fun hn => ?instcnt, fun hn => ?sr, fun hn => ?freq, fun hn => ?launch,
    fun hn => ?gtime, fun hn => ?cycles, fun hsup => ?sup⟩
  case sup =>
    have sup {n : Nat} := execSysr_reads hg hd (sysAllowed_sup n hsup)
    refine ⟨fun hn => ?_, fun hn => ?_, fun hn => ?_, fun hn => ?_, fun hn => ?_, fun hn => ?_, fun hn => ?_, fun hn => ?_, fun hn => ?_,
      fun hn => ?_⟩
    all_goals exact sup (congrArg BitVec.toNat hn) rfl rfl rfl rfl
  all_goals exact low (by decide) (congrArg BitVec.toNat hn) rfl rfl rfl rfl

/-! ### SYSW of the fault queue's registers (R216) -/

/-- The die with a register of its fault queue written. -/
def fpqWritten (n : Nat) (v : X) (x : Die) : Die :=
  match n with
  | 0x800 => { x with fpqBase := BitVec.ofNat 64 (bits v.toNat 6 13 * 64) }
  | 0x801 => if v = 0 ∨ (List.range 11).any (fun i => v.toNat == 2 ^ i) then { x with fpqSize := v.toNat } else x
  | _ => { x with fpqHead := v.toNat % 2 ^ 32 }

theorem fpqWritten_fpqWait (n : Nat) (v : X) (x : Die) : (fpqWritten n v x).fpqWait = x.fpqWait := by
  unfold fpqWritten
  split
  · rfl
  · split <;> rfl
  · rfl

/-- Without a packet that waits, the write makes nothing due. -/
theorem writeFpq_of_no_packet {s : State} (h : (dieOf s (dieNo s.sched.core)).fpqWait = []) (n : Nat) (v : X) :
    writeFpq s n v = onDie s (dieNo s.sched.core) (fpqWritten n v) := by
  have hdef : writeFpq s n v = if (dieOf (onDie s (dieNo s.sched.core) (fpqWritten n v)) (dieNo s.sched.core)).fpqWait.isEmpty
      then onDie s (dieNo s.sched.core) (fpqWritten n v)
      else dueEvent (onDie s (dieNo s.sched.core) (fpqWritten n v)) (.faultRingWrite (dieNo s.sched.core)) := rfl
  rw [hdef, dieOf_onDie_same, fpqWritten_fpqWait, h]
  rfl

theorem and_fpqBase_mask (v : X) : BitVec.ofNat 64 (bits v.toNat 6 13 * 64) = v &&& 0x7FFC0 := by
  have hmask : (0x7FFC0 : Nat) = (2 ^ 13 - 1) <<< 6 := rfl
  have hfield : bits v.toNat 6 13 * 64 = v.toNat &&& 0x7FFC0 := by
    rw [hmask, ← Nat.shiftLeft_eq (b := 6)]
    apply Nat.eq_of_testBit_eq
    intro i
    rw [Nat.testBit_and, Nat.testBit_shiftLeft, Nat.testBit_shiftLeft, Nat.testBit_two_pow_sub_one, bits, Nat.testBit_mod_two_pow,
      Nat.testBit_div_two_pow]
    by_cases h : 6 ≤ i
    · simp [h, Bool.and_comm]
    · simp [h]
  apply BitVec.eq_of_toNat_eq
  rw [BitVec.toNat_ofNat, hfield]
  exact Nat.mod_eq_of_lt (v &&& 0x7FFC0).isLt

theorem fpqSize_allowed_iff (v : X) : (v = 0 ∨ (List.range 11).any (fun i => v.toNat == 2 ^ i) = true)
    ↔ (v = 0 ∨ ∃ i, i ≤ 10 ∧ v.toNat = 2 ^ i) := by
  simp [Nat.lt_succ_iff]

section
variable {s : State} {o : SyswOp} (hsup : isSup s.sched.core = true) (hg : guardOn (cur s) o.guard = true)
  (hspec : (cur s).firing.spec = false) (ha : XReady (cur s) o.a)
include hsup hg hspec ha

theorem execSysw_fpq {n : Nat} (hn : o.num.toNat = n) (hq : 0x800 ≤ n ∧ n ≤ 0x802) {t : State}
    (ht : writeFpq (setCur s (kill (cur s) [.x o.a])) n (getX (cur s) o.a.reg) = t) : execSysw o s = .next (after t 8 (cur t)) := by
  subst hn ht
  refine stateOp_ok ?_
  have h4 : o.num.toNat ≠ 0x004 := by omega
  simp only [sysAllowed_sup _ hsup, need, hq, and_self, or_true, decide_true, if_true, hg, Bool.not_true, Bool.false_eq_true, if_false,
    irrevocable, await, hspec, Bool.not_false, gate_ok (ready_x ha) (free_nil _), h4, bind_ok]

/-- A write of a queue register changes the die's register, and the lane only by its retiring (R216). -/
theorem execSysw_writes {n : Nat} (hn : o.num.toNat = n) (hq : 0x800 ≤ n ∧ n ≤ 0x802)
    (hw : (dieOf s (dieNo s.sched.core)).fpqWait = []) : ∃ t, execSysw o s = .next t
      ∧ dieOf t (dieNo s.sched.core) = fpqWritten n (getX (cur s) o.a.reg) (dieOf s (dieNo s.sched.core))
      ∧ cur t = retire 8 (kill (cur s) [.x o.a]) ∧ t.mem = s.mem := by
  have hexec := execSysw_fpq hsup hg hspec ha hn hq (writeFpq_of_no_packet (s := setCur s _) hw n _)
  refine ⟨_, hexec, dieOf_onDie_same _ _ _, (cur_setCur _ _).trans ?_, rfl⟩
  rw [cur_onDie, cur_setCur]

end

/-! ### ENRD (R444) -/

theorem enrdValue_eq (s : State) (x : Account) (sel : Fin 3)
    (h : sel = 1 → x.allow ≠ 0 → x.allow.toNat * 1000 - x.charged.toNat < 2 ^ 64) :
    enrdValue s x sel.val = if sel = 0 then x.charged
      else if sel = 1 then (if x.allow = 0 then BitVec.allOnes 64 else BitVec.ofNat 64 (x.allow.toNat * 1000 - x.charged.toNat))
      else x.pwr.setWidth 64 := by
  match sel with
  | 0 => rfl
  | 2 => rfl
  | 1 =>
    show (if x.allow = 0 then _ else if x.allow.toNat * 1000 - x.charged.toNat < 2 ^ 64 then _ else _) = if x.allow = 0 then _ else _
    split
    · rfl
    · next h0 => rw [if_pos (h rfl h0)]

section
variable {s : State} {o : EnrdOp} (hg : guardOn (cur s) o.guard = true) (hd : XFree (cur s) o.d)
include hg hd

theorem execEnrd_no_launch (h : launchOf s s.sched.core (cur s) = none) :
    execEnrd o s = .next (after s 8 (putX (cur s) o.d (BitVec.ofNat 64 (2 ^ 63)))) := by
  refine (guardedStateOp_on hg).trans ((stateOp_ok ?_).trans (congrArg _ (after_setCur s 8 _)))
  simp only [gate_ok (ready_nil _) (free_x hd), bind_ok, h]

theorem execEnrd_launch {x : Nat × Launch} (h : launchOf s s.sched.core (cur s) = some x) : execEnrd o s
    = .next (after (draw s) 8 (putX (cur s) o.d (enrdValue s (accountOf s x.2.account) o.sel.val))) := by
  refine (guardedStateOp_on hg).trans ((stateOp_ok ?_).trans (congrArg _ (after_setCur (draw s) 8 _)))
  simp only [gate_ok (ready_nil _) (free_x hd), bind_ok, h]

end

theorem metersAndQueues_hold : Claims.MetersAndQueues := by
  intro s
  refine ⟨fun o hg hd => ?energy, fun o hg hd hn => ?temperature, fun o hsup hg hspec ha hw e => ?queue,
    fun o hg hd => ⟨execEnrd_no_launch hg hd, fun x hx hrest => ?enrd⟩⟩
  case energy =>
    rintro (hn | hn) <;> rw [hn]
    · exact execSysr_meters hg hd (congrArg BitVec.toNat hn) (by decide) rfl rfl
    · exact execSysr_meters hg hd (congrArg BitVec.toNat hn) (by decide) rfl rfl
  case temperature => exact execSysr_meters hg hd (congrArg BitVec.toNat hn) (by decide) rfl rfl
  case queue =>
    rintro (⟨hn, rfl⟩ | ⟨hn, rfl⟩ | ⟨hn, rfl⟩)
    · rw [← and_fpqBase_mask]
      exact execSysw_writes hsup hg hspec ha (congrArg BitVec.toNat hn) (by decide) hw
    · rw [← if_congr (fpqSize_allowed_iff _) rfl rfl]
      exact execSysw_writes hsup hg hspec ha (congrArg BitVec.toNat hn) (by decide) hw
    · exact execSysw_writes hsup hg hspec ha (congrArg BitVec.toNat hn) (by decide) hw
  case enrd =>
    refine ⟨_, execEnrd_launch hg hd hx, ?_, rfl⟩
    rw [enrdValue_eq s _ _ hrest]
    exact cur_setCur _ _

/-- Settles O13: SYSR by whether its register is metered, a queue register by what its write does to the die, and ENRD by its launch. -/
theorem systemRegisters : Obligations.SystemRegisters := ⟨readSystemRegisters_hold, metersAndQueues_hold⟩

end Sys2Proof.Machine
end

section
/-! O17: element-wise arithmetic (R113, R110, R51). An instruction whose element function takes no draw writes its value to every active
element. -/

namespace Sys2Proof.Machine
open Sys2Proof.Safety

/-! ### Instructions that take no draw -/

/-- A map over the elements that takes no draw gives every active element its value (R47). -/
theorem perElement_of_vecMap {i : Instr} {n : Nat} {srcs : List Opnd} {d : Reg} {W : Nat} {act : Lane → P} {value : Lane → Nat → Nat}
    (hi : ∀ s, exec i s
      = laneOp n (vecLane srcs d fun l => vecMap W (act l) l.regs.v[d] l.sr fun k r => (value l k, r)) s) :
    PerElement i n srcs d W act value :=
  fun _ hs hd => ⟨_, exec_vecLane_pure hi hs hd (vecMap_pure_sr _ _ _ _ _), fun _ hk => elem_vecMap_pure _ hk⟩

section
variable {i : Instr} {n : Nat} {g : VArgs}

/-- An element function that, outside .sr, gives a value and leaves the generator alone. -/
theorem elementWise_of_elemFn {f : ElemFn} {value : List Nat → Nat}
    (hi : ∀ s, exec i s = laneOp n (vecLane (g.srcs.map .v) g.d (elemResult f g)) s)
    (hf : g.rnd ≠ .sr → ∀ xs r, f xs r = (value xs, r)) : ElementWise i n g value := by
  intro hr
  obtain rfl : f = fun xs r => (value xs, r) := funext₂ (hf hr)
  exact perElement_of_vecMap hi

/-- Outside .sr an arithmetic operation takes no draw: it rounds its exact value once, or reduces it modulo 2^W (R80, R113). -/
theorem arith_of_ne_sr (hr : g.rnd ≠ .sr) (fl : List Num → Num) (it : List Int → Int) (xs : List Nat) (r : BitVec 32) :
    arith g fl it xs r = (arithValue g fl it 0 xs, r) := by
  cases h : tyFlt g.ty <;> simp [arith, arithValue, roundStep, takeDraw, hr, h]

theorem elementWise_of_arith {fl : List Num → Num} {it : List Int → Int}
    (hi : ∀ s, exec i s = laneOp n (vecLane (g.srcs.map .v) g.d (elemResult (arith g fl it) g)) s) :
    ElementWise i n g (arithValue g fl it 0) :=
  elementWise_of_elemFn hi fun hr => arith_of_ne_sr hr fl it

end

/-- Settles O17: each instruction maps one arithmetic operation over its elements, and the formats differ in their operands alone. -/
theorem vectorArithmetic : Obligations.VectorArithmetic := by
  refine ⟨?add, ?addX, ?addC, ?sub, ?subX, ?subC, ?mul, ?mulX, ?mulC, ?fma, ?fmaX, ?fms, ?fmsX, ?fnma, ?fnmaX⟩
  case add | sub | mul => exact fun o => elementWise_of_arith (g := argsV2 o) fun _ => rfl
  case addX | subX | mulX => exact fun o => elementWise_of_arith (g := argsX2 o) fun _ => rfl
  case addC | subC | mulC => exact fun o => elementWise_of_arith (g := argsC o) fun _ => rfl
  case fma | fms | fnma => exact fun o => elementWise_of_arith (g := argsV3 o) fun _ => rfl
  case fmaX | fmsX | fnmaX => exact fun o => elementWise_of_arith (g := argsX3 o) fun _ => rfl

end Sys2Proof.Machine
end

section
/-! O19: element functions, signs and orders of vectors (R110, R113 to R115, R119, R121). -/

namespace Sys2Proof.Machine
open Sys2Proof.Safety

/-! ### Functions that round once (R115, R121) -/

/-- Outside .sr VROUND takes no draw (R121). -/
theorem roundE_of_ne_sr {g : VArgs} (hr : g.rnd ≠ .sr) (xs : List Nat) (r : BitVec 32) : roundE g xs r = ((roundE g xs 0).1, r) := by
  cases h : tyFlt g.ty <;> simp [roundE, takeDraw, hr, h]

theorem vectorFunctions_hold : Claims.VectorFunctions := by
  refine ⟨?rcp, ?rcpX, ?rsq, ?rsqX, ?exp2, ?exp2X, ?log2, ?log2X, ?round, ?sqrt, ?sqrtX, ?div, ?divX⟩
  case rcp | rcpX | rsq | rsqX | exp2 | exp2X | log2 | log2X => exact fun o => elementWise_of_arith fun _ => rfl
  case round => exact fun o => elementWise_of_elemFn (fun _ => rfl) roundE_of_ne_sr
  case sqrt => exact fun o => longV_of_vecLong (g := argsV1 o) fun _ => rfl
  case sqrtX => exact fun o => longV_of_vecLong (g := argsX1 o) fun _ => rfl
  case div => exact fun o => longV_of_vecLong (g := argsV2 o) fun _ => rfl
  case divX => exact fun o => longV_of_vecLong (g := argsX2 o) fun _ => rfl

/-! ### Signs (R113) -/

/-- Adding the top bit of an `n + 1`-bit number without a carry out changes that bit alone. -/
theorem add_two_pow_mod_eq_xor {a n : Nat} (ha : a < 2 ^ (n + 1)) : (a + 2 ^ n) % 2 ^ (n + 1) = a ^^^ 2 ^ n := by
  apply Nat.eq_of_testBit_eq
  intro i
  rw [Nat.testBit_mod_two_pow, Nat.testBit_xor, Nat.testBit_two_pow, Nat.add_comm a]
  rcases lt_trichotomy i n with h | rfl | h
  · simp [Nat.testBit_two_pow_add_gt h, h.ne', Nat.lt_succ_of_lt h]
  · simp [Nat.testBit_two_pow_add_eq]
  · simp [Nat.testBit_lt_two_pow (ha.trans_le (Nat.pow_le_pow_right Nat.two_pos h)), h.ne, Nat.not_lt.2 (Nat.succ_le_of_lt h)]

theorem tyVal_of_flt {t : ElemTy} {f : Flt} (h : tyFlt t = some f) : tyVal t = f.width := by
  cases t <;> cases h <;> rfl

theorem tyVal_of_int {t : ElemTy} (h : tyFlt t = none) : tyVal t = tyW t := by
  cases t <;> cases h <;> rfl

theorem elemInt_mod (t : ElemTy) (c : Nat) : elemInt t (c % 2 ^ tyW t) = elemInt t c := by
  simp [elemInt, sgn]

/-- A floating negation changes the sign bit alone, but for a NaN. -/
theorem negE_flt {g : VArgs} {f : Flt} (h : tyFlt g.ty = some f) (xs : List Nat) (r : BitVec 32) : negE g xs r
    = (if (decodeFlt f (arg xs 0 % 2 ^ f.width)).isNan then nanCode f else (arg xs 0 % 2 ^ f.width) ^^^ 2 ^ (f.width - 1), r) := by
  have hw : f.width = f.width - 1 + 1 := by unfold Flt.width; omega
  have hflip : (arg xs 0 % 2 ^ f.width + 2 ^ (f.width - 1)) % 2 ^ f.width = (arg xs 0 % 2 ^ f.width) ^^^ 2 ^ (f.width - 1) := by
    have ha : arg xs 0 % 2 ^ f.width < 2 ^ (f.width - 1 + 1) := hw ▸ Nat.mod_lt _ (Nat.two_pow_pos f.width)
    rw [← add_two_pow_mod_eq_xor ha, ← hw]
  simp only [negE, pureFn, h, tyVal_of_flt h, hflip]

theorem negE_int {g : VArgs} (h : tyFlt g.ty = none) (xs : List Nat) (r : BitVec 32) :
    negE g xs r = (wrap (tyW g.ty) (0 - elemInt g.ty (arg xs 0)), r) := by
  simp only [negE, pureFn, h, tyVal_of_int h, elemInt_mod, zero_sub]

/-- A floating absolute value clears the sign bit alone, but for a NaN. -/
theorem absE_flt {g : VArgs} {f : Flt} (h : tyFlt g.ty = some f) (xs : List Nat) (r : BitVec 32) : absE g xs r
    = (if (decodeFlt f (arg xs 0 % 2 ^ f.width)).isNan then nanCode f else arg xs 0 % 2 ^ (f.width - 1), r) := by
  have hmag : arg xs 0 % 2 ^ f.width % 2 ^ (f.width - 1) = arg xs 0 % 2 ^ (f.width - 1) :=
    Nat.mod_mod_of_dvd _ (Nat.pow_dvd_pow 2 (Nat.sub_le f.width 1))
  simp only [absE, pureFn, h, tyVal_of_flt h, hmag]

theorem absE_int {g : VArgs} (h : tyFlt g.ty = none) (xs : List Nat) (r : BitVec 32) :
    absE g xs r = (wrap (tyW g.ty) (elemInt g.ty (arg xs 0)).natAbs, r) := by
  simp only [absE, pureFn, h, tyVal_of_int h, elemInt_mod]

/-! ### Orders (R114, R119) -/

theorem elementWise_of_pureFn {i : Instr} {n : Nat} {g : VArgs} {f : List Nat → Nat}
    (hi : ∀ s, exec i s = laneOp n (vecLane (g.srcs.map .v) g.d (elemResult (pureFn f) g)) s) : ElementWise i n g f :=
  elementWise_of_elemFn hi fun _ _ _ => rfl

theorem vectorSignAndOrder_hold : Claims.VectorSignAndOrder := by
  refine ⟨?neg, ?negX, ?abs, ?absX, ?min, ?minX, ?max, ?maxX, ?minn, ?minnX, ?maxn, ?maxnX, ?clamp⟩
  case neg | negX =>
    intro o
    refine elementWise_of_elemFn (f := negE _) (fun _ => rfl) fun _ xs r => ?_
    dsimp only
    cases h : tyFlt o.ty with
    | some f => exact negE_flt h xs r
    | none => exact negE_int h xs r
  case abs | absX =>
    intro o
    refine elementWise_of_elemFn (f := absE _) (fun _ => rfl) fun _ xs r => ?_
    dsimp only
    cases h : tyFlt o.ty with
    | some f => exact absE_flt h xs r
    | none => exact absE_int h xs r
  case min | minX | max | maxX | minn | minnX | maxn | maxnX | clamp => exact fun o => elementWise_of_pureFn fun _ => rfl

/-- Settles O19: the functions round once and take no draw outside .sr, or are long-latency; a negation adds the top bit modulo 2^W, which
changes that bit alone; and the orders are functions of the elements' bits. -/
theorem vectorElementFunctions : Obligations.VectorElementFunctions := ⟨vectorFunctions_hold, vectorSignAndOrder_hold⟩

end Sys2Proof.Machine
end

section
/-! O20: bitwise operations, permutations and moves of elements (R47, R55, R116 to R118, R122 to R126). -/

namespace Sys2Proof.Machine
open Sys2Proof.Safety

/-! ### Bitwise operations, permutations and look-ups (R116, R124, R126) -/

theorem vectorBitwise_holds : Claims.VectorBitwise := by
  refine ⟨?and, ?andX, ?or, ?orX, ?xor, ?xorX, ?shl, ?shlX, ?shr, ?shrX, ?sra, ?sraX, ?perm, ?permX, ?lut, ?lutX⟩
  case and | andX | or | orX | xor | xorX | shl | shlX | shr | shrX | sra | sraX =>
    exact fun o => elementWise_of_pureFn fun _ => rfl
  case perm | permX | lut | lutX => exact fun o => perElement_of_vecMap fun _ => rfl

/-! ### Moves by a predicate (R118, R123, R125) -/

theorem popBelow_eq_activeBelow (p : P) (k : Nat) : popBelow p.toNat k = activeBelow (pbit p) k := by
  induction k with
  | zero => rfl
  | succ k ih => rw [popBelow, ih, bit_toNat, activeBelow_succ, pbit]

/-- Every element has its bit in a predicate (R108). -/
theorem getLsbD_allOnes_of_lt_tyN {t : ElemTy} {k : Nat} (hk : k < tyN t) : (BitVec.allOnes 32).getLsbD k = true := by
  have hN : tyN t ≤ 32 := by cases t <;> decide
  exact BitVec.getLsbD_allOnes.trans (decide_eq_true (hk.trans_le hN))

theorem elem_vecOf {W N : Nat} (h : W * N ≤ 1024) (f : Nat → Nat) {k : Nat} (hk : k < N) : elem W (vecOf W N f) k = f k % 2 ^ W := by
  have hlen : ((List.range N).map f).length = N := by simp
  rw [vecOf, elem_packElems (by rwa [hlen]) (hlen.symm ▸ hk)]
  simp

/-- The values of the elements may be written another way. -/
theorem perElement_congr {i : Instr} {n : Nat} {srcs : List Opnd} {d : Reg} {W : Nat} {act : Lane → P}
    {value value' : Lane → Nat → Nat} (h : PerElement i n srcs d W act value) (hv : ∀ l k, value l k = value' l k) :
    PerElement i n srcs d W act value' :=
  funext₂ hv ▸ h

/-! ### Elements into x registers (R122) -/

theorem extracted_eq (t : ElemTy) {e : Nat} (he : e < 2 ^ tyW t) : extracted t e
    = if t = .i32 then (BitVec.ofNat 32 e).signExtend 64 else BitVec.ofNat 64 (e % 2 ^ tyVal t) := by
  unfold extracted
  split
  · next h =>
    subst h
    rw [sgn_eq_toInt (n := 32) he, BitVec.signExtend]
  · rfl

/-! ### Comparison (R117) -/

/-- Bit `k` of packed bits is the `k`-th of them, and 0 past the last. -/
theorem getLsbD_packBits {l : List Bool} {n k : Nat} (hk : k < n) :
    (BitVec.ofNat n (packElems 1 (l.map Bool.toNat))).getLsbD k = (l[k]?).getD false := by
  rw [BitVec.getLsbD_ofNat, decide_eq_true hk, Bool.true_and]
  rcases lt_or_ge k l.length with h | h
  · have hbit := bits_packElems 1 (l.map Bool.toNat) (k := k) (by simpa using h)
    rw [Nat.testBit_eq_decide_div_mod_eq, List.getElem?_eq_getElem h]
    simp only [bits, one_mul, pow_one, List.getElem_map] at hbit
    rw [hbit]
    cases l[k] <;> rfl
  · have hlt : packElems 1 (l.map Bool.toNat) < 2 ^ k :=
      (packElems_lt 1 _).trans_le (Nat.pow_le_pow_right Nat.two_pos (by simpa using h))
    rw [Nat.testBit_lt_two_pow hlt, List.getElem?_eq_none h]
    rfl

theorem getLsbD_vcmpMask (t : ElemTy) (c : Cond) (a b : V) {k : Nat} (hk : k < 32) : (vcmpMask t c a b).getLsbD k
    = (decide (k < tyN t) && vcond t c (elem (tyW t) a k) (elem (tyW t) b k)) := by
  have hmask : vcmpMask t c a b = BitVec.ofNat 32 (packElems 1
      (((List.range (tyN t)).map fun i => vcond t c (elem (tyW t) a i) (elem (tyW t) b i)).map Bool.toNat)) := by
    rw [List.map_map]
    rfl
  rw [hmask, getLsbD_packBits hk]
  by_cases h : k < tyN t <;> simp [h]

/-! ### Illegal names (R47, R55) -/

theorem gate_illegal {l : Lane} {srcs : List Opnd} (h : srcs.any (opndIllegal l) = true) (dsts : List Dst) :
    gate l srcs dsts = .error (.fault .illegal 0) :=
  if_pos h

/-- A payload register named outside a handler firing is illegal with the guard on or off, where the operation checks its names too. -/
theorem guardedVec_illegal {s : State} {g : PReg} {srcs : List Opnd} {f : Lane → Except Stop Lane}
    (hs : srcs.any (opndIllegal (cur s)) = true) (hf : f (cur s) = .error (.fault .illegal 0)) :
    guardedVec g srcs f s = .next (takeFault s .illegal 0) := by
  cases hg : guardOn (cur s) g with
  | false => exact guardedVec_off_illegal f hg hs
  | true => exact laneOp_error (e := .fault .illegal 0) ((if_pos hg).trans hf)

theorem execVextr_illegal {s : State} {o : XX2} (h : [Opnd.v o.a, .x o.b].any (opndIllegal (cur s)) = true) :
    execVextr o s = .next (takeFault s .illegal 0) :=
  guardedVec_illegal h (by rw [gate_illegal h]; rfl)

theorem execVcmp_illegal {s : State} {o : VcmpOp} (h : [Opnd.v o.a, .v o.b].any (opndIllegal (cur s)) = true) :
    execVcmp o s = .next (takeFault s .illegal 0) :=
  guardedVec_illegal h (by rw [gate_illegal h]; rfl)

/-! ### The moves -/

theorem vectorMoves_hold : Claims.VectorMoves := by
  refine ⟨fun o => ?sel, fun o => ?splat, fun o => ?ins, fun o => ?iota, fun o => ?slide, fun o => ?comp, fun o => ?expd,
    fun o s => ?extr, fun o s => ?cmp⟩
  case sel => exact perElement_congr (perElement_of_vecMap fun _ => rfl) fun l k => apply_ite (fun a => elem _ (getV l a) k) _ _ _
  case splat | ins | slide => exact perElement_of_vecMap fun _ => rfl
  case iota => exact perElement_congr (perElement_of_vecMap fun _ => rfl) fun l k => popBelow_eq_activeBelow _ k
  case comp =>
    intro s hs hd
    refine ⟨_, exec_vecLane_pure (i := .vcomp o) (fun _ => rfl) hs hd rfl, fun k hk => ?_⟩
    have hplace : ((List.range (1024 / tyW o.ty)).filter fun j => (getP (cur s) o.b.reg).getLsbD j)[k]?
      = onePlace (getP (cur s) o.b.reg) (tyN o.ty) k := rfl
    rw [if_pos (getLsbD_allOnes_of_lt_tyN hk)]
    refine (elem_vecOf (Nat.mul_div_le 1024 _) _ hk).trans ?_
    dsimp only
    rewrite [hplace]
    cases onePlace (getP (cur s) o.b.reg) (tyN o.ty) k <;> rfl
  case expd =>
    exact perElement_congr (perElement_of_vecMap fun _ => rfl) fun l k => congrArg (elem _ (getV l o.a)) (popBelow_eq_activeBelow _ k)
  case extr =>
    intro e x bad
    refine ⟨fun hg hs hd => ?_, fun hg hok => (guardedVec_off _ hg hok : execVextr o s = _), execVextr_illegal⟩
    rw [show x = _ from (extracted_eq o.ty (elem_lt _ _ _)).symm]
    exact execVextr_ready hg hs hd
  case cmp =>
    intro bad
    exact ⟨fun hg hok => (guardedVec_off _ hg hok : execVcmp o s = _), execVcmp_illegal,
      fun hg hs => ⟨_, execVcmp_ready hg hs, fun _ => getLsbD_vcmpMask o.ty o.cond _ _⟩⟩

/-- Settles O20: an element that a move chooses is a function of the sources and takes no draw; counting the one bits below a place is
filtering the places below it; and VEXTR and VCMP are of the shape that its guard switches off. -/
theorem vectorBitsAndMoves : Obligations.VectorBitsAndMoves := ⟨vectorBitwise_holds, vectorMoves_hold⟩

end Sys2Proof.Machine
end

section
/-! The instruction that issues, through the checks of its accesses (R138, R264, R325): caches, translation and the recording of ordered
tasks leave the issuing core, lane and word as they are. -/

namespace Sys2Proof.Machine
open Sys2Proof.Safety

/-- The core and the lane in focus, and the instruction's word. -/
def issuing (s : State) : Nat × Nat × X := (s.sched.core, s.sched.lane, s.sched.bits)

/-- The cores, the steps that are due, and the instruction that issues: what memory, the caches and the directory do not touch. -/
def lanesAndTurns (s : State) : SMap Core × List Turn × Nat × Nat × X := (s.cores, s.sched.agenda, issuing s)

theorem issuing_of_lanesAndTurns {s t : State} (h : lanesAndTurns t = lanesAndTurns s) : issuing t = issuing s :=
  congrArg (·.2.2) h

theorem cores_of_lanesAndTurns {s t : State} (h : lanesAndTurns t = lanesAndTurns s) : t.cores = s.cores := congrArg (·.1) h

theorem agenda_of_lanesAndTurns {s t : State} (h : lanesAndTurns t = lanesAndTurns s) : t.sched.agenda = s.sched.agenda :=
  congrArg (·.2.1) h

/-- A view of the state that every step of a fold keeps is kept by the fold. -/
theorem foldl_keeps {α β : Type} {view : State → β} {f : State → α → State} (hf : ∀ s a, view (f s a) = view s) (l : List α) (s : State) :
    view (l.foldl f s) = view s :=
  List.foldlRecOn l f (motive := fun t => view t = view s) rfl fun t ht a _ => (hf t a).trans ht

/-- A view that both branches keep. -/
theorem ite_keeps {β : Type} {view : State → β} {c : Prop} [Decidable c] {b : β} {s t : State} (hs : view s = b) (ht : view t = b) :
    view (if c then s else t) = b := by
  split
  · exact hs
  · exact ht

/-! ### Memory, caches and the directory -/

@[simp] theorem setTokens_lanesAndTurns (s : State) (d line : Nat) (t : TokenLine) : lanesAndTurns (setTokens s d line t) = lanesAndTurns s := rfl
@[simp] theorem setDirectory_lanesAndTurns (s : State) (line : Nat) (e : DirLine) : lanesAndTurns (setDirectory s line e) = lanesAndTurns s := rfl
@[simp] theorem surrender_lanesAndTurns (s : State) (line d : Nat) : lanesAndTurns (surrender s line d) = lanesAndTurns s := rfl
@[simp] theorem chooseBlock_lanesAndTurns (s : State) (b : Nat) : lanesAndTurns (chooseBlock s b) = lanesAndTurns s := rfl
@[simp] theorem clearCovered_lanesAndTurns (s : State) (ws : List (Nat × Nat)) : lanesAndTurns (clearCovered s ws) = lanesAndTurns s := rfl

@[simp] theorem rawBlocks_lanesAndTurns (s : State) (a n : Nat) : lanesAndTurns (rawBlocks s a n) = lanesAndTurns s :=
  ite_keeps rfl rfl

@[simp] theorem putBytes_lanesAndTurns (s : State) (a n v : Nat) : lanesAndTurns (putBytes s a n v) = lanesAndTurns s := by
  have h : lanesAndTurns (if s.poison.isEmpty then onMem s fun m => memWrite m a n v else
      { onMem s (fun m => memWrite m a n v) with
        poison := s.poison.filter (fun p => !(decide (a ≤ p) && decide (p + (if 2 ^ 45 ≤ a then 4 else 64) ≤ a + n))) })
      = lanesAndTurns s := ite_keeps rfl rfl
  exact ite_keeps ((rawBlocks_lanesAndTurns _ _ _).trans h) h

@[simp] theorem recallOthers_lanesAndTurns (s : State) (keep : Option Nat) (line : Nat) :
    lanesAndTurns (recallOthers s keep line) = lanesAndTurns s :=
  ite_keeps rfl (foldl_keeps (f := fun s d => surrender s line d) (surrender_lanesAndTurns · line ·) _ s)

@[simp] theorem writtenBack_lanesAndTurns (s : State) (line : Nat) : lanesAndTurns (writtenBack s line) = lanesAndTurns s :=
  foldl_keeps (f := fun s d => setTokens s d line { tokensOf s d line with dirty := false }) (fun _ _ => rfl) _ s

@[simp] theorem storeKey_lanesAndTurns (s : State) (a n v : Nat) : lanesAndTurns (storeKey s a n v) = lanesAndTurns s :=
  ite_keeps (ite_keeps (by simp) (by simp)) (by simp)

@[simp] theorem roomL1_lanesAndTurns (s : State) (c line : Nat) : lanesAndTurns (roomL1 s c line) = lanesAndTurns s :=
  ite_keeps rfl rfl

@[simp] theorem roomL2_lanesAndTurns (s : State) (d line : Nat) : lanesAndTurns (roomL2 s d line) = lanesAndTurns s :=
  ite_keeps rfl rfl

@[simp] theorem grantRead_lanesAndTurns (s : State) (d line : Nat) : lanesAndTurns (grantRead s d line) = lanesAndTurns s :=
  ite_keeps rfl (by simp)

@[simp] theorem grantWrite_lanesAndTurns (s : State) (d line : Nat) : lanesAndTurns (grantWrite s d line) = lanesAndTurns s := by
  have h : lanesAndTurns (if (tokensOf s d line).granted then s else roomL2 s d line) = lanesAndTurns s := ite_keeps rfl (by simp)
  simp [grantWrite, h]

@[simp] theorem homeWrite_lanesAndTurns (s : State) (d line : Nat) : lanesAndTurns (homeWrite s d line) = lanesAndTurns s := by
  simp [homeWrite]

@[simp] theorem cacheWrite_lanesAndTurns (s : State) (c line : Nat) : lanesAndTurns (cacheWrite s c line) = lanesAndTurns s := by
  simp [cacheWrite]

@[simp] theorem cacheRead_lanesAndTurns (s : State) (c line : Nat) : lanesAndTurns (cacheRead s c line) = lanesAndTurns s := by
  simp [cacheRead]

@[simp] theorem sliceStore_lanesAndTurns (s : State) (d a n v : Nat) : lanesAndTurns (sliceStore s d a n v) = lanesAndTurns s :=
  ite_keeps (by simp) (by simp)

@[simp] theorem cachePlaces_lanesAndTurns (s : State) (c : Nat) (ps : List (Nat × Place)) :
    lanesAndTurns (cachePlaces s c ps) = lanesAndTurns s :=
  foldl_keeps (fun s e => by
    split
    · exact ite_keeps (cacheRead_lanesAndTurns _ _ _) rfl
    · rfl) ps s

@[simp] theorem promoted_lanesAndTurns (s : State) (prom : Bool) (p : Place) : lanesAndTurns (promoted s prom p) = lanesAndTurns s := by
  unfold promoted
  split
  · exact ite_keeps (writtenBack_lanesAndTurns _ _) rfl
  · rfl

@[simp] theorem hostHolds_lanesAndTurns (s : State) (line : Nat) (h : Bool) : lanesAndTurns (hostHolds s line h) = lanesAndTurns s :=
  ite_keeps rfl rfl

@[simp] theorem hostWrite_lanesAndTurns (s : State) (pa n : Nat) (v : BitVec 512) : lanesAndTurns (hostWrite s pa n v) = lanesAndTurns s := by
  simp [hostWrite]

@[simp] theorem hostRead_lanesAndTurns (s : State) (pa n : Nat) : lanesAndTurns (hostRead s pa n) = lanesAndTurns s := by
  have h (t : State) (v : BitVec 512) : lanesAndTurns (answered t v) = lanesAndTurns t := rfl
  have ho (t : State) (m : Nat) : lanesAndTurns (answeredOpen t m) = lanesAndTurns t := rfl
  exact ite_keeps (by simp [ho]) (by simp [h])

/-! ### Translation -/

theorem tlbFill_issuing (s : State) (c : Nat) (e : TlbEntry) : issuing (tlbFill s c e) = issuing s := ite_keeps rfl rfl

theorem pageWalk_issuing {s : State} {c ctx va : Nat} {acc : Access} {r : State × TlbEntry} (hr : pageWalk s c ctx va acc = some r) :
    issuing r.1 = issuing s := by
  unfold pageWalk at hr
  split at hr
  · simp at hr
  · split at hr
    · simp at hr
    · obtain rfl := Option.some.inj hr
      refine (tlbFill_issuing _ _ _).trans (issuing_of_lanesAndTurns ?_)
      have h := foldl_keeps (view := lanesAndTurns) (f := fun s a => if cacheable a 0 then grantRead s (dieNo c) (lineOf a) else s)
        (fun s a => ite_keeps (grantRead_lanesAndTurns _ _ _) rfl)
      exact ite_keeps (h _ _) ((sliceStore_lanesAndTurns _ _ _ _ _).trans (h _ _))

theorem translate_issuing {s : State} {c : Nat} {ctx : Option Nat} {va : Nat} {acc : Access} {r : State × Nat × Nat × Bool}
    (hr : translate s c ctx va acc = some r) : issuing r.1 = issuing s := by
  unfold translate at hr
  split at hr
  · simp at hr
  · dsimp only at hr
    split at hr
    · split at hr
      · obtain rfl := Option.some.inj hr
        rfl
      · simp at hr
    · split at hr
      · next hw =>
        split at hr
        · obtain rfl := Option.some.inj hr
          exact pageWalk_issuing hw
        · simp at hr
      · simp at hr

/-! ### Ordered tasks -/

@[simp] theorem wakePath_issuing (s : State) (p : Path) : issuing (wakePath s p) = issuing s := by
  unfold wakePath
  split
  · exact ite_keeps rfl rfl
  · rfl

@[simp] theorem spillTask_issuing (s : State) (d : Domain) (n : Nat) (t : Task) : issuing (spillTask s d n t) = issuing s := by
  unfold spillTask
  split
  · split
    · exact issuing_of_lanesAndTurns (storeKey_lanesAndTurns _ _ _ _)
    · simp
  · rfl

@[simp] theorem settleQueue_issuing (s : State) (q dom : Nat) : issuing (settleQueue s q dom) = issuing s := by
  have h (t : State) : issuing (spillDue t q) = issuing t := ite_keeps rfl rfl
  unfold settleQueue
  split
  · exact ite_keeps ((h _).trans (spillTask_issuing _ _ _ _)) rfl
  · rfl

theorem abortMember_issuing (discard : Bool) (dropped : Option Nat) (s : State) (n : Nat) :
    issuing (abortMember discard dropped s n) = issuing s := by
  have hm (t : State) (f : Memory → Memory) : issuing (onMem t f) = issuing t := rfl
  have hf (t : State) (c l : Nat) : issuing (freeLane t c l) = issuing t := rfl
  have hh (t : State) (f : Hearth → Hearth) : issuing (onHearth t f) = issuing t := rfl
  unfold abortMember delTask setTask
  split
  · rfl
  · simp [apply_ite issuing, hm, hf, hh]

theorem hostReleased_issuing (s : State) : issuing (hostReleased s) = issuing s := by
  refine (foldl_keeps (view := issuing) (fun t e => ?_) _ _).trans rfl
  split
  · exact issuing_of_lanesAndTurns (hostRead_lanesAndTurns _ _ _)
  · exact issuing_of_lanesAndTurns (hostWrite_lanesAndTurns _ _ _ _)
  · rfl

theorem abortStep_issuing (s : State) (named : Nat) (drop : Bool) : issuing (abortStep s named drop) = issuing s :=
  (hostReleased_issuing _).trans (foldl_keeps (view := issuing) (fun t n => abortMember_issuing _ _ t n) _ s)

theorem abortLater_issuing (s : State) (dom key : Nat) (hit : Task → Bool) : issuing (abortLater s dom key hit) = issuing s :=
  foldl_keeps (fun t e => by
    split
    · exact ite_keeps (abortStep_issuing _ _ _) rfl
    · rfl) _ s

theorem taskRead_issuing (s : State) (n va pa : Nat) : Ensures (taskRead s n va pa) (issuing · = issuing s) := by
  unfold taskRead
  split
  · simp
  · exact .after fun _ => (ensures_ok _).2 (abortLater_issuing _ _ _ _)

theorem taskWrite_issuing (s : State) (n va pa : Nat) : Ensures (taskWrite s n va pa) (issuing · = issuing s) := by
  unfold taskWrite
  split
  · simp
  · exact .after fun _ => .ite (ensures_waitFor _) ((ensures_ok _).2 (abortLater_issuing _ _ _ _))

theorem lineAccess_issuing (s : State) (acc : Accessor) (va pa mt : Nat) (de write : Bool) :
    Ensures (lineAccess s acc va pa mt de write) (issuing · = issuing s) := by
  unfold lineAccess
  split
  · refine .ite (ensures_waitFor _) (.ite ((ensures_ok _).2 rfl) (.after fun _ => ?_))
    exact .ite (taskWrite_issuing _ _ _ _) (taskRead_issuing _ _ _ _)
  · refine .ite (.after fun _ => (ensures_ok _).2 ?_) ((ensures_ok _).2 rfl)
    split
    · exact abortLater_issuing _ _ _ _
    · rfl

end Sys2Proof.Machine
end

section
/-! Forms of accesses (R147, R148, R151): the address that each form computes, the sizes of its formats, and what the guard lets run. -/

namespace Sys2Proof.Machine
open Sys2Proof.Safety

theorem offAddr_eq {n : Nat} (a : Reg) (off : BitVec n) (size : Nat) (l : Lane) :
    offAddr a off size l = getX l a + off.signExtend 64 * BitVec.ofNat 64 size := by
  rw [offAddr, BitVec.ofInt_mul, BitVec.signExtend, BitVec.ofInt_natCast]

/-- A size that an aligned access may have. -/
def PowerSize (n : Nat) : Prop := ∃ k ≤ 48, n = 2 ^ k

theorem powerSize_ldFmt (f : Fin 7) : PowerSize (ldFmt f).1 := by
  match f with
  | 0 | 1 => exact ⟨0, by decide, rfl⟩
  | 2 | 3 => exact ⟨1, by decide, rfl⟩
  | 4 | 5 => exact ⟨2, by decide, rfl⟩
  | 6 => exact ⟨3, by decide, rfl⟩

theorem powerSize_stSize (f : Fin 4) : PowerSize (stSize f) := ⟨f.val, by omega, rfl⟩

theorem powerSize_word : PowerSize 4 := ⟨2, by decide, rfl⟩

theorem powerSize_doubleword : PowerSize 8 := ⟨3, by decide, rfl⟩

theorem powerSize_fmtBytes {f : Fmt} (h : f.scalar = true) : PowerSize (fmtBytes f) := by
  cases f
  case ui8 | i8 => exact ⟨0, by decide, rfl⟩
  case ui16 | i16 => exact ⟨1, by decide, rfl⟩
  case ui32 | i32 => exact powerSize_word
  case ui64 | i64 => exact powerSize_doubleword
  all_goals exact absurd h (by decide)

/-- An instruction whose guard is on runs its operation. -/
theorem guardedStateOp_of_bit {n : Nat} {g : PReg} {f : State → Except Stop State} {s : State}
    (h : (getP (cur s) g).getLsbD 0 = true) : guardedStateOp n g f s = stateOp n f s :=
  guardedStateOp_on h

theorem irrevocable_ok {l : Lane} (h : l.firing.spec = false) : irrevocable l = .ok () := by
  simp [irrevocable, h, await]

/-! ### Scalar loads -/

/-- The instruction is a load: its operation, the address that it computes, and when it runs. -/
structure LoadForm (i : Instr) (n : Nat) (g : LoadArgs) (addr : Lane → X) (pre : Lane → Prop) : Prop where
  runs : ∀ s, pre (cur s) → exec i s = stateOp n (loadOp g) s
  addr_eq : g.addr = addr
  order : ∀ l, pre l → g.ordered = true → l.firing.spec = false
  size : PowerSize g.size

theorem loadForm_ld (o : LdOp) : LoadForm (.ld o) 4
    ⟨o.d, [.x o.a], offAddr o.a.reg o.imm (ldFmt o.f).1, (ldFmt o.f).1, (ldFmt o.f).2, false, false⟩
    (fun l => getX l o.a.reg + o.imm.signExtend 64 * BitVec.ofNat 64 (ldFmt o.f).1) (fun _ => True) :=
  ⟨fun _ _ => rfl, funext (offAddr_eq _ _ _), fun _ _ h => (nomatch h), powerSize_ldFmt o.f⟩

theorem loadForm_ldx (o : LdxOp) : LoadForm (.ldx o) 4
    ⟨o.d, [.x o.a, .x o.b], ixAddr o.a.reg o.b.reg (ldFmt o.f).1, (ldFmt o.f).1, (ldFmt o.f).2, false, false⟩
    (fun l => getX l o.a.reg + getX l o.b.reg * BitVec.ofNat 64 (ldFmt o.f).1) (fun _ => True) :=
  ⟨fun _ _ => rfl, rfl, fun _ _ h => (nomatch h), powerSize_ldFmt o.f⟩

theorem loadForm_ldI64C (o : C2) : LoadForm (.ldI64C o) 2 ⟨o.a, [.x (plain o.b)], fun l => getX l o.b, 8, false, false, false⟩
    (fun l => getX l o.b) (fun _ => True) :=
  ⟨fun _ _ => rfl, rfl, fun _ _ h => (nomatch h), powerSize_doubleword⟩

theorem loadForm_ldI32C (o : C2) : LoadForm (.ldI32C o) 2 ⟨o.a, [.x (plain o.b)], fun l => getX l o.b, 4, true, false, false⟩
    (fun l => getX l o.b) (fun _ => True) :=
  ⟨fun _ _ => rfl, rfl, fun _ _ h => (nomatch h), powerSize_word⟩

theorem loadForm_ldX {o : LdXOp} (hw : wf (.ldX o) = true) : LoadForm (.ldX o) 8
    ⟨o.d, [.x o.a], offAddr o.a.reg o.off (fmtBytes o.fmt), fmtBytes o.fmt, fmtKind o.fmt == .sint, o.order != .plain,
      o.order == .acqProm && decide (4 ≤ o.scope.code)⟩
    (fun l => getX l o.a.reg + o.off.signExtend 64 * BitVec.ofNat 64 (fmtWidth o.fmt / 8))
    (fun l => (getP l o.guard).getLsbD 0 = true ∧ (o.order ≠ .plain → l.firing.spec = false)) :=
  ⟨fun _ h => guardedStateOp_of_bit h.1, funext (offAddr_eq _ _ _), fun _ h ho => h.2 (bne_iff_ne.1 ho),
    powerSize_fmtBytes (Bool.and_eq_true_iff.1 hw).1⟩

/-! ### Scalar stores -/

/-- The instruction is a store: its operation, the address that it computes, and when it runs. -/
structure StoreForm (i : Instr) (n : Nat) (g : StoreArgs) (addr : Lane → X) (pre : Lane → Prop) : Prop where
  runs : ∀ s, pre (cur s) → exec i s = stateOp n (storeOp g) s
  addr_eq : g.addr = addr
  order : ∀ l, pre l → g.ordered = true → l.firing.spec = false
  size : PowerSize g.size

theorem storeForm_st (o : StOp) : StoreForm (.st o) 4
    ⟨[.x o.a, .x (plain o.d)], offAddr o.a.reg o.imm (stSize o.f), stSize o.f, fun l => getX l o.d, false⟩
    (fun l => getX l o.a.reg + o.imm.signExtend 64 * BitVec.ofNat 64 (2 ^ o.f.val)) (fun _ => True) :=
  ⟨fun _ _ => rfl, funext (offAddr_eq _ _ _), fun _ _ h => (nomatch h), powerSize_stSize o.f⟩

theorem storeForm_stx (o : StxOp) : StoreForm (.stx o) 4
    ⟨[.x o.a, .x o.b, .x (plain o.d)], ixAddr o.a.reg o.b.reg (stSize o.f), stSize o.f, fun l => getX l o.d, false⟩
    (fun l => getX l o.a.reg + getX l o.b.reg * BitVec.ofNat 64 (2 ^ o.f.val)) (fun _ => True) :=
  ⟨fun _ _ => rfl, rfl, fun _ _ h => (nomatch h), powerSize_stSize o.f⟩

theorem storeForm_stI64C (o : C2) : StoreForm (.stI64C o) 2
    ⟨[.x (plain o.a), .x (plain o.b)], fun l => getX l o.b, 8, fun l => getX l o.a, false⟩ (fun l => getX l o.b) (fun _ => True) :=
  ⟨fun _ _ => rfl, rfl, fun _ _ h => (nomatch h), powerSize_doubleword⟩

theorem storeForm_stI32C (o : C2) : StoreForm (.stI32C o) 2
    ⟨[.x (plain o.a), .x (plain o.b)], fun l => getX l o.b, 4, fun l => getX l o.a, false⟩ (fun l => getX l o.b) (fun _ => True) :=
  ⟨fun _ _ => rfl, rfl, fun _ _ h => (nomatch h), powerSize_word⟩

theorem storeForm_stX {o : StXOp} (hw : wf (.stX o) = true) : StoreForm (.stX o) 8
    ⟨[.x o.a, .x o.b], offAddr o.a.reg o.off (fmtBytes o.fmt), fmtBytes o.fmt, fun l => getX l o.b.reg, o.order != .plain⟩
    (fun l => getX l o.a.reg + o.off.signExtend 64 * BitVec.ofNat 64 (fmtWidth o.fmt / 8))
    (fun l => (getP l o.guard).getLsbD 0 = true ∧ (o.order ≠ .plain → l.firing.spec = false)) :=
  ⟨fun _ h => guardedStateOp_of_bit h.1, funext (offAddr_eq _ _ _), fun _ h ho => h.2 (bne_iff_ne.1 ho),
    powerSize_fmtBytes (Bool.and_eq_true_iff.1 hw).1⟩

end Sys2Proof.Machine
end

section
/-! O23: scalar accesses of own LM (R147, R149, R151). -/

namespace Sys2Proof.Machine
open Sys2Proof.Safety

/-! ### Writes of own LM -/

/-- Of the machine only memory, poison marks and the issuing lane may differ. -/
def LocalWritten (s t : State) : Prop := ∃ x m q, t = { setCur s x with mem := m, poison := q }

theorem LocalWritten.setCur {s t : State} (h : LocalWritten s t) (y : Lane) : LocalWritten s (setCur t y) := by
  obtain ⟨x, m, q, rfl⟩ := h
  refine ⟨y, m, q, ?_⟩
  rw [← setCur_setCur s x y]
  rfl

theorem localWritten_setCur (s : State) (x : Lane) : LocalWritten s (setCur s x) := ⟨x, s.mem, s.poison, rfl⟩

/-- A write of no memory line changes bytes and poison marks alone. -/
theorem storeKey_of_ge {s : State} {a : Nat} (h : 2 ^ 40 ≤ a) (n v : Nat) :
    ∃ q, storeKey s a n v = { s with mem := memWrite s.mem a n v, poison := q } := by
  have hlt : ¬ a < 2 ^ 40 := Nat.not_lt.2 h
  unfold storeKey putBytes
  rw [if_neg hlt, if_neg hlt]
  split
  · exact ⟨_, rfl⟩
  · exact ⟨_, rfl⟩

theorem LocalWritten.storeKey_lm {s t : State} (h : LocalWritten s t) (c o n v : Nat) : LocalWritten s (storeKey t (lmKey c o) n v) := by
  obtain ⟨x, m, q, rfl⟩ := h
  obtain ⟨r, hr⟩ := storeKey_of_ge (s := { Machine.setCur s x with mem := m, poison := q }) (lmKey_ge c o) n v
  exact ⟨x, _, r, hr⟩

theorem LocalWritten.clearCovered {s t : State} (h : LocalWritten s t) (ws : List (Nat × Nat)) : LocalWritten s (clearCovered t ws) := by
  obtain ⟨x, m, q, rfl⟩ := h
  exact ⟨x, m, _, rfl⟩

theorem LocalWritten.machineKept {s t : State} (h : LocalWritten s t) : MachineKept s t := by
  obtain ⟨x, m, q, rfl⟩ := h
  have k := machineKept_setCur s x
  exact ⟨k.quads, k.dies, k.hearth, k.pkg, k.lanes, k.ctl, k.msg, k.ev, k.eng, k.stove⟩

theorem cur_of_lanesAndTurns {s t : State} (h : lanesAndTurns t = lanesAndTurns s) : cur t = cur s := by
  have hc : t.sched.core = s.sched.core := congrArg (·.2.2.1) h
  have hl : t.sched.lane = s.sched.lane := congrArg (·.2.2.2.1) h
  rw [cur, hc, hl]
  exact laneOf_congr (cores_of_lanesAndTurns h) _ _

@[simp] theorem cur_storeKey (s : State) (a n v : Nat) : cur (storeKey s a n v) = cur s :=
  cur_of_lanesAndTurns (storeKey_lanesAndTurns s a n v)

@[simp] theorem cur_after (s : State) (n : Nat) (l : Lane) : cur (after s n l) = retire n l := cur_setCur s _

@[simp] theorem after_mem (s : State) (n : Nat) (l : Lane) : (after s n l).mem = s.mem := rfl

theorem LocalWritten.after {s t : State} (h : LocalWritten s t) (n : Nat) (l : Lane) : LocalWritten s (after t n l) := h.setCur _

/-! ### The accesses -/

theorem LoadForm.loadsLocal {i : Instr} {n : Nat} {g : LoadArgs} {addr : Lane → X} {pre : Lane → Prop} (h : LoadForm i n g addr pre) :
    LoadsLocal i n g.srcs g.d addr g.size g.signed pre := by
  intro s o hpre hs hd hl hc hp
  obtain ⟨hrun, rfl, hord, hn⟩ := h
  rw [hrun s hpre, stateOp_ok (loadOp_local hs hd (hord _ hpre) hl hn hc hp), after_setCur]

theorem StoreForm.storesLocal {i : Instr} {n : Nat} {g : StoreArgs} {addr : Lane → X} {pre : Lane → Prop} (h : StoreForm i n g addr pre) :
    StoresLocal i n g.srcs addr g.size g.data pre := by
  intro s o hpre hm hs hl hc
  obtain ⟨hrun, rfl, hord, hn⟩ := h
  have hk : MemoryOk (setCur s (kill (cur s) g.srcs)) := hm
  refine ⟨_, (hrun s hpre).trans (stateOp_ok (storeOp_local hs (hord _ hpre) hl hn hc)), ?_, ?_, ?_⟩
  · simp
  · exact stored_congr (after_mem _ _ _) (stored_storeKey hk _ _ _)
  · exact (((localWritten_setCur s _).storeKey_lm _ _ _ _).after _ _).machineKept

theorem localLoads_hold : Claims.LocalLoads :=
  ⟨fun o => (loadForm_ld o).loadsLocal, fun o => (loadForm_ldx o).loadsLocal, fun o => (loadForm_ldI64C o).loadsLocal,
    fun o => (loadForm_ldI32C o).loadsLocal, fun _ hw => (loadForm_ldX hw).loadsLocal⟩

theorem localStores_hold : Claims.LocalStores :=
  ⟨fun o => (storeForm_st o).storesLocal, fun o => (storeForm_stx o).storesLocal, fun o => (storeForm_stI64C o).storesLocal,
    fun o => (storeForm_stI32C o).storesLocal, fun _ hw => (storeForm_stX hw).storesLocal⟩

/-- Settles O23: each form is a load or a store with the address that the statement writes out, and the operation on a place of own LM
is one for all forms. -/
theorem localScalarAccesses : Obligations.LocalScalarAccesses := ⟨localLoads_hold, localStores_hold⟩

end Sys2Proof.Machine
end

section
/-! Accesses of global memory and of Larder shared space (R137, R138, R149, R153): what their checks answer, what a place reads as and
holds after a write, and the lane that awaits a result. -/

namespace Sys2Proof.Machine
open Sys2Proof.Safety

/-! ### Places -/

/-- Where an access of address `a` outside own LM lands: at `key`, in HBM or host memory, or in Larder shared space. -/
inductive LandsAt (a : X) (key : Nat) : Place → Prop
  | phys (mt : Nat) (de cz : Bool) : key < 2 ^ 41 → LandsAt a key (.phys a.toNat key mt de cz)
  | shared (off : Nat) : a.toNat = 0xFF90 * 2 ^ 48 + off → key = larderKey off → LandsAt a key (.shared off)

theorem not_isWindow_of_lt {pa : Nat} (h : pa < 2 ^ 41) : isWindow pa = false := by
  have hlow : ¬ 0xFF00000000000 ≤ pa := by omega
  simp [isWindow, hlow]

section
variable {a : X} {key : Nat} {p : Place} (h : LandsAt a key p)
include h

theorem LandsAt.not_local : p.isLocal = false := by cases h <;> rfl

theorem LandsAt.placeKey_eq (c : Nat) : placeKey c p = key := by
  cases h with
  | phys mt de cz hk => simp [placeKey, not_isWindow_of_lt hk]
  | shared off _ hk => exact hk.symm

theorem LandsAt.readPlace_eq (dev : Devices) (s : State) (c n : Nat) : readPlace dev s c n p = memRead s.mem key n := by
  cases h with
  | phys mt de cz hk => simp [readPlace, not_isWindow_of_lt hk]
  | shared off _ hk => rw [hk]; rfl

theorem LandsAt.writePlace_mem (dev : Devices) (s : State) (c n v : Nat) : (writePlace dev s c n v p).mem = memWrite s.mem key n v := by
  cases h with
  | phys mt de cz hk =>
    simp only [writePlace, not_isWindow_of_lt hk, Bool.false_eq_true, if_false]
    split
    · split <;> simp [putBytes_mem]
    · exact storeKey_mem _ _ _ _
  | shared off _ hk => rw [hk]; exact storeKey_mem _ _ _ _

theorem LandsAt.writePlace_lanesAndTurns (dev : Devices) (s : State) (c n v : Nat) :
    lanesAndTurns (writePlace dev s c n v p) = lanesAndTurns s := by
  cases h with
  | phys mt de cz hk =>
    simp only [writePlace, not_isWindow_of_lt hk, Bool.false_eq_true, if_false]
    exact ite_keeps (ite_keeps (by simp) (by simp)) (by simp)
  | shared off _ hk => exact storeKey_lanesAndTurns _ _ _ _

/-- The address of poisoned data is the address of the access (R153). -/
theorem LandsAt.firstPoison_eq (s : State) (c n : Nat) : firstPoison s c n [(0, p)] = if poisoned s key n then some a else none := by
  have hk := h.placeKey_eq c
  have hl := h.not_local
  cases hp : poisoned s key n with
  | false => simp [firstPoison, hk, hp]
  | true =>
    cases h with
    | phys mt de cz _ => simp [firstPoison, hl, hk, hp]
    | shared off ha _ =>
      have hof : BitVec.ofNat 64 (0xFF90 * 2 ^ 48 + off) = a := by rw [← ha, BitVec.ofNat_toNat, BitVec.setWidth_eq]
      simp only [firstPoison, List.find?, hl, hk, hp, Bool.not_false, Bool.true_and, Option.map_some, hof, if_true]

theorem LandsAt.localPoison_ok (s : State) (c n : Nat) : localPoison s c n [(0, p)] = .ok () := by
  simp [localPoison, h.not_local]

end

/-! ### The checks of an address (R137, R138) -/

theorem classOf_global {s : State} {c : Nat} {a : X} (h : a.toNat < 2 ^ 56) : classOf s c a = .global := if_pos h

theorem classOf_shared {s : State} {c off : Nat} {a : X} (ha : a.toNat = 0xFF90 * 2 ^ 48 + off) (hoff : off < sharedSize s) :
    classOf s c a = .shared off := by
  unfold classOf
  simp only [ha]
  rw [if_neg (by omega), if_neg (by omega), if_neg (by omega), if_pos (by omega), Nat.add_sub_cancel_left]

/-- An address at a multiple of 2^48 and an aligned offset is aligned. -/
theorem aligned_of_offset {n base off : Nat} (hn : PowerSize n) (h : off % n = 0) : (base * 2 ^ 48 + off) % n = 0 := by
  obtain ⟨k, hk, rfl⟩ := hn
  exact Nat.mod_eq_zero_of_dvd ((Nat.dvd_mul_left_of_dvd (Nat.pow_dvd_pow 2 hk) base).add (Nat.dvd_of_mod_eq_zero h))

theorem reach_opened (a : X) : reach .opened a = .ok () := rfl

section
variable {s t u : State} {acc : Access} {a : X} {n pa mt key : Nat} {de : Bool}

/-- An access of a page in memory passes the checks of its address. -/
theorem resolve_page (h : PageAt s t acc a n pa mt de) (hmt : acc = .atomic → mt ≠ 2) :
    ∃ cz, resolve s s.sched.core (ctxOf s s.sched.core (cur s)) acc false a n = .ok (t, .phys a.toNat pa mt de cz) := by
  obtain ⟨hlow, hal, hway, htr, hpa, hpath, hfree⟩ := h
  have hatom : (acc == .atomic && mt == 2) = false := by
    rw [Bool.and_eq_false_iff, beq_eq_false_iff_ne, beq_eq_false_iff_ne]
    exact Decidable.not_or_of_imp hmt
  have hback : isBacked pa = true := by simp only [isBacked, decide_eq_true hpa, Bool.true_or]
  have htok : (decide (2 ^ 40 ≤ pa) || linesFree t s.sched.core (lineOf pa) (writes acc) (cacheable pa mt)) = true := by
    by_cases hp : pa < 2 ^ 40
    · rw [hfree hp, Bool.or_true]
    · rw [decide_eq_true (Nat.le_of_not_lt hp), Bool.true_or]
  refine ⟨pageC t s.sched.core (ctxOf s s.sched.core (cur s)) a.toNat acc, ?_⟩
  unfold resolve locate
  simp only [classOf_global hlow, hal, hway, htr, reach_opened, hatom, hback, pathTo, hpath, tokensAt, htok, await, bind_ok,
    ne_eq, not_true_eq_false, if_false, if_true, Bool.false_and, Bool.or_false, Bool.false_eq_true]

/-- An access outside own LM passes the checks at its place, and lands at its key. -/
theorem scalarPlace_global {types : Nat → Prop} {load store : Bool} (h : GlobalAt s u acc types a n key) (hn : PowerSize n)
    (hmt : acc = .atomic → ∀ mt, types mt → mt ≠ 2) (hl : load = true → (cur u).lcnt < 63) (hs : store = true → (cur u).scnt < 63) :
    ∃ p, scalarPlace s acc a n load store = .ok (u, p) ∧ LandsAt a key p ∧ issuing u = issuing s
      ∧ ∀ off, p = .shared off → u = s := by
  have hroom : counterRoom (cur u) load store = .ok () := by
    have hr : ((!load || decide ((cur u).lcnt < 63)) && (!store || decide ((cur u).scnt < 63))) = true := by
      cases load <;> cases store <;> simp_all
    simp [counterRoom, hr, await]
  have hgo {t : State} {p : Place}
      (hres : resolve s s.sched.core (ctxOf s s.sched.core (cur s)) acc false a n = .ok (t, p))
      (hdom : domainCheck (accessorOf (cur s)) (acc != .load) t p = .ok u) (hp : LandsAt a key p) :
      scalarPlace s acc a n load store = .ok (u, p) := by
    simp only [scalarPlace, hres, hdom, bind_ok, hp.not_local, hroom, hp.localPoison_ok, Bool.false_eq_true, if_false, ite_self]
  rcases h with ⟨t, mt, de, hpage, hty, hline⟩ | ⟨off, rfl, ha, hoff, -, hal, rfl, hway, hspec⟩
  · obtain ⟨cz, hres⟩ := resolve_page hpage fun hacc => hmt hacc mt hty
    have hp : LandsAt a key (.phys a.toNat key mt de cz) := .phys mt de cz hpage.2.2.2.2.1
    exact ⟨_, hgo hres hline hp, hp, (lineAccess_issuing _ _ _ _ _ _ _ _ hline).trans (translate_issuing hpage.2.2.2.1), nofun⟩
  · have hpos : 0 < n := by
      obtain ⟨k, -, rfl⟩ := hn
      exact Nat.two_pow_pos k
    have hal' : a.toNat % n = 0 := ha ▸ aligned_of_offset hn hal
    have hres : resolve u u.sched.core (ctxOf u u.sched.core (cur u)) acc false a n = .ok (u, .shared off) := by
      unfold resolve locate
      simp only [classOf_shared ha (show off < sharedSize u by unfold sharedSize; omega), hal', pathTo, hway, reach_opened, tokensAt,
        bind_ok, ne_eq, not_true_eq_false, if_false]
    have hdom : domainCheck (accessorOf (cur u)) (acc != .load) u (.shared off) = .ok u := by
      unfold domainCheck accessorOf
      dsimp only
      split
      · next k hk =>
        have hall : ((taskOf u k).all fun t => !t.spec) = true := by
          rw [Option.all_eq_true]
          exact fun t ht => by simp [hspec k hk t ht]
        simp [hall, await, bind_ok]
      · rfl
    exact ⟨_, hgo hres hdom (.shared off ha rfl), .shared off ha rfl, rfl, fun _ _ => rfl⟩

end

/-! ### Results outstanding (R26, R149) -/

theorem awaiting_kill (u : State) (srcs : List Opnd) {r : Result} (h : r.counted = true) :
    awaiting (kill (cur u) srcs) r = Safety.awaiting u (emptyDest (kill (cur u) srcs) r.dest) r := by
  simp [awaiting, Safety.awaiting, h]

theorem core_of_issuing {s u : State} (h : issuing u = issuing s) : u.sched.core = s.sched.core := congrArg (·.1) h
theorem lane_of_issuing {s u : State} (h : issuing u = issuing s) : u.sched.lane = s.sched.lane := congrArg (·.2.1) h
theorem bits_of_issuing {s u : State} (h : issuing u = issuing s) : u.sched.bits = s.sched.bits := congrArg (·.2.2) h

end Sys2Proof.Machine
end

section
/-! O24: scalar loads and stores of global memory and of Larder shared space (R149, R151, R153, R264). -/

namespace Sys2Proof.Machine
open Sys2Proof.Safety

section
variable {s u : State} {key : Nat}

/-- A load outside own LM is outstanding once its line is cached (R149, R255). -/
theorem loadOp_global {g : LoadArgs} (hs : Ready (cur s) g.srcs) (hd : XFree (cur s) g.d)
    (hord : g.ordered = true → (cur s).firing.spec = false) (hn : PowerSize g.size)
    (h : GlobalAt s u .load (fun _ => True) (g.addr (cur s)) g.size key) (hcnt : (cur u).lcnt < 63) :
    ∃ w, lanesAndTurns w = lanesAndTurns u ∧ w.mem = u.mem ∧ issuing u = issuing s
      ∧ loadOp g s = .ok (produce (setCur w (kill (cur u) g.srcs)) ⟨.x g.d,
        if poisoned u key g.size then 0 else (loaded g.size g.signed (memRead u.mem key g.size)).setWidth 1024, true,
        if poisoned u key g.size then some (g.addr (cur s)) else none, s.sched.bits, g.addr (cur s), siteOf u⟩) := by
  obtain ⟨p, hplace, hp, hiss, -⟩ :=
    scalarPlace_global (load := true) (store := false) h hn nofun (fun _ => hcnt) nofun
  have hgate : gate (cur s) g.srcs [.x g.d] = .ok () := gate_ok hs (free_cons.2 ⟨hd, free_nil _⟩)
  refine ⟨cachePlaces (promoted u g.prom p) s.sched.core [(0, p)], by simp, ?_, hiss, ?_⟩
  · rw [cachePlaces_mem]
    unfold promoted
    split
    · split <;> simp
    · rfl
  · cases ho : g.ordered
    all_goals cases hbad : poisoned u key g.size
    all_goals simp only [loadOp, ho, hgate, hplace, bind_ok, hp.not_local, hp.readPlace_eq, hp.firstPoison_eq, ext_eq,
      bits_of_issuing hiss, hbad, irrevocable_ok (hord _), Bool.false_eq_true, if_false, if_true, Option.isSome_none,
      Option.isSome_some]

/-- A store outside own LM writes its bytes, and scnt counts it (R149). -/
theorem storeOp_global {g : StoreArgs} (hs : Ready (cur s) g.srcs) (hord : g.ordered = true → (cur s).firing.spec = false)
    (hn : PowerSize g.size) (h : GlobalAt s u .store (fun _ => True) (g.addr (cur s)) g.size key) (hcnt : (cur u).scnt < 63) :
    ∃ w, lanesAndTurns w = lanesAndTurns (setCur u (kill (cur u) g.srcs)) ∧ w.mem = memWrite u.mem key g.size (g.data (cur s)).toNat
      ∧ issuing u = issuing s ∧ storeOp g s = .ok (countStore w) := by
  obtain ⟨p, hplace, hp, hiss, -⟩ :=
    scalarPlace_global (load := false) (store := true) h hn nofun nofun (fun _ => hcnt)
  have hgate : gate (cur s) g.srcs [] = .ok () := gate_ok hs (free_nil _)
  refine ⟨_, hp.writePlace_lanesAndTurns windows (setCur u (kill (cur u) g.srcs)) s.sched.core g.size (g.data (cur s)).toNat,
    hp.writePlace_mem _ _ _ _ _, hiss, ?_⟩
  cases ho : g.ordered
  all_goals simp only [storeOp, ho, hgate, hplace, bind_ok, hp.not_local, irrevocable_ok (hord _), Bool.false_eq_true, if_false, if_true]

end

theorem LoadForm.loadsGlobal {i : Instr} {n : Nat} {g : LoadArgs} {addr : Lane → X} {pre : Lane → Prop} (h : LoadForm i n g addr pre) :
    LoadsGlobal i n g.srcs g.d addr g.size g.signed pre := by
  intro s u key hpre hs hd hat hcnt
  obtain ⟨hrun, rfl, hord, hn⟩ := h
  obtain ⟨w, hw, hmem, hiss, hop⟩ := loadOp_global hs hd (hord _ hpre) hn hat hcnt
  refine ⟨_, (hrun s hpre).trans ((stateOp_ok hop).trans (congrArg _ (after_produce _ _ _ _))), hmem, ?_, ?_⟩
  · have hcore : w.sched.core = s.sched.core := core_of_issuing ((issuing_of_lanesAndTurns hw).trans hiss)
    have hlane : w.sched.lane = s.sched.lane := lane_of_issuing ((issuing_of_lanesAndTurns hw).trans hiss)
    rw [← agenda_of_lanesAndTurns hw, ← hcore, ← hlane]
    rfl
  · rw [cur_dueEvent, cur_setCur, awaiting_kill u g.srcs rfl]

/-- The lane and the agenda that counting a store leaves (R149). -/
theorem after_countStore (s : State) (n : Nat) : after (countStore s) n (cur (countStore s))
    = dueEvent (setCur s (retire n { cur s with scnt := (cur s).scnt + 1 })) (.storePerformed s.sched.core s.sched.lane) := by
  have h (t : State) (d : Due) (x : Lane) : setCur (dueEvent t d) x = dueEvent (setCur t x) d := rfl
  simp [countStore, after, h]

theorem StoreForm.storesGlobal {i : Instr} {n : Nat} {g : StoreArgs} {addr : Lane → X} {pre : Lane → Prop} (h : StoreForm i n g addr pre) :
    StoresGlobal i n g.srcs addr g.size g.data pre := by
  intro s u key hpre hm hs hat hcnt
  obtain ⟨hrun, rfl, hord, hn⟩ := h
  obtain ⟨w, hw, hmem, hiss, hop⟩ := storeOp_global hs (hord _ hpre) hn hat hcnt
  have hwiss : issuing w = issuing s := (issuing_of_lanesAndTurns hw).trans hiss
  refine ⟨_, (hrun s hpre).trans ((stateOp_ok hop).trans (congrArg _ (after_countStore _ _))), fun b => ?_, ?_, ?_⟩
  · exact (congrArg (memGet · b) hmem).trans (memGet_memWrite hm _ _ _ _)
  · have hagenda := agenda_of_lanesAndTurns hw
    rw [setCur_sched] at hagenda
    rw [← hagenda, ← core_of_issuing hwiss, ← lane_of_issuing hwiss]
    rfl
  · rw [cur_dueEvent, cur_setCur, cur_of_lanesAndTurns hw, cur_setCur, kill_scnt]

/-- Settles O24: the checks of an access outside own LM answer the place that its address translates to, and the operation on that place
is one for all forms, in memory and in shared space. -/
theorem globalLoadsAndStores : Obligations.GlobalLoadsAndStores :=
  ⟨fun o => (loadForm_ld o).loadsGlobal, fun o => (loadForm_ldx o).loadsGlobal, fun o => (loadForm_ldI64C o).loadsGlobal,
    fun o => (loadForm_ldI32C o).loadsGlobal, fun _ hw => (loadForm_ldX hw).loadsGlobal,
    fun o => (storeForm_st o).storesGlobal, fun o => (storeForm_stx o).storesGlobal, fun o => (storeForm_stI64C o).storesGlobal,
    fun o => (storeForm_stI32C o).storesGlobal, fun _ hw => (storeForm_stX hw).storesGlobal⟩

end Sys2Proof.Machine
end

section
/-! O27: AMO and CAS on own LM and on global memory (R149, R153, R156). -/

namespace Sys2Proof.Machine
open Sys2Proof.Safety

/-! ### The new word (R156) -/

/-- What an AMO of words `x` and `y` leaves. -/
def wordAfter {w : Nat} (op : AmoFn) (x y : BitVec w) : Nat :=
  match op with
  | .add => (x + y).toNat
  | .and => (x &&& y).toNat
  | .or => (x ||| y).toNat
  | .xor => (x ^^^ y).toNat
  | .min => (if y.toInt < x.toInt then y else x).toNat
  | .max => (if x.toInt < y.toInt then y else x).toNat
  | .minu => min x.toNat y.toNat
  | .maxu => max x.toNat y.toNat
  | .swap => y.toNat
  | .faddF32 => scatterSum .f32 x.toNat y.toNat
  | .faddBf16x2 => scatterSum .bf16 (x.toNat % 65536) (y.toNat % 65536)
      + 65536 * scatterSum .bf16 (x.toNat / 65536) (y.toNat / 65536)

theorem sgn_toNat {w : Nat} (x : BitVec w) : sgn w x.toNat = x.toInt := by
  rw [sgn_eq_toInt x.isLt, BitVec.ofNat_toNat, BitVec.setWidth_eq]

theorem amoNew_toNat {w : Nat} (op : AmoFn) (x y : BitVec w) : amoNew op w x.toNat y.toNat = wordAfter op x y := by
  cases op
  case add => exact (BitVec.toNat_add x y).symm
  case and => exact (BitVec.toNat_and x y).symm
  case or => exact (BitVec.toNat_or x y).symm
  case xor => exact (BitVec.toNat_xor x y).symm
  case min | max => simp only [amoNew, wordAfter, sgn_toNat, apply_ite BitVec.toNat]
  case minu | maxu | swap | faddF32 | faddBf16x2 => rfl

theorem amoNew_eq (op : AmoFn) {w old : Nat} (hold : old < 2 ^ w) (b : Nat) :
    amoNew op w old (b % 2 ^ w) = wordAfter op (BitVec.ofNat w old) (BitVec.ofNat w b) := by
  rw [← amoNew_toNat, BitVec.toNat_ofNat, BitVec.toNat_ofNat, Nat.mod_eq_of_lt hold]

theorem casNew_eq {w old : Nat} (hold : old < 2 ^ w) (b c : X) :
    (if old = b.toNat % 2 ^ w then c.toNat % 2 ^ w else old)
      = if BitVec.ofNat w old = b.setWidth w then (c.setWidth w).toNat else old := by
  have hiff : old = b.toNat % 2 ^ w ↔ BitVec.ofNat w old = b.setWidth w := by
    rw [← BitVec.toNat_inj, BitVec.toNat_ofNat, BitVec.toNat_setWidth, Nat.mod_eq_of_lt hold]
  simp only [hiff, BitVec.toNat_setWidth]

/-! ### Join counters (R172) -/

theorem cur_spawnReg (s : State) (j : JoinReg) : cur (spawnReg s j) = cur s :=
  laneOf_onCore_lanes (f := fun k => { k with msg := { k.msg with spawnQ := k.msg.spawnQ ++ [j.spawn] } }) (fun _ => rfl) s _ _ _

/-- Registrations that fire join a spawn queue, and no lane changes. -/
theorem cur_joinFire (s : State) (key : Nat) : cur (joinFire s key) = cur s := by
  unfold joinFire
  split
  · rfl
  · exact foldl_keeps cur_spawnReg _ _

/-! ### The operation -/

/-- The instruction is an atomic: its operation, the address that it computes, and when it runs. -/
structure AtomicForm (i : Instr) (srcs : List Opnd) (d : Reg) (f : Fmt) (addr : Lane → X) (size : Nat) (new : Lane → Nat → Nat)
    (pre : Lane → Prop) : Prop where
  runs : ∃ new', (∀ s, pre (cur s) → exec i s = stateOp 8 (atomicOp d srcs addr f new') s)
    ∧ ∀ l old, old < 256 ^ size → new' l old = new l old
  spec : ∀ l, pre l → l.firing.spec = false
  width : amoWidth f / 8 = size
  size : PowerSize size

/-- No engine operation of the core writes Larder shared space, so that an atomic waits for none (R357). -/
theorem bankPending_none {s : State} {c off before : Nat} (h : ∀ e ∈ (coreOf s c).eng.queue, (bankDest e.2).isNone = true) :
    bankPending s c off before = false := by
  rw [bankPending, List.any_eq_false]
  intro e he
  rw [Option.isNone_iff_eq_none.1 (h e he)]
  simp

section
variable {s u : State} {d : Reg} {srcs : List Opnd} {addr : Lane → X} {f : Fmt} {new : Lane → Nat → Nat} {key : Nat}
  (hspec : (cur s).firing.spec = false) (hs : Ready (cur s) srcs) (hd : XFree (cur s) d) (hn : PowerSize (amoWidth f / 8))
include hspec hs hd hn

/-- An atomic on own LM completes at once (R156). -/
theorem atomicOp_local {o : Nat} (hl : LocalAt (addr (cur s)) (amoWidth f / 8) o) (hc : NoConflict s o (amoWidth f / 8) true)
    (hp : poisoned s (lmKey s.sched.core o) (amoWidth f / 8) = false) :
    let old := memRead s.mem (lmKey s.sched.core o) (amoWidth f / 8)
    atomicOp d srcs addr f new s = .ok (setCur
      (storeKey (setCur s (kill (cur s) srcs)) (lmKey s.sched.core o) (amoWidth f / 8) (new (cur s) old))
      (putX (kill (cur s) srcs) d (loaded (amoWidth f / 8) (f == .i32 || f == .i64) old))) := by
  have hgate : gate (cur s) srcs [.x d] = .ok () := gate_ok hs (free_cons.2 ⟨hd, free_nil _⟩)
  have hplace := scalarPlace_local (acc := .atomic) (load := true) (store := false) hl hn hc fun _ => hp
  simp only [atomicOp, irrevocable_ok hspec, hgate, hplace, bind_ok, Place.isLocal, if_true, readPlace, placeKey, writePlace_lm, ext_eq,
    cur_setCur]

/-- An atomic outside own LM is outstanding, and its word is written unless its data are poisoned (R149, R153, R156). -/
theorem atomicOp_global {types : Nat → Prop} (htypes : ∀ mt, types mt → mt ≠ 2)
    (h : GlobalAt s u .atomic types (addr (cur s)) (amoWidth f / 8) key)
    (hq : ∀ e ∈ (curCore s).eng.queue, (bankDest e.2).isNone = true) (hcnt : (cur u).lcnt < 63) :
    let size := amoWidth f / 8
    let old := memRead u.mem key size
    let bad := poisoned u key size
    let r : Result := ⟨.x d, if bad then 0 else (loaded size (f == .i32 || f == .i64) old).setWidth 1024, true,
      if bad then some (addr (cur s)) else none, s.sched.bits, addr (cur s), siteOf u⟩
    ∃ w, atomicOp d srcs addr f new s = .ok w ∧ cur w = awaiting (kill (cur u) srcs) r
      ∧ w.mem = if bad then u.mem else memWrite u.mem key size (new (cur s) old) := by
  obtain ⟨p, hplace, hp, hiss, hshared⟩ :=
    scalarPlace_global (load := true) (store := false) h hn (fun _ => htypes) (fun _ => hcnt) nofun
  have hgate : gate (cur s) srcs [.x d] = .ok () := gate_ok hs (free_cons.2 ⟨hd, free_nil _⟩)
  have hsite : siteOf (setCur u (kill (cur u) srcs)) = siteOf u := by simp [siteOf]
  have hbits : (setCur u (kill (cur u) srcs)).sched.bits = s.sched.bits := bits_of_issuing hiss
  have hpoison (n : Nat) : poisoned (setCur u (kill (cur u) srcs)) key n = poisoned u key n := rfl
  have hops : atomicOp d srcs addr f new s = .ok (if poisoned u key (amoWidth f / 8)
      then produce (setCur u (kill (cur u) srcs)) ⟨.x d, 0, true, some (addr (cur s)), s.sched.bits, addr (cur s), siteOf u⟩
      else joinFire (writePlace windows (produce (setCur u (kill (cur u) srcs))
          ⟨.x d, (loaded (amoWidth f / 8) (f == .i32 || f == .i64) (memRead u.mem key (amoWidth f / 8))).setWidth 1024, true, none,
            s.sched.bits, addr (cur s), siteOf u⟩)
        s.sched.core (amoWidth f / 8) (new (cur s) (memRead u.mem key (amoWidth f / 8))) p) (placeKey s.sched.core p / 8 * 8)) := by
    have hbank (off : Nat) (hoff : p = .shared off) : bankPending u s.sched.core off (curCore u).eng.seq = false := by
      obtain rfl := hshared off hoff
      exact bankPending_none hq
    have hp' := hp
    cases hp
    all_goals cases hbad : poisoned u key (amoWidth f / 8)
    all_goals simp only [atomicOp, irrevocable_ok hspec, hgate, hplace, bind_ok, hp'.not_local, hp'.readPlace_eq, hp'.firstPoison_eq,
      hpoison, hsite, hbits, hbank, await, hbad, ext_eq, Bool.not_false, Bool.false_eq_true, if_true, if_false]
  refine ⟨_, hops, ?_, ?_⟩
  · split
    · simp [produce_eq]
    · rw [cur_joinFire, cur_of_lanesAndTurns (hp.writePlace_lanesAndTurns _ _ _ _ _), produce_eq, cur_dueEvent, cur_setCur, cur_setCur]
  · split
    · rfl
    · rw [joinFire_mem, hp.writePlace_mem, produce_mem, setCur_mem]

end

section
variable {i : Instr} {srcs : List Opnd} {d : Reg} {f : Fmt} {addr : Lane → X} {size : Nat} {new : Lane → Nat → Nat} {pre : Lane → Prop}
  (h : AtomicForm i srcs d f addr size new pre)
include h

theorem AtomicForm.atomicLocal : AtomicLocal i srcs d addr size (f == .i32 || f == .i64) new pre := by
  intro s o hpre hm hs hd hl hc hp old
  obtain ⟨⟨new', hrun, hnew⟩, hspec, rfl, hn⟩ := h
  have hk : MemoryOk (setCur s (kill (cur s) srcs)) := hm
  refine ⟨_, (hrun s hpre).trans (stateOp_ok (atomicOp_local (hspec _ hpre) hs hd hn hl hc hp)), ?_, ?_, ?_⟩
  · rw [cur_after, cur_setCur]
  · rw [← hnew _ _ (memRead_lt _ _ _)]
    exact stored_congr ((after_mem _ _ _).trans (setCur_mem _ _)) (stored_storeKey hk _ _ _)
  · exact ((((localWritten_setCur s _).storeKey_lm _ _ _ _).setCur _).after _ _).machineKept

theorem AtomicForm.atomicGlobal : AtomicGlobal i srcs d addr size (f == .i32 || f == .i64) new pre := by
  intro s u key hpre hm hs hd hat hq hcnt old bad r
  obtain ⟨⟨new', hrun, hnew⟩, hspec, rfl, hn⟩ := h
  obtain ⟨w, hop, hcur, hmem⟩ := atomicOp_global (new := new') (hspec _ hpre) hs hd hn (fun _ => id) hat hq hcnt
  rw [hnew _ _ (memRead_lt _ _ _)] at hmem
  refine ⟨_, (hrun s hpre).trans (stateOp_ok hop), fun hbad => hmem.trans (if_pos hbad), fun hbad b => ?_, ?_⟩
  · rw [after_mem, hmem, if_neg (Bool.eq_false_iff.1 hbad)]
    exact memGet_memWrite hm _ _ _ _
  · rw [cur_after, hcur, awaiting_kill u srcs rfl]

end

/-! ### AMO and CAS -/

theorem amoWidth_of_amoOk {op : AmoFn} {f : Fmt} (h : amoOk op f = true) : amoWidth f = 32 ∨ amoWidth f = 64 := by
  cases f
  case ui32 | i32 | f32 | bf16 => exact .inl rfl
  case ui64 | i64 => exact .inr rfl
  all_goals cases op <;> exact absurd h (by decide)

theorem amoWidth_of_lane {f : Fmt} (h : f.lane = true) : amoWidth f = fmtWidth f ∧ (fmtWidth f = 32 ∨ fmtWidth f = 64) := by
  cases f
  case ui32 | i32 | f32 => exact ⟨rfl, .inl rfl⟩
  case ui64 | i64 | f64 => exact ⟨rfl, .inr rfl⟩
  all_goals exact absurd h (by decide)

theorem powerSize_of_width {w : Nat} (h : w = 32 ∨ w = 64) : PowerSize (w / 8) := by
  rcases h with rfl | rfl
  · exact powerSize_word
  · exact powerSize_doubleword

/-- A word of 4 or 8 bytes is a number of its width. -/
theorem pow_bytes {w : Nat} (h : w = 32 ∨ w = 64) : 256 ^ (w / 8) = 2 ^ w := by
  rcases h with rfl | rfl <;> rfl

theorem atomicForm_amo {o : AmoOp} (hw : wf (.amo o) = true) : AtomicForm (.amo o) [.x o.a, .x o.b] o.d o.fmt
    (fun l => getX l o.a.reg + o.off.signExtend 64 * BitVec.ofNat 64 (amoWidth o.fmt / 8)) (amoWidth o.fmt / 8)
    (fun l old => wordAfter o.op (BitVec.ofNat (amoWidth o.fmt) old) (BitVec.ofNat (amoWidth o.fmt) (getX l o.b.reg).toNat))
    (fun l => (getP l o.guard).getLsbD 0 = true ∧ l.firing.spec = false) := by
  have hwidth := amoWidth_of_amoOk (Bool.and_eq_true_iff.1 hw).1
  refine ⟨⟨_, fun s hpre => ?_, fun l old hold => amoNew_eq o.op (pow_bytes hwidth ▸ hold) _⟩, fun _ h => h.2, rfl,
    powerSize_of_width hwidth⟩
  rw [← funext (offAddr_eq o.a.reg o.off (amoWidth o.fmt / 8))]
  exact guardedStateOp_of_bit hpre.1

theorem atomicForm_cas {o : CasOp} (hw : wf (.cas o) = true) : AtomicForm (.cas o) [.x o.a, .x o.b, .x o.c] o.d o.fmt
    (fun l => getX l o.a.reg + o.off.signExtend 64 * BitVec.ofNat 64 (fmtWidth o.fmt / 8)) (fmtWidth o.fmt / 8)
    (fun l old => if BitVec.ofNat (fmtWidth o.fmt) old = (getX l o.b.reg).setWidth (fmtWidth o.fmt)
      then ((getX l o.c.reg).setWidth (fmtWidth o.fmt)).toNat else old)
    (fun l => (getP l o.guard).getLsbD 0 = true ∧ l.firing.spec = false) := by
  obtain ⟨hamo, hwidth⟩ := amoWidth_of_lane (Bool.and_eq_true_iff.1 hw).1
  refine ⟨⟨_, fun s hpre => ?_, fun l old hold => casNew_eq (pow_bytes hwidth ▸ hold) _ _⟩, fun _ h => h.2, by rw [hamo],
    powerSize_of_width hwidth⟩
  rw [← funext (offAddr_eq o.a.reg o.off (fmtWidth o.fmt / 8))]
  exact guardedStateOp_of_bit hpre.1

/-- Settles O27: AMO and CAS are one operation with a new word of their own, which is taken at once in own LM and is the write of a
long-latency producer elsewhere. -/
theorem atomics : Obligations.Atomics :=
  ⟨fun _ hw => ⟨(atomicForm_amo hw).atomicLocal, (atomicForm_amo hw).atomicGlobal⟩,
    fun _ hw => ⟨(atomicForm_cas hw).atomicLocal, (atomicForm_cas hw).atomicGlobal⟩⟩

end Sys2Proof.Machine
end

section
/-! O25: vector loads, stores and scatter-adds of own LM (R148, R149, R154). -/

namespace Sys2Proof.Machine
open Sys2Proof.Safety

/-! ### Forms (R147, R154) -/

/-- The elements of a vector access: their width, which are active, and the address of each; an element is aligned to its bytes. -/
structure VecForm (g : VecArgs) (w : Nat) (act : Lane → P) (addr : Lane → Nat → X) : Prop where
  w_eq : g.w = w
  act_eq : g.act = act
  addr_eq : g.addr = addr
  align_eq : g.align = w / 8
  width : w = 32 ∨ w = 64

theorem tyW_width (t : ElemTy) : tyW t = 32 ∨ tyW t = 64 := by
  cases t
  case i64 | ui64 | f64 => exact .inr rfl
  all_goals exact .inl rfl

/-- The signed offset of a gathered element (R154). -/
theorem gatherAddr_eq (a : Reg) (b : Src) (w : Nat) :
    gatherAddr a b w = fun l k => getX l a + (BitVec.ofNat w (elem w (getV l b) k)).signExtend 64 := by
  funext l k
  rw [gatherAddr, sgn_eq_toInt (elem_lt w _ _), BitVec.signExtend]

theorem vecForm_row {n : Nat} (srcs : List Opnd) (a : Reg) (off : BitVec n) (act : Lane → P) {w : Nat} (hw : w = 32 ∨ w = 64) :
    VecForm ⟨srcs, w, act, seqAddr (offAddr a off 128) w, w / 8⟩ w act
      (fun l k => getX l a + off.signExtend 64 * 128 + BitVec.ofNat 64 (k * (w / 8))) :=
  ⟨rfl, rfl, funext₂ fun l k => congrArg (· + BitVec.ofNat 64 (k * (w / 8))) (offAddr_eq a off 128 l), rfl, hw⟩

theorem vecForm_rowC (srcs : List Opnd) (b : Reg) : VecForm ⟨srcs, 32, allActive, seqAddr (fun l => getX l b) 32, 4⟩ 32
    (fun _ => BitVec.allOnes 32) (fun l k => getX l b + BitVec.ofNat 64 (k * (32 / 8))) :=
  ⟨rfl, rfl, rfl, rfl, .inl rfl⟩

theorem vecForm_stride (srcs : List Opnd) (a b : Reg) (t : ElemTy) : VecForm ⟨srcs, tyW t, allActive, strideAddr a b, tyW t / 8⟩ (tyW t)
    (fun _ => BitVec.allOnes 32) (fun l k => getX l a + BitVec.ofNat 64 k * getX l b) :=
  ⟨rfl, rfl, rfl, rfl, tyW_width t⟩

theorem vecForm_gather (srcs : List Opnd) (a : Reg) (b : Src) (act : Lane → P) {w : Nat} (hw : w = 32 ∨ w = 64) :
    VecForm ⟨srcs, w, act, gatherAddr a b w, w / 8⟩ w act
      (fun l k => getX l a + (BitVec.ofNat w (elem w (getV l b) k)).signExtend 64) :=
  ⟨rfl, rfl, gatherAddr_eq a b w, rfl, hw⟩

/-! ### Places of own LM -/

/-- The places of elements of own LM. -/
def localPlaces (off : Nat → Nat) (l : List Nat) : List (Nat × Place) := l.map fun k => (k, .lm (off k))

theorem localPlaces_all (off : Nat → Nat) (l : List Nat) : ((localPlaces off l).all fun e => e.2.isLocal) = true := by
  simp [localPlaces, Place.isLocal]

theorem mem_actives {w k : Nat} {act : P} : k ∈ actives w act ↔ k < 1024 / w ∧ act.getLsbD k = true := by
  simp [actives]

section
variable {s : State} {c : Nat} {ctx : Option Nat} {acc : Access} {n : Nat} {addr : Nat → X} {off : Nat → Nat} {l : List Nat}

theorem resolveAll_local (hn : PowerSize n) (h : ∀ k ∈ l, LocalAt (addr k) n (off k)) :
    resolveAll c ctx acc n s (l.map fun k => (k, addr k)) = .ok (s, localPlaces off l) := by
  induction l with
  | nil => rfl
  | cons k t ih =>
    simp only [List.map_cons, resolveAll, resolve_local (h k List.mem_cons_self) hn,
      ih fun j hj => h j (List.mem_cons_of_mem k hj), bind_ok]
    rfl

theorem domainAll_local (a : Accessor) (write : Bool) : domainAll a write s (localPlaces off l) = .ok s := by
  induction l with
  | nil => rfl
  | cons k t ih => exact ih

/-! ### The scoreboard (R142) -/

theorem mem_insertNat {l : List Nat} {n x : Nat} : x ∈ insertNat l n ↔ x = n ∨ x ∈ l := by
  induction l with
  | nil => simp [insertNat]
  | cons k t ih =>
    unfold insertNat
    split
    · next h => simp [h]
    · split
      · simp
      · simp [ih, or_left_comm]

/-- The granules of elements of own LM are those of their first and last bytes. -/
theorem mem_localGranules {x : Nat} (h : x ∈ localGranules n (localPlaces off l)) :
    ∃ k ∈ l, x = granule (off k) ∨ x = granule (off k + n - 1) := by
  have hgo (l gs : List Nat) (h : x ∈ (localPlaces off l).foldl (fun gs e => match e.2 with
      | .lm o => insertNat (insertNat gs (granule o)) (granule (o + n - 1))
      | _ => gs) gs) : x ∈ gs ∨ ∃ k ∈ l, x = granule (off k) ∨ x = granule (off k + n - 1) := by
    induction l generalizing gs with
    | nil => exact .inl h
    | cons k t ih =>
      rcases ih _ h with h | ⟨j, hj, hx⟩
      · rw [mem_insertNat, mem_insertNat] at h
        rcases h with h | h | h
        · exact .inr ⟨k, List.mem_cons_self, .inr h⟩
        · exact .inr ⟨k, List.mem_cons_self, .inl h⟩
        · exact .inl h
      · exact .inr ⟨j, List.mem_cons_of_mem k hj, hx⟩
  exact (hgo l [] h).resolve_left List.not_mem_nil

/-- An access of no tile meets an entry only at its granules. -/
theorem entryBlocks_eq_false {gs : List Nat} {write : Bool} {e : SbEntry} :
    entryBlocks gs 0 write e = false ↔ ∀ g ∈ gs, (spanHas e.wr g || (write && (spanHas e.rda g || spanHas e.rdb g))) = false := by
  have hmask (m : Nat) : masksMeet m 0 = false := by simp [masksMeet, bit]
  simp only [entryBlocks, hmask, Bool.and_false, Bool.or_false, List.any_eq_false, Bool.not_eq_true]

theorem sbGate_local {write : Bool} (h : ∀ k ∈ l, NoConflict s (off k) n write) :
    sbGate s (localGranules n (localPlaces off l)) 0 write = .ok () := by
  have hb (e : Nat × SbEntry) (he : e ∈ (curCore s).eng.sb) :
      entryBlocks (localGranules n (localPlaces off l)) 0 write e.2 = false := by
    refine entryBlocks_eq_false.2 fun x hx => ?_
    obtain ⟨k, hk, hx⟩ := mem_localGranules hx
    exact entryBlocks_eq_false.1 (h k hk e he) x (by simpa using hx)
  have hany (b : Nat) : ((curCore s).eng.sb.any fun e =>
      decide (e.2.age < b) && entryBlocks (localGranules n (localPlaces off l)) 0 write e.2) = false := by
    rw [List.any_eq_false]
    intro e he
    simp [hb e he]
  simp [sbGate, hany, await]

theorem localPoison_none (h : ∀ k ∈ l, poisoned s (lmKey c (off k)) n = false) : localPoison s c n (localPlaces off l) = .ok () := by
  have hfind : ((localPlaces off l).find? fun e => e.2.isLocal && poisoned s (placeKey c e.2) n) = none := by
    rw [List.find?_eq_none]
    intro e he
    obtain ⟨k, hk, rfl⟩ := List.mem_map.1 he
    simp [placeKey, h k hk]
  rw [localPoison, hfind]

end

section
variable {s : State} {g : VecArgs} {w : Nat} {act : Lane → P} {addr : Lane → Nat → X} {off : Nat → Nat} (hg : VecForm g w act addr)
include hg

/-- A vector access of own LM passes its checks. -/
theorem vecPlaces_local {acc : Access} {load store : Bool}
    (hl : AllLocal s w (act (cur s)) (addr (cur s)) off (acc != .load))
    (hp : acc ≠ .store → ∀ k ∈ actives w (act (cur s)), poisoned s (lmKey s.sched.core (off k)) (w / 8) = false) :
    vecPlaces g acc load store s = .ok (s, localPlaces off (actives w (act (cur s)))) := by
  obtain ⟨rfl, rfl, rfl, hal, hw⟩ := hg
  have hat (k : Nat) (hk : k ∈ actives g.w (g.act (cur s))) := hl k (mem_actives.1 hk).1 (mem_actives.1 hk).2
  have hres : resolveAll s.sched.core (ctxOf s s.sched.core (cur s)) acc g.align s (vecElems g (cur s)) = _ :=
    hal ▸ resolveAll_local (powerSize_of_width hw) fun k hk => (hat k hk).1
  have hloc : vecLocal g acc s (localPlaces off (actives g.w (g.act (cur s)))) = .ok () := by
    rw [vecLocal, sbGate_local fun k hk => (hat k hk).2, bind_ok]
    split
    · next h => exact localPoison_none (hp (bne_iff_ne.1 h))
    · rfl
  simp only [vecPlaces, hres, domainAll_local, hloc, localPlaces_all, bind_ok, if_true]

end

/-! ### Reading -/

/-- The value listed for an element, or the old one. -/
theorem elemOf_map (l : List Nat) (f : Nat → Nat) (old k : Nat) : elemOf (l.map fun j => (j, f j)) old k = if k ∈ l then f k else old := by
  induction l with
  | nil => rfl
  | cons j t ih =>
    unfold elemOf at ih ⊢
    rw [List.map_cons, List.find?_cons]
    by_cases h : j = k
    · simp [h]
    · have h' : ¬ k = j := fun e => h e.symm
      simp only [beq_false_of_ne h, ih, List.mem_cons, h', false_or]

theorem vectorLoadsLocal_of_vecLoad {i : Instr} {n : Nat} {g : VecArgs} {d : Reg} {w : Nat} {act : Lane → P} {addr : Lane → Nat → X}
    (hi : ∀ s, exec i s = stateOp n (vecLoad d g) s) (hg : VecForm g w act addr) : VectorLoadsLocal i n g.srcs d w act addr := by
  intro s off hs hd hl hp
  have hplaces := vecPlaces_local (acc := .load) (load := true) (store := false) hg hl fun _ => hp
  obtain ⟨rfl, rfl, rfl, -, hw⟩ := hg
  have hbytes (k : Nat) : memRead s.mem (lmKey s.sched.core (off k)) (g.w / 8) < 2 ^ g.w := pow_bytes hw ▸ memRead_lt _ _ _
  have hop : vecLoad d g s = .ok (setCur s (putV (kill (cur s) g.srcs) d (vecOf g.w (1024 / g.w) fun k =>
      if k ∈ actives g.w (g.act (cur s)) then memRead s.mem (lmKey s.sched.core (off k)) (g.w / 8)
      else elem g.w (cur s).regs.v[d] k))) := by
    have hes : (localPlaces off (actives g.w (g.act (cur s)))).map (fun e => (e.1, readPlace windows s s.sched.core (g.w / 8) e.2))
        = (actives g.w (g.act (cur s))).map fun k => (k, memRead s.mem (lmKey s.sched.core (off k)) (g.w / 8)) := List.map_map
    simp only [vecLoad, gate_ok hs (free_v hd), hplaces, bind_ok, hes, elemOf_map, localPlaces_all, if_true]
  refine ⟨_, (hi s).trans ((stateOp_ok hop).trans (congrArg _ (after_setCur s n _))), fun k hk => ?_⟩
  rw [elem_vecOf (Nat.mul_div_le 1024 _) _ hk]
  by_cases ha : (g.act (cur s)).getLsbD k = true
  · rw [if_pos (mem_actives.2 ⟨hk, ha⟩), if_pos ha, Nat.mod_eq_of_lt (hbytes k)]
  · rw [if_neg fun h => ha (mem_actives.1 h).2, if_neg ha, Nat.mod_eq_of_lt (elem_lt _ _ _)]

/-! ### Writing -/

/-- Writes of elements at places of own LM, in order; a value may depend on what its place then holds. -/
def writeLocal (off : Nat → Nat) (c n : Nat) (val : Nat → Nat → Nat) (s : State) (l : List Nat) : State :=
  l.foldl (fun t k => storeKey t (lmKey c (off k)) n (val k (memRead t.mem (lmKey c (off k)) n))) s

section
variable (off : Nat → Nat) (c n : Nat) (val : Nat → Nat → Nat) (s : State) (l : List Nat)

theorem writeLocal_mem : (writeLocal off c n val s l).mem
    = l.foldl (fun m k => memWrite m (lmKey c (off k)) n (val k (memRead m (lmKey c (off k)) n))) s.mem := by
  unfold writeLocal
  induction l generalizing s with
  | nil => rfl
  | cons k t ih => rw [List.foldl_cons, ih, storeKey_mem, List.foldl_cons]

theorem writeLocal_lanesAndTurns : lanesAndTurns (writeLocal off c n val s l) = lanesAndTurns s :=
  foldl_keeps (fun _ _ => storeKey_lanesAndTurns _ _ _ _) l s

theorem LocalWritten.writeLocal {r : State} (h : LocalWritten r s) : LocalWritten r (writeLocal off c n val s l) :=
  List.foldlRecOn l _ (motive := LocalWritten r) h fun _ ht _ _ => ht.storeKey_lm _ _ _ _

end

/-- Elements written leave every byte outside them. -/
theorem memGet_foldl_memWrite_other (key : Nat → Nat) (n : Nat) (val : Nat → Nat) (l : List Nat) {m : Memory} (hm : m.wf = true) {b : Nat}
    (h : ∀ k ∈ l, b < key k ∨ key k + n ≤ b) : memGet (l.foldl (fun m k => memWrite m (key k) n (val k)) m) b = memGet m b := by
  induction l generalizing m with
  | nil => rfl
  | cons k t ih =>
    rw [List.foldl_cons, ih (memWrite_wf hm _ _ _) fun j hj => h j (List.mem_cons_of_mem k hj)]
    exact memGet_memWrite_other hm _ _ _ (h k List.mem_cons_self)

theorem vectorStoresLocal_of_vecStore {i : Instr} {n : Nat} {g : VecArgs} {data : Lane → V} {w : Nat} {act : Lane → P}
    {addr : Lane → Nat → X} (hi : ∀ s, exec i s = stateOp n (vecStore data g) s) (hg : VecForm g w act addr) :
    VectorStoresLocal i n g.srcs w act addr data := by
  intro s off hm hs hl key
  have hplaces := vecPlaces_local (acc := .store) (load := false) (store := true) hg hl (fun h => absurd rfl h)
  obtain ⟨rfl, rfl, rfl, -, -⟩ := hg
  have hop : vecStore data g s = .ok (clearCovered (writeLocal off s.sched.core (g.w / 8) (fun k _ => elem g.w (data (cur s)) k)
        (setCur s (kill (cur s) g.srcs)) (actives g.w (g.act (cur s))))
      ((localPlaces off (actives g.w (g.act (cur s)))).map fun e => (placeKey s.sched.core e.2, g.w / 8))) := by
    simp only [vecStore, gate_ok hs (free_nil _), hplaces, bind_ok, localPlaces_all, if_true]
    rw [localPlaces, List.foldl_map]
    rfl
  have hmem : (writeLocal off s.sched.core (g.w / 8) (fun k _ => elem g.w (data (cur s)) k) (setCur s (kill (cur s) g.srcs))
      (actives g.w (g.act (cur s)))).mem = (actives g.w (g.act (cur s))).foldl
        (fun m k => memWrite m (key k) (g.w / 8) (elem g.w (data (cur s)) k)) s.mem := writeLocal_mem _ _ _ _ _ _
  refine ⟨_, (hi s).trans (stateOp_ok hop), ?_, ?_, ?_, fun b hb => ?_⟩
  · rw [cur_after, cur_of_lanesAndTurns ((clearCovered_lanesAndTurns _ _).trans (writeLocal_lanesAndTurns _ _ _ _ _ _)), cur_setCur]
  · exact ((((localWritten_setCur s _).writeLocal _ _ _ _ _ _).clearCovered _).after _ _).machineKept
  · rw [after_mem, clearCovered_mem, hmem]
  · rw [after_mem, clearCovered_mem, hmem]
    exact memGet_foldl_memWrite_other key _ _ _ hm hb

theorem vectorAddsLocal_of_vecScatterAdd {i : Instr} {n : Nat} {f : Fmt} {g : VecArgs} {data : Lane → V} {w : Nat} {act : Lane → P}
    {addr : Lane → Nat → X} (hi : ∀ s, exec i s = stateOp n (vecScatterAdd f data g) s) (hg : VecForm g w act addr) :
    VectorAddsLocal i n g.srcs w act addr data (scatterSum f) := by
  intro s off hspec hs hl hp key
  have hplaces := vecPlaces_local (acc := .atomic) (load := false) (store := true) hg hl fun _ => hp
  obtain ⟨rfl, rfl, rfl, -, -⟩ := hg
  have hbad : firstPoison s s.sched.core (g.w / 8) (localPlaces off (actives g.w (g.act (cur s)))) = none := by
    simp [firstPoison, localPlaces, Place.isLocal]
  have hclean : (localPlaces off (actives g.w (g.act (cur s)))).filter (fun e => !poisoned s (placeKey s.sched.core e.2) (g.w / 8))
      = localPlaces off (actives g.w (g.act (cur s))) := by
    rw [List.filter_eq_self]
    intro e he
    obtain ⟨k, hk, rfl⟩ := List.mem_map.1 he
    simp [placeKey, hp k hk]
  have hop : vecScatterAdd f data g s = .ok (writeLocal off s.sched.core (g.w / 8)
      (fun k old => scatterSum f old (elem g.w (data (cur s)) k)) (setCur s (kill (cur s) g.srcs)) (actives g.w (g.act (cur s)))) := by
    simp only [vecScatterAdd, irrevocable_ok hspec, gate_ok hs (free_nil _), hplaces, hbad, hclean, bind_ok, localPlaces_all, if_true]
    rw [localPlaces, List.foldl_map]
    rfl
  refine ⟨_, (hi s).trans (stateOp_ok hop), ?_, ?_, ?_⟩
  · rw [cur_after, cur_of_lanesAndTurns (writeLocal_lanesAndTurns _ _ _ _ _ _), cur_setCur]
  · exact (((localWritten_setCur s _).writeLocal _ _ _ _ _ _).after _ _).machineKept
  · rw [after_mem, writeLocal_mem, setCur_mem]

/-! ### The instructions -/

theorem lane_width {f : Fmt} (h : f.lane = true) : fmtWidth f = 32 ∨ fmtWidth f = 64 := (amoWidth_of_lane h).2

theorem lane_of_and {b f : Bool} (h : (b && f) = true) : f = true := (Bool.and_eq_true_iff.1 h).2

theorem vectorLoads_hold : Claims.VectorLoads :=
  ⟨fun o => vectorLoadsLocal_of_vecLoad (fun _ => rfl) (vecForm_row _ _ o.imm _ (.inl rfl)),
    fun o => vectorLoadsLocal_of_vecLoad (fun _ => rfl) (vecForm_rowC _ o.b),
    fun o hw => vectorLoadsLocal_of_vecLoad (fun _ => rfl) (vecForm_row _ _ o.off _ (lane_width hw)),
    fun o => vectorLoadsLocal_of_vecLoad (fun _ => rfl) (vecForm_stride _ _ _ o.ty),
    fun o => vectorLoadsLocal_of_vecLoad (fun _ => rfl) (vecForm_gather _ _ o.b _ (tyW_width o.ty)),
    fun o hw => vectorLoadsLocal_of_vecLoad (fun _ => rfl) (vecForm_gather _ _ o.b _ (lane_width (lane_of_and hw)))⟩

theorem vectorStores_hold : Claims.VectorStores := by
  have hlane {b f e : Bool} (h : (b && f && e) = true) : f = true := (Bool.and_eq_true_iff.1 (Bool.and_eq_true_iff.1 h).1).2
  exact ⟨fun o => vectorStoresLocal_of_vecStore (fun _ => rfl) (vecForm_row _ _ o.imm _ (.inl rfl)),
    fun o => vectorStoresLocal_of_vecStore (fun _ => rfl) (vecForm_rowC _ o.b),
    fun o hw => vectorStoresLocal_of_vecStore (fun _ => rfl) (vecForm_row _ _ o.off _ (lane_width (lane_of_and hw))),
    fun o => vectorStoresLocal_of_vecStore (fun _ => rfl) (vecForm_stride _ _ _ o.ty),
    fun o => vectorStoresLocal_of_vecStore (fun _ => rfl) (vecForm_gather _ _ o.b _ (tyW_width o.ty)),
    fun o hw => vectorStoresLocal_of_vecStore (fun _ => rfl) (vecForm_gather _ _ o.b _ (lane_width (lane_of_and hw))),
    fun o => vectorAddsLocal_of_vecScatterAdd (fun _ => rfl) (vecForm_gather _ _ o.b _ (tyW_width o.ty)),
    fun o hw => vectorAddsLocal_of_vecScatterAdd (fun _ => rfl) (vecForm_gather _ _ o.b _ (lane_width (hlane hw)))⟩

/-- Settles O25: the elements of every form lie where the statement writes out, all of them pass their checks, and the operation on their
places reads them at once, or writes them one after the other. -/
theorem localVectorAccesses : Obligations.LocalVectorAccesses := ⟨vectorLoads_hold, vectorStores_hold⟩

end Sys2Proof.Machine
end

section
/-! O28, part 1: where LD, ST and AMO trap (R138, R152, R212). -/

namespace Sys2Proof.Machine
open Sys2Proof.Safety

/-! ### The first check that fails (R138) -/

/-- The only addresses of own LM are those of its window (R137). -/
theorem toNat_of_ownLm {s : State} {c off : Nat} {a : X} (h : classOf s c a = .ownLm off) :
    a.toNat = 0xFF80 * 2 ^ 48 + off ∧ off < 0x80000 := by
  unfold classOf at h
  dsimp only at h
  split at h
  · cases h
  · split at h
    · obtain rfl := AddrClass.ownLm.inj h
      omega
    · split at h
      · split at h <;> cases h
      · split at h <;> cases h

section
variable {s : State} {c : Nat} {ctx : Option Nat} {acc : Access} {noType : Bool} {a : X} {n off : Nat}

theorem locate_attic (hc : classOf s c a = .ownLm off) (h : 0x6C000 ≤ off) :
    locate s c ctx acc noType a n = .error (.fault .lmProtection a) := by
  simp only [locate, hc, atticBase, h, if_true, trapAt]

theorem locate_misaligned_lm (hc : classOf s c a = .ownLm off) (h : off < 0x6C000) (hal : a.toNat % n ≠ 0) :
    locate s c ctx acc noType a n = .error (.fault .misaligned a) := by
  simp only [locate, hc, atticBase, Nat.not_le.2 h, hal, ne_eq, not_false_eq_true, if_false, if_true, trapAt]

theorem locate_misaligned_shared (hc : classOf s c a = .shared off) (hal : a.toNat % n ≠ 0) :
    locate s c ctx acc noType a n = .error (.fault .misaligned a) := by
  simp only [locate, hc, hal, ne_eq, not_false_eq_true, if_true, trapAt]

theorem locate_misaligned_global (hlow : a.toNat < 2 ^ 56) (hal : a.toNat % n ≠ 0) :
    locate s c ctx acc noType a n = .error (.fault .misaligned a) := by
  simp only [locate, classOf_global hlow, hal, ne_eq, not_false_eq_true, if_true, trapAt]

theorem locate_untranslated (hlow : a.toNat < 2 ^ 56) (hal : a.toNat % n = 0) (hway : transWay s c ctx a.toNat acc = .opened)
    (h : translate s c ctx a.toNat acc = none) : locate s c ctx acc noType a n = .error (.fault .translation a) := by
  simp only [locate, classOf_global hlow, hal, hway, h, reach_opened, ne_eq, not_true_eq_false, if_false, trapAt]

theorem locate_otherLm {e : Nat} (hc : classOf s c a = .otherLm e off) : locate s c ctx acc noType a n = .error (.fault .address a) := by
  simp only [locate, hc, trapAt]

theorem locate_unmapped (hc : classOf s c a = .unmapped) : locate s c ctx acc noType a n = .error (.fault .address a) := by
  simp only [locate, hc, trapAt]

/-- A page of type 10 takes no atomics (R152). -/
theorem locate_uncached_atomic {t : State} {pa : Nat} {de : Bool} (hlow : a.toNat < 2 ^ 56) (hal : a.toNat % n = 0)
    (hway : transWay s c ctx a.toNat .atomic = .opened) (h : translate s c ctx a.toNat .atomic = some (t, pa, 2, de)) :
    locate s c ctx .atomic noType a n = .error (.fault .accessType a) := by
  simp only [locate, classOf_global hlow, hal, hway, h, reach_opened, BEq.rfl, Bool.and_self, Bool.true_or, ne_eq, not_true_eq_false,
    if_false, if_true, trapAt]

end

section
variable {s : State} {acc : Access} {a : X} {n off : Nat} {load store : Bool} {e : Stop}

theorem scalarPlace_error (h : locate s s.sched.core (ctxOf s s.sched.core (cur s)) acc false a n = .error e) :
    scalarPlace s acc a n load store = .error e := by
  simp only [scalarPlace, resolve, h]
  rfl

/-- An aligned address of own LM below the Attic is one of an access that lies there (R135). -/
theorem localAt_of_ownLm {c : Nat} (hn : n ∣ 0x6C000) (hp : PowerSize n) (hc : classOf s c a = .ownLm off) (h : off < 0x6C000)
    (hal : a.toNat % n = 0) : LocalAt a n off := by
  obtain ⟨ha, -⟩ := toNat_of_ownLm hc
  obtain ⟨k, hk, rfl⟩ := hp
  have hbase : 2 ^ k ∣ 0xFF80 * 2 ^ 48 := Nat.dvd_mul_left_of_dvd (Nat.pow_dvd_pow 2 hk) _
  have hoff : 2 ^ k ∣ off := (Nat.dvd_add_right hbase).1 (ha ▸ Nat.dvd_of_mod_eq_zero hal)
  obtain ⟨m, hm⟩ := hn
  obtain ⟨j, rfl⟩ := hoff
  refine ⟨ha, ?_, Nat.mul_mod_right _ _⟩
  rw [hm] at h ⊢
  have hlt : j < m := Nat.lt_of_mul_lt_mul_left h
  exact (Nat.mul_succ _ _).symm ▸ Nat.mul_le_mul_left _ hlt

/-- A poisoned word of own LM is found after its alignment and its conflicts (R138). -/
theorem scalarPlace_poisoned (hl : LocalAt a n off) (hn : PowerSize n) (hc : NoConflict s off n (acc != .load)) (hacc : acc ≠ .store)
    (hp : poisoned s (lmKey s.sched.core off) n = true) : scalarPlace s acc a n load store = .error (.fault .poisoned a) := by
  have ha : BitVec.ofNat 64 (0xFF80 * 2 ^ 48 + off) = a := by rw [← hl.1, BitVec.ofNat_toNat, BitVec.setWidth_eq]
  have hpoison : localPoison s s.sched.core n [(0, .lm off)] = .error (.fault .poisoned a) := by
    simp only [localPoison, List.find?, Place.isLocal, placeKey, hp, Bool.and_self, ha, trapAt]
  have hacc' : (acc != .store) = true := bne_iff_ne.2 hacc
  simp only [scalarPlace, resolve_local hl hn, domainCheck, Place.isLocal, sbGate_ok hc, hacc', hpoison, bind_ok, if_true]
  rfl

end

/-! ### Instructions that trap (R212) -/

section
variable {s : State} {i : Instr} {n : Nat} {addr : Lane → X} {pre : Lane → Prop} {e : Stop}

theorem LoadForm.stops {g : LoadArgs} (h : LoadForm i n g addr pre) (hpre : pre (cur s)) (hs : Ready (cur s) g.srcs)
    (hd : XFree (cur s) g.d) (he : scalarPlace s .load (addr (cur s)) g.size true false = .error e) : exec i s = takeStop s e := by
  obtain ⟨hrun, rfl, hord, -⟩ := h
  have hgate : gate (cur s) g.srcs [.x g.d] = .ok () := gate_ok hs (free_cons.2 ⟨hd, free_nil _⟩)
  refine (hrun s hpre).trans (stateOp_error ?_)
  cases ho : g.ordered
  all_goals
    simp only [loadOp, ho, irrevocable_ok (hord _ hpre _), hgate, he, bind_ok, if_true, if_false, Bool.false_eq_true]
    rfl

theorem StoreForm.stops {g : StoreArgs} (h : StoreForm i n g addr pre) (hpre : pre (cur s)) (hs : Ready (cur s) g.srcs)
    (he : scalarPlace s .store (addr (cur s)) g.size false true = .error e) : exec i s = takeStop s e := by
  obtain ⟨hrun, rfl, hord, -⟩ := h
  have hgate : gate (cur s) g.srcs [] = .ok () := gate_ok hs (free_nil _)
  refine (hrun s hpre).trans (stateOp_error ?_)
  cases ho : g.ordered
  all_goals
    simp only [storeOp, ho, irrevocable_ok (hord _ hpre _), hgate, he, bind_ok, if_true, if_false, Bool.false_eq_true]
    rfl

theorem atomicOp_error {d : Reg} {srcs : List Opnd} {f : Fmt} {new : Lane → Nat → Nat} (hspec : (cur s).firing.spec = false)
    (hs : Ready (cur s) srcs) (hd : XFree (cur s) d) (he : scalarPlace s .atomic (addr (cur s)) (amoWidth f / 8) true false = .error e) :
    atomicOp d srcs addr f new s = .error e := by
  have hgate : gate (cur s) srcs [.x d] = .ok () := gate_ok hs (free_cons.2 ⟨hd, free_nil _⟩)
  simp only [atomicOp, irrevocable_ok hspec, hgate, he, bind_ok]
  rfl

end

/-- What a scalar access makes of the faults of its address, class by class (R138). -/
theorem addressFaults {s : State} {acc : Access} {a : X} {n : Nat} {load store : Bool} {stops : FaultCode → Prop}
    (stop : ∀ code, scalarPlace s acc a n load store = .error (.fault code a) → stops code) :
    (∀ off, classOf s s.sched.core a = .ownLm off → 0x6C000 ≤ off → stops .lmProtection)
    ∧ (∀ off, classOf s s.sched.core a = .ownLm off → off < 0x6C000 → a.toNat % n ≠ 0 → stops .misaligned)
    ∧ (∀ off, classOf s s.sched.core a = .shared off → a.toNat % n ≠ 0 → stops .misaligned)
    ∧ (a.toNat < 2 ^ 56 → (a.toNat % n ≠ 0 → stops .misaligned)
      ∧ (a.toNat % n = 0 → transWay s s.sched.core (ctxOf s s.sched.core (cur s)) a.toNat acc = .opened →
        translate s s.sched.core (ctxOf s s.sched.core (cur s)) a.toNat acc = none → stops .translation))
    ∧ (∀ e off, classOf s s.sched.core a = .otherLm e off → stops .address)
    ∧ (classOf s s.sched.core a = .unmapped → stops .address) := by
  refine ⟨?attic, ?misaligned, ?shared, fun hlow => ⟨?global, ?untranslated⟩, ?other, ?unmapped⟩
  case attic => exact fun off hc h => stop _ (scalarPlace_error (locate_attic hc h))
  case misaligned => exact fun off hc h hal => stop _ (scalarPlace_error (locate_misaligned_lm hc h hal))
  case shared => exact fun off hc hal => stop _ (scalarPlace_error (locate_misaligned_shared hc hal))
  case global => exact fun hal => stop _ (scalarPlace_error (locate_misaligned_global hlow hal))
  case untranslated => exact fun hal hway htr => stop _ (scalarPlace_error (locate_untranslated hlow hal hway htr))
  case other => exact fun e off hc => stop _ (scalarPlace_error (locate_otherLm hc))
  case unmapped => exact fun hc => stop _ (scalarPlace_error (locate_unmapped hc))

theorem ldFmt_dvd (f : Fin 7) : (ldFmt f).1 ∣ 0x6C000 := by revert f; decide

/-- The bytes of LD's formats (R147). -/
theorem ldFmt_bytes (f : Fin 7) : (match f.val with
    | 0 => 1 | 1 => 1 | 2 => 2 | 3 => 2 | 4 => 4 | 5 => 4 | _ => 8) = (ldFmt f).1 := by
  revert f; decide

theorem accessFaults_hold : Claims.AccessFaults := by
  refine ⟨fun s o ha hd => ?ld, fun s o ha hd => ?st, fun s o t pa de hg hspec ha hb hd hf => ?amo⟩
  case ld =>
    intro n
    have hn : n = (ldFmt o.f).1 := ldFmt_bytes o.f
    clear_value n
    subst hn
    intro a stops
    have stop (code : FaultCode) (he : scalarPlace s .load a (ldFmt o.f).1 true false = .error (.fault code a)) : stops code :=
      (loadForm_ld o).stops trivial (ready_cons.2 ⟨ha, ready_nil _⟩) hd he
    obtain ⟨attic, misaligned, rest⟩ := addressFaults stop
    refine ⟨fun off hc => ⟨attic off hc, misaligned off hc, fun h hal hconf hp => stop _ ?_⟩, rest⟩
    have hat := localAt_of_ownLm (ldFmt_dvd o.f) (powerSize_ldFmt o.f) hc h hal
    exact scalarPlace_poisoned hat (powerSize_ldFmt o.f) hconf (by decide) hp
  case st =>
    intro n a stops
    have stop (code : FaultCode) (he : scalarPlace s .store a n false true = .error (.fault code a)) : stops code :=
      (storeForm_st o).stops trivial (ready_cons.2 ⟨ha, ready_cons.2 ⟨hd, ready_nil _⟩⟩) he
    obtain ⟨attic, misaligned, rest⟩ := addressFaults stop
    exact ⟨fun off hc => ⟨attic off hc, misaligned off hc⟩, rest⟩
  case amo =>
    intro a hlow hal hway htr
    have hwidth : amoWidth o.fmt / 8 = 8 := by rw [hf]; rfl
    have haddr : offAddr o.a.reg o.off (amoWidth o.fmt / 8) (cur s) = a := by rw [hwidth]; exact offAddr_eq _ _ _ _
    refine (guardedStateOp_of_bit hg).trans (stateOp_error (e := .fault .accessType a) ?_)
    refine atomicOp_error hspec (ready_cons.2 ⟨ha, ready_cons.2 ⟨hb, ready_nil _⟩⟩) hd (scalarPlace_error ?_)
    rw [haddr, hwidth]
    exact locate_uncached_atomic hlow hal hway htr

end Sys2Proof.Machine
end

section
/-! O28, part 2: signatures, and what the accesses of a speculative task record and abort (R322 to R325, R328). -/

namespace Sys2Proof.Machine
open Sys2Proof.Safety

/-! ### Signatures (R322) -/

theorem bit_eq_testBit (w k : Nat) : bit w k = w.testBit k := by
  rw [Nat.testBit_eq_decide_div_mod_eq]
  rfl

/-- A bit that is set once more leaves the others, and none is lost. -/
theorem bit_setOnce (g b k : Nat) : bit (if bit g b then g else g + 2 ^ b) k = (bit g k || decide (k = b)) := by
  cases hb : bit g b with
  | true =>
    by_cases h : k = b
    · simp [h, hb]
    · simp [h]
  | false =>
    have hput : g + 2 ^ b = putBits g b 1 1 := by
      have hzero : bits g b 1 = 0 := by
        have hmod : g / 2 ^ b % 2 ≠ 1 := by simpa [bit] using hb
        rw [bits, pow_one]
        omega
      simp [putBits, hzero]
    rw [if_neg (by simp), hput, bit_eq_testBit, bit_eq_testBit, testBit_putBits]
    by_cases h : k = b
    · simp [h]
    · rw [if_neg (by omega), decide_eq_false h, Bool.or_false]

theorem bit_foldl_setOnce (l : List Nat) (g k : Nat) :
    bit (l.foldl (fun g b => if bit g b then g else g + 2 ^ b) g) k = true ↔ bit g k = true ∨ k ∈ l := by
  induction l generalizing g with
  | nil => simp
  | cons b t ih =>
    rw [List.foldl_cons, ih, bit_setOnce, Bool.or_eq_true, decide_eq_true_eq, List.mem_cons, or_assoc]

theorem sigHits_sigInsert_same (g va : Nat) : sigHits (sigInsert g va) va = true := by
  rw [sigHits, List.all_eq_true]
  exact fun b hb => (bit_foldl_setOnce _ _ _).2 (.inr hb)

theorem sigHits_sigInsert {g vb : Nat} (h : sigHits g vb = true) (va : Nat) : sigHits (sigInsert g va) vb = true := by
  rw [sigHits, List.all_eq_true] at h ⊢
  exact fun b hb => (bit_foldl_setOnce _ _ _).2 (.inl (h b hb))

/-! ### Accesses of a speculative task (R323 to R325, R328) -/

section
variable {s : State} {n va pa mt : Nat} {t : Task} {de write : Bool}

/-- Off the pages that are checked the task waits until it is the earliest (R328). -/
theorem lineAccess_unchecked (ht : taskOf s n = some t) (hspec : t.spec = true) (h : de = false ∨ mt ≠ 0) :
    lineAccess s ⟨some n, none⟩ va pa mt de write = .error (.wait .earliest) := by
  have hpage : (!de || decide (mt ≠ 0)) = true := by simpa using h
  simp only [lineAccess, Option.bind_some, ht, Option.map_some, hspec, hpage, Bool.and_self, if_true, waitFor]

/-- On a checked page whose line nothing holds, the access is recorded. -/
theorem lineAccess_checked (ht : taskOf s n = some t) (hh : holder s t.domain (some va) (lineOf pa) write = none) :
    lineAccess s ⟨some n, none⟩ va pa 0 true write = if write then taskWrite s n va pa else taskRead s n va pa := by
  simp only [lineAccess, Option.bind_some, ht, Option.map_some, hh, Option.isNone_none, await, if_true, bind_ok, Bool.not_true,
    ne_eq, not_true_eq_false, decide_false, Bool.or_self, Bool.and_false, Bool.false_eq_true, if_false]

/-- No task with a lower key, no forwarder. -/
theorem forwarder_none {line : Nat} (h : ∀ e ∈ domainTasks s t.domain, ¬ taskKey e.2 < taskKey t) : forwarder s t line = none := by
  have hnil : (domainTasks s t.domain).filter (fun e => decide (taskKey e.2 < taskKey t) && e.2.wset.contains line) = [] := by
    rw [List.filter_eq_nil_iff]
    intro e he
    simp [h e he]
  rw [forwarder, hnil]
  rfl

/-- Alone in its domain, a task aborts none. -/
theorem abortLater_alone {dom : Nat} (hd : domainTasks s dom = [(n, t)]) (ht : taskOf s n = some t) (hit : Task → Bool) :
    abortLater s dom (taskKey t) hit = s := by
  simp [abortLater, hd, ht]

theorem taskRead_alone (ht : taskOf s n = some t) (hd : domainTasks s t.domain = [(n, t)]) : taskRead s n va pa = .ok (setTask s n { t with
    rsig := sigInsert t.rsig va
    rset := if t.rset.contains (lineOf va, lineOf pa) then t.rset else (lineOf va, lineOf pa) :: t.rset }) := by
  have hf : forwarder s t (lineOf pa) = none := forwarder_none (by simp [hd])
  simp only [taskRead, ht, hf, addDep, bind_ok, abortLater_alone hd ht]

/-- A write of a task without a forwarder: a line that is new to it is logged, after the later tasks that hold it are aborted. -/
theorem taskWrite_new (ht : taskOf s n = some t) (hspec : t.spec = true) (hf : forwarder s t (lineOf pa) = none)
    (hnew : lineOf pa ∉ t.wset) (hroom : t.wset.length < 64) :
    let u := abortLater s t.domain (taskKey t) (fun u => sigHits u.rsig va || sigHits u.wsig va)
    taskWrite s n va pa = .ok (setTask u n { t with
      undo := (lineOf pa, memRead u.mem (lineOf pa) 64) :: t.undo
      wset := insertNat t.wset (lineOf pa), wsig := sigInsert t.wsig va }) := by
  have hc : t.wset.contains (lineOf pa) = false := by simpa using hnew
  simp only [taskWrite, ht, hf, addDep, bind_ok, hspec, hc, Nat.not_le.2 hroom, decide_false, Bool.and_false, Bool.false_eq_true,
    if_false, if_true]

theorem taskWrite_full (ht : taskOf s n = some t) (hspec : t.spec = true) (hf : forwarder s t (lineOf pa) = none)
    (hnew : lineOf pa ∉ t.wset) (hfull : 64 ≤ t.wset.length) : taskWrite s n va pa = .error (.wait .earliest) := by
  have hc : t.wset.contains (lineOf pa) = false := by simpa using hnew
  simp only [taskWrite, ht, hf, addDep, bind_ok, hspec, hc, hfull, decide_true, Bool.not_false, Bool.and_self, if_true, waitFor]

theorem taskWrite_again (ht : taskOf s n = some t) (hd : domainTasks s t.domain = [(n, t)]) (hold : lineOf pa ∈ t.wset) :
    taskWrite s n va pa = .ok (setTask s n t) := by
  have hf : forwarder s t (lineOf pa) = none := forwarder_none (by simp [hd])
  have hc : t.wset.contains (lineOf pa) = true := by simpa using hold
  simp only [taskWrite, ht, hf, addDep, bind_ok, hc, abortLater_alone hd ht, Bool.not_true, Bool.and_false, Bool.false_and,
    Bool.false_eq_true, if_false, if_true]

/-- A later task that an abort may reach, and that has the line, is aborted; the task itself is not. -/
theorem abortLater_later {dom m : Nat} {u : Task} {hit : Task → Bool} (hd : domainTasks s dom = [(n, t), (m, u)])
    (ht : taskOf s n = some t) (hu : taskOf s m = some u) (hrun : u.state = .running) (hsp : spared s m u = false)
    (hkey : taskKey t < taskKey u) (hhit : hit u = true) : abortLater s dom (taskKey t) hit = abortStep s m false := by
  simp [abortLater, hd, ht, hu, hrun, hsp, hkey, hhit]

end

theorem orderedAccess_hold : Claims.OrderedAccess := by
  refine ⟨rfl, rfl, rfl, sigHits_sigInsert_same, fun g va vb h => sigHits_sigInsert h va, fun s n t va pa ht hspec => ⟨?_, ?alone, ?later⟩⟩
  · exact fun mt de w h => lineAccess_unchecked ht hspec h
  case alone =>
    intro hd
    have hf : forwarder s t (lineOf pa) = none := forwarder_none (by simp [hd])
    refine ⟨fun hh => (lineAccess_checked ht hh).trans (taskRead_alone ht hd), fun hh => ?_⟩
    have hwrite := lineAccess_checked (write := true) ht hh
    rw [if_pos rfl] at hwrite
    refine ⟨fun hnew hroom => hwrite.trans ?_, fun hold => hwrite.trans (taskWrite_again ht hd hold),
      fun hnew hfull => hwrite.trans (taskWrite_full ht hspec hf hnew hfull)⟩
    rw [taskWrite_new ht hspec hf hnew hroom, abortLater_alone hd ht]
  case later =>
    intro m u _ hd hu hrun hsp hkey hhit hh hnew hroom
    have hf : forwarder s t (lineOf pa) = none := forwarder_none (by simp [hd, Nat.le_of_lt hkey])
    refine (lineAccess_checked ht hh).trans ?_
    rw [if_pos rfl, taskWrite_new ht hspec hf hnew hroom, abortLater_later hd ht hu hrun hsp hkey (by simp [hhit])]

/-- Settles O28: an access traps at the first check of its address that fails; and a speculative task's access, on a page that is checked,
records its line after the later tasks that hold it are aborted. -/
theorem accessChecks : Obligations.AccessChecks := ⟨accessFaults_hold, orderedAccess_hold⟩

end Sys2Proof.Machine
end

section
/-! O26, refuted: a vector store to a window of the package (R217). A place in a window has the key of nothing, which is no address of a
window, so that `VectorPlaces` admits it; with a memory type other than 10 the store then reaches nothing (log entry 5), where the
statement has it write the bytes at that key. -/

namespace Sys2Proof.Machine
open Sys2Proof.Safety

/-- The key of a place in a window does not tell that it is one. -/
theorem placeKey_of_isWindow {c va pa mt : Nat} {de cz : Bool} (h : isWindow pa = true) :
    placeKey c (.phys va pa mt de cz) = voidKey ∧ isWindow (placeKey c (.phys va pa mt de cz)) = false := by
  have hkey : placeKey c (.phys va pa mt de cz) = voidKey := if_pos h
  exact ⟨hkey, hkey ▸ by decide⟩

/-- A lane whose p1 has element 0 alone, and whose v registers hold ones. -/
def storingLane : Lane := { Lane.reset with regs := { Lane.reset.regs with
  p := Vector.ofFn fun _ => 1
  v := Vector.ofFn fun _ => BitVec.allOnes 1024 } }

/-- The first page of the windows, readable and writable, with A and D set and memory type 00. -/
def windowEntry : TlbEntry := ⟨0, 2, 0, 0xFF0000000007F⟩

/-- Core 0 in focus, with a TLB that maps the first 64 GiB of context 0 to the first window. -/
def windowMapped : State :=
  let s := onCore State.reset 0 (fun k => { k with ctl := { k.ctl with tlb := [windowEntry] } })
  setCur { s with sched := { s.sched with core := 0, lane := 0, fwCtx := some 0 } } storingLane

/-- `VST.ui32 [x0], v1` under p1. -/
def storeWord : VstXOp := ⟨plain 0, plain 1, 1, .ui32, 0⟩

/-- The place of the one active element. -/
def windowPlaces : List (Nat × Place) := [(0, .phys 0 0xFF00000000000 0 false false)]

theorem windowMapped_places (addr : Nat → X) (h : addr 0 = 0) :
    VectorPlaces windowMapped windowMapped .store 32 1 addr windowPlaces := by
  have hact : actives 32 1 = [0] := by decide
  refine ⟨windowMapped, ?_, rfl, by simp [windowPlaces], ?_⟩
  · rw [hact, List.map_singleton, h]
    rfl
  · simp only [windowPlaces, List.mem_singleton, forall_eq]
    exact ⟨rfl, (placeKey_of_isWindow (by decide)).2⟩

/-- The store writes no byte. -/
theorem exec_storeWord_mem {t : State} (h : exec (.vstX storeWord) windowMapped = .next t) : t.mem = [] := by
  have hrun : (match exec (.vstX storeWord) windowMapped with
    | .next t => t.mem == []
    | _ => true) = true := by decide +kernel
  rw [h] at hrun
  simpa using hrun

theorem cur_windowMapped : cur windowMapped = storingLane := cur_setCur _ _

theorem ready_storeWord : Ready (cur windowMapped) [.x storeWord.a, .v storeWord.b] := by
  rw [cur_windowMapped]
  exact ready_cons.2 ⟨.inl rfl, ready_v (l := storingLane) (a := storeWord.b) ⟨by decide, by decide⟩⟩

/-- Refutes O26: a vector store to a page in a window with memory type 00 writes nothing, where the statement has the element's bytes
written at the key of nothing. -/
theorem not_vectorGlobal : ¬ Obligations.VectorGlobal := by
  rintro ⟨-, -, -, hstore, -⟩
  have hplaces := windowMapped_places
    (fun k => getX (cur windowMapped) 0 + (0 : BitVec 9).signExtend 64 * 128 + BitVec.ofNat 64 (k * (32 / 8))) (by decide +kernel)
  obtain ⟨t, ht, -, hmem, -⟩ := hstore storeWord (by decide) windowMapped windowMapped windowPlaces rfl ready_storeWord hplaces
    (by decide +kernel)
  rw [exec_storeWord_mem ht] at hmem
  exact absurd hmem (by decide +kernel)

end Sys2Proof.Machine
end

section
/-! O30, refuted: an abort of a firing whose task the table does not hold (R175). -/

namespace Sys2Proof.Machine
open Sys2Proof.Safety

/-- A lane that runs a speculative ordered firing, of task 0. -/
def strayLane : Lane := { Lane.reset with firing := { Firing.reset with kind := .ordered, spec := true, task := some 0 } }

/-- Core 0 runs that firing, and the Hearth's table holds no task. -/
def strayState : State := setCur State.reset strayLane

theorem cur_strayState : cur strayState = strayLane := cur_setCur _ _

theorem taskOf_strayState (n : Nat) : taskOf strayState n = none := rfl

/-- The firing ends by an abort step, and its instruction does not complete: the PC stays where it is. -/
theorem exec_abortt_strayState {t : State} (h : exec (.abortt ⟨1⟩) strayState = .next t) : (cur t).pc = 0 := by
  have hrun : (match exec (.abortt ⟨1⟩) strayState with
    | .next t => (cur t).pc == 0
    | _ => false) = true := by decide +kernel
  rw [h] at hrun
  simpa using hrun

/-- Refutes O30: with no task of that number in the table, every task that the table holds under it is the earliest of its domain, and
so ABORTT should write 0 and go on; but it takes the firing for one that an abort reaches. -/
theorem not_timestampAndAborts : ¬ Obligations.TimestampAndAborts := by
  rintro ⟨hclaim, -⟩
  have hearliest : ∀ n t, (cur strayState).firing.task = some n → taskOf strayState n = some t → isEarliest strayState t = true :=
    fun n t _ ht => absurd ((taskOf_strayState n).symm.trans ht) nofun
  have hfree : XFree (cur strayState) 1 := .inr (by rw [cur_strayState]; decide)
  have hrun := (((hclaim ⟨1⟩).2 strayState).1 (.inr hearliest) hfree).1
  have hpc := exec_abortt_strayState hrun
  rw [cur_after, cur_strayState] at hpc
  exact absurd hpc (by decide +kernel)

end Sys2Proof.Machine
end

section
/-! Registers of the core-state block (R176, R182): a register written reads back, and a write of own LM is one of memory alone. -/

namespace Sys2Proof.Machine
open Sys2Proof.Safety

/-! ### Writes of own LM -/

theorem LocalWritten.onMem {s t : State} (h : LocalWritten s t) (f : Memory → Memory) : LocalWritten s (onMem t f) := by
  obtain ⟨x, m, q, rfl⟩ := h
  exact ⟨x, f m, q, rfl⟩

@[simp] theorem after_sched (s : State) (n : Nat) (l : Lane) : (after s n l).sched = s.sched := rfl

@[simp] theorem dueEvent_core (s : State) (d : Due) : (dueEvent s d).sched.core = s.sched.core := rfl
@[simp] theorem dueEvent_agenda (s : State) (d : Due) : (dueEvent s d).sched.agenda = s.sched.agenda ++ [.due d] := rfl

theorem ready_xx {l : Lane} {a b : Src} (ha : XReady l a) (hb : XReady l b) : Ready l [.x a, .x b] :=
  ready_cons.2 ⟨ha, ready_cons.2 ⟨hb, ready_nil l⟩⟩

theorem ready_xv {l : Lane} {a b : Src} (ha : XReady l a) (hb : VReady l b) : Ready l [.x a, .v b] :=
  ready_cons.2 ⟨ha, ready_cons.2 ⟨hb, ready_nil l⟩⟩

theorem free_xx {l : Lane} {d e : Reg} (hd : XFree l d) (he : XFree l e) : Free l [.x d, .x e] := free_cons.2 ⟨hd, free_x he⟩

/-- An instruction that acts on the whole state completes with the lane that it leaves. -/
theorem stateOp_of_cur {n : Nat} {f : State → Except Stop State} {s t : State} {l : Lane} (h : f s = .ok t) (hl : cur t = l) :
    stateOp n f s = .next (after t n l) := hl ▸ stateOp_ok h

/-! ### Range registers (R176) -/

@[simp] theorem rangeSet_cores (s : State) (c k : Nat) (r : RangeReg) : (rangeSet s c k r).cores = s.cores := onMem_cores _ _
@[simp] theorem rangeSet_sched (s : State) (c k : Nat) (r : RangeReg) : (rangeSet s c k r).sched = s.sched := onMem_sched _ _
@[simp] theorem coreOf_rangeSet (s : State) (c k : Nat) (r : RangeReg) (d : Nat) : coreOf (rangeSet s c k r) d = coreOf s d :=
  coreOf_onMem _ _ _
@[simp] theorem laneOf_rangeSet (s : State) (c k : Nat) (r : RangeReg) (d l : Nat) : laneOf (rangeSet s c k r) d l = laneOf s d l :=
  laneOf_congr (onMem_cores _ _) _ _
@[simp] theorem cur_rangeSet (s : State) (c k : Nat) (r : RangeReg) : cur (rangeSet s c k r) = cur s := cur_onMem _ _

theorem rangeGet_congr {s t : State} (h : t.mem = s.mem) (c k : Nat) : rangeGet t c k = rangeGet s c k := by
  simp only [rangeGet, h]

theorem rangeGet_domain_lt (s : State) (c k : Nat) : (rangeGet s c k).domain < 65536 := bits_lt _ _ _

/-- A range register reads back as it was written. -/
theorem rangeGet_rangeSet {s : State} (h : MemoryOk s) (c k : Nat) {r : RangeReg} (hd : r.domain < 65536) :
    rangeGet (rangeSet s c k r) c k = r := by
  obtain ⟨next, stop, grain, domain, stealing, valid, steals, lent⟩ := r
  have hnext := next.isLt
  have hstop := stop.isLt
  have hgrain := grain.isLt
  have hdomain : domain < 65536 := hd
  have hsteals := steals.isLt
  have hlent := lent.isLt
  have hstealing := stealing.toNat_lt
  have hvalid := valid.toNat_lt
  have hbit {b : Bool} {w i : Nat} (e : w / 2 ^ i % 2 = b.toNat) : bit w i = b := by
    rw [bit, e]
    cases b <;> rfl
  have hword {n w : Nat} {v : BitVec n} (e : w = v.toNat) : BitVec.ofNat n w = v := by
    rw [e, BitVec.ofNat_toNat, BitVec.setWidth_eq]
  have hlimit : 256 ^ 32 = 2 ^ 256 := by decide
  simp only [rangeGet, rangeSet, onMem_mem, memRead_memWrite_same h, hlimit, bits, RangeReg.mk.injEq]
  refine ⟨hword ?_, hword ?_, hword ?_, ?_, hbit ?_, hbit ?_, hword ?_, hword ?_⟩
  all_goals omega

/-- A range register written leaves every byte outside its 32. -/
theorem memGet_rangeSet_other {s : State} (h : MemoryOk s) (c k : Nat) (r : RangeReg) {x : Nat}
    (hx : x < lmKey c (0x7F000 + 32 * k) ∨ lmKey c (0x7F000 + 32 * k) + 32 ≤ x) :
    memGet (rangeSet s c k r).mem x = memGet s.mem x := by
  rw [rangeSet, onMem_mem]
  exact memGet_memWrite_other h _ _ _ hx

theorem LocalWritten.rangeSet {s t : State} (h : LocalWritten s t) (c k : Nat) (r : RangeReg) : LocalWritten s (rangeSet t c k r) := by
  rw [Machine.rangeSet]
  exact h.onMem _

/-! ### Stream buffers (R182) -/

@[simp] theorem streamSet_sched (s : State) (c b : Nat) (q : StreamBuf) : (streamSet s c b q).sched = s.sched := onMem_sched _ _
@[simp] theorem streamSet_cores (s : State) (c b : Nat) (q : StreamBuf) : (streamSet s c b q).cores = s.cores := onMem_cores _ _
@[simp] theorem cur_streamSet (s : State) (c b : Nat) (q : StreamBuf) : cur (streamSet s c b q) = cur s := cur_onMem _ _

theorem streamGet_congr {s t : State} (h : t.mem = s.mem) (c b : Nat) : streamGet t c b = streamGet s c b := by
  simp only [streamGet, h]

/-- The values that a state block can hold. -/
structure StreamFits (q : StreamBuf) : Prop where
  tail : q.tail < 2 ^ 32
  head : q.head < 2 ^ 32
  size : q.size < 2 ^ 16
  base : q.base < 2 ^ 19
  esz : q.esz < 8

theorem streamGet_fits (s : State) (c b : Nat) : StreamFits (streamGet s c b) :=
  ⟨bits_lt _ _ _, bits_lt _ _ _, bits_lt _ _ _, bits_lt _ _ _, bits_lt _ _ _⟩

/-- A state block reads back as it was written. -/
theorem streamGet_streamSet {s : State} (h : MemoryOk s) (c b : Nat) {q : StreamBuf} (hq : StreamFits q) :
    streamGet (streamSet s c b q) c b = q := by
  obtain ⟨tail, head, size, base, esz⟩ := q
  obtain ⟨htail, hhead, hsize, hbase, hesz⟩ := hq
  have hlimit : 256 ^ 32 = 2 ^ 256 := by decide
  simp only at htail hhead hsize hbase hesz
  simp only [streamGet, streamSet, onMem_mem, memRead_memWrite_same h, hlimit, bits, StreamBuf.mk.injEq]
  refine ⟨?_, ?_, ?_, ?_, ?_⟩
  all_goals omega

/-- A state block written leaves every byte outside its 32. -/
theorem memGet_streamSet_other {s : State} (h : MemoryOk s) (c b : Nat) (q : StreamBuf) {x : Nat}
    (hx : x < lmKey c (0x7F100 + 32 * b) ∨ lmKey c (0x7F100 + 32 * b) + 32 ≤ x) :
    memGet (streamSet s c b q).mem x = memGet s.mem x := by
  rw [streamSet, onMem_mem]
  exact memGet_memWrite_other h _ _ _ hx

end Sys2Proof.Machine
end

section
/-! O31, part 1: RANGE and CHUNK (R176 to R178). -/

namespace Sys2Proof.Machine
open Sys2Proof.Safety

theorem notStealing_ok {s : State} {k : Nat} (h : (rangeGet s s.sched.core k).stealing = false) : notStealing s k = .ok () := by
  simp only [notStealing, h, await, Bool.not_false, if_true]

/-- A register written by an instruction that changes its lane alone beside: it reads back, and no byte outside it changes. -/
theorem rangeSet_after {s : State} (h : MemoryOk s) (x y : Lane) (n c k : Nat) {r : RangeReg} (hd : r.domain < 65536) :
    let t := after (rangeSet (setCur s x) c k r) n y
    cur t = retire n y ∧ MachineKept s t ∧ rangeGet t c k = r
      ∧ ∀ a, a < lmKey c (0x7F000 + 32 * k) ∨ lmKey c (0x7F000 + 32 * k) + 32 ≤ a → memGet t.mem a = memGet s.mem a := by
  have hx : MemoryOk (setCur s x) := h
  refine ⟨cur_after _ _ _, (((localWritten_setCur s x).rangeSet c k r).after n y).machineKept, ?_, fun a ha => ?_⟩
  · rw [rangeGet_congr (after_mem _ _ _), rangeGet_rangeSet hx c k hd]
  · rw [after_mem, memGet_rangeSet_other hx c k r ha, setCur_mem]

/-- A range register that RANGE has set (R177). -/
def rangeStarted (r : RangeReg) (a b : X) (dom : Nat) : RangeReg :=
  { r with next := a, stop := if a.toNat < b.toNat then b else a, grain := 1, domain := dom, valid := true }

/-- How many elements CHUNK takes: the lesser of what is asked and what is left (R178). -/
def chunkSize (r : RangeReg) (n : X) : X := if n.toNat ≤ (r.stop - r.next).toNat then n else r.stop - r.next

/-- A range register from which CHUNK has taken its elements (R178). -/
def rangeTaken (r : RangeReg) (n : X) : RangeReg :=
  { r with next := r.next + chunkSize r n, grain := BitVec.ofNat 32 (min n.toNat 0xFFFFFFFF) }

theorem minuX_left (r : RangeReg) (n : X) : minuX n (r.stop - r.next) = chunkSize r n := by
  simp only [minuX, chunkSize, BitVec.ule, decide_eq_true_eq]

/-- The grain is what was asked, in 32 bits that saturate (R178). -/
theorem grain_eq (n : X) : (if n.ult 0xFFFFFFFF then n.setWidth 32 else 0xFFFFFFFF) = BitVec.ofNat 32 (min n.toNat 0xFFFFFFFF) := by
  have hult : n.ult 0xFFFFFFFF = true ↔ n.toNat < 0xFFFFFFFF := by simp [BitVec.ult]
  by_cases h : n.toNat < 0xFFFFFFFF
  · rw [if_pos (hult.2 h), Nat.min_eq_left h.le]
    rfl
  · rw [if_neg (mt hult.1 h), Nat.min_eq_right (Nat.le_of_not_lt h)]
    rfl

section
variable {s : State} (hspec : (cur s).firing.spec = false)
include hspec

theorem execRange_ready {o : RangeOp} (ha : XReady (cur s) o.a) (hb : XReady (cur s) o.b)
    (hsteal : (rangeGet s s.sched.core o.k.val).stealing = false) :
    execRange o s = .next (after (rangeSet (setCur s (kill (cur s) [.x o.a, .x o.b])) s.sched.core o.k.val
      (rangeStarted (rangeGet s s.sched.core o.k.val) (getX (cur s) o.a.reg) (getX (cur s) o.b.reg) (cur s).firing.domain)) 4
      (kill (cur s) [.x o.a, .x o.b])) := by
  refine stateOp_of_cur ?_ ((cur_rangeSet _ _ _ _).trans (cur_setCur s _))
  simp only [irrevocable_ok hspec, gate_ok (ready_xx ha hb) (free_nil _), notStealing_ok hsteal, bind_ok, BitVec.ult, decide_eq_true_eq,
    rangeStarted]

variable {o : ChunkOp} (ha : XReady (cur s) o.a) (hd : XFree (cur s) o.d) (he : XFree (cur s) (o.d + 1))
  (hsteal : (rangeGet s s.sched.core o.k.val).stealing = false)
include ha hd he hsteal

/-- From a register of another domain or not valid CHUNK takes nothing (R178). -/
theorem execChunk_none (h : (rangeGet s s.sched.core o.k.val).valid = false
      ∨ (rangeGet s s.sched.core o.k.val).domain ≠ (cur s).firing.domain) :
    execChunk o s = .next (after s 4 (putX (putX (kill (cur s) [.x o.a]) o.d 0) (o.d + 1) 0)) := by
  have hcond : (!(rangeGet s s.sched.core o.k.val).valid
      || decide ((rangeGet s s.sched.core o.k.val).domain ≠ (cur s).firing.domain)) = true := by simpa using h
  refine (stateOp_ok ?_).trans (congrArg Host.Outcome.next (after_setCur _ _ _))
  simp only [irrevocable_ok hspec, gate_ok (ready_x ha) (free_xx hd he), notStealing_ok hsteal, bind_ok, hcond, if_true]

theorem execChunk_some (hv : (rangeGet s s.sched.core o.k.val).valid = true)
    (hdom : (rangeGet s s.sched.core o.k.val).domain = (cur s).firing.domain) :
    let n : X := if getX (cur s) o.a.reg = 0 then 1 else getX (cur s) o.a.reg
    let r := rangeGet s s.sched.core o.k.val
    let l := putX (putX (kill (cur s) [.x o.a]) o.d r.next) (o.d + 1) (chunkSize r n)
    execChunk o s = .next (after (rangeSet (setCur s l) s.sched.core o.k.val (rangeTaken r n)) 4 l) := by
  have hcond : (!(rangeGet s s.sched.core o.k.val).valid
      || decide ((rangeGet s s.sched.core o.k.val).domain ≠ (cur s).firing.domain)) = false := by simp [hv, hdom]
  refine stateOp_of_cur ?_ ((cur_rangeSet _ _ _ _).trans (cur_setCur s _))
  simp only [irrevocable_ok hspec, gate_ok (ready_x ha) (free_xx hd he), notStealing_ok hsteal, bind_ok, hcond, Bool.false_eq_true,
    if_false, minuX_left, grain_eq, rangeTaken]

end

theorem rangeInstructions_hold : Claims.RangeInstructions := by
  refine ⟨fun s o hspec hm ha hb hsteal hdom => ?range, fun s o hspec hm ha hd he hsteal => ⟨?none, fun hv hdom => ?some⟩⟩
  case range => exact ⟨_, execRange_ready hspec ha hb hsteal, rangeSet_after hm _ _ _ _ _ hdom⟩
  case none => exact execChunk_none hspec ha hd he hsteal
  case some =>
    exact ⟨_, execChunk_some hspec ha hd he hsteal hv hdom, rangeSet_after hm _ _ _ _ _ (rangeGet_domain_lt s _ _)⟩

end Sys2Proof.Machine
end

section
/-! O31, part 2: STEAL, its victims and its answers (R179, R180). -/

namespace Sys2Proof.Machine
open Sys2Proof.Safety

/-! ### STEAL (R179) -/

/-- A change of the issuing core that keeps its lanes keeps the issuing lane. -/
theorem cur_onCurCore_lanes {f : Core → Core} (hf : ∀ k, (f k).lanes = k.lanes) (s : State) : cur (onCurCore s f) = cur s :=
  laneOf_onCore_lanes hf s _ _ _

/-- The request joins those of the issuing core. -/
def stealQueued (q : StealReq) (x : Core) : Core := { x with msg := { x.msg with steals := x.msg.steals ++ [q] } }

/-- The request of the issuing lane as it begins: every victim is still to be asked. -/
def newSteal (s : State) (k : Nat) : StealReq :=
  ⟨s.sched.lane, k, (cur s).firing.domain, stealVictims s s.sched.core (cur s).firing.domain, none⟩

/-- STEALING is set, the request is outstanding, and the lane waits. -/
def stealBegun (s : State) (k : Nat) (d : Reg) : State :=
  dueEvent (setCur (onCurCore (rangeSet s s.sched.core k { rangeGet s s.sched.core k with stealing := true }) (stealQueued (newSteal s k)))
    (blocked (cur s) (.stealAnswer k d))) (.stealRequest s.sched.core s.sched.lane)

section
variable {s : State} {o : StealOp} (hspec : (cur s).firing.spec = false) (hd : XFree (cur s) o.d)
  (hsteal : (rangeGet s s.sched.core o.k.val).stealing = false)
include hspec hd hsteal

/-- A register that holds elements answers their number at once. -/
theorem execSteal_holds (h : (rangeGet s s.sched.core o.k.val).next.toNat < (rangeGet s s.sched.core o.k.val).stop.toNat) :
    execSteal o s = .next (after s 4 (putX (cur s) o.d
      ((rangeGet s s.sched.core o.k.val).stop - (rangeGet s s.sched.core o.k.val).next))) := by
  simp only [execSteal, irrevocable_ok hspec, gate_ok (ready_nil _) (free_x hd), notStealing_ok hsteal, bind_ok, BitVec.ult,
    decide_eq_true h, if_true, finish_ok, after]

theorem execSteal_waits (h : (rangeGet s s.sched.core o.k.val).stop.toNat ≤ (rangeGet s s.sched.core o.k.val).next.toNat) :
    execSteal o s = .next (stealBegun s o.k.val o.d) := by
  have hcur (t : State) (q : StealReq) : cur (onCurCore t (stealQueued q)) = cur t := 
    cur_onCurCore_lanes (f := stealQueued q) (fun _ => rfl) t
  have hop : execSteal o s = .next (dueEvent (setCur
      (onCurCore (rangeSet s s.sched.core o.k.val { rangeGet s s.sched.core o.k.val with stealing := true })
        (stealQueued (newSteal s o.k.val)))
      (blocked (cur (onCurCore (rangeSet s s.sched.core o.k.val { rangeGet s s.sched.core o.k.val with stealing := true })
        (stealQueued (newSteal s o.k.val)))) (.stealAnswer o.k.val o.d))) (.stealRequest s.sched.core s.sched.lane)) := by
    simp only [execSteal, irrevocable_ok hspec, gate_ok (ready_nil _) (free_x hd), notStealing_ok hsteal, bind_ok, BitVec.ult,
      decide_eq_false (Nat.not_lt.2 h), Bool.false_eq_true, if_false, finish_ok]
    rfl
  rw [hop, hcur, cur_rangeSet, stealBegun]

end

theorem cur_stealBegun (s : State) (k : Nat) (d : Reg) : cur (stealBegun s k d) = blocked (cur s) (.stealAnswer k d) :=
  (cur_dueEvent _ _).trans (cur_setCur _ _)

theorem rangeGet_stealBegun {s : State} (h : MemoryOk s) (k : Nat) (d : Reg) :
    rangeGet (stealBegun s k d) s.sched.core k = { rangeGet s s.sched.core k with stealing := true } := by
  have hmem : (stealBegun s k d).mem = (rangeSet s s.sched.core k { rangeGet s s.sched.core k with stealing := true }).mem := by
    rw [stealBegun, dueEvent_mem, setCur_mem, onCurCore_mem]
  rw [rangeGet_congr hmem, rangeGet_rangeSet h]
  exact rangeGet_domain_lt s _ _

theorem stealBegun_steals (s : State) (k : Nat) (d : Reg) :
    (curCore (stealBegun s k d)).msg.steals = (curCore s).msg.steals ++ [newSteal s k] := by
  have hcore : (stealBegun s k d).sched.core = s.sched.core := by
    rw [stealBegun, dueEvent_core, setCur_sched, onCurCore_sched, rangeSet_sched]
  rw [curCore, hcore, stealBegun, coreOf_dueEvent, setCur, coreOf_setLane_msg, onCurCore, rangeSet_sched, coreOf_onCore_same, coreOf_rangeSet]
  rfl

/-! ### Victims (R180) -/

theorem bestBy_mem {α : Type} {better : α → α → Bool} {l : List α} {a : α} (h : bestBy better l = some a) : a ∈ l := by
  cases l with
  | nil => exact absurd h nofun
  | cons b t =>
    have hmem : t.foldl (fun m b => if better b m then b else m) b ∈ b :: t :=
      List.foldlRecOn t _ (motive := fun m => m ∈ b :: t) List.mem_cons_self fun m hm c hc => by
        split
        · exact List.mem_cons_of_mem _ hc
        · exact hm
    exact Option.some.inj h ▸ hmem

/-- A victim's range is one of its registers. -/
theorem eligibleRange_eq {s : State} {v dom k : Nat} {a : RangeReg} (h : eligibleRange s v dom = some (k, a)) : a = rangeGet s v k := by
  obtain ⟨i, -, hi⟩ := List.mem_map.1 (List.mem_filter.1 (bestBy_mem h)).1
  obtain ⟨rfl, rfl⟩ := Prod.mk.inj hi
  rfl

/-- A victim that may divide its largest range keeps the lower half and gives the upper (R180). -/
theorem victimAnswer_grants {s : State} {v dom k : Nat} {a : RangeReg} (h : eligibleRange s v dom = some (k, a))
    (htwo : 2 ≤ rangeLeft a) (hgrain : 2 * a.grain.toNat ≤ rangeLeft a) (hvac : (quadOf s (quadNo v)).vacating = false) :
    victimAnswer s v dom = (rangeSet s v k { a with stop := a.next + BitVec.ofNat 64 ((rangeLeft a + 1) / 2), lent := satInc a.lent },
      some (a.next + BitVec.ofNat 64 ((rangeLeft a + 1) / 2), a.stop, a.grain)) := by
  simp only [victimAnswer, h, Nat.not_lt.2 htwo, Nat.not_lt.2 hgrain, hvac, decide_false, Bool.or_self, Bool.false_eq_true, if_false]

theorem victimAnswer_cores (s : State) (v dom : Nat) : (victimAnswer s v dom).1.cores = s.cores := by
  unfold victimAnswer
  split
  · rfl
  · dsimp only
    split
    · rfl
    · exact rangeSet_cores _ _ _ _

theorem agentAnswer_cores (s : State) (d dom : Nat) : (agentAnswer s d dom).1.cores = s.cores := by
  unfold agentAnswer
  split
  · rfl
  · dsimp only
    split <;> rfl

/-! ### Answers (R179) -/

theorem setSteal_steals (s : State) (c : Nat) (old : StealReq) (q : Option StealReq) :
    (coreOf (setSteal s c old q) c).msg.steals
      = (coreOf s c).msg.steals.filter (fun x => !(x.lane == old.lane && x.k == old.k)) ++ q.toList := by
  rw [setSteal, coreOf_onCore_same]

theorem laneOf_setSteal (s : State) (c : Nat) (old : StealReq) (q : Option StealReq) (d l : Nat) :
    laneOf (setSteal s c old q) d l = laneOf s d l := laneOf_onCore_lanes (by intro; rfl) s c d l

/-- The only request of its lane, replaced by another of that lane, gives way to it. -/
theorem stealOf_setSteal {s : State} {c l : Nat} {q r : StealReq} (hq : stealOf s c l = some q)
    (honly : ∀ x ∈ (coreOf s c).msg.steals, x.lane = l → x = q) (hr : r.lane = l) : stealOf (setSteal s c q (some r)) c l = some r := by
  have hnone : ((coreOf s c).msg.steals.filter (fun x => !(x.lane == q.lane && x.k == q.k))).find? (fun x => x.lane == l) = none := by
    rw [List.find?_eq_none]
    intro x hx hl
    obtain ⟨hmem, hne⟩ := List.mem_filter.1 hx
    obtain rfl := honly x hmem (eq_of_beq hl)
    simp at hne
  rw [stealOf, setSteal_steals, List.find?_append, hnone]
  simp [hr]

/-- The thief's register once a range is granted it. -/
def rangeGranted (r : RangeReg) (dom : Nat) (a b : X) (g : BitVec 32) : RangeReg :=
  { r with next := a, stop := b, grain := g, domain := dom, valid := true, steals := satInc r.steals }

/-- The end of a STEAL clears STEALING and completes the instruction of the lane that waits. -/
theorem execStealAnswer_done {s : State} {core lane : Nat} (q : StealReq) (n : X) {d : Reg} (hm : MemoryOk s)
    (hb : (laneOf s core lane).status = .blocked) (hw : (laneOf s core lane).wait = some (.stealAnswer q.k d)) :
    laneOf (execStealAnswer.done core lane s q n) core lane
        = retire 4 { putX (laneOf s core lane) d n with status := .ready, wait := none }
      ∧ rangeGet (execStealAnswer.done core lane s q n) core q.k = { rangeGet s core q.k with stealing := false } := by
  have hlane : laneOf (setSteal (rangeSet s core q.k { rangeGet s core q.k with stealing := false }) core q none) core lane
      = laneOf s core lane := (laneOf_setSteal _ _ _ _ _ _).trans (laneOf_rangeSet _ _ _ _ _ _)
  have hdone : execStealAnswer.done core lane s q n
      = setLane (setSteal (rangeSet s core q.k { rangeGet s core q.k with stealing := false }) core q none) core lane
        (retire 4 { putX (laneOf s core lane) d n with status := .ready, wait := none }) := by
    simp only [execStealAnswer.done, hlane, hb, hw]
  rw [hdone]
  refine ⟨laneOf_setLane_same _ _ _ _, ?_⟩
  rw [rangeGet_congr ((setLane_mem _ _ _ _).trans (setSteal_mem _ _ _ _)), rangeGet_rangeSet hm]
  exact rangeGet_domain_lt s _ _

section
variable {s : State} {core lane : Nat} {q : StealReq} (hq : stealOf s core lane = some q)
include hq

theorem execStealAnswer_grants {a b : X} {g : BitVec 32} (h : q.answer = some (some (a, b, g))) :
    execStealAnswer core lane s
      = .next (execStealAnswer.done core lane (rangeSet s core q.k (rangeGranted (rangeGet s core q.k) q.domain a b g)) q (b - a)) := by
  simp only [execStealAnswer, hq, h, rangeGranted]

theorem execStealAnswer_refuses (h : q.answer = some none) (hv : q.victims = []) :
    execStealAnswer core lane s = .next (execStealAnswer.done core lane s q 0) := by
  simp only [execStealAnswer, hq, h, hv, List.isEmpty_nil, if_true]

/-- The next victim's answer is the request's, and the others are still to be asked. -/
theorem execStealRequest_asks (honly : ∀ x ∈ (coreOf s core).msg.steals, x.lane = lane → x = q) (h : q.answer = none) {v : Nat}
    {rest : List Nat} (hv : q.victims = v :: rest) :
    ∃ t a, execStealRequest core lane s = .next t ∧ stealOf t core lane = some { q with victims := rest, answer := some a } := by
  have hl : q.lane = lane := beq_iff_eq.1 (List.find?_some (p := fun x : StealReq => x.lane == lane) hq)
  obtain ⟨r, hr, hcores⟩ : ∃ r, (if v = agentVictim then agentAnswer s (dieNo core) q.domain
      else victimAnswer s (victimCore s q.domain v) q.domain) = r ∧ r.1.cores = s.cores := by
    refine ⟨_, rfl, ?_⟩
    split
    · exact agentAnswer_cores _ _ _
    · exact victimAnswer_cores _ _ _
  have hcore : coreOf r.1 core = coreOf s core := coreOf_congr hcores core
  have hq' : stealOf r.1 core lane = some q := by rw [stealOf, hcore]; exact hq
  refine ⟨dueEvent (setSteal r.1 core q (some { q with victims := rest, answer := some r.2 })) (.stealAnswer core lane), r.2, ?_,
    stealOf_setSteal hq' (fun x hx => honly x (hcore ▸ hx)) hl⟩
  simp only [execStealRequest, hq, h, hv, hr, Option.isSome_none, Bool.false_eq_true, if_false]

end

theorem stealing_holds : Claims.Stealing := by
  intro s o hspec hd hsteal r c
  refine ⟨execSteal_holds hspec hd hsteal, fun h hm => ?waits, fun v dom k a hm he htwo hgrain hvac => ?victim,
    fun core lane q d hq hm _ hdom hb hw honly => ⟨fun a b g ha => ?grant, fun ha hv => ?refuse, fun ha v rest hv => ?asks⟩⟩
  case waits =>
    exact ⟨_, execSteal_waits hspec hd hsteal h, cur_stealBegun s _ _, rangeGet_stealBegun hm _ _, stealBegun_steals s _ _⟩
  case victim =>
    obtain rfl := eligibleRange_eq he
    rw [victimAnswer_grants he htwo hgrain hvac]
    exact ⟨rfl, rangeGet_rangeSet hm v k (rangeGet_domain_lt s v k)⟩
  case grant =>
    let r := rangeGranted (rangeGet s core q.k) q.domain a b g
    have hm' : MemoryOk (rangeSet s core q.k r) := rangeSet_wf hm core q.k r
    obtain ⟨hlane, hrange⟩ := execStealAnswer_done q (b - a) hm' (by rw [laneOf_rangeSet, hb]) ((laneOf_rangeSet _ _ _ _ _ _).symm ▸ hw)
    rw [laneOf_rangeSet] at hlane
    rw [rangeGet_rangeSet hm core q.k (r := r) hdom] at hrange
    refine ⟨_, execStealAnswer_grants hq ha, hlane, ?_⟩
    rw [hrange]
    exact ⟨rfl, rfl, rfl, rfl, rfl⟩
  case refuse =>
    obtain ⟨hlane, hrange⟩ := execStealAnswer_done q 0 hm hb hw
    refine ⟨_, execStealAnswer_refuses hq ha hv, hlane, ?_⟩
    rw [hrange]
    exact ⟨rfl, rfl⟩
  case asks => exact execStealRequest_asks hq honly ha hv

/-- Settles O31: a range register is the 32 bytes that its writes leave, and the answers of a STEAL are writes of such registers. -/
theorem rangesAndStealing : Obligations.RangesAndStealing := ⟨rangeInstructions_hold, stealing_holds⟩

end Sys2Proof.Machine
end

section
/-! Stream buffers and actors (R182 to R189): an element appended, and what a change of a buffer makes wait. -/

namespace Sys2Proof.Machine
open Sys2Proof.Safety

/-! ### What a change of a buffer leaves -/

theorem cur_of_cores_issuing {s t : State} (hc : t.cores = s.cores) (hi : issuing t = issuing s) : cur t = cur s := by
  rw [cur, core_of_issuing hi, lane_of_issuing hi]
  exact laneOf_congr hc _ _

/-- Trying the queued operations of a core again keeps what making an event due keeps. -/
theorem kick_keeps {β : Type} {view : State → β} (hd : ∀ t d, view (dueEvent t d) = view t) (s : State) (c : Nat) :
    view (kick s c) = view s := by
  unfold kick
  refine (foldl_keeps (fun t i => ?_) _ _).trans (foldl_keeps (fun t e => hd t _) _ s)
  split
  · exact ite_keeps (hd _ _) rfl
  · rfl

@[simp] theorem kick_cores (s : State) (c : Nat) : (kick s c).cores = s.cores := kick_keeps dueEvent_cores s c

@[simp] theorem kick_issuing (s : State) (c : Nat) : issuing (kick s c) = issuing s := kick_keeps (fun _ _ => rfl) s c

@[simp] theorem evalActors_issuing (s : State) (c : Nat) : issuing (evalActors s c) = issuing s := ite_keeps rfl rfl

theorem bufferChanged_issuing (s : State) (c : Nat) : issuing (bufferChanged s c) = issuing s := by simp [bufferChanged]

theorem cur_evalActors (s : State) (c : Nat) : cur (evalActors s c) = cur s := by
  rw [cur, core_of_issuing (evalActors_issuing s c), lane_of_issuing (evalActors_issuing s c)]
  exact laneOf_evalActors _ _ _ _

theorem cur_bufferChanged (s : State) (c : Nat) : cur (bufferChanged s c) = cur s :=
  (cur_of_cores_issuing (kick_cores _ _) (kick_issuing _ _)).trans (cur_evalActors s c)

/-- Actors that become waiting leave the send queues. -/
theorem evalActors_sendQ (s : State) (c d : Nat) : (coreOf (evalActors s c) d).msg.sendQ = (coreOf s d).msg.sendQ := by
  unfold evalActors
  dsimp only
  split
  · rfl
  · by_cases h : c = d
    · subst h
      rw [coreOf_onCore_same]
    · rw [coreOf_onCore_other _ _ h]

theorem bufferChanged_sendQ (s : State) (c d : Nat) : (coreOf (bufferChanged s c) d).msg.sendQ = (coreOf s d).msg.sendQ := by
  rw [bufferChanged, coreOf_congr (kick_cores _ _), evalActors_sendQ]

/-! ### Elements (R182, R184, R185) -/

/-- An element of a buffer below the Attic ends below it. -/
theorem elemAt_add_esize_le {q : StreamBuf} (hsize : q.size ≠ 0) (hfit : q.base + q.size * esize q ≤ 0x6C000) (i : Nat) :
    elemAt q i + esize q ≤ 0x6C000 := by
  have hlt : i % q.size + 1 ≤ q.size := Nat.mod_lt _ (Nat.pos_of_ne_zero hsize)
  have hmul := Nat.mul_le_mul_right (esize q) hlt
  rw [elemAt]
  rw [Nat.add_mul, Nat.one_mul] at hmul
  omega

/-- Buffer `b` of core `c` with the element `v` appended, and what waits for it looking at it again. -/
def appended (s : State) (c b v : Nat) : State :=
  let q := streamGet s c b
  bufferChanged (streamSet (storeKey s (lmKey c (elemAt q q.tail)) (esize q) v) c b { q with tail := (q.tail + 1) % 2 ^ 32 }) c

theorem cur_appended (s : State) (c b v : Nat) : cur (appended s c b v) = cur s := by
  rw [appended, cur_bufferChanged, cur_streamSet, cur_storeKey]

theorem appended_sendQ (s : State) (c b v d : Nat) : (coreOf (appended s c b v) d).msg.sendQ = (coreOf s d).msg.sendQ := by
  rw [appended, bufferChanged_sendQ, coreOf_congr (streamSet_cores _ _ _ _), coreOf_congr (cores_of_lanesAndTurns (storeKey_lanesAndTurns _ _ _ _))]

section
variable {s : State} (hm : MemoryOk s) (c b v : Nat)
include hm

theorem streamGet_appended :
    streamGet (appended s c b v) c b = { streamGet s c b with tail := ((streamGet s c b).tail + 1) % 2 ^ 32 } := by
  obtain ⟨-, hhead, hsize, hbase, hesz⟩ := streamGet_fits s c b
  rw [appended, streamGet_congr (bufferChanged_mem _ _), streamGet_streamSet (storeKey_memoryOk hm _ _ _)]
  exact ⟨Nat.mod_lt _ (by decide), hhead, hsize, hbase, hesz⟩

/-- Beside the element and the buffer's state block no byte changes. -/
theorem memGet_appended_other {x : Nat}
    (he : x < lmKey c (elemAt (streamGet s c b) (streamGet s c b).tail)
      ∨ lmKey c (elemAt (streamGet s c b) (streamGet s c b).tail) + esize (streamGet s c b) ≤ x)
    (hb : x < lmKey c (0x7F100 + 32 * b) ∨ lmKey c (0x7F100 + 32 * b) + 32 ≤ x) :
    memGet (appended s c b v).mem x = memGet s.mem x := by
  rw [appended, bufferChanged_mem, memGet_streamSet_other (storeKey_memoryOk hm _ _ _) c b _ hb, storeKey_mem,
    memGet_memWrite_other hm _ _ _ he]

/-- The element reads back: it lies below the state blocks. -/
theorem memRead_appended (hsize : (streamGet s c b).size ≠ 0)
    (hfit : (streamGet s c b).base + (streamGet s c b).size * esize (streamGet s c b) ≤ 0x6C000) :
    memRead (appended s c b v).mem (lmKey c (elemAt (streamGet s c b) (streamGet s c b).tail)) (esize (streamGet s c b))
      = v % 2 ^ (8 * esize (streamGet s c b)) := by
  have hend := elemAt_add_esize_le hsize hfit (streamGet s c b).tail
  have hpow (n : Nat) : 256 ^ n = 2 ^ (8 * n) := pow_mul 2 8 n ▸ rfl
  rw [appended, bufferChanged_mem, ← hpow, ← memRead_memWrite_same hm, ← storeKey_mem]
  refine memRead_congr fun i hlo hhi => memGet_streamSet_other (storeKey_memoryOk hm _ _ _) c b _ (.inl ?_)
  unfold lmKey at hlo hhi ⊢
  omega

end

/-! ### Actors (R187, R188) -/

theorem actorReg_congr {s t : State} (h : t.mem = s.mem) (c n : Nat) : actorReg t c n = actorReg s c n := by simp only [actorReg, h]

theorem actorReady_congr {s t : State} (h : t.mem = s.mem) (c r : Nat) : actorReady t c r = actorReady s c r := by
  simp only [actorReady, streamGet_congr h]

/-- A table with the values of a list of keys set. -/
theorem smGet_foldl_smSet {α : Type} (f : Nat → α) (l : List Nat) (m : SMap α) (n : Nat) :
    smGet (l.foldl (fun m n => smSet m n (f n)) m) n = if n ∈ l then some (f n) else smGet m n := by
  induction l generalizing m with
  | nil => simp
  | cons a l ih =>
    rw [List.foldl_cons, ih]
    by_cases h : a = n
    · subst h
      simp
    · simp [smGet_smSet_other m _ h, Ne.symm h]

/-- The actors of core `c` whose rule holds and of which no firing runs or waits (R188). -/
def freshActors (s : State) (c : Nat) : List Nat :=
  (List.range 16).filter (fun n => (smGet (coreOf s c).msg.actorWaiting n).isNone && !(coreOf s c).msg.actorRunning.contains n
    && actorReady s c (actorReg s c n))

theorem evalActors_waiting (s : State) (c n : Nat) : smGet (coreOf (evalActors s c) c).msg.actorWaiting n
    = if n ∈ freshActors s c then some (actorReg s c n) else smGet (coreOf s c).msg.actorWaiting n := by
  have hdef : evalActors s c = if (freshActors s c).isEmpty then s else onCore s c (fun k => { k with msg := { k.msg with
    actorWaiting := (freshActors s c).foldl (fun m n => smSet m n (actorReg s c n)) k.msg.actorWaiting } }) := rfl
  rw [hdef]
  split
  · next h =>
    rw [List.isEmpty_iff.1 h]
    simp
  · rw [coreOf_onCore_same]
    exact smGet_foldl_smSet (fun n => actorReg s c n) _ _ _

theorem mem_freshActors {s : State} {c n : Nat} (hn : n < 16) : n ∈ freshActors s c ↔ smGet (coreOf s c).msg.actorWaiting n = none
    ∧ n ∉ (coreOf s c).msg.actorRunning ∧ actorReady s c (actorReg s c n) = true := by
  simp [freshActors, hn, and_assoc]

end Sys2Proof.Machine
end

section
/-! Messages that the issuing lane sends (R159, R160, R162, R164). -/

namespace Sys2Proof.Machine
open Sys2Proof.Safety

theorem need_ok {b : Bool} {c : FaultCode} (h : b = true) : need b c = .ok () := if_pos h

theorem await_ok {b : Bool} {w : Wait} (h : b = true) : await b w = .ok () := if_pos h

theorem curCore_setCur_eng (s : State) (x : Lane) : (curCore (setCur s x)).eng = (curCore s).eng := coreOf_setLane_eng s _ _ x _

theorem curCore_setCur_msg (s : State) (x : Lane) : (curCore (setCur s x)).msg = (curCore s).msg := coreOf_setLane_msg s _ _ x _

/-- The launch of a firing depends on the firing alone of its lane. -/
theorem launchOf_of_firing {l m : Lane} (h : m.firing = l.firing) (s : State) (c : Nat) : launchOf s c m = launchOf s c l := by
  simp only [launchOf, h]

theorem launchOf_setCur (s : State) (x : Lane) (c : Nat) (l : Lane) : launchOf (setCur s x) c l = launchOf s c l := rfl

/-- The message that the issuing lane forms, with the core's next sequence number (R160). -/
def newMessage (s : State) (dst type flags : Nat) (rel : Bool) (push : Option Nat) (pay : List V) (virt : Option (Nat × Nat)) : Message :=
  ⟨dst, type, flags, rel, (curCore s).msg.sendSeq, s.sched.core, s.sched.lane, (dieOf s (dieNo s.sched.core)).inc, push, pay, virt, none,
    (launchOf s s.sched.core (cur s)).map (·.1)⟩

/-- The issuing lane has read its sources and sent a message. -/
def messageSent (s : State) (srcs : List Opnd) (dst type flags : Nat) (rel : Bool) (push : Option Nat) (pay : List V)
    (virt : Option (Nat × Nat)) : State :=
  enqueueMessage (setCur s (kill (cur s) srcs)) s.sched.core s.sched.lane dst type flags rel push pay virt

section
variable (s : State) (srcs : List Opnd) (dst type flags : Nat) (rel : Bool) (push : Option Nat) (pay : List V) (virt : Option (Nat × Nat))

theorem cur_messageSent : cur (messageSent s srcs dst type flags rel push pay virt) = kill (cur s) srcs := by
  rw [cur, messageSent, enqueueMessage, enqueueItem, laneOf_dueEvent]
  refine (laneOf_onCore_lanes ?queue _ _ _ _).trans ((laneOf_onCore_lanes ?number _ _ _ _).trans (cur_setCur s _))
  all_goals exact fun _ => rfl

/-- The message stands last in its core's send queue. -/
theorem messageSent_msg (n : Nat) (l : Lane) :
    (curCore (after (messageSent s srcs dst type flags rel push pay virt) n l)).msg = { (curCore s).msg with
      sendQ := (curCore s).msg.sendQ ++ [.msg (newMessage s dst type flags rel push pay virt)]
      sendSeq := (curCore s).msg.sendSeq + 1 } := by
  have hmsg : (coreOf (setCur s (kill (cur s) srcs)) s.sched.core).msg = (curCore s).msg := coreOf_setLane_msg _ _ _ _ _
  have hlane : laneOf (setCur s (kill (cur s) srcs)) s.sched.core s.sched.lane = kill (cur s) srcs := cur_setCur s _
  have hlaunch : launchOf (setCur s (kill (cur s) srcs)) s.sched.core (laneOf (setCur s (kill (cur s) srcs)) s.sched.core s.sched.lane)
      = launchOf s s.sched.core (cur s) := by
    rw [launchOf_setCur, hlane, launchOf_of_firing (kill_firing _ _)]
  have hcore : (after (messageSent s srcs dst type flags rel push pay virt) n l).sched.core = s.sched.core := rfl
  rw [curCore, hcore, after, setCur, coreOf_setLane_msg, messageSent, enqueueMessage, enqueueItem, coreOf_dueEvent, coreOf_onCore_same,
    coreOf_onCore_same, hmsg, hlaunch]
  rfl

theorem messageSent_agenda : (messageSent s srcs dst type flags rel push pay virt).sched.agenda = s.sched.agenda
    ++ [.due (if push.isSome then .remotePushAccept s.sched.core dst else .messageAccept s.sched.core dst)] := rfl

theorem messageSent_mem : (messageSent s srcs dst type flags rel push pay virt).mem = s.mem := rfl

end

end Sys2Proof.Machine
end

section
/-! O32: SBCFG, PUSH, POP, ACTOR and HVW (R182 to R185, R187, R190). -/

namespace Sys2Proof.Machine
open Sys2Proof.Safety

/-! ### Checks -/

/-- With no operation in the scoreboard an access waits for none (R142). -/
theorem sbGate_empty {s : State} (h : (curCore s).eng.sb = []) (gs : List Nat) (tiles : Nat) (write : Bool) :
    sbGate s gs tiles write = .ok () := by
  simp only [sbGate, h, List.any_nil, Bool.not_false, await, if_true]

/-- A push into an own buffer with room appends its element (R184). -/
theorem pushLocal_room {s : State} (hsb : (curCore s).eng.sb = []) {b : Nat}
    (hroom : streamCount (streamGet s s.sched.core b) < (streamGet s s.sched.core b).size) (v : V) :
    pushLocal s b v = .ok (appended s s.sched.core b v.toNat) := by
  have hsize : (streamGet s s.sched.core b).size ≠ 0 := Nat.ne_of_gt (Nat.zero_lt_of_lt hroom)
  simp only [pushLocal, need_ok (decide_eq_true hsize), await_ok (decide_eq_true hroom), sbGate_empty hsb, bind_ok, appended]

/-! ### SBCFG (R183) -/

/-- The state block that SBCFG sets: an empty buffer (R183). -/
def streamConfig (b : Nat) : StreamBuf := ⟨0, 0, bits b 32 16, bits b 0 19, bits b 19 3⟩

theorem streamConfig_fits (b : Nat) : StreamFits (streamConfig b) :=
  ⟨Nat.two_pow_pos _, Nat.two_pow_pos _, bits_lt _ _ _, bits_lt _ _ _, bits_lt _ _ _⟩

section
variable {s : State} (hspec : (cur s).firing.spec = false)
include hspec

theorem execSbcfg_ready {o : S2} (ha : XReady (cur s) o.a) (hb : XReady (cur s) o.b) (hn : (getX (cur s) o.a.reg).toNat < 16)
    (hlow : bits (getX (cur s) o.b.reg).toNat 22 10 = 0) (hhigh : bits (getX (cur s) o.b.reg).toNat 48 16 = 0)
    (hesz : (streamConfig (getX (cur s) o.b.reg).toNat).esz < 6)
    (hal : (streamConfig (getX (cur s) o.b.reg).toNat).base % esize (streamConfig (getX (cur s) o.b.reg).toNat) = 0)
    (hfit : (streamConfig (getX (cur s) o.b.reg).toNat).base
      + (streamConfig (getX (cur s) o.b.reg).toNat).size * esize (streamConfig (getX (cur s) o.b.reg).toNat) ≤ 0x6C000) :
    execSbcfg o s = .next (after (bufferChanged (streamSet (setCur s (kill (cur s) [.x o.a, .x o.b])) s.sched.core
      (getX (cur s) o.a.reg).toNat (streamConfig (getX (cur s) o.b.reg).toNat)) s.sched.core) 4 (kill (cur s) [.x o.a, .x o.b])) := by
  refine stateOp_of_cur ?_ ((cur_bufferChanged _ _).trans ((cur_streamSet _ _ _ _).trans (cur_setCur s _)))
  have hcheck : (decide ((getX (cur s) o.a.reg).toNat < 16) && bits (getX (cur s) o.b.reg).toNat 22 10 == 0
      && bits (getX (cur s) o.b.reg).toNat 48 16 == 0 && decide ((streamConfig (getX (cur s) o.b.reg).toNat).esz < 6)
      && (streamConfig (getX (cur s) o.b.reg).toNat).base % esize (streamConfig (getX (cur s) o.b.reg).toNat) == 0
      && decide ((streamConfig (getX (cur s) o.b.reg).toNat).base
        + (streamConfig (getX (cur s) o.b.reg).toNat).size * esize (streamConfig (getX (cur s) o.b.reg).toNat) ≤ atticBase)) = true := by
    simp [hn, hlow, hhigh, hesz, hal, atticBase, hfit]
  simp only [irrevocable_ok hspec, gate_ok (ready_xx ha hb) (free_nil _), bind_ok]
  exact (congrArg (· >>= _) (need_ok hcheck)).trans rfl

/-! ### PUSH (R184, R185) -/

theorem execPush_own {o : S2} (ha : XReady (cur s) o.a) (hb : VReady (cur s) o.b) (hn : (getX (cur s) o.a.reg).toNat < 16)
    (hsb : (curCore s).eng.sb = []) (hroom : streamCount (streamGet s s.sched.core (getX (cur s) o.a.reg).toNat)
      < (streamGet s s.sched.core (getX (cur s) o.a.reg).toNat).size) :
    execPush o s = .next (after (appended (setCur s (kill (cur s) [.x o.a, .v o.b])) s.sched.core (getX (cur s) o.a.reg).toNat
      (getV (cur s) o.b).toNat) 4 (kill (cur s) [.x o.a, .v o.b])) := by
  refine stateOp_of_cur ?_ ((cur_appended _ _ _ _).trans (cur_setCur s _))
  have hfields : bits (getX (cur s) o.a.reg).toNat 29 35 = 0 ∧ bits (getX (cur s) o.a.reg).toNat 4 12 = 0
      ∧ bit (getX (cur s) o.a.reg).toNat 28 = false ∧ bits (getX (cur s) o.a.reg).toNat 16 12 = 0
      ∧ bits (getX (cur s) o.a.reg).toNat 0 4 = (getX (cur s) o.a.reg).toNat := by
    simp only [bits, bit, beq_eq_false_iff_ne]
    omega
  obtain ⟨h29, h4, h28, h16, h0⟩ := hfields
  have hsb' : (curCore (setCur s (kill (cur s) [.x o.a, .v o.b]))).eng.sb = [] := (congrArg CoreEng.sb (curCore_setCur_eng s _)).trans hsb
  have hpush := pushLocal_room (s := setCur s (kill (cur s) [.x o.a, .v o.b])) hsb'
    (b := (getX (cur s) o.a.reg).toNat) hroom (getV (cur s) o.b)
  simp only [irrevocable_ok hspec, gate_ok (ready_xv ha hb) (free_nil _), h29, h4, h28, h16, h0, bind_ok, need, beq_self_eq_true, Bool.or_true,
    Bool.and_self, if_true, Bool.false_eq_true, if_false, hpush]
  rfl

theorem execPush_remote {o : S2} (ha : XReady (cur s) o.a) (hb : VReady (cur s) o.b) (h28 : bit (getX (cur s) o.a.reg).toNat 28 = true)
    (h29 : bits (getX (cur s) o.a.reg).toNat 29 35 = 0) (h4 : bits (getX (cur s) o.a.reg).toNat 4 12 = 0)
    (hname : namesCore (bits (getX (cur s) o.a.reg).toNat 16 12) = true) (hroom : (curCore s).msg.sendQ.length < 32) :
    execPush o s = .next (after (messageSent s [.x o.a, .v o.b] (bits (getX (cur s) o.a.reg).toNat 16 12) 0 0 false
      (some (bits (getX (cur s) o.a.reg).toNat 0 4)) [getV (cur s) o.b] none) 4 (kill (cur s) [.x o.a, .v o.b])) := by
  refine stateOp_of_cur ?_ (cur_messageSent _ _ _ _ _ _ _ _ _)
  have hsend : sendRoom s s.sched.core = true := decide_eq_true hroom
  simp only [irrevocable_ok hspec, gate_ok (ready_xv ha hb) (free_nil _), h29, h4, h28, bind_ok, need, hname, await_ok hsend,
    beq_self_eq_true, Bool.true_or, Bool.and_self, if_true]
  rfl

/-! ### POP (R184) -/

/-- The lane after a POP of a buffer: `d` holds the oldest element. -/
def popped (s : State) (o : R2) (q : StreamBuf) : Lane :=
  putV (kill (cur s) [.x o.a]) o.d (BitVec.ofNat 1024 (memRead s.mem (lmKey s.sched.core (elemAt q q.head)) (esize q)))

/-- POP takes the oldest element of a buffer that holds one (R184). -/
theorem execPop_ready {o : R2} {q : StreamBuf} (ha : XReady (cur s) o.a) (hd : VFree (cur s) o.d) (hn : (getX (cur s) o.a.reg).toNat < 16)
    (hsb : (curCore s).eng.sb = []) (hq : streamGet s s.sched.core (getX (cur s) o.a.reg).toNat = q) (hsize : q.size ≠ 0)
    (hcount : 0 < streamCount q) (hpoison : poisoned s (lmKey s.sched.core (elemAt q q.head)) (esize q) = false) :
    execPop o s = .next (after (bufferChanged (streamSet (setCur s (popped s o q)) s.sched.core (getX (cur s) o.a.reg).toNat
      { q with head := (q.head + 1) % 2 ^ 32 }) s.sched.core) 4 (popped s o q)) := by
  refine stateOp_of_cur ?_ ((cur_bufferChanged _ _).trans ((cur_streamSet _ _ _ _).trans (cur_setCur s _)))
  simp only [irrevocable_ok hspec, gate_ok (ready_x ha) (free_v hd), need_ok (decide_eq_true hn), hq, need_ok (decide_eq_true hsize),
    await_ok (decide_eq_true hcount), sbGate_empty hsb, bind_ok, hpoison, Bool.false_eq_true, if_false, popped]

/-! ### ACTOR and HVW (R187, R190) -/

theorem execActor_ready {o : S2} (ha : XReady (cur s) o.a) (hb : VReady (cur s) o.b) (hn : (getX (cur s) o.a.reg).toNat < 16)
    (hok : bit ((getV (cur s) o.b).toNat % 2 ^ 512) 52 = true →
      actorOk s s.sched.core (getX (cur s) o.a.reg).toNat ((getV (cur s) o.b).toNat % 2 ^ 512) = true) :
    execActor o s = .next (after (evalActors (onMem (setCur s (kill (cur s) [.x o.a, .v o.b])) fun m =>
      memWrite m (lmKey s.sched.core (0x7F400 + 64 * (getX (cur s) o.a.reg).toNat)) 64 ((getV (cur s) o.b).toNat % 2 ^ 512)) s.sched.core)
      4 (kill (cur s) [.x o.a, .v o.b])) := by
  refine stateOp_of_cur ?_ ((cur_evalActors _ _).trans ((cur_onMem _ _).trans (cur_setCur s _)))
  have hcheck : (!bit ((getV (cur s) o.b).toNat % 2 ^ 512) 52
      || actorOk s s.sched.core (getX (cur s) o.a.reg).toNat ((getV (cur s) o.b).toNat % 2 ^ 512)) = true := by
    rw [Bool.or_eq_true, Bool.not_eq_true']
    exact or_iff_not_imp_left.2 fun h => hok (Bool.not_eq_false _ ▸ h)
  simp only [irrevocable_ok hspec, gate_ok (ready_xv ha hb) (free_nil _), need_ok hcheck, Nat.mod_eq_of_lt hn, bind_ok]

theorem execHvw_ready {o : S2} (ha : XReady (cur s) o.a) (hb : VReady (cur s) o.b) (hn : (getX (cur s) o.a.reg).toNat < 256) :
    execHvw o s = .next (after (onMem (setCur s (kill (cur s) [.x o.a, .v o.b])) fun m =>
      memWrite m (lmKey s.sched.core (0x7E000 + 16 * (getX (cur s) o.a.reg).toNat)) 16 ((getV (cur s) o.b).toNat % 2 ^ 128))
      4 (kill (cur s) [.x o.a, .v o.b])) := by
  refine stateOp_of_cur ?_ ((cur_onMem _ _).trans (cur_setCur s _))
  simp only [irrevocable_ok hspec, gate_ok (ready_xv ha hb) (free_nil _), need_ok (decide_eq_true hn), handlerBase, bind_ok]

end

/-- The actors that wait after a write of memory and their evaluation (R188). -/
theorem actorWaiting_evalActors {s : State} (x : Lane) (f : Memory → Memory) {n : Nat} (hn : n < 16) (m : Nat) (l : Lane) :
    let t := after (evalActors (onMem (setCur s x) f) s.sched.core) m l
    smGet (curCore t).msg.actorWaiting n = if smGet (curCore s).msg.actorWaiting n = none ∧ n ∉ (curCore s).msg.actorRunning
        ∧ actorReady t s.sched.core (actorReg t s.sched.core n) = true
      then some (actorReg t s.sched.core n) else smGet (curCore s).msg.actorWaiting n := by
  intro t
  have hmem : t.mem = (onMem (setCur s x) f).mem := (after_mem _ _ _).trans (evalActors_mem _ _)
  have hcore : t.sched.core = s.sched.core := core_of_issuing (evalActors_issuing _ _)
  have hmsg : (coreOf (onMem (setCur s x) f) s.sched.core).msg = (curCore s).msg := coreOf_setLane_msg s _ _ x _
  have hwait : (curCore t).msg = (coreOf (evalActors (onMem (setCur s x) f) s.sched.core) s.sched.core).msg := by
    rw [curCore, hcore]
    exact coreOf_setLane_msg _ _ _ _ _
  rw [actorReg_congr hmem, actorReady_congr hmem, hwait, evalActors_waiting]
  simp only [mem_freshActors hn, hmsg]

/-- Settles O32: each of these writes a state block, an element or an entry of own LM, and what waits for a buffer is looked at again. -/
theorem streamInstructions : Obligations.StreamInstructions := by
  intro s hspec hm c l
  refine ⟨?sbcfg, ?push, ?remote, ?pop, ?actor, ?hvw⟩
  case sbcfg =>
    intro o ha hb a b q hn h22 h48 hesz hal hfit
    have hk : MemoryOk (setCur s (kill (cur s) [.x o.a, .x o.b])) := hm
    refine ⟨_, execSbcfg_ready hspec ha hb hn h22 h48 hesz hal hfit, ?_, fun x hx => ?_⟩
    · rw [streamGet_congr ((after_mem _ _ _).trans (bufferChanged_mem _ _)), streamGet_streamSet hk c a (streamConfig_fits b)]
      rfl
    · rw [after_mem, bufferChanged_mem, memGet_streamSet_other hk c a _ hx, setCur_mem]
  case push =>
    intro o ha hb hn hsb b q at' hroom hfit
    have hk : MemoryOk (setCur s (kill (cur s) [.x o.a, .v o.b])) := hm
    have hq : streamGet (setCur s (kill (cur s) [.x o.a, .v o.b])) c b = q := streamGet_congr (setCur_mem _ _) c b
    have hsize : q.size ≠ 0 := Nat.ne_of_gt (Nat.zero_lt_of_lt hroom)
    have hwidth : 8 * esize q = 32 * 2 ^ q.esz := by
      unfold esize
      omega
    have hqueue := streamGet_appended hk c b (getV (cur s) o.b).toNat
    have hread := memRead_appended hk c b (getV (cur s) o.b).toNat (hq.symm ▸ hsize) (hq.symm ▸ hfit)
    rw [hq] at hqueue
    rw [hq, hwidth] at hread
    refine ⟨_, execPush_own hspec ha hb hn hsb hroom, ?_, ?_, fun x he hx => ?_⟩
    · exact (streamGet_congr (after_mem _ _ _) c b).trans hqueue
    · rw [after_mem]
      exact hread
    · rw [after_mem]
      exact memGet_appended_other hk c b _ (hq.symm ▸ he) hx
  case remote =>
    intro o ha hb a h28 h29 h4 hname hroom k m
    exact ⟨_, execPush_remote hspec ha hb h28 h29 h4 hname hroom, messageSent_msg _ _ _ _ _ _ _ _ _ _ _, rfl⟩
  case pop =>
    intro o ha hd hn hsb b q at' hsize hcount hpoison
    refine ⟨_, execPop_ready hspec ha hd hn hsb rfl hsize hcount hpoison, ?_, ?_, fun x hx => ?_⟩
    · obtain ⟨htail, -, hsize, hbase, hesz⟩ := streamGet_fits s c b
      rw [streamGet_congr ((after_mem _ _ _).trans (bufferChanged_mem _ _)), streamGet_streamSet (s := setCur s _) hm c b]
      exact ⟨htail, Nat.mod_lt _ (Nat.two_pow_pos 32), hsize, hbase, hesz⟩
    · rw [cur_after, retire_regs, popped, putV_v_same]
      rfl
    · rw [after_mem, bufferChanged_mem, memGet_streamSet_other (s := setCur s _) hm c b _ hx, setCur_mem]
  case actor =>
    intro o ha hb a r hn hok
    refine ⟨_, execActor_ready hspec ha hb hn hok, fun x => ?_, fun n hn => (actorWaiting_evalActors _ _ hn _ _).trans ?_⟩
    · rw [after_mem, evalActors_mem, onMem_mem]
      exact memGet_memWrite hm _ _ _ _
    · cases smGet (curCore s).msg.actorWaiting n with
      | none => simp [c]
      | some w => simp
  case hvw =>
    intro o ha hb hn
    refine ⟨_, execHvw_ready hspec ha hb hn, cur_after _ _ _, (((localWritten_setCur s _).onMem _).after 4 _).machineKept, fun x => ?_⟩
    rw [after_mem, onMem_mem]
    exact memGet_memWrite hm _ _ _ _

end Sys2Proof.Machine
end

section
/-! The places of join counters (R170 to R172) and what an update by a home slice leaves. -/

namespace Sys2Proof.Machine
open Sys2Proof.Safety

/-! ### Translation leaves the lanes -/

theorem cur_tlbFill (s : State) (c : Nat) (e : TlbEntry) : cur (tlbFill s c e) = cur s := by
  have hcore : cur (onCore s c fun k => { k with ctl := { k.ctl with tlb := tlbAdd 1 64 k.ctl.tlb e } }) = cur s :=
    laneOf_onCore_lanes (by intro; rfl) _ _ _ _
  exact ite_keeps hcore hcore

theorem pageWalk_cur {s : State} {c ctx va : Nat} {acc : Access} {r : State × TlbEntry} (hr : pageWalk s c ctx va acc = some r) :
    cur r.1 = cur s := by
  unfold pageWalk at hr
  split at hr
  · cases hr
  · split at hr
    · cases hr
    · obtain rfl := Option.some.inj hr
      refine (cur_tlbFill _ _ _).trans (cur_of_lanesAndTurns ?_)
      have h := foldl_keeps (view := lanesAndTurns) (f := fun s a => if cacheable a 0 then grantRead s (dieNo c) (lineOf a) else s)
        (fun s a => ite_keeps (grantRead_lanesAndTurns _ _ _) rfl)
      exact ite_keeps (h _ _) ((sliceStore_lanesAndTurns _ _ _ _ _).trans (h _ _))

/-- A translation leaves the state as it is, or as a walk leaves it (R264, R265). -/
theorem translate_walks {s : State} {c : Nat} {ctx : Option Nat} {va : Nat} {acc : Access} {r : State × Nat × Nat × Bool}
    (hr : translate s c ctx va acc = some r) : r.1 = s ∨ ∃ x e, pageWalk s c x va acc = some (r.1, e) := by
  unfold translate at hr
  split at hr
  · cases hr
  · dsimp only at hr
    split at hr
    · split at hr
      · exact .inl (Option.some.inj hr ▸ rfl)
      · cases hr
    · split at hr
      · next hw =>
        split at hr
        · obtain rfl := Option.some.inj hr
          exact .inr ⟨_, _, hw⟩
        · cases hr
      · cases hr

theorem translate_cur {s : State} {c : Nat} {ctx : Option Nat} {va : Nat} {acc : Access} {r : State × Nat × Nat × Bool}
    (hr : translate s c ctx va acc = some r) : cur r.1 = cur s := by
  rcases translate_walks hr with h | ⟨x, e, h⟩
  · rw [h]
  · exact pageWalk_cur h

/-! ### The place of a join counter -/

section
variable {s t u : State} {acc : Access} {a : X} {c n off : Nat} {ctx : Option Nat} {p : Place}

/-- On a page of type 00 an access that refuses pages of other types has the checks of one that takes them. -/
theorem resolve_noType {pa : Nat} {de : Bool} (hcl : classOf s c a = .global) (htr : translate s c ctx a.toNat acc = some (t, pa, 0, de)) :
    resolve s c ctx acc true a n = resolve s c ctx acc false a n := by
  have hloc : locate s c ctx acc true a n = locate s c ctx acc false a n := by
    unfold locate
    rw [hcl, htr]
    cases reach (transWay s c ctx a.toNat acc) a <;> rfl
  unfold resolve
  rw [hloc]

/-- An aligned address of Larder shared space with an open way passes the checks. -/
theorem resolve_shared {noType : Bool} (ha : a.toNat = 0xFF90 * 2 ^ 48 + off) (hoff : off < sharedSize s) (hal : a.toNat % n = 0)
    (hway : pathShared s (dieNo c) off = .opened) : resolve s c ctx acc noType a n = .ok (s, .shared off) := by
  unfold resolve locate
  simp only [classOf_shared ha hoff, hal, pathTo, hway, reach_opened, tokensAt, bind_ok, ne_eq, not_true_eq_false, if_false]

/-- Larder shared space is open to every task that is not speculative (R328). -/
theorem domainCheck_shared {x : Accessor} {write : Bool} (h : ∀ k ∈ x.task, ∀ t ∈ taskOf s k, t.spec = false) :
    domainCheck x write s (.shared off) = .ok s := by
  unfold domainCheck
  dsimp only
  split
  · next k hk =>
    have hall : ((taskOf s k).all fun t => !t.spec) = true := by
      rw [Option.all_eq_true]
      exact fun t ht => by simp [h k hk t ht]
    simp [hall, await, bind_ok]
  · rfl

/-- A join counter's address passes its checks and lands at its key. -/
theorem joinPlace_global {key : Nat} (h : GlobalAt s u .atomic (fun mt => mt = 0) a 8 key) :
    joinPlace s a = .ok (u, key) ∧ issuing u = issuing s ∧ key ≠ voidKey := by
  have hgo {cl : AddrClass} {t : State} {p : Place} (hcl : classOf s s.sched.core a = cl) (hown : ∀ o, cl ≠ .ownLm o)
      (hres : resolve s s.sched.core (ctxOf s s.sched.core (cur s)) .atomic true a 8 = .ok (t, p))
      (ht : cur t = cur s) (hdom : domainCheck (accessorOf (cur s)) true t p = .ok u) (hp : LandsAt a key p) : joinPlace s a = .ok (u, key) := by
    unfold joinPlace
    simp only [hcl]
    cases cl with
    | ownLm o => exact absurd rfl (hown o)
    | _ => simp only [hres, ht, hdom, bind_ok, hp.placeKey_eq]
  rcases h with ⟨t, mt, de, hpage, rfl, hline⟩ | ⟨off, rfl, ha, hoff, hmax, hal, rfl, hway, hspec⟩
  · obtain ⟨cz, hres⟩ := resolve_page hpage fun _ => by decide
    obtain ⟨hglobal, -, -, htr, hlow, -, -⟩ := hpage
    have hcl : classOf s s.sched.core a = .global := classOf_global hglobal
    have hres' := (resolve_noType hcl htr).trans hres
    refine ⟨hgo hcl nofun hres' (translate_cur htr) hline (.phys 0 de cz hlow), ?_, ?_⟩
    · exact (lineAccess_issuing _ _ _ _ _ _ _ _ hline).trans (translate_issuing htr)
    · unfold voidKey
      omega
  · have hin : off < sharedSize u := by
      unfold sharedSize
      omega
    have hal' : a.toNat % 8 = 0 := ha ▸ aligned_of_offset ⟨3, by decide, rfl⟩ hal
    refine ⟨hgo (classOf_shared ha hin) nofun (resolve_shared ha hin hal' hway) rfl (domainCheck_shared hspec) (.shared off ha rfl), rfl, ?_⟩
    unfold voidKey
    omega

end

/-! ### An update by a home slice leaves the join table (R172) -/

@[simp] theorem setTokens_pkg (s : State) (d line : Nat) (t : TokenLine) : (setTokens s d line t).pkg = s.pkg := rfl
@[simp] theorem surrender_pkg (s : State) (line d : Nat) : (surrender s line d).pkg = s.pkg := rfl
@[simp] theorem setDirectory_joins (s : State) (line : Nat) (e : DirLine) : (setDirectory s line e).pkg.joins = s.pkg.joins := rfl

@[simp] theorem rawBlocks_joins (s : State) (a n : Nat) : (rawBlocks s a n).pkg.joins = s.pkg.joins :=
  ite_keeps (view := fun t => t.pkg.joins) rfl rfl

@[simp] theorem putBytes_joins (s : State) (a n v : Nat) : (putBytes s a n v).pkg.joins = s.pkg.joins := by
  have h : (if s.poison.isEmpty then onMem s fun m => memWrite m a n v else
      { onMem s (fun m => memWrite m a n v) with
        poison := s.poison.filter (fun p => !(decide (a ≤ p) && decide (p + (if 2 ^ 45 ≤ a then 4 else 64) ≤ a + n))) }).pkg.joins
      = s.pkg.joins := ite_keeps (view := fun t => t.pkg.joins) rfl rfl
  exact ite_keeps (view := fun t => t.pkg.joins) ((rawBlocks_joins _ _ _).trans h) h

@[simp] theorem recallOthers_joins (s : State) (keep : Option Nat) (line : Nat) : (recallOthers s keep line).pkg.joins = s.pkg.joins :=
  ite_keeps (view := fun t => t.pkg.joins) rfl
    (foldl_keeps (view := fun t => t.pkg.joins) (f := fun s d => surrender s line d) (fun _ _ => rfl) _ s)

@[simp] theorem storeKey_joins (s : State) (a n v : Nat) : (storeKey s a n v).pkg.joins = s.pkg.joins :=
  ite_keeps (view := fun t => t.pkg.joins) (ite_keeps (view := fun t => t.pkg.joins) (by simp) (by simp)) (by simp)

@[simp] theorem roomL2_joins (s : State) (d line : Nat) : (roomL2 s d line).pkg.joins = s.pkg.joins :=
  ite_keeps (view := fun t => t.pkg.joins) rfl rfl

@[simp] theorem grantWrite_joins (s : State) (d line : Nat) : (grantWrite s d line).pkg.joins = s.pkg.joins := by
  have h : (if (tokensOf s d line).granted then s else roomL2 s d line).pkg.joins = s.pkg.joins :=
    ite_keeps (view := fun t => t.pkg.joins) rfl (by simp)
  simp [grantWrite, h]

@[simp] theorem sliceStore_joins (s : State) (d a n v : Nat) : (sliceStore s d a n v).pkg.joins = s.pkg.joins :=
  ite_keeps (view := fun t => t.pkg.joins) (by simp [homeWrite]) (by simp)

@[simp] theorem sliceStore_mem (s : State) (d a n v : Nat) : (sliceStore s d a n v).mem = memWrite s.mem a n v :=
  ite_keeps (view := State.mem) (by simp [putBytes_mem]) (storeKey_mem _ _ _ _)

/-! ### Adding 1 to a join counter (R171) -/

/-- A value of 8 bytes and the same value wrapped to 64 bits store the same bytes. -/
theorem ofNat_byte_mod {v n i : Nat} (h : i < n) : BitVec.ofNat 8 (v % 256 ^ n / 256 ^ i) = BitVec.ofNat 8 (v / 256 ^ i) := by
  apply BitVec.eq_of_toNat_eq
  have hn : 256 ^ n = 256 ^ i * 256 ^ (n - i) := by rw [← pow_add, Nat.add_sub_cancel' h.le]
  have hdvd : 256 ∣ 256 ^ (n - i) := dvd_pow_self _ (Nat.sub_ne_zero_of_lt h)
  rw [BitVec.toNat_ofNat, BitVec.toNat_ofNat, hn, Nat.mod_mul_right_div_self]
  exact Nat.mod_mod_of_dvd _ hdvd

theorem wrap_add_one (v : Nat) : wrap 64 ((v : Int) + 1) = (v + 1) % 2 ^ 64 := by
  unfold wrap
  omega

/-- A counter that adding 1 leaves above 0 fires nothing. -/
theorem joinAdd_one {s : State} {key : Nat} (hkey : key ≠ voidKey) (hm : MemoryOk s) (d : Nat) (h : (memRead s.mem key 8 + 1) % 2 ^ 64 ≠ 0) :
    joinAdd s d key 1 = sliceStore s d key 8 ((memRead s.mem key 8 + 1) % 2 ^ 64) := by
  have hread : memRead (sliceStore s d key 8 ((memRead s.mem key 8 + 1) % 2 ^ 64)).mem key 8 ≠ 0 := by
    rw [sliceStore_mem, memRead_memWrite_same hm, show 256 ^ 8 = 2 ^ 64 from rfl, Nat.mod_mod]
    exact h
  unfold joinAdd joinFire
  rw [if_neg hkey, wrap_add_one, if_pos hread]

theorem stored_sliceStore {s : State} (hm : MemoryOk s) (d key v : Nat) : Stored s (sliceStore s d key 8 (v % 2 ^ 64)) key 8 v := by
  intro b
  rw [sliceStore_mem, memGet_memWrite hm]
  split
  · next h =>
    exact ofNat_byte_mod (n := 8) (by omega)
  · rfl

end Sys2Proof.Machine
end

section
/-! O29: messages, spawns and join counters (R160 to R164, R167 to R172). -/

namespace Sys2Proof.Machine
open Sys2Proof.Safety

/-! ### Sends (R160 to R164) -/

/-- The virtual core that a descriptor names, with the launch that owns it (R161). -/
def messageVirt (s : State) (desc : Nat) : Option (Nat × Nat) :=
  if bit desc 12 then (launchOf s s.sched.core (cur s)).map (fun x => (x.1, bits desc 0 12)) else none

/-- A descriptor that names a core is sent there. -/
theorem sendDest_ok {s : State} {desc dst : Nat} {owner : Option X} (h : NamesDest s desc owner dst) :
    sendDest s desc owner = .ok (dst, messageVirt s desc) := by
  obtain ⟨hname, h32, h14, howner⟩ := h
  have hfields : (bits desc 32 32 == 0 && bits desc 14 2 == 0) = true := by simp [h32, h14]
  unfold sendDest
  cases owner with
  | some a =>
    obtain ⟨h0, x, hx, hdst⟩ := howner
    simp [need_ok hfields, need_ok hname, need_ok (beq_iff_eq.2 h0), bind_ok, hx, hdst, messageVirt]
  | none =>
    dsimp only at howner
    cases hv : bit desc 12 with
    | true =>
      rw [hv, if_pos rfl] at howner
      obtain ⟨x, hx, hdst⟩ := howner
      simp [need_ok hfields, need_ok hname, bind_ok, hv, hx, hdst, messageVirt]
    | false =>
      rw [hv, if_neg Bool.false_ne_true] at howner
      subst howner
      simp [need_ok hfields, need_ok hname, bind_ok, hv, messageVirt]

/-- A send whose sources are ready, to a core that its descriptor names, with room in the send queue. -/
theorem sendOp_ok {s : State} {a : Src} {owner : Option Reg} {pay srcs : List Opnd} {dst : Nat}
    (hsrcs : .x a :: pay ++ (owner.map fun r => Opnd.x (plain r)).toList = srcs) (hspec : (cur s).firing.spec = false)
    (hs : Ready (cur s) srcs) (hroom : (curCore s).msg.sendQ.length < 32)
    (hd : NamesDest s (getX (cur s) a.reg).toNat (owner.map (getX (cur s))) dst) :
    sendOp a owner pay s = .ok (messageSent s srcs dst (bits (getX (cur s) a.reg).toNat 16 8) (bits (getX (cur s) a.reg).toNat 24 8)
      (bit (getX (cur s) a.reg).toNat 13) none (pay.map (opndV (cur s))) (messageVirt s (getX (cur s) a.reg).toNat)) := by
  have hsend : sendRoom s s.sched.core = true := decide_eq_true hroom
  simp only [sendOp, hsrcs, irrevocable_ok hspec, gate_ok hs (free_nil _), sendDest_ok hd, await_ok hsend, bind_ok, messageSent]

theorem sends_of_sendOp {i : Instr} {srcs : List Opnd} {a : Src} {owner : Option Reg} {pay : List Opnd} {payload : Lane → List V}
    (hi : ∀ s, exec i s = stateOp 4 (sendOp a owner pay) s) (hsrcs : .x a :: pay ++ (owner.map fun r => Opnd.x (plain r)).toList = srcs)
    (hpay : ∀ l, pay.map (opndV l) = payload l) : Sends i srcs a owner payload := by
  intro s dst hspec hs hroom hd desc k m
  refine ⟨_, (hi s).trans (stateOp_of_cur (sendOp_ok hsrcs hspec hs hroom hd) (cur_messageSent _ _ _ _ _ _ _ _ _)), cur_after _ _ _,
    ?_, ?_, ?_⟩
  · rfl
  · rw [messageSent_msg, hpay]
    rfl
  · exact messageSent_agenda _ _ _ _ _ _ _ _ _

theorem payloadRun_opndV (b : Src) (n : Nat) (l : Lane) : (payloadRun b n).map (opndV l)
    = (List.range n).map (fun i => getV l ⟨⟨(b.reg.val + i) % 32, Nat.mod_lt _ (by decide)⟩, b.last, b.trap⟩) := by
  simp only [payloadRun, List.map_map]
  rfl

theorem sendInstructions_hold : Claims.SendInstructions := by
  refine ⟨fun o => ?send, fun o => ?sendv, fun o => ?sendo⟩
  case send => exact sends_of_sendOp (owner := none) (pay := [.x o.b]) (fun _ => rfl) rfl fun _ => rfl
  case sendv => exact sends_of_sendOp (owner := none) (fun _ => rfl) (by simp) (payloadRun_opndV _ _)
  case sendo => exact sends_of_sendOp (owner := some o.d) (fun _ => rfl) rfl (payloadRun_opndV _ _)

/-! ### Spawns (R167 to R169) -/

theorem spawnRec_eq (s : State) (r : Nat) (outside : Bool) : spawnRec s r outside = spawned s r outside := by
  cases outside <;> simp [spawnRec, spawned]

/-- A spawn's record depends on the firing of the issuing lane. -/
theorem spawned_of_firing (s : State) {l : Lane} (h : l.firing = (cur s).firing) (r : Nat) (outside : Bool) :
    spawned (setCur s l) r outside = spawned s r outside := by
  simp only [spawned, cur_setCur, h, launchOf_setCur, setCur_sched, launchOf_of_firing h]

theorem cur_pushSpawn (s : State) (q : Spawn) : cur (pushSpawn s q) = cur s := by
  rw [cur, pushSpawn, laneOf_dueEvent]
  exact laneOf_onCore_lanes (by intro; rfl) _ _ _ _

theorem pushSpawn_spawnQ (s : State) (q : Spawn) (n : Nat) (l : Lane) :
    (curCore (after (pushSpawn s q) n l)).msg.spawnQ = (curCore s).msg.spawnQ ++ [q] := by
  rw [after, curCore_setCur_msg, pushSpawn, curCore, coreOf_dueEvent]
  exact congrArg (·.msg.spawnQ) (coreOf_onCore_same _ _ _)

/-- A spawn of the issuing core that a counter lets go is one that its lane makes. -/
theorem spawnReg_of_core {s : State} {j : JoinReg} (h : j.spawn.core = s.sched.core) : spawnReg s j = pushSpawn s j.spawn := by
  rw [spawnReg, h, pushSpawn, onCurCore]

section
variable {s u : State}

theorem execSpawn_ready {o : S1} (hb : VReady (cur s) o.b) (hr : recordOk ((getV (cur s) o.b).toNat % 2 ^ 512) = true)
    (hroom : (curCore s).msg.spawnQ.length < 16) :
    execSpawn o s = .next (after (pushSpawn (setCur s (kill (cur s) [.v o.b])) (spawned s ((getV (cur s) o.b).toNat % 2 ^ 512) false)) 4
      (kill (cur s) [.v o.b])) := by
  refine stateOp_of_cur ?_ ((cur_pushSpawn _ _).trans (cur_setCur s _))
  have hspawn : spawnRoom s = true := decide_eq_true hroom
  simp only [gate_ok (ready_v hb) (free_nil _), need_ok hr, await_ok hspawn, bind_ok, spawnRec_eq]

/-! ### Join counters (R170 to R172) -/

/-- The record that names its join counter (R171). -/
def joinRecord (r a : Nat) : Nat := putBits (putBits r 384 64 a) 468 1 1

theorem bits_joinRecord (r : Nat) {a : Nat} (ha : a < 2 ^ 64) : bits (joinRecord r a) 384 64 = a := by
  refine Nat.eq_of_testBit_eq fun i => ?_
  rw [bits, Nat.testBit_mod_two_pow, Nat.testBit_div_two_pow, joinRecord, testBit_putBits, testBit_putBits]
  rcases Nat.lt_or_ge i 64 with hi | hi
  · rw [if_neg (by omega), if_pos (by omega), decide_eq_true hi, Bool.true_and, Nat.add_sub_cancel]
  · rw [decide_eq_false (Nat.not_lt.2 hi), Bool.false_and, Nat.testBit_lt_two_pow (ha.trans_le (Nat.pow_le_pow_right (by decide) hi))]

theorem bit_joinRecord_join (r a : Nat) : bit (joinRecord r a) 468 = true := by
  rw [bit_eq_testBit, joinRecord, testBit_putBits, if_pos (by decide)]
  rfl

theorem bit_joinRecord_other (r a : Nat) {b : Nat} (hj : b ≠ 468) (hb : b < 384 ∨ 448 ≤ b) : bit (joinRecord r a) b = bit r b := by
  rw [bit_eq_testBit, bit_eq_testBit, joinRecord, testBit_putBits, testBit_putBits, if_neg (by omega), if_neg (by omega)]

/-- The state `u` with the issuing lane's sources read and 1 added to the counter at `key`. -/
def joinCounted (u : State) (o : S2) (key : Nat) : State :=
  sliceStore (setCur u (kill (cur u) [.x o.a, .v o.b])) (dieNo u.sched.core) key 8 ((memRead u.mem key 8 + 1) % 2 ^ 64)

theorem execSpawnc_ready {key : Nat} {o : S2} (hspec : (cur s).firing.spec = false) (ha : XReady (cur s) o.a) (hb : VReady (cur s) o.b)
    (hr : recordOk ((getV (cur s) o.b).toNat % 2 ^ 512) = true) (hm : MemoryOk u)
    (hg : GlobalAt s u .atomic (fun mt => mt = 0) (getX (cur s) o.a.reg) 8 key) (hroom : (curCore u).msg.spawnQ.length < 16)
    (hv : (memRead u.mem key 8 + 1) % 2 ^ 64 ≠ 0) :
    execSpawnc o s = .next (after (pushSpawn (joinCounted u o key) (spawnRec (joinCounted u o key)
      (joinRecord ((getV (cur s) o.b).toNat % 2 ^ 512) (getX (cur s) o.a.reg).toNat) false)) 4 (cur (joinCounted u o key))) := by
  refine stateOp_of_cur ?_ (cur_pushSpawn _ _)
  obtain ⟨hplace, -, hkey⟩ := joinPlace_global hg
  have hspawn : spawnRoom u = true := decide_eq_true hroom
  have hadd := joinAdd_one (s := setCur u (kill (cur u) [.x o.a, .v o.b])) hkey hm (dieNo u.sched.core) hv
  simp only [irrevocable_ok hspec, gate_ok (ready_xv ha hb) (free_nil _), need_ok hr, hplace, await_ok hspawn, bind_ok, hadd]
  rfl

/-- The record `q` spawned, or registered on the counter at `key` that does not read 0. -/
def joinAnswered (s : State) (key : Nat) (q : Spawn) : State :=
  if memRead s.mem key 8 = 0 then pushSpawn s q else onPkg s (fun p => { p with joins := p.joins ++ [⟨key, q⟩] })

theorem cur_joinAnswered (s : State) (key : Nat) (q : Spawn) : cur (joinAnswered s key q) = cur s := ite_keeps (cur_pushSpawn s q) rfl

theorem joinAnswered_mem (s : State) (key : Nat) (q : Spawn) : (joinAnswered s key q).mem = s.mem := ite_keeps (view := State.mem) rfl rfl

theorem execJoinat_ready {key : Nat} {o : S2} (hspec : (cur s).firing.spec = false) (ha : XReady (cur s) o.a) (hb : VReady (cur s) o.b)
    (hr : recordOk ((getV (cur s) o.b).toNat % 2 ^ 512) = true)
    (hg : GlobalAt s u .atomic (fun mt => mt = 0) (getX (cur s) o.a.reg) 8 key) (hroom : u.pkg.joins.length < 8192) :
    execJoinat o s = .next (after (joinAnswered (setCur u (kill (cur u) [.x o.a, .v o.b])) key
      (spawned u ((getV (cur s) o.b).toNat % 2 ^ 512) true)) 4 (kill (cur u) [.x o.a, .v o.b])) := by
  refine stateOp_of_cur ?_ ((cur_joinAnswered _ _ _).trans (cur_setCur u _))
  obtain ⟨hplace, -, -⟩ := joinPlace_global hg
  have hreg : spawnReg (setCur u (kill (cur u) [.x o.a, .v o.b])) ⟨key, spawned u ((getV (cur s) o.b).toNat % 2 ^ 512) true⟩
      = pushSpawn (setCur u (kill (cur u) [.x o.a, .v o.b])) (spawned u ((getV (cur s) o.b).toNat % 2 ^ 512) true) := spawnReg_of_core rfl
  simp only [irrevocable_ok hspec, gate_ok (ready_xv ha hb) (free_nil _), need_ok hr, hplace, await_ok (decide_eq_true hroom), bind_ok,
    spawnRec_eq, spawned_of_firing u (kill_firing _ _), hreg, joinAnswered, setCur_mem]
  rfl

end

theorem spawnInstructions_hold : Claims.SpawnInstructions := by
  refine ⟨?spawn, ?spawnc, ?joinat⟩
  case spawn =>
    intro s o hb r hr hroom
    exact ⟨_, execSpawn_ready hb hr hroom, cur_after _ _ _, rfl,
      (pushSpawn_spawnQ _ _ _ _).trans (congrArg (·.spawnQ ++ [_]) (curCore_setCur_msg s _)), rfl⟩
  case spawnc =>
    intro s u key o hspec ha hb r hr hm hg hroom hv
    obtain ⟨-, hi, -⟩ := joinPlace_global hg
    have hturns : lanesAndTurns (joinCounted u o key) = lanesAndTurns (setCur u (kill (cur u) [.x o.a, .v o.b])) :=
      sliceStore_lanesAndTurns _ _ _ _ _
    have hissue : issuing (joinCounted u o key) = issuing s := (issuing_of_lanesAndTurns hturns).trans hi
    have hcur : cur (joinCounted u o key) = kill (cur u) [.x o.a, .v o.b] := (cur_of_lanesAndTurns hturns).trans (cur_setCur u _)
    refine ⟨_, spawnRec (joinCounted u o key) (joinRecord r (getX (cur s) o.a.reg).toNat) false,
      execSpawnc_ready hspec ha hb hr hm hg hroom hv, stored_congr (t := joinCounted u o key) rfl ?_, ?_,
      ?_, bits_joinRecord r (getX (cur s) o.a.reg).isLt, bit_joinRecord_join r _, fun b _ hj hb => bit_joinRecord_other r _ hj hb,
      core_of_issuing hissue, lane_of_issuing hissue, ?_⟩
    · exact stored_sliceStore (s := setCur u _) hm _ key _
    · rw [pushSpawn_spawnQ, curCore, core_of_issuing (issuing_of_lanesAndTurns hturns), coreOf_congr (cores_of_lanesAndTurns hturns)]
      exact congrArg (·.spawnQ ++ [_]) (curCore_setCur_msg u _)
    · exact sliceStore_joins _ _ _ _ _
    · change (cur (joinCounted u o key)).firing.task = _
      rw [hcur, kill_firing]
  case joinat =>
    intro s u key o hspec ha hb r hr hg hroom
    refine ⟨_, execJoinat_ready hspec ha hb hr hg hroom, ?_, cur_after _ _ _, fun h => ?_, fun h => ?_⟩
    · rw [after_mem, joinAnswered_mem, setCur_mem]
    · rw [joinAnswered, setCur_mem, if_neg h]
      exact ⟨rfl, congrArg (·.spawnQ) ((curCore_setCur_msg _ _).trans (curCore_setCur_msg u _))⟩
    · rw [joinAnswered, setCur_mem, if_pos h]
      exact ⟨rfl, (pushSpawn_spawnQ _ _ _ _).trans (congrArg (·.spawnQ ++ [_]) (curCore_setCur_msg u _))⟩

/-- Settles O29, the sends by one lemma on their common operation, the spawns by the place of the join counter. -/
theorem messagesAndSpawns : Obligations.MessagesAndSpawns := ⟨sendInstructions_hold, spawnInstructions_hold⟩

end Sys2Proof.Machine
end

section
/-! Send queues (R164, R185): what leaves one, what is offered again, and where a message or an element arrives. -/

namespace Sys2Proof.Machine
open Sys2Proof.Safety

/-! ### Packets on their way leave the cores -/

@[simp] theorem wakeFlue_cores (s : State) (f : Nat) : (wakeFlue s f).cores = s.cores := ite_keeps rfl rfl

@[simp] theorem wakePath_cores (s : State) (p : Path) : (wakePath s p).cores = s.cores := by
  cases p with
  | waking f => exact wakeFlue_cores s f
  | _ => rfl

@[simp] theorem wakeRing_cores (s : State) (a b : Nat) : (wakeRing s a b).cores = s.cores := foldl_keeps wakeFlue_cores _ s

@[simp] theorem packetSent_cores (s : State) (a b : Nat) : (packetSent s a b).cores = s.cores :=
  foldl_keeps (view := State.cores) (fun _ _ => by rfl) _ s

/-! ### Items that leave a send queue, and items offered again -/

/-- A core with the item at `ix` of its send queue gone. -/
def itemGone (ix : Nat) (k : Core) : Core := { k with msg := { k.msg with sendQ := k.msg.sendQ.eraseIdx ix } }

theorem dequeueItem_eq (s : State) (src ix : Nat) : ∃ x : State, x.cores = s.cores ∧ dequeueItem s src ix = onCore x src (itemGone ix) := by
  unfold dequeueItem
  cases (coreOf s src).msg.sendQ[ix]? with
  | some i => exact ⟨_, packetSent_cores s _ _, rfl⟩
  | none => exact ⟨s, rfl, rfl⟩

theorem dequeueItem_sendQ (s : State) (src ix : Nat) :
    (coreOf (dequeueItem s src ix) src).msg.sendQ = (coreOf s src).msg.sendQ.eraseIdx ix := by
  obtain ⟨x, hx, he⟩ := dequeueItem_eq s src ix
  rw [he, coreOf_onCore_same, coreOf_congr hx]
  rfl

theorem dequeueItem_arrival (s : State) (src ix c : Nat) :
    (coreOf (dequeueItem s src ix) c).msg.arrival = (coreOf s c).msg.arrival := by
  obtain ⟨x, hx, he⟩ := dequeueItem_eq s src ix
  rw [he, ← coreOf_congr hx]
  by_cases h : src = c
  · subst h
    rw [coreOf_onCore_same]
    rfl
  · rw [coreOf_onCore_other _ _ h]

/-- A channel has no item of a kind when its queue holds none for the destination. -/
theorem channelHead_eq_none {s : State} {src dst : Nat} {event : Bool} : channelHead s src dst event = none
    ↔ ∀ i ∈ (coreOf s src).msg.sendQ, (itemDest i == dst && itemIsEvent i == event) = false := by
  rw [channelHead, Option.map_eq_none_iff, List.find?_eq_none]
  constructor
  · intro h i hi
    obtain ⟨n, hn⟩ := List.mem_iff_getElem?.1 hi
    exact Bool.eq_false_iff.2 (h (i, n) (List.mem_zipIdx_iff_getElem?.2 hn))
  · intro h e he
    exact Bool.eq_false_iff.1 (h e.1 (List.fst_mem_of_mem_zipIdx he))

theorem reoffer_cores (s : State) (src dst : Nat) : (reoffer s src dst).cores = s.cores := ite_keeps rfl rfl

/-- Items offered again wait for their next offer. -/
theorem due_reoffer (s : State) (src dst : Nat) : .due (.sendQueueReoffer src dst) ∈ (reoffer s src dst).sched.agenda := by
  unfold reoffer
  dsimp only
  split
  · next h =>
    obtain ⟨t, ht, hw⟩ := List.any_eq_true.1 h
    split at hw
    · next a b =>
      obtain ⟨rfl, rfl⟩ : a = src ∧ b = dst := by simpa using hw
      exact ht
    · cases hw
  · exact List.mem_append_right _ (List.mem_singleton_self _)

/-! ### Messages (R164) -/

section
variable {s : State} {src dst ix : Nat} {m : Message}

theorem offerMessage_message (h : channelHead s src dst false = some (ix, .msg m)) (hp : m.push = none) :
    offerMessage s src dst = acceptMessage s src ix m := by
  simp only [offerMessage, h, hp]

theorem offerMessage_push {b : Nat} (h : channelHead s src dst false = some (ix, .msg m)) (hp : m.push = some b) :
    offerMessage s src dst = acceptPush s src ix b m := by
  simp only [offerMessage, h, hp]

theorem offerMessage_none (h : channelHead s src dst false = none) : offerMessage s src dst = s := by
  simp only [offerMessage, h]

theorem offerEvent_none (h : channelHead s src dst true = none) : offerEvent s src dst = s := by
  simp only [offerEvent, h]

/-- The destination's arrival buffer takes a message (R164). -/
def Room (s : State) (src : Nat) (m : Message) : Prop :=
  turnedAway s src m = false ∧ (coreOf s m.dest).msg.arrival.length < 64
    ∧ ((coreOf s m.dest).msg.arrival.map (fun x => x.payload.length)).sum + payloadKept (coreOf s m.dest) + m.payload.length ≤ 128

theorem room_iff : (turnedAway s src m || !arrivalRoom (coreOf s m.dest) m) = false ↔ Room s src m := by
  simp [Room, arrivalRoom]

/-- A core with a message last in its arrival buffer. -/
def withArrival (m : Message) (k : Core) : Core := { k with msg := { k.msg with arrival := k.msg.arrival ++ [m] } }

theorem dieUp_of_rst (h : (dieOf s (dieNo m.dest)).rst = 0) : dieUp s m.dest = true := decide_eq_true h

theorem acceptMessage_stale (h : m.inc ≠ (dieOf s (dieNo m.src)).inc) : acceptMessage s src ix m = dequeueItem s src ix := if_pos h

section
variable (hinc : m.inc = (dieOf s (dieNo m.src)).inc) (hup : (dieOf s (dieNo m.dest)).rst = 0)
include hinc hup

theorem acceptMessage_refused (h : ¬ Room s src m) : acceptMessage s src ix m = refuse s src m.dest := by
  have hroom : (turnedAway s src m || !arrivalRoom (coreOf s m.dest) m) = true := Bool.eq_true_of_not_eq_false (mt room_iff.1 h)
  simp [acceptMessage, hinc, dieUp_of_rst hup, hroom]

theorem acceptMessage_arrives (h : Room s src m) (hok : handlerOk (handlerEntry s m.dest m.type).1 = true) :
    acceptMessage s src ix m = onCore (dequeueItem s src ix) m.dest (withArrival m) := by
  unfold acceptMessage
  rw [if_neg (not_not_intro hinc), dieUp_of_rst hup, Bool.not_true, if_neg Bool.false_ne_true, room_iff.2 h, if_neg Bool.false_ne_true, hok,
    Bool.not_true, if_neg Bool.false_ne_true]
  rfl

end

/-- The message has left its send queue and arrived. -/
theorem withArrival_arrival : (coreOf (onCore (dequeueItem s src ix) m.dest (withArrival m)) m.dest).msg.arrival
    = (coreOf s m.dest).msg.arrival ++ [m] := by
  rw [coreOf_onCore_same, withArrival, dequeueItem_arrival]

theorem withArrival_sendQ : (coreOf (onCore (dequeueItem s src ix) m.dest (withArrival m)) src).msg.sendQ
    = (coreOf s src).msg.sendQ.eraseIdx ix := by
  rw [← dequeueItem_sendQ]
  by_cases h : m.dest = src
  · subst h
    rw [coreOf_onCore_same]
    rfl
  · rw [coreOf_onCore_other _ _ h]

/-- A message refused stays, and its queue is offered again. -/
theorem refuse_keeps : (refuse s src m.dest).cores = s.cores ∧ (refuse s src m.dest).mem = s.mem
    ∧ .due (.sendQueueReoffer src m.dest) ∈ (refuse s src m.dest).sched.agenda :=
  ⟨(reoffer_cores _ _ _).trans (wakeRing_cores _ _ _), refuse_mem _ _ _, due_reoffer _ _ _⟩

/-- A queue offered again without an event at its head offers its message. -/
theorem execSendQueueReoffer_message (he : channelHead s src dst true = none)
    (hq : (coreOf (offerMessage s src dst) src).msg.sendQ = (coreOf s src).msg.sendQ.eraseIdx ix) :
    ∃ t, execSendQueueReoffer src dst s = .next t ∧ t.cores = (offerMessage s src dst).cores ∧ t.mem = (offerMessage s src dst).mem := by
  have hnone : channelHead (offerMessage s src dst) src dst true = none := by
    rw [channelHead_eq_none] at he ⊢
    exact fun i hi => he i (List.mem_of_mem_eraseIdx (hq ▸ hi))
  refine ⟨_, rfl, ?_, ?_⟩
  · rw [offerEvent_none hnone]
    exact ite_keeps (reoffer_cores _ _ _) rfl
  · rw [offerEvent_none hnone]
    exact ite_keeps (reoffer_mem _ _ _) rfl

/-! ### Elements pushed to another core (R185) -/

/-- A push of the sender's incarnation into a buffer with room appends its element. -/
theorem acceptPush_room {b : Nat} (hinc : m.inc = (dieOf s (dieNo m.src)).inc) (hup : (dieOf s (dieNo m.dest)).rst = 0)
    (haway : turnedAway s src m = false) (hsb : (coreOf s m.dest).eng.sb = []) (hsize : (streamGet s m.dest b).size ≠ 0)
    (hroom : streamCount (streamGet s m.dest b) < (streamGet s m.dest b).size) :
    acceptPush s src ix b m = appended (dequeueItem s src ix) m.dest b ((m.payload.head?).getD 0).toNat := by
  have hfree : streamRoom (streamGet s m.dest b) ≠ 0 := Nat.sub_ne_zero_of_lt hroom
  have hq : streamGet (dequeueItem s src ix) m.dest b = streamGet s m.dest b := streamGet_congr (dequeueItem_mem _ _ _) _ _
  unfold acceptPush appended
  simp only [hinc, dieUp_of_rst hup, haway, hsize, hfree, hsb, hq, List.any_nil, ne_eq, not_true_eq_false, Bool.not_true, Bool.false_eq_true,
    decide_false, Bool.or_false, if_false]

end

end Sys2Proof.Machine
end

section
/-! O44: messages, pushes and tasks accepted, records that return, aborts and holds (R164, R185, R19, R320, R327, R333). -/

namespace Sys2Proof.Machine
open Sys2Proof.Safety

/-! ### Records that reach their quad (R19, R320) -/

/-- Of the entries of a table that pass a test, at most one more passes once a key is set. -/
theorem length_filter_smSet_le {α : Type} (p : Nat × α → Bool) (m : SMap α) (n : Nat) (v : α) :
    ((smSet m n v).filter p).length ≤ (m.filter p).length + 1 := by
  induction m with
  | nil => exact List.length_filter_le _ _
  | cons e t ih =>
    obtain ⟨k, w⟩ := e
    have hcons (a : Nat × α) (l : List (Nat × α)) : ((a :: l).filter p).length = (l.filter p).length + (p a).toNat := by
      cases h : p a <;> simp [h]
    have hbit (a : Nat × α) : (p a).toNat ≤ 1 := Bool.toNat_le (p a)
    unfold smSet
    split
    · rw [hcons, hcons]
      have := hbit (n, v)
      omega
    · split
      · rw [hcons]
        have := hbit (n, v)
        omega
      · rw [hcons, hcons]
        omega

/-- A key set to an entry that fails a test adds no entry that passes it. -/
theorem filter_smSet_eq_nil {α : Type} {p : Nat × α → Bool} {m : SMap α} {n : Nat} {v : α} (hm : m.filter p = []) (hv : p (n, v) = false) :
    (smSet m n v).filter p = [] := by
  induction m with
  | nil => simp [smSet, hv]
  | cons e t ih =>
    obtain ⟨k, w⟩ := e
    rw [List.filter_eq_nil_iff, List.forall_mem_cons] at hm
    obtain ⟨hw, ht⟩ := hm
    have ht' : t.filter p = [] := List.filter_eq_nil_iff.2 ht
    unfold smSet
    split
    · simp [hv, ht']
    · split
      · simp [hv, hw, ht']
      · simp [hw, ih ht']

/-- A quad with room and no spilled record of the domain spills none (R320). -/
theorem settleQueue_room {s : State} {q dom : Nat} (hroom : queuedAt s q false ≤ 2048) (hspill : recordsOf s q dom true = []) :
    settleQueue s q dom = s := by
  unfold settleQueue
  split
  · rw [hspill, List.any_nil, decide_eq_false (Nat.not_lt.2 hroom), Bool.or_false]
    exact if_neg Bool.false_ne_true
  · rfl

/-- The state with task `x` entered in the table under the next number. -/
def taskEntered (s : State) (x : Task) : State :=
  onHearth (draw s) (fun h => { h with tasks := smSet h.tasks s.hearth.nextTask x, nextTask := s.hearth.nextTask + 1 })

section
variable {s : State} {core slot quad : Nat} {q : Spawn} {d : Domain}

theorem acceptSpawn_own (hhost : q.host = false) (hparent : q.parent = none)
    (hdom : domainOf s (recField q.record 56 0 16) = some (slot, d)) (hlaunch : q.launch = some d.launch)
    (hrec : recordOk q.record = true) : acceptSpawn s q = placeRecord s slot d q := by
  simp [acceptSpawn, hparent, hdom, hhost, hlaunch, hrec]

/-- An unordered record placed on a quad with room enters the task table. -/
theorem placeRecord_room (hhost : q.host = false) (hord : d.ordered = false)
    (hplace : placeQuad s d (some (dieNo q.core)) (recField q.record 16 0 64) = some quad) (hroom : queuedAt s quad false < 2048)
    (hspill : recordsOf s quad d.id true = []) :
    placeRecord s slot d q = (taskEntered s (newTask s d q quad 0 (q.origin.isSome && q.domain == d.id)), true) := by
  have hneeds : needsSpill s quad d.id s.hearth.nextTask = false := by
    simp [needsSpill, hroom, hspill]
  have hqueued : queuedAt (taskEntered s (newTask s d q quad 0 (q.origin.isSome && q.domain == d.id))) quad false ≤ 2048 :=
    (length_filter_smSet_le _ _ _ _).trans hroom
  have hnone : recordsOf (taskEntered s (newTask s d q quad 0 (q.origin.isSome && q.domain == d.id))) quad d.id true = [] :=
    filter_smSet_eq_nil hspill (by simp [newTask])
  unfold placeRecord
  simp only [hhost, hplace, hord, hneeds, Bool.false_eq_true, if_false]
  exact congrArg (·, true) (settleQueue_room hqueued hnone)

theorem execTaskAccept_entered {rest : List Spawn} {x : Task} (hcore : core ≠ 0xFFF) (hq : (coreOf s core).msg.spawnQ = q :: rest)
    (h : acceptSpawn s q = (taskEntered s x, true)) :
    execTaskAccept core s = .next (refreshSpillf (onCore (taskEntered s x) core fun k =>
      { k with msg := { k.msg with spawnQ := k.msg.spawnQ.tail } })) := by
  simp only [execTaskAccept, hcore, if_false, hq, h, if_true]

theorem spawnQ_taskTaken {rest : List Spawn} (x : Task) (hq : (coreOf s core).msg.spawnQ = q :: rest) :
    (coreOf (refreshSpillf (onCore (taskEntered s x) core fun k => { k with msg := { k.msg with spawnQ := k.msg.spawnQ.tail } })) core).msg.spawnQ
      = rest := by
  have hcores (t : State) : (refreshSpillf t).cores = t.cores := rfl
  have hsame : (taskEntered s x).cores = s.cores := rfl
  rw [coreOf_congr (hcores _), coreOf_onCore_same, coreOf_congr hsame, hq]
  rfl

end

/-! ### Spilled records that return (R320) -/

section
variable {s : State} {quad i slot : Nat} {x : Task} {d : Domain}

@[simp] theorem unspill_cores (quad n : Nat) (s : State) : (unspill quad n s).cores = s.cores := by
  induction n generalizing s with
  | zero => rfl
  | succ n ih =>
    unfold unspill
    split
    · rfl
    · split
      · rfl
      · split
        · exact ih _
        · exact wakePath_cores _ _

/-- A quad that is full, or has no spilled record that may return, takes none back. -/
theorem unspill_stays (h : 2048 ≤ queuedAt s quad false ∨ nextSpilled s quad = none) (n : Nat) : unspill quad n s = s := by
  cases n with
  | zero => rfl
  | succ n =>
    unfold unspill
    rcases h with h | h
    · exact if_pos h
    · simp only [h, ite_self]

/-- The record that returns first is one of the table's. -/
theorem tasks_length_pos_of_nextSpilled (h : nextSpilled s quad = some (i, x, slot, d)) : 0 < s.hearth.tasks.length := by
  rw [nextSpilled, Option.map_eq_some_iff] at h
  obtain ⟨r, hr, -⟩ := h
  obtain ⟨e, he, -⟩ := List.mem_filterMap.1 (bestBy_mem hr)
  exact List.length_pos_of_mem he

/-- The state with the record of task `i` returned to its quad (R320). -/
def returned (s : State) (i : Nat) (x : Task) (slot : Nat) (d : Domain) : State :=
  onHearth (unspillTask s d i x) (fun h => { h with domains := smSet h.domains slot { d with spillf := false } })

section
variable (hroom : queuedAt s quad false < 2048) (hnext : nextSpilled s quad = some (i, x, slot, d))
include hroom hnext

theorem unspill_waking {f : Nat} (hway : spillWay s d quad x.slot = .waking f) :
    unspill quad s.hearth.tasks.length s = dueEvent (wakeFlue s f) (.taskSpillReturn quad) := by
  obtain ⟨n, hn⟩ := Nat.exists_eq_add_of_lt (tasks_length_pos_of_nextSpilled hnext)
  rw [hn, unspill, if_neg (Nat.not_le.2 hroom), hnext]
  simp only [hway, wakePath]

theorem unspill_opened (hway : spillWay s d quad x.slot = .opened) :
    unspill quad s.hearth.tasks.length s = unspill quad (s.hearth.tasks.length - 1) (returned s i x slot d) := by
  obtain ⟨n, hn⟩ := Nat.exists_eq_add_of_lt (tasks_length_pos_of_nextSpilled hnext)
  rw [hn, unspill, if_neg (Nat.not_le.2 hroom), hnext]
  simp only [hway, Nat.add_sub_cancel]
  rfl

end

end

/-! ### Holds (R333) -/

/-- The first task that holds a held access's line and that an abort reaches. -/
def lineHolder (h : HeldAccess) (s : State) : Option (Nat × Task) :=
  s.hearth.tasks.find? (fun e =>
    holdsLine h.dom (h.va.elim (virtualsOf s h.line) (fun a => [a])) h.line h.write e.2 && !spared s e.1 e.2)

theorem abortHolders_none {h : HeldAccess} {s : State} (hh : lineHolder h s = none) (n : Nat) : abortHolders h n s = s := by
  cases n with
  | zero => rfl
  | succ n =>
    unfold lineHolder at hh
    simp only [abortHolders, hh]

theorem abortHolders_some {h : HeldAccess} {s : State} {e : Nat × Task} (hh : lineHolder h s = some e) (n : Nat) :
    abortHolders h (n + 1) s = abortHolders h n (abortStep s e.1 false) := by
  unfold lineHolder at hh
  simp only [abortHolders, hh]

/-! ### The parts of O44 -/

theorem messages_accepted {s : State} {src dst ix : Nat} {m : Message} (h : channelHead s src dst false = some (ix, .msg m))
    (hp : m.push = none) :
    (m.inc ≠ (dieOf s (dieNo m.src)).inc → ∃ t, exec (.messageAccept src dst) s = .next t ∧ t.mem = s.mem
      ∧ (coreOf t src).msg.sendQ = (coreOf s src).msg.sendQ.eraseIdx ix ∧ ∀ c, (coreOf t c).msg.arrival = (coreOf s c).msg.arrival)
    ∧ (m.inc = (dieOf s (dieNo m.src)).inc → (dieOf s (dieNo m.dest)).rst = 0 →
      (Room s src m → handlerOk (handlerEntry s m.dest m.type).1 = true → ∃ t, exec (.messageAccept src dst) s = .next t ∧ t.mem = s.mem
        ∧ (coreOf t m.dest).msg.arrival = (coreOf s m.dest).msg.arrival ++ [m]
        ∧ (coreOf t src).msg.sendQ = (coreOf s src).msg.sendQ.eraseIdx ix)
      ∧ (Room s src m → handlerOk (handlerEntry s m.dest m.type).1 = true → channelHead s src dst true = none →
        ∃ t, exec (.sendQueueReoffer src dst) s = .next t ∧ t.mem = s.mem
          ∧ (coreOf t m.dest).msg.arrival = (coreOf s m.dest).msg.arrival ++ [m]
          ∧ (coreOf t src).msg.sendQ = (coreOf s src).msg.sendQ.eraseIdx ix)
      ∧ (¬ Room s src m → ∃ t, exec (.messageAccept src dst) s = .next t ∧ t.cores = s.cores ∧ t.mem = s.mem
        ∧ .due (.sendQueueReoffer src m.dest) ∈ t.sched.agenda)) := by
  have hoffer := offerMessage_message h hp
  have hexec : exec (.messageAccept src dst) s = .next (acceptMessage s src ix m) := congrArg Host.Outcome.next hoffer
  refine ⟨fun hinc => ?stale, fun hinc hup => ⟨fun hroom hok => ?room, fun hroom hok he => ?again, fun hroom => ?refused⟩⟩
  case stale =>
    rw [hexec, acceptMessage_stale hinc]
    exact ⟨_, rfl, dequeueItem_mem _ _ _, dequeueItem_sendQ _ _ _, dequeueItem_arrival _ _ _⟩
  case room =>
    refine ⟨_, hexec, acceptMessage_mem _ _ _ _, ?_, ?_⟩
    · rw [acceptMessage_arrives hinc hup hroom hok, withArrival_arrival]
    · rw [acceptMessage_arrives hinc hup hroom hok, withArrival_sendQ]
  case again =>
    rw [acceptMessage_arrives hinc hup hroom hok] at hoffer
    obtain ⟨t, ht, hcores, hmem⟩ := execSendQueueReoffer_message he (by rw [hoffer, withArrival_sendQ])
    rw [hoffer] at hcores hmem
    refine ⟨t, ht, hmem.trans (dequeueItem_mem s src ix), ?_, ?_⟩
    · rw [coreOf_congr hcores, withArrival_arrival]
    · rw [coreOf_congr hcores, withArrival_sendQ]
  case refused => exact ⟨_, hexec, acceptMessage_refused hinc hup hroom ▸ refuse_keeps⟩

theorem pushes_accepted {s : State} {src dst ix b : Nat} {m : Message} (h : channelHead s src dst false = some (ix, .msg m))
    (hp : m.push = some b) (hinc : m.inc = (dieOf s (dieNo m.src)).inc) (hup : (dieOf s (dieNo m.dest)).rst = 0) (hm : MemoryOk s)
    (haway : turnedAway s src m = false) (hsb : (coreOf s m.dest).eng.sb = []) {q : StreamBuf} (hq : streamGet s m.dest b = q)
    (hsize : q.size ≠ 0) (hroom : streamCount q < q.size) (hfit : q.base + q.size * esize q ≤ 0x6C000) :
    ∃ t, exec (.remotePushAccept src dst) s = .next t ∧ streamGet t m.dest b = { q with tail := (q.tail + 1) % 2 ^ 32 }
      ∧ memRead t.mem (lmKey m.dest (elemAt q q.tail)) (esize q) = ((m.payload.head?).getD 0).toNat % 2 ^ (8 * esize q)
      ∧ (coreOf t src).msg.sendQ = (coreOf s src).msg.sendQ.eraseIdx ix := by
  subst hq
  have hexec : exec (.remotePushAccept src dst) s = .next (appended (dequeueItem s src ix) m.dest b ((m.payload.head?).getD 0).toNat) :=
    congrArg Host.Outcome.next ((offerMessage_push h hp).trans (acceptPush_room hinc hup haway hsb hsize hroom))
  have hmem : (dequeueItem s src ix).mem = s.mem := dequeueItem_mem _ _ _
  have hk : MemoryOk (dequeueItem s src ix) := by
    unfold MemoryOk
    rw [hmem]
    exact hm
  have hq := streamGet_congr hmem m.dest b
  refine ⟨_, hexec, ?_, ?_, ?_⟩
  · rw [streamGet_appended hk, hq]
  · rw [← hq] at hsize hfit ⊢
    exact memRead_appended hk m.dest b _ hsize hfit
  · rw [appended_sendQ, dequeueItem_sendQ]

/-- Settles O44: each step is the one of its head item, record, task or held access. -/
theorem messageAndTaskEvents : Obligations.MessageAndTaskEvents := by
  refine ⟨?heads, ?empty, ?accept, ?spill, ?abort, ?hold⟩
  case heads =>
    intro s src dst ix m h
    refine ⟨fun hp => messages_accepted h hp, ?_⟩
    intro b hp _ hinc hup hm haway hsb q at' hsize hroom hfit
    exact pushes_accepted h hp hinc hup hm haway hsb rfl hsize hroom hfit
  case empty =>
    intro s src dst hmsg hev
    have hoffer := offerMessage_none hmsg
    refine ⟨?_, congrArg Host.Outcome.next hoffer⟩
    change execSendQueueReoffer src dst s = _
    simp [execSendQueueReoffer, hoffer, offerEvent_none hev, hmsg, hev]
  case accept =>
    intro s core q rest slot d quad hcore hq hhost hparent hdom hlaunch hrec hord hplace hroom hspill
    have haccept := (acceptSpawn_own hhost hparent hdom hlaunch hrec).trans (placeRecord_room hhost hord hplace hroom hspill)
    have hlink : parentLink (q.origin.isSome && q.domain == d.id) q = 0 := by simp [parentLink, hparent]
    refine ⟨_, _, execTaskAccept_entered hcore hq haccept, spawnQ_taskTaken _ hq, rfl, smGet_smSet_same _ _ _, rfl, ?_, rfl, rfl, rfl, hord,
      ?_, rfl⟩
    · simp [newTask, hord, hlink]
    · simp [newTask, hord]
  case spill =>
    intro s quad
    refine ⟨⟨_, rfl, unspill_mem _ _ _, unspill_cores _ _ _⟩, fun h => congrArg Host.Outcome.next (unspill_stays h _),
      fun i x slot d f hroom hnext hway => congrArg Host.Outcome.next (unspill_waking hroom hnext hway), fun i x slot d hroom hnext hway => ?_⟩
    exact ⟨returned s i x slot d, rfl, rfl, fun j hj => smGet_smSet_other _ _ (Ne.symm hj), smGet_smSet_same _ _ _, smGet_smSet_same _ _ _,
      congrArg Host.Outcome.next (unspill_opened hroom hnext hway)⟩
  case abort =>
    intro s n x hx
    have hexec : exec (.taskAbort n) s = .next (if x.ordered && x.spec && x.state != .queued && !spared s n x && abortCause s n x
        then abortStep s n false else s) := by
      change execTaskAbort n s = _
      simp only [execTaskAbort, hx]
    rw [hexec]
    refine ⟨fun hord hspec hstate hspared hcause => ?_, fun h => ?_⟩
    · simp [hord, hspec, hstate, hspared, hcause]
    · rcases h with h | h | h | h <;> simp [h]
  case hold =>
    intro s c l
    have hexec : exec (.holdTimeout c l) s = execHoldTimeout c l s := rfl
    rw [hexec]
    refine ⟨fun h => by simp only [execHoldTimeout, h], ?_⟩
    intro h hh holds
    have hheld : execHoldTimeout c l s = .next (abortHolders h (s.hearth.tasks.length + 1) s) := by simp only [execHoldTimeout, hh]
    rw [hheld]
    refine ⟨fun hnone => congrArg Host.Outcome.next (abortHolders_none hnone _), fun e he hnone => congrArg Host.Outcome.next ?_⟩
    rw [abortHolders_some he, abortHolders_none hnone]

end Sys2Proof.Machine
end

section
/-! The neuron-bank state of a core (R195 to R203): what its updates leave of the machine, and what the delivery engine makes due. -/

namespace Sys2Proof.Machine
open Sys2Proof.Safety

/-! ### Updates of the neuron-bank state -/

@[simp] theorem coreOf_onEv_same (s : State) (c : Nat) (f : CoreEv → CoreEv) :
    coreOf (onEv s c f) c = { coreOf s c with ev := f (coreOf s c).ev } := coreOf_onCore_same s c _

@[simp] theorem coreOf_onEv_msg (s : State) (c d : Nat) (f : CoreEv → CoreEv) :
    (coreOf (onEv s c f) d).msg = (coreOf s d).msg := by
  by_cases h : c = d
  · subst h
    rw [coreOf_onEv_same]
  · rw [onEv, coreOf_onCore_other _ _ h]

@[simp] theorem onEv_sched (s : State) (c : Nat) (f : CoreEv → CoreEv) : (onEv s c f).sched = s.sched := rfl

theorem cur_onEv (s : State) (c : Nat) (f : CoreEv → CoreEv) : cur (onEv s c f) = cur s :=
  laneOf_onCore_lanes (by intro; rfl) _ _ _ _

theorem curCore_setCur_ev (s : State) (x : Lane) : (curCore (setCur s x)).ev = (curCore s).ev := coreOf_setLane_ev s _ _ x _

/-! ### What is due next (R197, R198, R201 to R203) -/

/-- The delivery engine makes at most events due: a view that making an event due keeps is kept. -/
theorem evKick_keeps {β : Type} {view : State → β} (hd : ∀ t d, view (dueEvent t d) = view t) (s : State) (c : Nat) :
    view (evKick s c) = view s := by
  have hspill : view (if (coreOf s c).ev.spill.isEmpty || decide (1024 ≤ (coreOf s c).ev.queue.length) then s
      else dueEvent s (.eventSpillReturn c)) = view s := ite_keeps rfl (hd _ _)
  unfold evKick
  refine ite_keeps hspill ?_
  split
  · exact hspill
  · exact ite_keeps ((hd _ _).trans hspill) (ite_keeps ((hd _ _).trans hspill) hspill)

@[simp] theorem evKick_cores (s : State) (c : Nat) : (evKick s c).cores = s.cores := evKick_keeps dueEvent_cores s c

@[simp] theorem evKick_issuing (s : State) (c : Nat) : issuing (evKick s c) = issuing s := evKick_keeps (fun _ _ => rfl) s c

@[simp] theorem coreOf_evKick (s : State) (c d : Nat) : coreOf (evKick s c) d = coreOf s d := coreOf_congr (evKick_cores s c) d

theorem cur_evKick (s : State) (c : Nat) : cur (evKick s c) = cur s := cur_of_cores_issuing (evKick_cores s c) (evKick_issuing s c)

/-- After a part of a delivery its core has what is left of it, if anything is. -/
theorem coreOf_deliveryNext (s : State) (c : Nat) (d : Delivery) : coreOf (deliveryNext s c d) c
    = { coreOf s c with ev := { (coreOf s c).ev with delivering := if d.left = 0 ∧ d.post = none then none else some d } } := by
  unfold deliveryNext
  by_cases hl : d.left = 0
  · cases hp : d.post with
    | none => simp [hl]
    | some v => simp [hl]
  · simp [hl]

end Sys2Proof.Machine
end

section
/-! O41: the event-bank instructions (R204 to R209). -/

namespace Sys2Proof.Machine
open Sys2Proof.Safety

/-! ### The slot class (R204) -/

theorem classTwo_ok {l : Lane} (h : l.firing.cls = 2) : classTwo l = .ok () := need_ok (beq_iff_eq.2 h)

/-- What asks for slot class 2 before anything else is illegal in a firing of another class. -/
theorem stateOp_classTwo_illegal {n : Nat} {f : State → Except Stop State} {s : State} (h : (cur s).firing.cls ≠ 2)
    {g : Unit → Except Stop State} (hf : f s = classTwo (cur s) >>= g) : stateOp n f s = .next (takeFault s .illegal 0) := by
  have hclass : classTwo (cur s) = .error (.fault .illegal 0) := if_neg (mt beq_iff_eq.1 h)
  refine (stateOp_error ?_).trans (takeStop_fault s _ _)
  rw [hf, hclass, bind_error]

/-! ### Operands (R206 to R208) -/

theorem ready_xxx {l : Lane} {a b c : Src} (ha : XReady l a) (hb : XReady l b) (hc : XReady l c) : Ready l [.x a, .x b, .x c] :=
  ready_cons.2 ⟨ha, ready_xx hb hc⟩

/-- The state of the neuron that an operand names (R208). -/
theorem neuronKey_bits (c : Nat) {n : Nat} (h : n < 2 ^ 13) : neuronKey c (bits n 11 2) (bits n 0 11) = bankKey c (16 * n) := by
  unfold neuronKey bits
  congr 1
  omega

/-- The bits of a word from one that it is below. -/
theorem bits_eq_zero_of_lt {w lo : Nat} (h : w < 2 ^ lo) (n : Nat) : bits w lo n = 0 := by
  rw [bits, Nat.div_eq_of_lt h, Nat.zero_mod]

theorem bits_zero_of_lt {w n : Nat} (h : w < 2 ^ n) : bits w 0 n = w := by
  rw [bits, Nat.pow_zero, Nat.div_one, Nat.mod_eq_of_lt h]

/-- Between deliveries a neuron operand is answered at once (R203). -/
theorem neuronOf_idle {s : State} (h : (curCore s).ev.delivering = none) {a : X} (ha : a.toNat < 2 ^ 13) :
    neuronOf s a = .ok (bits a.toNat 11 2, bits a.toNat 0 11) := by
  have hfield : (bits a.toNat 13 51 == 0) = true := beq_iff_eq.2 (bits_eq_zero_of_lt ha 51)
  have hidle : (coreOf s s.sched.core).ev.delivering = none := h
  simp [neuronOf, need_ok hfield, hidle, await, bind_ok]

/-! ### The event that EVINJ sends (R207) -/

/-- The event of a target, weight and time, with the core's next event sequence number (R196). -/
def injected (s : State) (a : Nat) (weight : BitVec 32) (time : Nat) : Event :=
  ⟨(dieOf s (dieNo s.sched.core)).inc, s.sched.core, (curCore s).ev.evSeq, bits a 13 12, bits a 11 2, bits a 0 11, weight, time, 0⟩

/-- The issuing lane has become `x` and its core has sent an injected event. -/
def eventSent (s : State) (x : Lane) (e : Event) : State :=
  enqueueItem (onEv (setCur s x) s.sched.core fun v => { v with evSeq := (v.evSeq + 1) % 2 ^ 16 }) s.sched.core e.core (.ev e true)

theorem cur_eventSent (s : State) (x : Lane) (e : Event) : cur (eventSent s x e) = x := by
  rw [cur, eventSent, enqueueItem, laneOf_dueEvent]
  exact (laneOf_onCore_lanes (by intro; rfl) _ _ _ _).trans ((cur_onEv _ _ _).trans (cur_setCur s x))

/-- The event stands last in the send queue, and the core's next one has the number after it. -/
theorem curCore_eventSent (s : State) (x : Lane) (e : Event) (n : Nat) (l : Lane) :
    (curCore (after (eventSent s x e) n l)).msg.sendQ = (curCore s).msg.sendQ ++ [.ev e true]
    ∧ (curCore (after (eventSent s x e) n l)).ev.evSeq = ((curCore s).ev.evSeq + 1) % 2 ^ 16 := by
  have hcore : (after (eventSent s x e) n l).sched.core = s.sched.core := rfl
  have hmsg : (coreOf (setCur s x) s.sched.core).msg = (curCore s).msg := curCore_setCur_msg s x
  have hev : (coreOf (setCur s x) s.sched.core).ev = (curCore s).ev := curCore_setCur_ev s x
  rw [curCore, hcore, after, setCur, coreOf_setLane_msg, coreOf_setLane_ev, eventSent, enqueueItem, coreOf_dueEvent, coreOf_onCore_same,
    coreOf_onEv_same, hmsg, hev]
  exact ⟨rfl, rfl⟩

theorem emitEvent_injected {s : State} (hroom : (curCore s).msg.sendQ.length < 32) (x : Lane) (a time : Nat) (weight : BitVec 32) :
    emitEvent (setCur s x) s.sched.core a weight time 0 true = some (eventSent s x (injected s a weight time)) := by
  have hsend : sendRoom (setCur s x) s.sched.core = true :=
    decide_eq_true ((congrArg (·.sendQ.length) (curCore_setCur_msg s x)).trans_lt hroom)
  have hseq : (coreOf (setCur s x) s.sched.core).ev = (curCore s).ev := curCore_setCur_ev s x
  simp only [emitEvent, Bool.not_true, Bool.and_false, Bool.false_eq_true, if_false, hsend, if_true, hseq]
  rfl

/-! ### What EVSTAT reads (R209) -/

/-- NEXT is the time of the first event of the queue and the spill. -/
theorem evFigure_next {s : State} {c bank : Nat} {e : Event} {l : List Event}
    (h : (coreOf s c).ev.queue ++ (coreOf s c).ev.spill.map (·.1) = e :: l) : evFigure s c 1 bank = e.time := by
  simp only [evFigure, h, List.head?_cons]

/-! ### The instructions -/

section
variable {s : State} (hspec : (cur s).firing.spec = false) (hcls : (cur s).firing.cls = 2)
include hcls

section
include hspec

theorem execEvcfg_ready {o : EvcfgOp} (ha : VReady (cur s) o.a) (hzero : bits ((getV (cur s) o.a).toNat % 2 ^ 256) 106 150 = 0)
    (hbit : bit ((getV (cur s) o.a).toNat % 2 ^ 256) 95 = false) :
    execEvcfg o s = .next (after (onMem (setCur s (kill (cur s) [.v o.a])) fun m =>
      memWrite m (lmKey s.sched.core (0x7F800 + 32 * o.n.val)) 32 ((getV (cur s) o.a).toNat % 2 ^ 256)) 8 (kill (cur s) [.v o.a])) := by
  refine stateOp_of_cur ?_ ((cur_onMem _ _).trans (cur_setCur s _))
  simp only [classTwo_ok hcls, irrevocable_ok hspec, gate_ok (ready_v ha) (free_nil _), hzero, hbit, need, beq_self_eq_true, Bool.not_false,
    Bool.and_self, if_true, bind_ok, paramAt]

theorem execEvwr_ready {o : EvwrOp} (ha : XReady (cur s) o.a) (hb : VReady (cur s) o.b) (hidle : (curCore s).ev.delivering = none)
    (hn : (getX (cur s) o.a.reg).toNat < 2 ^ 13) (hzero : bits ((getV (cur s) o.b).toNat % 2 ^ 128) 89 7 = 0)
    (hset : bits ((getV (cur s) o.b).toNat % 2 ^ 128) 80 8 ≤ 15) :
    execEvwr o s = .next (after (onMem (setCur s (kill (cur s) [.x o.a, .v o.b])) fun m =>
      memWrite m (bankKey s.sched.core (16 * (getX (cur s) o.a.reg).toNat)) 16 ((getV (cur s) o.b).toNat % 2 ^ 128))
      8 (kill (cur s) [.x o.a, .v o.b])) := by
  refine stateOp_of_cur ?_ ((cur_onMem _ _).trans (cur_setCur s _))
  simp only [classTwo_ok hcls, irrevocable_ok hspec, gate_ok (ready_xv ha hb) (free_nil _), bits_eq_zero_of_lt hn, hzero, hset, need,
    beq_self_eq_true, decide_true, Bool.and_self, if_true, bind_ok, neuronOf_idle hidle hn, neuronKey_bits _ hn]

theorem execEvinj_ready {o : EvinjOp} (ha : XReady (cur s) o.a) (hb : XReady (cur s) o.b) (hc : XReady (cur s) o.c)
    (hroom : (curCore s).msg.sendQ.length < 32) (hta : (getX (cur s) o.a.reg).toNat < 2 ^ 25)
    (htime : (getX (cur s) o.b.reg).toNat < 2 ^ 32) (hname : namesCore (bits (getX (cur s) o.a.reg).toNat 13 12) = true) :
    execEvinj o s = .next (after (eventSent s (kill (cur s) [.x o.a, .x o.b, .x o.c])
      (injected s (getX (cur s) o.a.reg).toNat ((getX (cur s) o.c.reg).setWidth 32) (getX (cur s) o.b.reg).toNat))
      8 (kill (cur s) [.x o.a, .x o.b, .x o.c])) := by
  refine stateOp_of_cur ?_ (cur_eventSent s _ _)
  have hsend : sendRoom s s.sched.core = true := decide_eq_true hroom
  simp only [classTwo_ok hcls, irrevocable_ok hspec, gate_ok (ready_xxx ha hb hc) (free_nil _), bits_eq_zero_of_lt hta,
    bits_eq_zero_of_lt htime, hname, need, beq_self_eq_true, Bool.and_self, if_true, await_ok hsend, bind_ok, emitEvent_injected hroom]

theorem execEvfan_ready {o : EvfanOp} (ha : XReady (cur s) o.a) (hb : XReady (cur s) o.b) (hidle : (curCore s).ev.delivering = none)
    (hta : (getX (cur s) o.a.reg).toNat < 2 ^ 19) (htb : (getX (cur s) o.b.reg).toNat < 2 ^ 17)
    (hbind : bit (getX (cur s) o.b.reg).toNat 16 = true → bindOk s (getX (cur s) o.a.reg).toNat (getX (cur s) o.b.reg).toNat = true) :
    execEvfan o s = .next (after (evKick (onEv (setCur s (kill (cur s) [.x o.a, .x o.b])) s.sched.core fun v =>
      { v with bankCtl := v.bankCtl.set o.k (BitVec.ofNat 64 ((getX (cur s) o.a.reg).toNat
        + bits (getX (cur s) o.b.reg).toNat 16 1 * 2 ^ 19 + bits (getX (cur s) o.b.reg).toNat 0 16 * 2 ^ 48)) }) s.sched.core)
      8 (kill (cur s) [.x o.a, .x o.b])) := by
  refine stateOp_of_cur ?_ ((cur_evKick _ _).trans ((cur_onEv _ _ _).trans (cur_setCur s _)))
  have hcheck : (!bit (getX (cur s) o.b.reg).toNat 16
      || bindOk s (getX (cur s) o.a.reg).toNat (getX (cur s) o.b.reg).toNat) = true := by
    rw [Bool.or_eq_true, Bool.not_eq_true']
    exact or_iff_not_imp_left.2 fun h => hbind (Bool.not_eq_false _ ▸ h)
  simp only [classTwo_ok hcls, irrevocable_ok hspec, gate_ok (ready_xx ha hb) (free_nil _), bits_eq_zero_of_lt hta, bits_eq_zero_of_lt htb,
    hcheck, need, beq_self_eq_true, Bool.and_self, if_true, hidle, bind_ok, bits_zero_of_lt hta]
  rfl

end

theorem execEvrd_ready {o : EvrdOp} (ha : XReady (cur s) o.a) (hd : VFree (cur s) o.d) (hidle : (curCore s).ev.delivering = none)
    (hn : (getX (cur s) o.a.reg).toNat < 2 ^ 13) :
    execEvrd o s = .next (after s 8 (putV (kill (cur s) [.x o.a]) o.d
      (BitVec.ofNat 1024 (memRead s.mem (bankKey s.sched.core (16 * (getX (cur s) o.a.reg).toNat)) 16)))) := by
  rw [← after_setCur s 8]
  refine stateOp_ok ?_
  simp only [classTwo_ok hcls, gate_ok (ready_x ha) (free_v hd), bind_ok, neuronOf_idle hidle hn, neuronKey_bits _ hn]

theorem execEvstat_ready {o : EvstatOp} (ha : XReady (cur s) o.a) (hd : XFree (cur s) o.d) (hn : (getX (cur s) o.a.reg).toNat < 4)
    (hsel : o.sel.toNat ≤ 8) :
    execEvstat o s = .next (after s 8 (putX (kill (cur s) [.x o.a]) o.d
      (BitVec.ofNat 64 (evFigure s s.sched.core o.sel.toNat (getX (cur s) o.a.reg).toNat)))) := by
  rw [← after_setCur s 8]
  refine stateOp_ok ?_
  have hlow : bits (getX (cur s) o.a.reg).toNat 0 2 = (getX (cur s) o.a.reg).toNat := bits_zero_of_lt hn
  have hhigh : bits (getX (cur s) o.a.reg).toNat 2 62 = 0 := bits_eq_zero_of_lt hn 62
  simp only [classTwo_ok hcls, gate_ok (ready_x ha) (free_x hd), hlow, hhigh, hsel, need, beq_self_eq_true, decide_true, Bool.and_self,
    if_true, bind_ok]

end

/-- Settles O41: each instruction asks for slot class 2 first, and completes by its own rule. -/
theorem eventInstructions : Obligations.EventInstructions := by
  intro s hspec c l
  refine ⟨fun hcls => ?illegal, fun hcls hm => ⟨?cfg, ?wr, ?rd, ?stat, ?inj, ?fan⟩⟩
  case illegal =>
    exact ⟨fun o => (stateOp_classTwo_illegal hcls rfl : execEvcfg o s = _), fun o => (stateOp_classTwo_illegal hcls rfl : execEvinj o s = _),
      fun o => (stateOp_classTwo_illegal hcls rfl : execEvrd o s = _), fun o => (stateOp_classTwo_illegal hcls rfl : execEvwr o s = _),
      fun o => (stateOp_classTwo_illegal hcls rfl : execEvfan o s = _), fun o => (stateOp_classTwo_illegal hcls rfl : execEvstat o s = _)⟩
  case cfg =>
    intro o ha p hzero hbit
    refine ⟨_, execEvcfg_ready hspec hcls ha hzero hbit, cur_after _ _ _, (((localWritten_setCur s _).onMem _).after 8 _).machineKept,
      fun b => ?_⟩
    rw [after_mem, onMem_mem]
    exact memGet_memWrite hm _ _ _ b
  case wr =>
    intro o ha hb hidle n w hn hzero hset
    refine ⟨_, execEvwr_ready hspec hcls ha hb hidle hn hzero hset, cur_after _ _ _,
      (((localWritten_setCur s _).onMem _).after 8 _).machineKept, fun b => ?_⟩
    rw [after_mem, onMem_mem]
    exact memGet_memWrite hm _ _ _ b
  case rd => exact fun o ha hd hidle hn => execEvrd_ready hcls ha hd hidle hn
  case stat =>
    intro o ha hd hn ev bank answers
    have hread {k : BitVec 4} {v : Nat} (hsel : o.sel = k) (hk : k.toNat ≤ 8) (hv : evFigure s c k.toNat bank = v) : answers v := by
      subst hsel hv
      exact execEvstat_ready hcls ha hd hn hk
    have hqueue : (coreOf s c).ev.queue = ev.queue := rfl
    have hspill : (coreOf s c).ev.spill = ev.spill := rfl
    refine ⟨fun h => hread h (by decide) ?all, fun h hq hs => hread h (by decide) ?empty, fun e q h hq => hread h (by decide) ?queued,
      fun e k q h hq hs => hread h (by decide) ?spilled, fun h => hread h (by decide) rfl, fun h => hread h (by decide) rfl,
      fun h => hread h (by decide) rfl, fun h => hread h (by decide) rfl, fun h => hread h (by decide) rfl, fun h => hread h (by decide) rfl,
      fun h => hread h (by decide) rfl⟩
    case all => simp [evFigure, hqueue, hspill]
    case empty => simp [evFigure, hqueue, hspill, hq, hs]
    case queued => exact evFigure_next (by rw [hqueue, hq, List.cons_append])
    case spilled => exact evFigure_next (by rw [hqueue, hspill, hq, hs, List.nil_append, List.map_cons])
  case inj =>
    intro o ha hb hc hroom a b hta htime hname e
    obtain ⟨hsend, hseq⟩ := curCore_eventSent s (kill l [.x o.a, .x o.b, .x o.c]) e 8 (kill l [.x o.a, .x o.b, .x o.c])
    exact ⟨_, execEvinj_ready hspec hcls ha hb hc hroom hta htime hname, cur_after _ _ _, rfl, hsend, hseq⟩
  case fan =>
    intro o ha hb hidle a b hta htb hbind
    refine ⟨_, execEvfan_ready hspec hcls ha hb hidle hta htb hbind, cur_after _ _ _, evKick_mem _ _, ?_⟩
    rw [curCore, after_sched, core_of_issuing (evKick_issuing _ _), after, setCur, coreOf_setLane_ev, coreOf_evKick]
    simp [a, b, l]

end Sys2Proof.Machine
end

section
/-! O42, part 1: a neuron (R200): its state in the bank SRAM reads back, and what one delivery leaves. -/

namespace Sys2Proof.Machine
open Sys2Proof.Safety

/-! ### Neuron states (R193) -/

/-- Each part of a neuron's state lies within its field. -/
structure NeuronFits (n : Neuron) : Prop where
  fires : n.fires < 2 ^ 32
  pset : n.pset < 256
  refru : n.refru < 2 ^ 16
  tlast : n.tlast < 2 ^ 32
  v_ge : -(2 ^ 31) ≤ n.v
  v_lt : n.v < 2 ^ 31

theorem sgn_word_range (w : Nat) : -(2 ^ 31) ≤ sgn 32 w ∧ sgn 32 w < 2 ^ 31 := by
  unfold sgn
  split <;> omega

theorem neuronGet_fits (s : State) (c k j : Nat) : NeuronFits (neuronGet s c k j) := by
  have h (w : Nat) : NeuronFits ⟨bits w 96 32, bit w 88, bits w 80 8, bits w 64 16, bits w 32 32, sgn 32 w⟩ :=
    ⟨bits_lt w 96 32, bits_lt w 80 8, bits_lt w 64 16, bits_lt w 32 32, (sgn_word_range w).1, (sgn_word_range w).2⟩
  exact h _

theorem neuronGet_congr {s t : State} (h : t.mem = s.mem) (c k j : Nat) : neuronGet t c k j = neuronGet s c k j := by
  simp only [neuronGet, h]

theorem wrap_lt (n : Nat) (i : Int) : wrap n i < 2 ^ n := by
  have hpos : (0 : Int) < (2 ^ n : Nat) := Int.natCast_pos.2 (Nat.two_pow_pos n)
  rw [wrap, Int.toNat_lt (Int.emod_nonneg _ hpos.ne')]
  exact Int.emod_lt_of_pos _ hpos

/-- A signed word reads back from the low bits of a number. -/
theorem sgn_of_mod_eq_wrap {w : Nat} {v : Int} (h : w % 2 ^ 32 = wrap 32 v) (hge : -(2 ^ 31) ≤ v) (hlt : v < 2 ^ 31) : sgn 32 w = v := by
  unfold wrap at h
  unfold sgn
  split <;> omega

/-- The fields of a neuron's 16 bytes (R193). -/
theorem neuronWord_fields {fires rf pset refru tlast v : Nat} (hfires : fires < 2 ^ 32) (hrf : rf < 2) (hpset : pset < 256)
    (hrefru : refru < 2 ^ 16) (htlast : tlast < 2 ^ 32) (hv : v < 2 ^ 32) :
    let w := fires * 2 ^ 96 + rf * 2 ^ 88 + pset * 2 ^ 80 + refru * 2 ^ 64 + tlast * 2 ^ 32 + v
    w < 2 ^ 128 ∧ bits w 96 32 = fires ∧ w / 2 ^ 88 % 2 = rf ∧ bits w 80 8 = pset ∧ bits w 64 16 = refru ∧ bits w 32 32 = tlast
      ∧ w % 2 ^ 32 = v := by
  intro w
  unfold bits
  omega

/-- A neuron's state that is written reads back. -/
theorem neuronGet_neuronSet {s : State} (hm : MemoryOk s) (c k j : Nat) {n : Neuron} (h : NeuronFits n) :
    neuronGet (neuronSet s c k j n) c k j = n := by
  obtain ⟨hfires, hpset, hrefru, htlast, hge, hlt⟩ := h
  obtain ⟨hword, hgfires, hgrf, hgpset, hgrefru, hgtlast, hgv⟩ :=
    neuronWord_fields hfires (Bool.toNat_lt n.rf) hpset hrefru htlast (wrap_lt 32 n.v)
  have hread : memRead (neuronSet s c k j n).mem (neuronKey c k j) 16 = n.fires * 2 ^ 96 + n.rf.toNat * 2 ^ 88 + n.pset * 2 ^ 80
      + n.refru * 2 ^ 64 + n.tlast * 2 ^ 32 + wrap 32 n.v := by
    rw [neuronSet, onMem_mem, memRead_memWrite_same hm, Nat.mod_eq_of_lt hfires, Nat.mod_eq_of_lt hpset, Nat.mod_eq_of_lt hrefru,
      Nat.mod_eq_of_lt htlast]
    exact Nat.mod_eq_of_lt hword
  have hrf : (n.rf.toNat == 1) = n.rf := by cases n.rf <;> rfl
  simp only [neuronGet, hread, hgfires, bit, hgrf, hrf, hgpset, hgrefru, hgtlast, sgn_of_mod_eq_wrap hgv hge hlt]

/-! ### The leak (R200) -/

/-- The search for a 256th root finds it when it is whole. -/
theorem root256_pow {y : Nat} (n acc : Nat) (hle : acc ≤ y) (hlt : y < acc + 2 ^ n) : root256 (y ^ 256) n acc = y := by
  induction n generalizing acc with
  | zero => exact Nat.le_antisymm hle (Nat.le_of_lt_succ hlt)
  | succ n ih =>
    rw [Nat.pow_succ] at hlt
    rw [root256]
    split
    · next h => exact ih _ ((Nat.pow_le_pow_iff_left (by decide)).1 h) (by omega)
    · next h => exact ih _ hle (Nat.not_le.1 (mt (Nat.pow_le_pow_iff_left (by decide)).2 h))

theorem leakRom_zero : leakRom 0 = 65536 := by
  have hpow : 2 ^ (17 * 256 - 0 % 256) = (2 ^ 17) ^ 256 := by rw [Nat.zero_mod, Nat.sub_zero, pow_mul]
  rw [leakRom, hpow, root256_pow 18 0 (Nat.zero_le _) (by decide)]
  rfl

/-- Without leak nothing is lost. -/
theorem leaked_zero (v : Int) (dt : Nat) : leaked v dt 0 = v := by
  have hround : rneShift (v * 65536) 16 = v := by
    unfold rneShift
    norm_num
  simp [leaked, leakRom_zero, hround]

/-! ### One delivery (R200) -/

theorem sat32_eq (v : Int) : sat32 v = if v < -(2 ^ 31) then -(2 ^ 31) else if 2 ^ 31 ≤ v then 2 ^ 31 - 1 else v := by
  unfold sat32
  split_ifs <;> omega

theorem sat32_range (v : Int) : -(2 ^ 31) ≤ sat32 v ∧ sat32 v < 2 ^ 31 := by
  rw [sat32_eq]
  split_ifs <;> omega

/-- A delivery leaves each part of a neuron's state within its field. -/
theorem deliver_fits {st : Neuron} (h : NeuronFits st) (p : Nat) {time : Nat} (ht : time < 2 ^ 32) (weight : BitVec 32) :
    NeuronFits (deliver st p time weight).1 := by
  obtain ⟨hfires, hpset, hrefru, htlast, -, -⟩ := h
  have hlast : max st.tlast time < 2 ^ 32 := Nat.max_lt.2 ⟨htlast, ht⟩
  have hcount : min (st.fires + 1) (2 ^ 32 - 1) < 2 ^ 32 := (Nat.min_le_right _ _).trans_lt (by decide)
  obtain ⟨hreset_ge, hreset_lt⟩ := sgn_word_range (bits p 32 32)
  unfold deliver
  extract_lets dt rf v d refr unfired fired
  split
  · unfold fired
    split
    · exact ⟨hcount, hpset, hrefru, hlast, hreset_ge, hreset_lt⟩
    · exact ⟨hcount, hpset, Nat.mod_lt _ (Nat.two_pow_pos 16), hlast, hreset_ge, hreset_lt⟩
  · exact ⟨hfires, hpset, hrefru, hlast, (sat32_range _).1, (sat32_range _).2⟩

/-- Without leak and outside its refractory time a neuron takes the weight; it fires when that brings it to its threshold. -/
theorem deliver_noLeak {st : Neuron} {p : Nat} (hleak : bits p 64 16 = 0) (hrf : st.rf = false) (time : Nat) (weight : BitVec 32) :
    deliver st p time weight =
      let v := sat32 (st.v + weight.toInt)
      if sgn 32 p ≤ v then
        ({ st with
            tlast := max st.tlast time
            rf := decide (bits p 80 15 ≠ 0)
            refru := if bits p 80 15 = 0 then st.refru else (time + bits p 80 15) % 2 ^ 16
            v := sgn 32 (bits p 32 32)
            fires := min (st.fires + 1) (2 ^ 32 - 1) }, some v)
      else ({ st with tlast := max st.tlast time, v := v }, none) := by
  obtain ⟨fires, rf, pset, refru, tlast, v⟩ := st
  obtain rfl : rf = false := hrf
  unfold deliver
  simp only [hleak, leaked_zero, Bool.false_and, Bool.not_false, Bool.and_true, decide_eq_true_eq]
  split
  · by_cases hr : bits p 80 15 = 0 <;> simp [hr]
  · rfl

theorem neuronDelivery_holds : Claims.NeuronDelivery := by
  refine ⟨leakRom_zero, fun v dt _ _ => leaked_zero v dt, fun st p time w hleak _ _ hrf => ?_⟩
  intro sum v r
  have hv : sat32 sum = v := sat32_eq sum
  have hr : r = _ := deliver_noLeak hleak hrf time w
  simp only [show st.v + w.toInt = sum from rfl, hv] at hr
  split at hr
  · next h => rw [hr]; exact ⟨rfl, rfl, fun _ => ⟨rfl, rfl, rfl, rfl⟩, fun hn => absurd h (Int.not_le.2 hn)⟩
  · next h => rw [hr]; exact ⟨rfl, rfl, fun hn => absurd hn h, fun _ => ⟨rfl, rfl, rfl, hrf⟩⟩

end Sys2Proof.Machine
end

section
/-! O42, part 2: the steps of a core's events (R197 to R203). -/

namespace Sys2Proof.Machine
open Sys2Proof.Safety

/-! ### The head of the queue: discard or delivery (R198, R200) -/

/-- The head has been taken from the queue, and its neuron has the state and the fire that its delivery gives. -/
def delivered (s : State) (c : Nat) (e : Event) (q : List Event) (r : Neuron × Option Int) : State :=
  onEv (neuronSet s c e.bank e.neuron r.1) c fun v =>
    { v with queue := q, deliv := v.deliv + 1, fired := v.fired + (if r.2.isSome then 1 else 0) }

section
variable {s : State} {c : Nat} {e : Event} {q : List Event} (hidle : (coreOf s c).ev.delivering = none)
  (hqueue : (coreOf s c).ev.queue = e :: q)
include hidle hqueue

theorem execEventDiscard_drops (h : headDrops s c e = true) :
    execEventDiscard c s = .next (evKick (onEv s c fun v => { v with queue := q, drop := satInc v.drop }) c) := by
  simp [execEventDiscard, hidle, hqueue, h]

theorem execEventDelivery_due (hkeep : headDrops s c e = false) (hsafe : e.time ≤ safeOf s c (bankDomain s c e.bank)) :
    ∃ d, execEventDelivery c s = .next (deliveryNext (delivered s c e q
      (deliver (neuronGet s c e.bank e.neuron) (paramGet s c ((neuronGet s c e.bank e.neuron).pset % 16)) e.time e.weight)) c d) := by
  have hlate : decide (safeOf s c (bankDomain s c e.bank) < e.time) = false := decide_eq_false (Nat.not_lt.2 hsafe)
  simp only [execEventDelivery, hidle, hqueue, hkeep, hlate, Bool.or_self, Bool.false_eq_true, if_false]
  exact ⟨_, rfl⟩

end

/-! ### Spilled events that return (R197) -/

/-- There is a way to every spilled event of a core, and its region holds it as it was. -/
def SpillReadable (s : State) (c : Nat) (l : List (Event × Nat)) : Prop :=
  ∀ x ∈ l, ∀ a, spillAddr s x.1.domain x.2 = some a →
    stackWay s (dieNo c) a = .opened ∧ { eventOf (memRead s.mem a 32) with core := x.1.core } = x.1

theorem refill_empty {s : State} {c : Nat} (h : (coreOf s c).ev.spill = []) (n : Nat) : refill c n s = s := by
  cases n with
  | zero => rfl
  | succ n => simp only [refill, h]

theorem refill_full {s : State} {c : Nat} (h : 1024 ≤ (coreOf s c).ev.queue.length) (n : Nat) : refill c n s = s := by
  cases n with
  | zero => rfl
  | succ n =>
    unfold refill
    split
    · rfl
    · exact if_pos h

/-- While the queue has room its next spilled event returns to its end. -/
theorem refill_next {s : State} {c : Nat} {e : Event} {i : Nat} {l : List (Event × Nat)} (hspill : (coreOf s c).ev.spill = (e, i) :: l)
    (hread : SpillReadable s c ((e, i) :: l)) (hroom : (coreOf s c).ev.queue.length < 1024) (n : Nat) :
    refill c (n + 1) s = refill c n (onEv s c fun v => { v with queue := v.queue ++ [e], spill := l }) := by
  have hhead := hread (e, i) (List.mem_cons_self ..)
  rw [refill, hspill]
  dsimp only
  rw [if_neg (Nat.not_le.2 hroom)]
  cases ha : spillAddr s e.domain i with
  | none => rfl
  | some a =>
    obtain ⟨hway, hevent⟩ := hhead a ha
    simp only [Option.elim_some, hway, hevent]

/-- The events of a core stay in their order, and the queue fills as far as it has room and spilled events. -/
theorem refill_queue (c : Nat) (n : Nat) (s : State) (hread : SpillReadable s c (coreOf s c).ev.spill)
    (hfit : (coreOf s c).ev.queue.length ≤ 1024) :
    (coreOf (refill c n s) c).ev.queue ++ (coreOf (refill c n s) c).ev.spill.map (·.1)
        = (coreOf s c).ev.queue ++ (coreOf s c).ev.spill.map (·.1)
      ∧ (coreOf (refill c n s) c).ev.queue.length
        = min 1024 ((coreOf s c).ev.queue.length + min n (coreOf s c).ev.spill.length) := by
  induction n generalizing s with
  | zero => exact ⟨rfl, by rw [refill]; omega⟩
  | succ n ih =>
    cases hspill : (coreOf s c).ev.spill with
    | nil =>
      rw [refill_empty hspill, hspill]
      exact ⟨rfl, by rw [List.length_nil]; omega⟩
    | cons x l =>
      obtain ⟨e, i⟩ := x
      rw [hspill] at hread
      by_cases hroom : (coreOf s c).ev.queue.length < 1024
      · rw [refill_next hspill hread hroom]
        obtain ⟨horder, hlength⟩ := ih (onEv s c fun v => { v with queue := v.queue ++ [e], spill := l })
          (by rw [coreOf_onEv_same]; exact fun x hx => hread x (List.mem_cons_of_mem _ hx)) (by simpa using hroom)
        rw [horder, hlength]
        simp only [coreOf_onEv_same, List.length_append, List.length_cons, List.length_nil, List.append_assoc, List.map_cons]
        exact ⟨rfl, by omega⟩
      · rw [refill_full (Nat.not_lt.1 hroom), hspill]
        exact ⟨rfl, by omega⟩

/-! ### Fanout and fire messages (R201, R202) -/

/-- A delivery with its next fanout record behind it. -/
def pastRecord (d : Delivery) : Delivery := { d with next := d.next + 16, left := d.left - 1 }

/-- The event of a fanout record `r`, with the core's next event sequence number (R196, R201). -/
def fanoutEvent (s : State) (c : Nat) (d : Delivery) (r : Nat) : Event :=
  ⟨(dieOf s (dieNo c)).inc, c, (coreOf s c).ev.evSeq, bits r 45 12, bits r 43 2, bits r 32 11, BitVec.ofNat 32 r, d.time + bits r 64 16,
    d.domain⟩

/-- The message that a fire posts, of type `ty`, for the potential `v` (R202). -/
def fireMessage (s : State) (c : Nat) (d : Delivery) (ty : Nat) (v : BitVec 32) : Message :=
  ⟨c, ty, 0x80, false, (coreOf s c).msg.sendSeq, c, 0, (dieOf s (dieNo c)).inc, none, [firePayload d v], none,
    some (d.domain * 2 ^ 32 + d.time), (domainOf s d.domain).map (·.2.launch)⟩

section
variable {s : State} {c : Nat} {d : Delivery} (hd : (coreOf s c).ev.delivering = some d)
include hd

theorem execFanoutEmit_skips (hleft : 0 < d.left) (h : recordSkips d.next (memRead s.mem (lmKey c d.next) 16) d.time = true) :
    execFanoutEmit c s = .next (deliveryNext (onEv s c fun v => { v with fanerr := satInc v.fanerr }) c (pastRecord d)) := by
  simp only [execFanoutEmit, hd, Nat.ne_of_gt hleft, if_false, h, if_true, pastRecord]

theorem execFanoutEmit_sends (hleft : 0 < d.left) {r : Nat} (hr : memRead s.mem (lmKey c d.next) 16 = r)
    (h : recordSkips d.next r d.time = false) (hother : bits r 45 12 ≠ c) (hroom : (coreOf s c).msg.sendQ.length < 32) :
    execFanoutEmit c s = .next (deliveryNext (enqueueItem (onEv s c fun v => { v with evSeq := (v.evSeq + 1) % 2 ^ 16 }) c (bits r 45 12)
      (.ev (fanoutEvent s c d r) false)) c (pastRecord d)) := by
  have hsend : sendRoom s c = true := decide_eq_true hroom
  have hcore : bits (bits r 32 25) 13 12 = bits r 45 12 := by unfold bits; omega
  have hbank : bits (bits r 32 25) 11 2 = bits r 43 2 := by unfold bits; omega
  have hneuron : bits (bits r 32 25) 0 11 = bits r 32 11 := by unfold bits; omega
  simp only [execFanoutEmit, hd, Nat.ne_of_gt hleft, if_false, hr, h, Bool.false_eq_true, emitEvent, hcore, hbank, hneuron, hother,
    decide_false, Bool.false_and, hsend, if_true]
  rfl

theorem execFireMessagePost_arrives {ty : Nat} {v : BitVec 32} (hleft : d.left = 0) (hpost : d.post = some (ty, v))
    (hhead : channelHead s c c false = none) (hok : handlerOk (handlerEntry s c ty).1 = true)
    (hroom : arrivalRoom (coreOf s c) (fireMessage s c d ty v) = true) :
    execFireMessagePost c s = .next (deliveryNext (onCore s c fun k => { k with msg := { k.msg with
      sendSeq := k.msg.sendSeq + 1, arrival := k.msg.arrival ++ [fireMessage s c d ty v] } }) c { d with post := none }) := by
  unfold fireMessage at hroom
  simp only [execFireMessagePost, hd, hleft, hpost, hhead, hok, hroom, fireMessage]
  rfl

end

/-! ### Acceptance (R197, R199) -/

theorem eventInsert_length {α : Type} (f : α → Event) (q : List α) (e : α) : (eventInsert f q e).length = q.length + 1 := by
  have h := congrArg List.length (List.takeWhile_append_dropWhile (p := fun x => decide (eventKey (f x) ≤ eventKey (f e))) (l := q))
  rw [List.length_append] at h
  simp only [eventInsert, List.length_append, List.length_cons, List.length_nil]
  omega

/-- With nothing spilled and room in the queue an event enters it in its place. -/
theorem storeEvent_room {s : State} {c : Nat} (hspill : (coreOf s c).ev.spill = []) (hroom : (coreOf s c).ev.queue.length < 1024)
    (e : Event) : storeEvent s c e = some (onEv s c fun v =>
      { v with queue := eventInsert id (coreOf s c).ev.queue e, overflowed := false }) := by
  have hlength : (eventInsert id (coreOf s c).ev.queue e).length ≤ 1024 := (eventInsert_length id _ e).trans_le hroom
  simp only [storeEvent, refill_empty hspill, hspill, List.head?_nil, Bool.false_eq_true, if_false, hlength, if_true]

/-- A late event takes a later time, and nothing of its core changes but a count. -/
theorem lateFix_spec (s : State) (c : Nat) (e : Event) : ∃ n late, e.time ≤ n ∧ (lateFix s c e).2 = { e with time := n }
    ∧ (lateFix s c e).1.mem = s.mem
    ∧ coreOf (lateFix s c e).1 c = { coreOf s c with ev := { (coreOf s c).ev with late := late } }
    ∧ ∀ d, (coreOf (lateFix s c e).1 d).msg = (coreOf s d).msg := by
  unfold lateFix
  dsimp only
  split
  · next h =>
    obtain ⟨-, hlate⟩ := Bool.and_eq_true_iff.1 h
    exact ⟨_, _, (of_decide_eq_true hlate).trans (Nat.le_succ _), rfl, rfl, coreOf_onEv_same _ _ _, fun d => coreOf_onEv_msg _ _ d _⟩
  · exact ⟨e.time, (coreOf s c).ev.late, Nat.le_refl _, rfl, rfl, rfl, fun _ => rfl⟩

/-- Event `e` has entered the queue of core `c` as `e'`, at its time or a later one. -/
structure EventEntered (s t : State) (c : Nat) (e e' : Event) : Prop where
  mem : t.mem = s.mem
  queue : (coreOf t c).ev.queue = eventInsert id (coreOf s c).ev.queue e'
  msg : ∀ d, (coreOf t d).msg = (coreOf s d).msg
  core : e'.core = e.core
  bank : e'.bank = e.bank
  neuron : e'.neuron = e.neuron
  weight : e'.weight = e.weight
  time : e.time ≤ e'.time

/-- The domain that an event was emitted under has no part in it. -/
theorem EventEntered.ofDomain {s t : State} {c n : Nat} {e e' : Event} (h : EventEntered s t c { e with domain := n } e') :
    EventEntered s t c e e' :=
  ⟨h.mem, h.queue, h.msg, h.core, h.bank, h.neuron, h.weight, h.time⟩

section
variable {s : State} {c : Nat} (hspill : (coreOf s c).ev.spill = []) (hroom : (coreOf s c).ev.queue.length < 1024) (e : Event)
include hspill hroom

theorem storeEvent_lateFix : ∃ t e', (storeEvent (lateFix s c e).1 c (lateFix s c e).2).map (evKick · c) = some t
    ∧ EventEntered s t c e e' := by
  obtain ⟨n, late, hn, he, hmem, hc, hmsg⟩ := lateFix_spec s c e
  have hspill' : (coreOf (lateFix s c e).1 c).ev.spill = [] := by rw [hc]; exact hspill
  have hroom' : (coreOf (lateFix s c e).1 c).ev.queue.length < 1024 := by rw [hc]; exact hroom
  rw [storeEvent_room hspill' hroom', he]
  refine ⟨_, { e with time := n }, rfl, ?_, ?_, fun d => ?_, rfl, rfl, rfl, rfl, hn⟩
  · rw [evKick_mem, onEv_mem, hmem]
  · rw [coreOf_evKick, coreOf_onEv_same, hc]
  · rw [coreOf_evKick, coreOf_onEv_msg, hmsg]

theorem acceptEvent_room (inj : Bool) : ∃ t e', acceptEvent s c e inj = some t ∧ EventEntered s t c e e' := by
  unfold acceptEvent
  cases inj with
  | true =>
    obtain ⟨t, e', ht, h⟩ := storeEvent_lateFix hspill hroom { e with domain := bankDomain s c e.bank }
    exact ⟨t, e', ht, h.ofDomain⟩
  | false => exact storeEvent_lateFix hspill hroom e

end

theorem coreOf_dequeueItem_other (s : State) {src c : Nat} (ix : Nat) (h : src ≠ c) : coreOf (dequeueItem s src ix) c = coreOf s c := by
  obtain ⟨x, hx, he⟩ := dequeueItem_eq s src ix
  rw [he, coreOf_onCore_other _ _ h, coreOf_congr hx]

theorem offerEvent_accepted {s t : State} {src dst ix : Nat} {e : Event} {inj : Bool}
    (hhead : channelHead s src dst true = some (ix, .ev e inj)) (hinc : e.inc = (dieOf s (dieNo src)).inc)
    (hup : (dieOf s (dieNo dst)).rst = 0) (hway : cannotArrive s src dst = false) (ht : acceptEvent s dst e inj = some t) :
    offerEvent s src dst = dequeueItem t src ix := by
  simp [offerEvent, hhead, hinc, dieUp, hup, hway, ht]

/-! ### The steps -/

theorem eventSteps_hold : Claims.EventSteps := by
  intro s c
  refine ⟨fun e q hidle hqueue => ⟨fun hdrops => ?discard, fun hkeep hsafe htime hm => ?delivery⟩, fun hfit hread => ?refill,
    fun d hd hleft => ⟨fun hskip => ?skip, fun hkeep hother hroom => ?emit⟩, fun d ty v hd hleft hpost hhead hok hlen hsum => ?fire,
    fun src ix e inj hhead hinc hup hway hspill hroom hsrc => ?accept⟩
  case discard =>
    refine ⟨_, execEventDiscard_drops hidle hqueue hdrops, ?_, ?_, ?_⟩
    · rw [evKick_mem, onEv_mem]
    · rw [coreOf_evKick, coreOf_onEv_same]
    · rw [coreOf_evKick, coreOf_onEv_same]
  case delivery =>
    intro st r
    obtain ⟨d, hexec⟩ := execEventDelivery_due hidle hqueue hkeep hsafe
    have hfits : NeuronFits r.1 := deliver_fits (neuronGet_fits s c e.bank e.neuron) _ htime _
    have hmem : (deliveryNext (delivered s c e q r) c d).mem = (neuronSet s c e.bank e.neuron r.1).mem := deliveryNext_mem _ _ _
    have hcore : coreOf (neuronSet s c e.bank e.neuron r.1) c = coreOf s c := coreOf_onMem _ _ _
    refine ⟨_, hexec, ?_, ?_, ?_, ?_⟩
    · rw [coreOf_deliveryNext, delivered, coreOf_onEv_same]
    · rw [coreOf_deliveryNext, delivered, coreOf_onEv_same, hcore]
    · exact (neuronGet_congr hmem _ _ _).trans (neuronGet_neuronSet hm _ _ _ hfits)
    · rw [coreOf_deliveryNext, delivered, coreOf_onEv_same, hcore]
  case refill =>
    obtain ⟨horder, hlength⟩ := refill_queue c 1024 s hread hfit
    refine ⟨_, rfl, ?_, ?_, fun _ => ?_⟩
    · rw [evKick_mem, refill_mem]
    · rw [coreOf_evKick, horder]
    · rw [coreOf_evKick, hlength]
      omega
  case skip =>
    refine ⟨_, execFanoutEmit_skips hd hleft hskip, ?_, ?_, ?_⟩
    · rw [deliveryNext_mem, onEv_mem]
    · rw [coreOf_deliveryNext, coreOf_onEv_same]
    · rw [coreOf_deliveryNext]
      rfl
  case emit =>
    refine ⟨_, fanoutEvent s c d _, execFanoutEmit_sends hd hleft rfl hkeep hother hroom, ?_, ?_, rfl, rfl, rfl, rfl, rfl, rfl, ?_⟩
    · rw [deliveryNext_mem, enqueueItem_mem, onEv_mem]
    · rw [coreOf_deliveryNext, enqueueItem, coreOf_dueEvent, coreOf_onCore_same, coreOf_onEv_same]
    · rw [coreOf_deliveryNext]
      rfl
  case fire =>
    have hroom : arrivalRoom (coreOf s c) (fireMessage s c d ty v) = true := by
      simp only [arrivalRoom, hlen, decide_true, Bool.true_and, decide_eq_true_eq]
      exact hsum
    refine ⟨_, fireMessage s c d ty v, execFireMessagePost_arrives hd hleft hpost hhead hok hroom, ?_, ?_, rfl, rfl, rfl, rfl, ?_⟩
    · rw [deliveryNext_mem, onCore_mem]
    · rw [coreOf_deliveryNext, coreOf_onCore_same]
    · rw [coreOf_deliveryNext]
      exact if_pos ⟨hleft, rfl⟩
  case accept =>
    obtain ⟨t, e', ht, h⟩ := acceptEvent_room hspill hroom e inj
    have hexec : exec (.eventAccept src c) s = .next (dequeueItem t src ix) :=
      congrArg Host.Outcome.next (offerEvent_accepted hhead hinc hup hway ht)
    refine ⟨_, e', hexec, ?_, ?_, h.core, h.bank, h.neuron, h.weight, h.time, ?_⟩
    · rw [dequeueItem_mem, h.mem]
    · rw [coreOf_dequeueItem_other t ix hsrc, h.queue]
    · rw [dequeueItem_sendQ, h.msg]

/-- Settles O42: the steps of a core's events, each by what it finds at the head, and one delivery by its leak and its threshold. -/
theorem eventStepsAndNeurons : Obligations.EventStepsAndNeurons := ⟨eventSteps_hold, neuronDelivery_holds⟩

end Sys2Proof.Machine
end

section
/-! O15: the supervisor's instructions on the lanes of its die (R13, R14, R217, R220). -/

namespace Sys2Proof.Machine
open Sys2Proof.Safety

/-! ### The target of a lane instruction (R220) -/

section
variable {s : State} {a : Nat} {ok : LaneStatus → Bool}

theorem laneTarget_reserved (h : bits a 16 48 ≠ 0) : laneTarget s a ok = .error 3 := if_pos h

theorem laneTarget_elsewhere (h : bits a 16 48 = 0)
    (hc : ¬ (namesCore (bits a 0 12) = true ∧ dieNo (bits a 0 12) = dieNo s.sched.core)) : laneTarget s a ok = .error 2 := by
  have hno : (!(namesCore (bits a 0 12) && dieNo (bits a 0 12) == dieNo s.sched.core)) = true := by
    rw [Bool.not_eq_true', Bool.eq_false_iff]
    simpa using hc
  simp only [laneTarget, h, hno, ne_eq, not_true_eq_false, if_false, if_true]

/-- A lane of the die is the target unless it issues the instruction or is in a state that the instruction does not act on. -/
theorem laneTarget_ofDie (h : bits a 16 48 = 0) (hc : namesCore (bits a 0 12) = true ∧ dieNo (bits a 0 12) = dieNo s.sched.core) :
    laneTarget s a ok =
      if (bits a 0 12 = s.sched.core ∧ bits a 12 4 = s.sched.lane) ∨ ok (laneOf s (bits a 0 12) (bits a 12 4)).status = false
        then .error 1 else .ok (bits a 0 12, bits a 12 4) := by
  have hyes : (!(namesCore (bits a 0 12) && dieNo (bits a 0 12) == dieNo s.sched.core)) = false := by simp [hc]
  simp only [laneTarget, h, hyes, ne_eq, not_true_eq_false, if_false, Bool.false_eq_true, Bool.not_eq_true']

end

/-! ### The answer -/

section
variable {s : State} (hsup : isSup s.sched.core = true)
include hsup

theorem resumeOp_refuses {o : LresumeOp} (hg : (getP (cur s) o.guard).getLsbD 0 = true) (ha : XReady (cur s) o.a) (hd : XFree (cur s) o.d)
    {st : Nat} (ht : laneTarget s (getX (cur s) o.a.reg).toNat (· == .frozen) = .error st) (step : Bool) :
    resumeOp step o s = .next (after s 8 (putX (kill (cur s) [.x o.a]) o.d (BitVec.ofNat 64 st))) := by
  unfold resumeOp
  rw [supervisorOnly_ok hsup]
  refine (guardedStateOp_of_bit hg).trans ((stateOp_ok ?_).trans (congrArg _ (after_setCur s 8 _)))
  simp only [gate_ok (ready_x ha) (free_x hd), bind_ok, ht]

/-- Without `skip`, LRESUME and LSTEP make their target Ready with the rest of its gang fault group, and answer 0. -/
theorem resumeOp_resumes {o : LresumeOp} (hg : (getP (cur s) o.guard).getLsbD 0 = true) (ha : XReady (cur s) o.a) (hd : XFree (cur s) o.d)
    {c l : Nat} (ht : laneTarget s (getX (cur s) o.a.reg).toNat (· == .frozen) = .ok (c, l)) (hskip : o.skip = false) (step : Bool)
    {u : State} (hu : (actedOn s c l).foldl (resumeLane step false) s = u) :
    resumeOp step o s = .next (after u 8 (putX (kill (cur u) [.x o.a]) o.d 0)) := by
  unfold resumeOp
  rw [supervisorOnly_ok hsup]
  refine (guardedStateOp_of_bit hg).trans ((stateOp_ok ?_).trans (congrArg _ (after_setCur u 8 _)))
  simp only [gate_ok (ready_x ha) (free_x hd), bind_ok, ht, hskip, hu, Bool.false_and, Bool.false_eq_true, if_false]
  rfl

variable {k : LkillOp} (hg : (getP (cur s) k.guard).getLsbD 0 = true) (ha : XReady (cur s) k.a) (hd : XFree (cur s) k.d)
include hg ha hd

theorem execLkill_refuses {st : Nat} (ht : laneTarget s (getX (cur s) k.a.reg).toNat (· != .free) = .error st) :
    execLkill k s = .next (after s 8 (putX (kill (cur s) [.x k.a]) k.d (BitVec.ofNat 64 st))) := by
  unfold execLkill
  rw [supervisorOnly_ok hsup]
  refine (guardedStateOp_of_bit hg).trans ((stateOp_ok ?_).trans (congrArg _ (after_setCur s 8 _)))
  simp only [gate_ok (ready_x ha) (free_x hd), bind_ok, ht]

theorem execLkill_kills {c l : Nat} (ht : laneTarget s (getX (cur s) k.a.reg).toNat (· != .free) = .ok (c, l)) {u : State}
    (hu : (actedOn s c l).foldl killLane s = u) :
    execLkill k s = .next (after u 8 (putX (kill (cur u) [.x k.a]) k.d 0)) := by
  unfold execLkill
  rw [supervisorOnly_ok hsup]
  refine (guardedStateOp_of_bit hg).trans ((stateOp_ok ?_).trans (congrArg _ (after_setCur u 8 _)))
  simp only [gate_ok (ready_x ha) (free_x hd), bind_ok, ht, hu]
  rfl

end

/-! ### The lane acted on (R14, R220) -/

section
variable {s : State} {c l : Nat}

theorem actedOn_of_no_group (h : (laneOf s c l).group = none) : actedOn s c l = [(c, l)] := by
  simp only [actedOn, h]

theorem resumeLane_of_no_group (h : (laneOf s c l).group = none) (step : Bool) :
    resumeLane step false s (c, l) = setLane s c l (resume (laneOf s c l) step none) := by
  simp only [resumeLane, h, Bool.false_eq_true, if_false]
  rfl

theorem endSteals_of_none (h : ∀ q ∈ (coreOf s c).msg.steals, q.lane ≠ l) : endSteals s c l = s := by
  have hnone : (coreOf s c).msg.steals.filter (fun q => q.lane == l) = [] := by simpa using h
  rw [endSteals, hnone, List.foldl_nil]

theorem laneOf_releaseSlot (s : State) (c l d m : Nat) : laneOf (onCore s c (releaseSlot · l)) d m = laneOf s d m :=
  laneOf_onCore_lanes (f := (releaseSlot · l)) (fun _ => rfl) s c d m

/-- LKILL frees a lane whose firing is no task's and no actor's, that is not Draining and steals nothing, and lets go of its Stove
operations. -/
theorem killLane_plain (hgroup : (laneOf s c l).group = none) (htask : (laneOf s c l).firing.task = none)
    (hstatus : (laneOf s c l).status ≠ .draining) (hkind : (laneOf s c l).firing.kind ≠ .actor)
    (hsteals : ∀ q ∈ (coreOf s c).msg.steals, q.lane ≠ l) :
    killLane s (c, l) = setLane (onCore s c (releaseSlot · l)) c l (freed (laneOf s c l)) := by
  have hend : endFiring s c l = onCore s c (releaseSlot · l) := if_neg (mt beq_iff_eq.1 hkind)
  simp only [killLane, htask, hgroup, Option.filter_none]
  split
  · next hdraining _ => exact absurd hdraining hstatus
  · rw [endSteals_of_none hsteals, hend, laneOf_releaseSlot]

end

/-! ### The claim -/

/-- A supervisor's lane that has changed another lane and then completes: its own lane and the other are as each was left. -/
theorem after_other_lane {s u : State} {c l : Nat} {x : Lane} (hs : u.sched = s.sched) (hcores : ∀ d m, laneOf u d m = laneOf s d m)
    (hne : s.sched.core ≠ c ∨ laneIx s.sched.lane ≠ laneIx l) (n : Nat) (f : Lane → Lane) :
    let t := after (setLane u c l x) n (f (cur (setLane u c l x)))
    cur t = retire n (f (cur s)) ∧ laneOf t c l = x ∧ ∀ a b, (a ≠ c ∨ laneIx b ≠ laneIx l) →
      (a ≠ s.sched.core ∨ laneIx b ≠ laneIx s.sched.lane) → laneOf t a b = laneOf s a b := by
  have hcur : cur (setLane u c l x) = cur s := by
    rw [cur, setLane_sched, hs, laneOf_setLane_other u x (hne.imp Ne.symm Ne.symm), hcores]
    rfl
  have hsched : (setLane u c l x).sched = s.sched := (setLane_sched u c l x).trans hs
  refine ⟨?_, ?_, fun a b hab hself => ?_⟩
  · rw [cur_after, hcur]
  · rw [after, laneOf_setCur_other _ _ (by rwa [hsched]), laneOf_setLane_same]
  · rw [after, laneOf_setCur_apart _ _ (by rwa [hsched]), laneOf_setLane_other u x (hab.imp Ne.symm Ne.symm), hcores]

/-- Settles O15: each target is refused or acted on by what its word says of it; a lane acted on is the one of its frame, or Free, and
no other changes but the supervisor's own. -/
theorem returnToFrozenLane : Obligations.ReturnToFrozenLane := by
  intro s o k hsup c l ofDie self x answers hg ha hd hlane
  have hself : self ↔ c = s.sched.core ∧ l = s.sched.lane := by
    show c = s.sched.core ∧ l = s.sched.lane % 16 ↔ _
    rw [Nat.mod_eq_of_lt hlane]
  have hapart (h : ¬ self) : s.sched.core ≠ c ∨ laneIx s.sched.lane ≠ laneIx l := by
    by_contra hno
    obtain ⟨hc, hl⟩ := not_or.1 hno
    refine h ⟨(not_not.1 hc).symm, ?_⟩
    rw [not_not.1 hl]
    exact (Nat.mod_eq_of_lt (bits_lt _ _ _ : l < 16)).symm
  refine ⟨?_, ?_⟩
  · rintro rfl
    have refused {st : Nat} (h : ∀ ok, laneTarget s (getX (cur s) o.a.reg).toNat ok = .error st) :
        answers (.lresume o) (BitVec.ofNat 64 st) ∧ answers (.lstep o) (BitVec.ofNat 64 st)
          ∧ answers (.lkill ⟨o.d, o.a, o.guard⟩) (BitVec.ofNat 64 st) :=
      ⟨resumeOp_refuses hsup hg ha hd (h _) false, resumeOp_refuses hsup hg ha hd (h _) true,
        execLkill_refuses (k := ⟨o.d, o.a, o.guard⟩) hsup hg ha hd (h _)⟩
    refine ⟨fun hr => refused fun _ => laneTarget_reserved hr, fun hr hdie => refused fun _ => laneTarget_elsewhere hr hdie,
      fun hr hdie hx => ?notFrozen, fun hr hdie hx => ?alreadyFree, fun hr hdie hns hfree hdrain htask hgroup hkind hsteals => ?kill⟩
    case notFrozen =>
      have ht : laneTarget s (getX (cur s) o.a.reg).toNat (· == .frozen) = .error 1 :=
        (laneTarget_ofDie hr hdie).trans (if_pos (hx.imp hself.1 fun h => beq_eq_false_iff_ne.2 h))
      exact ⟨resumeOp_refuses hsup hg ha hd ht false, resumeOp_refuses hsup hg ha hd ht true⟩
    case alreadyFree =>
      exact execLkill_refuses (k := ⟨o.d, o.a, o.guard⟩) hsup hg ha hd
        ((laneTarget_ofDie hr hdie).trans (if_pos (hx.imp hself.1 fun h => bne_eq_false_iff_eq.2 h)))
    case kill =>
      have ht : laneTarget s (getX (cur s) o.a.reg).toNat (· != .free) = .ok (c, l) :=
        (laneTarget_ofDie hr hdie).trans (if_neg (not_or.2 ⟨mt hself.2 hns, by simpa using hfree⟩))
      have hu : (actedOn s c l).foldl killLane s = _ :=
        (congrArg (List.foldl killLane s) (actedOn_of_no_group hgroup)).trans (killLane_plain hgroup htask hdrain hkind hsteals)
      obtain ⟨hcur, hkilled, -⟩ := after_other_lane (s := s) (u := onCore s c (releaseSlot · l)) (x := freed x) rfl
        (laneOf_releaseSlot s c l) (hapart hns) 8 fun y => putX (kill y [.x o.a]) o.d 0
      refine ⟨_, execLkill_kills (k := ⟨o.d, o.a, o.guard⟩) hsup hg ha hd ht hu, ?_, ?_, ?_, hcur, rfl⟩ <;> rw [hkilled] <;> rfl
  · intro hr hdie hns hfrozen hgroup hskip i step hi
    have ht : laneTarget s (getX (cur s) o.a.reg).toNat (· == .frozen) = .ok (c, l) :=
      (laneTarget_ofDie hr hdie).trans (if_neg (not_or.2 ⟨mt hself.2 hns, by simpa using hfrozen⟩))
    have hu : (actedOn s c l).foldl (resumeLane step false) s = _ :=
      (congrArg (List.foldl (resumeLane step false) s) (actedOn_of_no_group hgroup)).trans (resumeLane_of_no_group hgroup step)
    have hexec : exec i s = resumeOp step o s := by obtain ⟨rfl, rfl⟩ | ⟨rfl, rfl⟩ := hi <;> rfl
    obtain ⟨hcur, hresumed, hothers⟩ := after_other_lane (u := s) (x := resume x step none) rfl (fun _ _ => rfl) (hapart hns) 8
      fun y => putX (kill y [.x o.a]) o.d 0
    refine ⟨_, hexec.trans (resumeOp_resumes hsup hg ha hd ht hskip step hu), hcur, ?_, hothers⟩
    rw [hresumed]
    exact ⟨rfl, rfl, rfl, rfl, rfl, rfl, rfl, rfl⟩

end Sys2Proof.Machine
end

section
/-! Updates of every core or every quad of a die at once, as one of them reads afterwards. -/

namespace Sys2Proof.Machine
open Sys2Proof.Safety

/-! ### Tables mapped value by value -/

section
variable {α : Type} {g : Nat × α → Nat × α} (hg : ∀ e, (g e).1 = e.1)
include hg

theorem smGet_map (m : SMap α) (n : Nat) : smGet (m.map g) n = (smGet m n).map fun v => (g (n, v)).2 := by
  induction m with
  | nil => rfl
  | cons e t ih =>
    obtain ⟨k, v⟩ := e
    have hk : g (k, v) = (k, (g (k, v)).2) := Prod.ext (hg _) rfl
    rw [List.map_cons, hk, smGet, smGet]
    by_cases h : k = n
    · subst h
      simp only [if_true, Option.map_some]
    · simp only [h, if_false]
      split
      · rfl
      · exact ih

/-- A default that the map keeps is what an absent key still reads as. -/
theorem smGetD_map {d : α} {n : Nat} (hd : (g (n, d)).2 = d) (m : SMap α) : smGetD (m.map g) n d = (g (n, smGetD m n d)).2 := by
  unfold smGetD
  rw [smGet_map hg]
  cases smGet m n with
  | none => exact hd.symm
  | some v => rfl

end

/-! ### The cores of a die -/

theorem laneOf_of_laneIx {l m : Nat} (h : laneIx l = laneIx m) (s : State) (c : Nat) : laneOf s c l = laneOf s c m := by
  simp only [laneOf, h]

section
variable {f : Core → Core} (hf : f Core.reset = Core.reset)
include hf

theorem coreOf_onDieCores (s : State) (d c : Nat) : coreOf (onDieCores s d f) c = if dieNo c = d then f (coreOf s c) else coreOf s c := by
  have hkey (e : Nat × Core) : (if dieNo e.1 = d then (e.1, f e.2) else e).1 = e.1 := by split <;> rfl
  have hreset : (if dieNo c = d then (c, f Core.reset) else (c, Core.reset)).2 = Core.reset := by
    rw [hf]
    split <;> rfl
  refine (smGetD_map hkey hreset s.cores).trans ?_
  split <;> rfl

/-- A change of cores that keeps their lanes changes no lane of the die. -/
theorem laneOf_onDieCores_lanes (hl : ∀ k, (f k).lanes = k.lanes) (s : State) (d c l : Nat) :
    laneOf (onDieCores s d f) c l = laneOf s c l := by
  have hlanes : (coreOf (onDieCores s d f) c).lanes = (coreOf s c).lanes := by
    rw [coreOf_onDieCores hf]
    split
    · exact hl _
    · rfl
  simp only [laneOf, hlanes]

end

end Sys2Proof.Machine
end

section
/-! O16: ICFLUSH and TLBI (R221, R266). -/

namespace Sys2Proof.Machine
open Sys2Proof.Safety

/-! ### ICFLUSH (R221) -/

/-- The state with the fetched instructions of a core, or of all cores of its die, dropped. -/
def fetchFlushed (s : State) (scope : BitVec 3) : State :=
  if scope = 3 then onDieCores s (dieNo s.sched.core) flushFetch else onCurCore s flushFetch

theorem flushFetch_reset : flushFetch Core.reset = Core.reset := by
  have hlanes : (Core.reset.lanes.map fun l => { l with loop := { l.loop with buf := [], flushed := l.loop.len != 0 } })
      = Core.reset.lanes := Vector.map_replicate
  simp only [flushFetch, hlanes]
  rfl

theorem coreOf_fetchFlushed (s : State) (scope : BitVec 3) (c : Nat) : coreOf (fetchFlushed s scope) c =
    if c = s.sched.core ∨ (scope = 3 ∧ dieNo c = dieNo s.sched.core) then flushFetch (coreOf s c) else coreOf s c := by
  unfold fetchFlushed
  by_cases hscope : scope = 3
  · rw [if_pos hscope, coreOf_onDieCores flushFetch_reset]
    refine if_congr ⟨fun h => .inr ⟨hscope, h⟩, fun h => h.elim (congrArg dieNo) And.right⟩ rfl rfl
  · rw [if_neg hscope, onCurCore]
    by_cases hc : c = s.sched.core
    · rw [hc, coreOf_onCore_same, if_pos (.inl rfl)]
    · rw [coreOf_onCore_other s _ (Ne.symm hc), if_neg (not_or.2 ⟨hc, fun h => hscope h.1⟩)]

theorem flushFetch_buf (k : Core) (l : Nat) : (flushFetch k).lanes[laneIx l].loop.buf = [] := by simp [flushFetch]

/-- Completing an instruction fills no loop buffer. -/
theorem retire_buf {l : Lane} (h : l.loop.buf = []) (n : Nat) : (retire n l).loop.buf = [] := by
  unfold retire loopStep
  split
  · split
    · exact h
    · rfl
  · exact h

theorem execIcflush_flushes {s : State} {o : IcflushOp} (hg : (getP (cur s) o.guard).getLsbD 0 = true)
    (hspec : (cur s).firing.spec = false) (hscnt : (cur s).scnt = 0) :
    execIcflush o s = .next (after (fetchFlushed s o.scope) 8 (cur (fetchFlushed s o.scope))) := by
  refine (guardedStateOp_of_bit hg).trans (stateOp_ok ?_)
  simp only [irrevocable_ok hspec, hscnt, await_ok, decide_true, bind_ok]
  rfl

theorem icflush_holds (s : State) (o : IcflushOp) (hg : (getP (cur s) o.guard).getLsbD 0 = true) (hspec : (cur s).firing.spec = false)
    (hscnt : (cur s).scnt = 0) : ∃ t, exec (.icflush o) s = .next t ∧ t.mem = s.mem
      ∧ ∀ c, (c = s.sched.core ∨ (o.scope = 3 ∧ dieNo c = dieNo s.sched.core) →
            (coreOf t c).ctl.l1i = [] ∧ ∀ l, (laneOf t c l).loop.buf = [])
          ∧ (c ≠ s.sched.core → ¬ (o.scope = 3 ∧ dieNo c = dieNo s.sched.core) → coreOf t c = coreOf s c) := by
  have hsched : (fetchFlushed s o.scope).sched = s.sched := by
    unfold fetchFlushed
    split <;> rfl
  have hmem : (fetchFlushed s o.scope).mem = s.mem := by
    unfold fetchFlushed
    split <;> rfl
  refine ⟨_, execIcflush_flushes hg hspec hscnt, hmem, fun c => ⟨fun hc => ?dropped, fun hne hdie => ?kept⟩⟩
  case dropped =>
    have hcore : coreOf (fetchFlushed s o.scope) c = flushFetch (coreOf s c) := (coreOf_fetchFlushed s o.scope c).trans (if_pos hc)
    have hbuf (l : Nat) : (laneOf (fetchFlushed s o.scope) c l).loop.buf = [] := by
      rw [laneOf, hcore]
      exact flushFetch_buf _ l
    refine ⟨?_, fun l => ?_⟩
    · rw [after, setCur, coreOf_setLane_ctl, hcore]
      rfl
    · by_cases hcur : c = s.sched.core ∧ laneIx l = laneIx s.sched.lane
      · have hlane (t : State) (ht : t.sched = s.sched) : laneOf t c l = cur t := by
          rw [cur, ht, hcur.1, laneOf_of_laneIx hcur.2]
        rw [hlane (after _ _ _) hsched, cur_after]
        exact retire_buf ((congrArg (·.loop.buf) (hlane _ hsched)).symm.trans (hbuf l)) 8
      · rw [after, laneOf_setCur_apart _ _ (by rw [hsched]; exact Decidable.not_and_iff_or_not.1 hcur)]
        exact hbuf l
  case kept =>
    rw [after, setCur, hsched, coreOf_setLane_other _ _ _ (Ne.symm hne), coreOf_fetchFlushed, if_neg (not_or.2 ⟨hne, hdie⟩)]

/-! ### TLBI (R266) -/

theorem tlbStays_eq_false_iff (kind : Fin 3) (va ctx : Nat) (e : TlbEntry) : tlbStays kind.val va ctx e = false ↔
    kind = 0 ∨ (kind = 1 ∧ e.ctx = ctx) ∨ (kind = 2 ∧ e.ctx = ctx ∧ va / 2 ^ pageShift e.level = e.page) := by
  match kind with
  | 0 => simp [tlbStays]
  | 1 => simp [tlbStays]
  | 2 => simp [tlbStays, tlbHit]

section
variable (s : State) (d : Nat) (keep : TlbEntry → Bool)

theorem mem_core_tlbDrop (c : Nat) (e : TlbEntry) :
    e ∈ (coreOf (tlbDrop s d keep) c).ctl.tlb ↔ e ∈ (coreOf s c).ctl.tlb ∧ ¬ (dieNo c = d ∧ keep e = false) := by
  have hcore : coreOf (tlbDrop s d keep) c = _ :=
    coreOf_onDieCores (f := fun k => { k with ctl := { k.ctl with tlb := k.ctl.tlb.filter keep } }) rfl s d c
  rw [hcore]
  by_cases h : dieNo c = d <;> simp [h, List.mem_filter]

theorem mem_quad_tlbDrop {q : Nat} (hq : q < 640) (e : TlbEntry) :
    e ∈ (quadOf (tlbDrop s d keep) q).tlb ↔ e ∈ (quadOf s q).tlb ∧ ¬ (q / 80 = d ∧ keep e = false) := by
  let g := fun (e : Nat × Quad) => if e.1 < 640 ∧ e.1 / 80 = d then (e.1, { e.2 with tlb := e.2.tlb.filter keep }) else e
  have hkey (e : Nat × Quad) : (g e).1 = e.1 := by
    simp only [g]
    split <;> rfl
  have hreset : (g (q, Quad.reset)).2 = Quad.reset := by
    simp only [g]
    split <;> rfl
  have hquad : quadOf (tlbDrop s d keep) q = (g (q, quadOf s q)).2 := smGetD_map hkey hreset s.quads
  rw [hquad]
  by_cases h : q / 80 = d <;> simp [g, h, hq, List.mem_filter]

theorem cur_tlbDrop : cur (tlbDrop s d keep) = cur s :=
  laneOf_onDieCores_lanes (f := fun k => { k with ctl := { k.ctl with tlb := k.ctl.tlb.filter keep } }) rfl (fun _ => rfl) s d _ _

end

/-- The state with the entries that a TLBI names dropped from the TLBs of its die. -/
def tlbInvalidated (s : State) (o : TlbiOp) : State :=
  tlbDrop s (dieNo s.sched.core) (tlbStays o.kind.val (getX (cur s) o.a.reg).toNat ((getX (cur s) o.b.reg).toNat % 256))

/-- The entry is one that a TLBI names. -/
def TlbiNames (s : State) (o : TlbiOp) (e : TlbEntry) : Prop :=
  o.kind = 0 ∨ (o.kind = 1 ∧ e.ctx = (getX (cur s) o.b.reg).toNat % 256)
    ∨ (o.kind = 2 ∧ e.ctx = (getX (cur s) o.b.reg).toNat % 256 ∧ (getX (cur s) o.a.reg).toNat / 2 ^ pageShift e.level = e.page)

theorem cur_tlbInvalidated (s : State) (o : TlbiOp) : cur (tlbInvalidated s o) = cur s := cur_tlbDrop s _ _

theorem mem_core_tlbInvalidated (s : State) (o : TlbiOp) (x : Lane) (c : Nat) (e : TlbEntry) :
    e ∈ (coreOf (setCur (tlbInvalidated s o) x) c).ctl.tlb
      ↔ e ∈ (coreOf s c).ctl.tlb ∧ ¬ (dieNo c = dieNo s.sched.core ∧ TlbiNames s o e) := by
  rw [setCur, coreOf_setLane_ctl]
  exact (mem_core_tlbDrop s _ _ c e).trans (and_congr_right' (not_congr (and_congr_right' (tlbStays_eq_false_iff _ _ _ _))))

theorem mem_quad_tlbInvalidated (s : State) (o : TlbiOp) (x : Lane) {q : Nat} (hq : q < 640) (e : TlbEntry) :
    e ∈ (quadOf (setCur (tlbInvalidated s o) x) q).tlb
      ↔ e ∈ (quadOf s q).tlb ∧ ¬ (q / 80 = dieNo s.sched.core ∧ TlbiNames s o e) :=
  (mem_quad_tlbDrop s _ _ hq e).trans (and_congr_right' (not_congr (and_congr_right' (tlbStays_eq_false_iff _ _ _ _))))

section
variable {s : State} {o : TlbiOp} {users : List (Nat × Nat × Nat)} (hsup : isSup s.sched.core = true)
  (hg : (getP (cur s) o.guard).getLsbD 0 = true) (hr : Ready (cur s) [.x o.a, .x o.b]) (hw : tlbiWaits (cur s) = false)
  (husers : tlbUsers s (dieNo s.sched.core) (if o.kind.val = 0 then none else some ((getX (cur s) o.b.reg).toNat % 256)) = users)
include hsup hg hr hw husers

theorem execTlbi_completes (hno : users = []) :
    execTlbi o s = .next (after (tlbInvalidated s o) 8 (kill (cur s) [.x o.a, .x o.b])) := by
  unfold execTlbi
  rw [supervisorOnly_ok hsup]
  simp only [hw, husers, hno, Bool.false_eq_true, if_false, List.isEmpty_nil, Bool.not_true, Bool.and_false]
  refine (guardedStateOp_of_bit hg).trans ((stateOp_ok (t := setCur (tlbInvalidated s o) (kill (cur s) [.x o.a, .x o.b])) ?_).trans
    (congrArg _ (after_setCur _ 8 _)))
  simp only [gate_ok hr (free_nil _), bind_ok, hw, Bool.false_eq_true, if_false]
  rw [← tlbInvalidated, cur_tlbInvalidated]

theorem execTlbi_blocks (hsome : users ≠ []) : execTlbi o s
    = .next (setCur (tlbInvalidated s o) { blocked (cur s) (.sectors users) with waitInstr := s.sched.bits }) := by
  have hon : guardOn (cur s) o.guard = true := hg
  have hne : users.isEmpty = false := List.isEmpty_eq_false_iff.2 hsome
  unfold execTlbi
  rw [supervisorOnly_ok hsup]
  simp only [hw, husers, hne, hon, gate_ok hr (free_nil _), Bool.false_eq_true, if_false, Except.isOk, Except.toBool, Bool.not_false,
    Bool.and_self, if_true]
  rw [← tlbInvalidated, takeStop, cur_tlbInvalidated]
  rfl

end

/-- Settles O16: the caches and TLBs of a die are read core by core and quad by quad, and only its own lane is written besides. -/
theorem invalidateFetchAndTlbs : Obligations.InvalidateFetchAndTlbs := by
  refine ⟨icflush_holds, ?_⟩
  intro s o hsup hg ha hb hw va ctx d goes users
  have hr := ready_xx ha hb
  have husers : tlbUsers s d (if o.kind.val = 0 then none else some ctx) = users :=
    congrArg _ (if_congr (Fin.ext_iff (b := 0)).symm rfl rfl)
  by_cases hno : users = []
  · exact ⟨_, execTlbi_completes hsup hg hr hw husers hno, rfl, fun _ => cur_after _ _ _, fun h => absurd hno h,
      mem_core_tlbInvalidated s o _, fun q e hq => mem_quad_tlbInvalidated s o _ hq e⟩
  · refine ⟨_, execTlbi_blocks hsup hg hr hw husers hno, rfl, fun h => absurd h hno, fun _ => ?_, mem_core_tlbInvalidated s o _,
      fun q e hq => mem_quad_tlbInvalidated s o _ hq e⟩
    rw [cur_setCur]
    exact ⟨rfl, rfl⟩

end Sys2Proof.Machine
end

section
/-! O46, part 1: core and lane control, the lanes' frames and forced barriers (R216 to R218, R371, R427). -/

namespace Sys2Proof.Machine
open Sys2Proof.Safety

/-! ### Register-cache flush and freeze requests (R218) -/

theorem laneOf_flushCore (s : State) (c l : Nat) : laneOf (onCore s c flushCore) c l =
    if (laneOf s c l).status = .frozen then laneOf s c l
    else { laneOf s c l with frame := ⟨(laneOf s c l).regs, laneState (laneOf s c l), false⟩ } := by
  simp only [laneOf, coreOf_onCore_same, flushCore, Fin.getElem_fin, Vector.getElem_map, beq_iff_eq]
  rfl

/-- A lane with its freeze request set or cleared: a Free or Draining lane takes none. -/
def frzRequested (x : Lane) (req : Bool) : Lane :=
  { x with frz := { x.frz with frzreq := req && decide (x.status ≠ .free ∧ x.status ≠ .draining) } }

theorem laneOf_setFrzreq (s : State) (c l : Nat) (req : Bool) : laneOf (setFrzreq s c l req) c l = frzRequested (laneOf s c l) req := by
  have hdec : ((laneOf s c l).status == .free || (laneOf s c l).status == .draining)
      = !decide ((laneOf s c l).status ≠ .free ∧ (laneOf s c l).status ≠ .draining) := by
    cases (laneOf s c l).status <;> rfl
  unfold setFrzreq frzRequested
  dsimp only
  rw [hdec]
  by_cases h : (laneOf s c l).status ≠ .free ∧ (laneOf s c l).status ≠ .draining
  · rw [decide_eq_true h, Bool.not_true, if_neg Bool.false_ne_true, Bool.and_true]
    cases req <;> exact laneOf_setLane_same s c l _
  · rw [decide_eq_false h, Bool.not_false, if_pos rfl, Bool.and_false]
    exact laneOf_setLane_same s c l _

theorem laneOf_setFrzreq_other (s : State) (c : Nat) {l m : Nat} (req : Bool) (h : laneIx l ≠ laneIx m) :
    laneOf (setFrzreq s c l req) c m = laneOf s c m := by
  unfold setFrzreq
  dsimp only
  split
  · exact laneOf_setLane_other s _ (.inr h)
  · split
    · exact (laneOf_dueEvent _ _ _ _).trans (laneOf_setLane_other s _ (.inr h))
    · exact laneOf_setLane_other s _ (.inr h)

/-- Freeze requests made of the first lanes of a core in turn reach each of these once. -/
theorem laneOf_foldl_setFrzreq (s : State) (c l : Nat) {n : Nat} (hn : n ≤ 16) :
    laneOf ((List.range n).foldl (fun s i => setFrzreq s c i true) s) c l =
      if (laneIx l).val < n then frzRequested (laneOf s c l) true else laneOf s c l := by
  induction n with
  | zero => rfl
  | succ n ih =>
    rw [List.range_succ, List.foldl_append, List.foldl_cons, List.foldl_nil]
    have hval : (laneIx n).val = n := Nat.mod_eq_of_lt hn
    by_cases h : laneIx n = laneIx l
    · have hsame (t : State) : laneOf t c l = laneOf t c n := laneOf_of_laneIx h.symm t c
      rw [hsame, laneOf_setFrzreq, ← hsame, ih (Nat.le_of_succ_le hn), ← h, hval, if_neg (Nat.lt_irrefl n), if_pos (Nat.lt_succ_self n)]
    · have hne : (laneIx l).val ≠ n := fun e => h (Fin.ext (hval.trans e.symm))
      rw [laneOf_setFrzreq_other _ c true h, ih (Nat.le_of_succ_le hn)]
      exact if_congr (by omega) rfl rfl

theorem laneOf_freezeAll (s : State) (c l : Nat) : laneOf (freezeAll s c) c l = frzRequested (laneOf s c l) true :=
  (laneOf_foldl_setFrzreq s c l (Nat.le_refl 16)).trans (if_pos (laneIx l).isLt)

/-! ### Frames (R22, R23, R217) -/

theorem putBits_low_of_lt {old n : Nat} (h : old < 2 ^ n) (v : Nat) : putBits old 0 n v = v % 2 ^ n := by
  simp [putBits, bits, Nat.mod_eq_of_lt h]

/-- A doubleword written whole. -/
theorem mergeBytes_dword {old : Nat} (h : old < 2 ^ 64) (v : Nat) : mergeBytes old 0 8 v = v % 2 ^ 64 := putBits_low_of_lt h v

theorem frameMoved_regs (off n : Nat) (f : Frame) : (frameMoved off n f).regs = f.regs := by
  unfold frameMoved
  dsimp only
  split <;> rfl

theorem frameMoved_st (off n : Nat) (f : Frame) : (frameMoved off n f).st = f.st := by
  unfold frameMoved
  dsimp only
  split <;> rfl

/-- The frame of a Frozen lane after a doubleword of it is written whole. -/
theorem laneOf_frameWrite_dword {s : State} {c l j : Nat} (hf : (laneOf s c l).status = .frozen)
    (hold : frameDword (laneOf s c l).frame j < 2 ^ 64) (v : X) :
    (laneOf (frameWrite s c l (8 * j) 8 v.toNat) c l).frame = frameMoved (8 * j) 8 (setFrameDword (laneOf s c l).frame j v.toNat) := by
  have hmod : 8 * j % 8 = 0 := Nat.mul_mod_right 8 j
  have hdiv : 8 * j / 8 = j := Nat.mul_div_cancel_left j (by decide)
  unfold frameWrite
  simp only [hf, hmod, hdiv, mergeBytes_dword hold, Nat.mod_eq_of_lt v.isLt, beq_self_eq_true, Nat.zero_add, Nat.le_refl, decide_true,
    Bool.and_self, if_true, laneOf_setLane_same]

theorem setFrameDword_x (f : Frame) {r : Reg} (hr : r ≠ 0) (v : X) :
    (setFrameDword f r.val v.toNat).regs.x[r] = v ∧ ∀ q : Reg, q ≠ r → (setFrameDword f r.val v.toNat).regs.x[q] = f.regs.x[q] := by
  have h0 : r.val ≠ 0 := fun h => hr (Fin.ext h)
  simp only [setFrameDword, h0, r.isLt, if_false, if_true, BitVec.ofNat_toNat, BitVec.setWidth_eq]
  refine ⟨by simp, fun q hq => ?_⟩
  have hne : r.val ≠ q.val := fun h => hq (Fin.ext h.symm)
  simp [hne]

/-- The PC of a frame is written but for its bit 0 (R23). -/
theorem setFrameDword_pc (f : Frame) (v : X) :
    bits (setFrameDword f 548 v.toNat).st.toNat 1 47 = bits v.toNat 1 47
      ∧ bits (setFrameDword f 548 v.toNat).st.toNat 0 1 = bits f.st.toNat 0 1 := by
  have hst : (setFrameDword f 548 v.toNat).st
      = BitVec.ofNat 512 (putBits f.st.toNat 0 64 (putBits (bits f.st.toNat 0 64) 1 47 (v.toNat / 2))) := rfl
  have hw := f.st.isLt
  rw [hst, BitVec.toNat_ofNat]
  generalize f.st.toNat = w at hw ⊢
  unfold putBits bits
  omega

/-! ### Forced barriers (R371) -/

theorem netBarrier_setNetBarrier {sc : Scope} (hsc : sc = .die ∨ sc = .pkg ∨ sc = .pod) (s : State) (d id : Nat) (b : NetBarrier) :
    netBarrier (setNetBarrier s sc d id b) sc d id = b := by
  obtain rfl | rfl | rfl := hsc <;> simp [netBarrier, setNetBarrier]

theorem laneOf_onAllLanes {f : Nat → Lane → Lane} (hf : ∀ c, f c Lane.reset = Lane.reset) (s : State) (c l : Nat) :
    laneOf (onAllLanes s f) c l = f c (laneOf s c l) := by
  have hreset : Core.reset.lanes.map (f c) = Core.reset.lanes := Vector.map_replicate.trans (congrArg _ (hf c))
  have hcore : coreOf (onAllLanes s f) c = { coreOf s c with lanes := (coreOf s c).lanes.map (f c) } :=
    smGetD_map (g := fun e : Nat × Core => (e.1, { e.2 with lanes := e.2.lanes.map (f e.1) })) (fun _ => rfl)
      (congrArg (fun ls => { Core.reset with lanes := ls }) hreset) s.cores
  rw [laneOf, hcore]
  exact Vector.getElem_map ..

theorem netBarrier_onAllLanes (s : State) (f : Nat → Lane → Lane) (sc : Scope) (d id : Nat) :
    netBarrier (onAllLanes s f) sc d id = netBarrier s sc d id := by cases sc <;> rfl

theorem netBarrier_forceBarrier {sc : Scope} (hsc : sc = .die ∨ sc = .pkg ∨ sc = .pod) (s : State) (d id : Nat) :
    netBarrier (forceBarrier s sc d id) sc d id = { netBarrier s sc d id with bar := advanceBar (netBarrier s sc d id).bar } :=
  (netBarrier_onAllLanes _ _ sc d id).trans (netBarrier_setNetBarrier hsc s d id _)

theorem setNetBarrier_cores (s : State) (sc : Scope) (d id : Nat) (b : NetBarrier) : (setNetBarrier s sc d id b).cores = s.cores := by
  cases sc <;> rfl

/-- A lane that waits at a forced barrier is released by the force (R371). -/
theorem wait_forceBarrier {s : State} {sc : Scope} {d id e l ph : Nat} {r : Reg} (h : (laneOf s e l).wait = some (.barrier sc d id ph r)) :
    (laneOf (forceBarrier s sc d id) e l).wait = some (.barrierForced sc d id r) := by
  have hat : waitsAt sc d id (laneOf s e l).wait = some r := by simp [h, waitsAt]
  unfold forceBarrier
  rw [laneOf_onAllLanes (fun _ => rfl), laneOf_congr (setNetBarrier_cores s sc d id _), hat]

/-! ### The claim -/

section
variable {s : State} {who c : Nat}

theorem windows_unreached (h : reachesCore who c = false) (l : Nat) (req : Bool) (off n : Nat) (v : X) :
    exec (.cctlHold who c req) s = .next s ∧ exec (.cctlFrzall who c) s = .next s ∧ exec (.cctlRcflush who c) s = .next s
      ∧ exec (.lctlFrzreq who c l req) s = .next s ∧ exec (.debugFrameWrite who c l off n v) s = .next s := by
  have hno : ¬ reachesCore who c = true := Bool.eq_false_iff.1 h
  have hlane : ¬ (reachesCore who c && decide (l < 16)) = true := fun h => hno (Bool.and_eq_true_iff.1 h).1
  exact ⟨congrArg _ (if_neg hno), congrArg _ (if_neg hno), congrArg _ (if_neg hno), congrArg _ (if_neg hlane),
    congrArg _ (if_neg hlane)⟩

theorem lane_reached (h : reachesCore who c = true) {l : Nat} (hl : l < 16) : (reachesCore who c && decide (l < 16)) = true := by
  simp [h, hl]

theorem execDebugFrameWrite_reached (h : reachesCore who c = true) {l : Nat} (hl : l < 16) (off n : Nat) (v : X) :
    exec (.debugFrameWrite who c l off n v) s = .next (frameWrite s c l off n v.toNat) :=
  congrArg _ (if_pos (lane_reached h hl))

theorem frame_written (h : reachesCore who c = true) {l : Nat} (hl : l < 16) (hf : (laneOf s c l).status = .frozen) (v : X) :
    (∀ r : Reg, r ≠ 0 → ∃ t, exec (.debugFrameWrite who c l (8 * r.val) 8 v) s = .next t ∧ t.mem = s.mem
        ∧ (laneOf t c l).frame.regs.x[r] = v ∧ ∀ q : Reg, q ≠ r → (laneOf t c l).frame.regs.x[q] = (laneOf s c l).frame.regs.x[q])
      ∧ ∃ t, exec (.debugFrameWrite who c l (8 * 548) 8 v) s = .next t
        ∧ bits (laneOf t c l).frame.st.toNat 1 47 = bits v.toNat 1 47
        ∧ bits (laneOf t c l).frame.st.toNat 0 1 = bits (laneOf s c l).frame.st.toNat 0 1 := by
  refine ⟨fun r hr => ⟨_, execDebugFrameWrite_reached h hl _ 8 v, frameWrite_mem _ _ _ _ _ _, ?_⟩,
    _, execDebugFrameWrite_reached h hl _ 8 v, ?_⟩
  · have h0 : r.val ≠ 0 := fun h => hr (Fin.ext h)
    have hold : frameDword (laneOf s c l).frame r.val < 2 ^ 64 := by
      simp only [frameDword, h0, r.isLt, if_false, if_true]
      exact BitVec.isLt _
    rw [laneOf_frameWrite_dword hf hold, frameMoved_regs]
    exact setFrameDword_x _ hr v
  · rw [laneOf_frameWrite_dword hf (bits_lt _ _ _), frameMoved_st]
    exact setFrameDword_pc _ v

theorem barriers_forced (hsup : isSup who = true) {id : Nat} (hid : id < 64) :
    (∀ sc d, d < 8 → (sc = .die ∧ id < 32 ∨ sc = .pkg) → exec (.barrierForce who sc d id) s = .next (forceBarrier s sc d id))
      ∧ exec (.podBarrierForce who id) s = .next (forceBarrier s .pod 0 id) := by
  refine ⟨fun sc d hd hsc => congrArg _ (if_pos ?_), congrArg _ (if_pos ?_)⟩
  · obtain ⟨rfl, h32⟩ | rfl := hsc
    · simp [hsup, hd, h32]
    · simp [hsup, hd, hid]
  · simp [hsup, hid]

theorem podBarrier_arrivals (id : Nat) :
    let b := netBarrier s .pod 0 id
    (b.v = true → launchRank s b.launch = some 0 →
      (b.pcount + 1 ≤ b.npkg → ∃ t, exec (.podBarrierArrival id) s = .next t ∧ netBarrier t .pod 0 id = { b with pcount := b.pcount + 1 })
      ∧ (b.npkg < b.pcount + 1 → ∃ t, exec (.podBarrierArrival id) s = .next t ∧ netBarrier t .pod 0 id = { b with pcount := 0 }
          ∧ .due (.podBarrierRelease id) ∈ t.sched.agenda))
    ∧ (b.v = true → b.bar.count = b.bar.expect → b.bar.expect ≠ 0 → ∃ t, exec (.podBarrierRelease id) s = .next t
        ∧ netBarrier t .pod 0 id = { b with bar := { b.bar with phase := (b.bar.phase + 1) % 16, count := 0 } })
    ∧ (b.bar.count ≠ b.bar.expect → exec (.podBarrierRelease id) s = .next s) := by
  intro b
  have hset (b' : NetBarrier) : netBarrier (setNetBarrier s .pod 0 id b') .pod 0 id = b' :=
    netBarrier_setNetBarrier (.inr (.inr rfl)) s 0 id b'
  refine ⟨fun hv hrank => ?arrival, fun hv hcount hexpect => ?release, fun hcount => ?ignored⟩
  case arrival =>
    have harrival : exec (.podBarrierArrival id) s = .next (if b.npkg < b.pcount + 1
        then dueEvent (setNetBarrier s .pod 0 id { b with pcount := 0 }) (.podBarrierRelease id)
        else setNetBarrier s .pod 0 id { b with pcount := b.pcount + 1 }) :=
      congrArg _ (if_pos (by simp [b, hv, hrank]))
    refine ⟨fun hle => ⟨_, harrival.trans (congrArg _ (if_neg (Nat.not_lt.2 hle))), hset _⟩,
      fun hlt => ⟨_, harrival.trans (congrArg _ (if_pos hlt)), hset _, ?_⟩⟩
    rw [dueEvent_agenda]
    exact List.mem_append_right _ (List.mem_singleton_self _)
  case release =>
    have hall : (b.v && allArrived b.bar) = true := by simp [hv, allArrived, hcount, hexpect]
    exact ⟨_, congrArg Host.Outcome.next (if_pos hall), hset _⟩
  case ignored =>
    have hno : ¬ (b.v && allArrived b.bar) = true := by simp [allArrived, hcount]
    exact congrArg _ (if_neg hno)

end

theorem supervisorWindows_hold : Claims.SupervisorWindows := by
  intro s who c
  refine ⟨fun hno l h off n v => windows_unreached hno l h off n v,
    fun hyes => ⟨fun h => ?hold, ?flush, ?frzall, fun l req hl => ?frzreq, fun l off n v hl hf => ?notFrozen,
      fun l v hl hf => frame_written hyes hl hf v⟩,
    fun hsup id hid => ⟨fun sc d hd hsc => ?forced, ?podForced⟩, fun hno sc d id => ⟨?unforced, ?podUnforced⟩, podBarrier_arrivals⟩
  case hold =>
    exact ⟨_, congrArg Host.Outcome.next (if_pos hyes), congrArg (·.ctl.hold) (coreOf_onCore_same s c _), rfl,
      laneOf_onCore_lanes (by intro; rfl) s c c⟩
  case flush => exact ⟨_, congrArg Host.Outcome.next (if_pos hyes), rfl, laneOf_flushCore s c⟩
  case frzall =>
    refine ⟨_, congrArg Host.Outcome.next (if_pos hyes), freezeAll_mem s c, fun l => (laneOf_freezeAll s c l).trans ?_⟩
    rw [frzRequested, Bool.true_and]
  case frzreq =>
    exact ⟨_, congrArg Host.Outcome.next (if_pos (lane_reached hyes hl)), setFrzreq_mem s c l req, laneOf_setFrzreq s c l req⟩
  case notFrozen =>
    have hno : ¬ ((laneOf s c l).status == .frozen && decide (off % 8 + n ≤ 8)) = true := by simp [hf]
    exact (execDebugFrameWrite_reached hyes hl off n v).trans (congrArg _ (if_neg hno))
  case forced =>
    exact ⟨_, (barriers_forced hsup hid).1 sc d hd hsc, forceBarrier_mem _ _ _ _,
      netBarrier_forceBarrier (hsc.imp And.left .inl) s d id, fun _ _ _ _ => wait_forceBarrier⟩
  case podForced =>
    exact ⟨_, (barriers_forced hsup hid).2, forceBarrier_mem _ _ _ _, netBarrier_forceBarrier (.inr (.inr rfl)) s 0 id⟩
  case unforced | podUnforced => exact congrArg _ (if_neg (by simp [hno]))

end Sys2Proof.Machine
end

section
/-! O46, part 2: REGISTER_WRITE (R10, R11, R163, R219, R262, R339, R351). -/

namespace Sys2Proof.Machine
open Sys2Proof.Safety

/-! ### Places in the windows -/

/-- A core that is no supervisor reaches no window. -/
theorem windowPlace_of_not_sup {who : Nat} (h : isSup who = false) (pa : Nat) : windowPlace who pa = .none := by
  simp [windowPlace, reachesCore, ownSup, h]

theorem windowPlace_hearth {who : Nat} (h : isSup who = true) : windowPlace who (0xFF2 * 2 ^ 40) = .hearth 0 := by
  simp [windowPlace, h]

theorem lt_of_namesCore {c : Nat} (h : namesCore c = true) : c < 4096 := by
  obtain h | h := Bool.or_eq_true_iff.1 h
  · simp only [isCompute, Bool.and_eq_true, decide_eq_true_eq] at h
    exact h.1
  · simp only [isSup, Bool.and_eq_true, decide_eq_true_eq] at h
    exact h.1.1.1

section
variable {who o : Nat}

theorem windowPlace_debug {c : Nat} (hc : reachesCore who c = true) (ho : o < 2 ^ 20) (h8 : o % 8 = 0) :
    windowPlace who (0xFF0 * 2 ^ 40 + c * 2 ^ 20 + o) = .debug c o := by
  have hlt : c < 4096 := lt_of_namesCore (Bool.and_eq_true_iff.1 hc).1
  have hoff : (0xFF0 * 2 ^ 40 + c * 2 ^ 20 + o) % 2 ^ 40 / 8 * 8 = c * 2 ^ 20 + o := by omega
  have hwin : (0xFF0 * 2 ^ 40 + c * 2 ^ 20 + o) / 2 ^ 40 = 0xFF0 := by omega
  have hcore : (c * 2 ^ 20 + o) / 2 ^ 20 = c := by
    rw [Nat.add_comm, Nat.add_mul_div_right _ _ (Nat.two_pow_pos 20), Nat.div_eq_of_lt ho, Nat.zero_add]
  have hmod : (c * 2 ^ 20 + o) % 2 ^ 20 = o := by omega
  have hin : c * 2 ^ 20 + o < 2 ^ 32 := by omega
  simp only [windowPlace, hoff, hwin, hcore, hmod, hin, hc, and_self, if_true]

theorem windowPlace_die (hsup : isSup who = true) (ho : o < 2 ^ 24) (h8 : o % 8 = 0) :
    windowPlace who (0xFF1 * 2 ^ 40 + dieNo who * 2 ^ 24 + o) = .die (dieNo who) o := by
  have hlt : dieNo who < 8 := Nat.mod_lt _ (by decide)
  have hown : ownSup who (dieNo who) = true := by simp [ownSup, hsup]
  generalize dieNo who = d at hlt hown ⊢
  have hoff : (0xFF1 * 2 ^ 40 + d * 2 ^ 24 + o) % 2 ^ 40 / 8 * 8 = d * 2 ^ 24 + o := by omega
  have hwin : (0xFF1 * 2 ^ 40 + d * 2 ^ 24 + o) / 2 ^ 40 = 0xFF1 := by omega
  have hdie : (d * 2 ^ 24 + o) / 2 ^ 24 = d := by
    rw [Nat.add_comm, Nat.add_mul_div_right _ _ (Nat.two_pow_pos 24), Nat.div_eq_of_lt ho, Nat.zero_add]
  have hmod : (d * 2 ^ 24 + o) % 2 ^ 24 = o := by omega
  have hin : d * 2 ^ 24 + o < 2 ^ 27 := by omega
  have hne : ¬ ((0xFF1 : Nat) = 0xFF0 ∧ d * 2 ^ 24 + o < 2 ^ 32) := by omega
  simp only [windowPlace, hoff, hwin, hdie, hmod, hin, hown, hne, and_self, if_true, if_false]

end

/-! ### Doublewords written -/

theorem writePieces_dword {pa : Nat} (h : pa % 8 = 0) (v : Nat) : writePieces pa 8 v = [(pa, 8, v % 2 ^ 64)] := by
  have hpa : pa / 8 * 8 = pa := Nat.div_mul_cancel (Nat.dvd_of_mod_eq_zero h)
  simp [writePieces, h, hpa]

/-- An aligned doubleword is written as one piece. -/
theorem execRegisterWrite_dword {pa : Nat} (h8 : pa % 8 = 0) (hlo : 0xFF00000000000 ≤ pa) (hhi : pa + 7 < 0xFF50000000000) (s : State)
    (who : Nat) (v : BitVec 512) : exec (.registerWrite who pa 8 v) s = .next (windowPut s who pa 8 (v.toNat % 2 ^ 64)) := by
  have hwin : (decide (0 < 8 ∧ 8 ≤ 64) && isWindow pa && isWindow (pa + 8 - 1)) = true := by
    simp only [isWindow, Bool.and_eq_true, decide_eq_true_eq]
    omega
  refine congrArg _ ((if_pos hwin).trans ?_)
  rw [writePieces_dword h8]
  by_cases h : actsLast who pa = true <;> simp [h]

theorem windowPut_hearth {s : State} {who pa : Nat} {o : Nat} (hp : windowPlace who pa = .hearth o) (h8 : pa % 8 = 0) (v : Nat) :
    windowPut s who pa 8 v = hearthStore s o (mergeBytes (windowImage s (.hearth o)) 0 8 v) := by
  simp only [windowPut, hp, h8, windowStore]

theorem windowPut_die {s : State} {who pa d o : Nat} (hp : windowPlace who pa = .die d o) (h8 : pa % 8 = 0) (hold : dieRead s d o < 2 ^ 64)
    (v : Nat) : windowPut s who pa 8 v = dieStore s d o (v % 2 ^ 64) := by
  simp only [windowPut, hp, h8, windowStore, windowImage, windowRead, mergeBytes_dword hold]

theorem windowPut_debug {s : State} {who pa c o : Nat} (hp : windowPlace who pa = .debug c o) (h8 : pa % 8 = 0) (hlow : o < 0x80000)
    (hold : debugRead s c o < 2 ^ 64) (v : Nat) : windowPut s who pa 8 v = debugStore s c o (v % 2 ^ 64) := by
  simp only [windowPut, hp, h8, windowStore, windowImage, windowRead, mergeBytes_dword hold, Nat.not_le.2 hlow, decide_false,
    Bool.false_and, Bool.false_eq_true, if_false]

/-! ### HROUND (R339) -/

theorem hround_written {s : State} {who : Nat} (hsup : isSup who = true) (v : BitVec 512) :
    exec (.registerWrite who (0xFF2 * 2 ^ 40) 8 v) s = .next (if 256 ≤ v.toNat % 2 ^ 13 ∧ v.toNat % 2 ^ 13 ≤ 4096
      then onHearth s (fun h => { h with hround := v.toNat % 2 ^ 13 }) else s) := by
  have hlow : mergeBytes (windowImage s (.hearth 0)) 0 8 (v.toNat % 2 ^ 64) % 2 ^ 13 = v.toNat % 2 ^ 13 := by
    unfold mergeBytes putBits bits
    omega
  rw [execRegisterWrite_dword (by decide) (by decide) (by decide), windowPut_hearth (windowPlace_hearth hsup) (by decide), hearthStore,
    if_pos rfl, hlow]

/-! ### Translation contexts (R262) -/

section
variable (s : State) (d : Nat) {k : Nat} (hk : k < 256)
include hk

theorem dieRead_ctx_lt : dieRead s d (0x50000 + 16 * k) < 2 ^ 64 := by
  have h1 : ¬ 0x50000 + 16 * k < 0x20000 := by omega
  have h2 : ¬ 0x50000 + 16 * k < 0x30000 := by omega
  have h3 : ¬ (0x40000 ≤ 0x50000 + 16 * k ∧ 0x50000 + 16 * k < 0x41400) := by omega
  have h4 : 0x50000 ≤ 0x50000 + 16 * k ∧ 0x50000 + 16 * k < 0x51000 := by omega
  have h5 : (0x50000 + 16 * k) / 8 % 2 = 0 := by omega
  simp only [dieRead, h1, h2, h3, h4, h5, and_self, if_true, if_false]
  exact BitVec.isLt _

/-- The entry of a translation context keeps IN USE and the root of what is written. -/
theorem dieStore_ctx (w : Nat) : dieStore s d (0x50000 + 16 * k) w = onDie s d fun x =>
    { x with ctxs := smSet x.ctxs k (BitVec.ofNat 64 (bits w 63 1 * 2 ^ 63 + bits w 14 38 * 2 ^ 14)) } := by
  have h1 : ¬ 0x50000 + 16 * k < 0x20000 := by omega
  have h2 : ¬ 0x50000 + 16 * k < 0x30000 := by omega
  have h4 : 0x50000 ≤ 0x50000 + 16 * k ∧ 0x50000 + 16 * k < 0x51000 := by omega
  have h5 : (0x50000 + 16 * k) / 8 % 2 = 0 := by omega
  have h6 : (0x50000 + 16 * k - 0x50000) / 16 = k := by omega
  simp only [dieStore, h1, h2, h4, h5, h6, and_self, if_true, if_false]

end

theorem ctxRoot_ofNat {s : State} {d k v : Nat}
    (h : smGetD (dieOf s d).ctxs k 0 = BitVec.ofNat 64 (bits (v % 2 ^ 64) 63 1 * 2 ^ 63 + bits (v % 2 ^ 64) 14 38 * 2 ^ 14)) :
    ctxRoot s d k = if bit v 63 then some (bits v 14 38 * 2 ^ 14) else none := by
  have hbit : bit (bits (v % 2 ^ 64) 63 1 * 2 ^ 63 + bits (v % 2 ^ 64) 14 38 * 2 ^ 14) 63 = bit v 63 := by
    unfold bit bits
    congr 1
    omega
  have hroot : bits (bits (v % 2 ^ 64) 63 1 * 2 ^ 63 + bits (v % 2 ^ 64) 14 38 * 2 ^ 14) 14 38 = bits v 14 38 := by
    unfold bits
    omega
  have hlt : bits (v % 2 ^ 64) 63 1 * 2 ^ 63 + bits (v % 2 ^ 64) 14 38 * 2 ^ 14 < 2 ^ 64 := by
    unfold bits
    omega
  simp only [ctxRoot, h, BitVec.toNat_ofNat, Nat.mod_eq_of_lt hlt, hbit, hroot]

theorem ctx_written {s : State} {who : Nat} (hsup : isSup who = true) {k : Nat} (hk : k < 256) (v : BitVec 512) :
    ∃ t, exec (.registerWrite who (0xFF1 * 2 ^ 40 + dieNo who * 2 ^ 24 + 0x50000 + 16 * k) 8 v) s = .next t ∧ t.mem = s.mem
      ∧ ctxRoot t (dieNo who) k = (if v.getLsbD 63 = true then some (bits v.toNat 14 38 * 2 ^ 14) else none)
      ∧ ∀ j, j ≠ k → ctxRoot t (dieNo who) j = ctxRoot s (dieNo who) j := by
  have hd : dieNo who < 8 := Nat.mod_lt _ (by decide)
  have hplace : windowPlace who (0xFF1 * 2 ^ 40 + dieNo who * 2 ^ 24 + 0x50000 + 16 * k) = .die (dieNo who) (0x50000 + 16 * k) := by
    rw [Nat.add_assoc _ 0x50000]
    exact windowPlace_die hsup (by omega) (by omega)
  have h8 : (0xFF1 * 2 ^ 40 + dieNo who * 2 ^ 24 + 0x50000 + 16 * k) % 8 = 0 := by omega
  refine ⟨_, (execRegisterWrite_dword h8 (by omega) (by omega) s who v).trans (congrArg _ ((windowPut_die hplace h8
    (dieRead_ctx_lt s _ hk) _).trans (dieStore_ctx s _ hk _))), rfl, ?_, fun j hj => ?_⟩
  · rw [← bit_toNat, ctxRoot_ofNat (v := v.toNat) (by rw [dieOf_onDie_same, smGetD_smSet_same, Nat.mod_mod])]
  · simp only [ctxRoot, dieOf_onDie_same, smGetD_smSet_other _ _ _ (Ne.symm hj)]

/-! ### Breakpoint comparators (R219) -/

theorem comparatorDword_zero_lt (x : Comparator) : comparatorDword x 0 < 2 ^ 64 := by
  have ha := x.addr.isLt
  have he := x.en.toNat_lt
  have hi := x.icen.toNat_lt
  have hl := x.lmen.toNat_lt
  simp only [comparatorDword]
  omega

section
variable (s : State) (c : Nat) (i : Fin 8)

theorem debugRead_comparator_lt : debugRead s c (0x1000 + 32 * i.val) < 2 ^ 64 := by
  have h1 : ¬ 0x1000 + 32 * i.val = 0 := by omega
  have h2 : ¬ (0x100 ≤ 0x1000 + 32 * i.val ∧ 0x1000 + 32 * i.val < 0x180) := by omega
  have h3 : 0x1000 ≤ 0x1000 + 32 * i.val ∧ 0x1000 + 32 * i.val < 0x1100 := by omega
  have h4 : (0x1000 + 32 * i.val) / 8 % 4 = 0 := by omega
  simp only [debugRead, h1, h2, h3, h4, and_self, if_true, if_false]
  exact comparatorDword_zero_lt _

theorem debugStore_comparator (w : Nat) : debugStore s c (0x1000 + 32 * i.val) w = onCore s c fun k => { k with ctl := { k.ctl with
    comparators := k.ctl.comparators.set i (writeComparator k.ctl.comparators[i] 0 w) } } := by
  have h1 : ¬ 0x1000 + 32 * i.val = 0 := by omega
  have h2 : ¬ (0x100 ≤ 0x1000 + 32 * i.val ∧ 0x1000 + 32 * i.val < 0x180) := by omega
  have h3 : 0x1000 ≤ 0x1000 + 32 * i.val ∧ 0x1000 + 32 * i.val < 0x1100 := by omega
  have h4 : (0x1000 + 32 * i.val) / 8 % 4 = 0 := by omega
  have h5 : ix8 ((0x1000 + 32 * i.val - 0x1000) / 32) = i := Fin.ext (by simp only [ix8]; omega)
  simp only [debugStore, h1, h2, h3, h4, h5, and_self, if_true, if_false]

end

theorem writeComparator_low (x : Comparator) (v : BitVec 512) : writeComparator x 0 (v.toNat % 2 ^ 64) = { x with
    addr := BitVec.ofNat 48 (v.toNat % 2 ^ 48 / 2 * 2), en := v.getLsbD 48, icen := v.getLsbD 49, lmen := v.getLsbD 50 } := by
  have hbit {k : Nat} (hk : k < 64) : bit (v.toNat % 2 ^ 64) k = v.getLsbD k := by
    rw [bit_eq_testBit, Nat.testBit_mod_two_pow, decide_eq_true hk, Bool.true_and, BitVec.testBit_toNat]
  have haddr : BitVec.ofNat 48 (v.toNat % 2 ^ 64 / 2 * 2) = BitVec.ofNat 48 (v.toNat % 2 ^ 48 / 2 * 2) := by
    apply BitVec.eq_of_toNat_eq
    rw [BitVec.toNat_ofNat, BitVec.toNat_ofNat]
    omega
  simp only [writeComparator, haddr, hbit (show 48 < 64 by decide), hbit (show 49 < 64 by decide), hbit (show 50 < 64 by decide)]

theorem comparator_written {s : State} {who c : Nat} (hc : reachesCore who c = true) (i : Fin 8) (v : BitVec 512) :
    ∃ t, exec (.registerWrite who (0xFF0 * 2 ^ 40 + c * 2 ^ 20 + 0x1000 + 32 * i.val) 8 v) s = .next t ∧ t.mem = s.mem
      ∧ (coreOf t c).ctl.comparators[i] = { (coreOf s c).ctl.comparators[i] with
          addr := BitVec.ofNat 48 (v.toNat % 2 ^ 48 / 2 * 2), en := v.getLsbD 48, icen := v.getLsbD 49, lmen := v.getLsbD 50 } := by
  have hlt : c < 4096 := lt_of_namesCore (Bool.and_eq_true_iff.1 hc).1
  have hplace : windowPlace who (0xFF0 * 2 ^ 40 + c * 2 ^ 20 + 0x1000 + 32 * i.val) = .debug c (0x1000 + 32 * i.val) := by
    rw [Nat.add_assoc _ 0x1000]
    exact windowPlace_debug hc (by omega) (by omega)
  have h8 : (0xFF0 * 2 ^ 40 + c * 2 ^ 20 + 0x1000 + 32 * i.val) % 8 = 0 := by omega
  refine ⟨_, (execRegisterWrite_dword h8 (by omega) (by omega) s who v).trans (congrArg _ ((windowPut_debug hplace h8 (by omega)
    (debugRead_comparator_lt s c i) _).trans (debugStore_comparator s c i _))), rfl, ?_⟩
  rw [coreOf_onCore_same, Nat.mod_mod, writeComparator_low]
  simp

/-! ### The claim -/

theorem registerWrites_hold : Claims.RegisterWrites := by
  intro s who
  refine ⟨fun hno pa n v => congrArg Host.Outcome.next ?notSup, fun pa n v hpa => congrArg _ (if_neg ?outside),
    fun hsup => ⟨fun v => ⟨fun hlo hhi => ⟨_, (hround_written hsup v).trans (congrArg _ (if_pos ⟨hlo, hhi⟩)), rfl, rfl⟩,
        fun hout => (hround_written hsup v).trans (congrArg _ (if_neg ?range))⟩,
      fun k v hk => ctx_written hsup hk v, fun c i v hc => comparator_written hc i v⟩⟩
  case notSup =>
    have hput (t : State) (p : Nat × Nat × Nat) : windowPut t who p.1 p.2.1 p.2.2 = t := by
      simp only [windowPut, windowPlace_of_not_sup hno, windowStore]
    exact ite_keeps (view := id) (foldl_keeps (view := id) hput _ s) rfl
  case outside => simp [hpa]
  case range => omega

/-- Settles O46: each write acts on the core, lane, barrier or register that its window place names, when its writer reaches it. -/
theorem supervisorWrites : Obligations.SupervisorWrites := ⟨supervisorWindows_hold, registerWrites_hold⟩

end Sys2Proof.Machine
end

section
/-! The seat queues of a core (R224, R233): what an operation that enters one leaves of the machine. -/

namespace Sys2Proof.Machine
open Sys2Proof.Safety

/-- The instruction of a tile firing runs for its seat (R25, R227). -/
theorem withSeat_inSeat {α : Type} {s : State} {i : Fin 2} (h : InSeat s i) (f : Fin 2 → Except Stop α) : withSeat s f = f i := by
  obtain ⟨hseat, hcls⟩ := h
  simp only [withSeat, hseat, hcls, if_true]

/-! ### Tile rows (R222) -/

theorem setTileRow_mem (s : State) (c t r v : Nat) : (setTileRow s c t r v).mem = memWrite s.mem (tileKey c t (128 * r)) 128 v :=
  onMem_mem s _

theorem cur_setTileRow (s : State) (c t r v : Nat) : cur (setTileRow s c t r v) = cur s := cur_onMem s _

/-! ### The scoreboard entry (R141) -/

section
variable (s : State) (c : Nat) (e : SbEntry)

/-- An entry taken changes nothing of any core but its engine state. -/
theorem coreOf_takeEntry {α : Type} {f : Core → α} (hf : ∀ k g, f { k with eng := g } = f k) (d : Nat) :
    f (coreOf (takeEntry s c e).1 d) = f (coreOf s d) := by
  unfold takeEntry
  dsimp only
  split
  · rfl
  · by_cases h : c = d
    · subst h
      rw [coreOf_setCore_same, hf]
    · rw [coreOf_setCore_other s _ h]

theorem takeEntry_mem : (takeEntry s c e).1.mem = s.mem := by
  unfold takeEntry
  dsimp only
  split <;> rfl

theorem takeEntry_sched : (takeEntry s c e).1.sched = s.sched := by
  unfold takeEntry
  dsimp only
  split <;> rfl

end

/-! ### Entering a seat queue (R224, R233) -/

/-- The operation `p` has entered a seat queue of the issuing core, and its start is due; memory and the lanes are as they were. -/
structure SeatEntered (s t : State) (i : Fin 2) (p : SeatOp) : Prop where
  queue : (curCore t).stove.seats[i] = (curCore s).stove.seats[i] ++ [p]
  lane : p.lane = s.sched.lane
  masks : p.masks = (curCore s).stove.masks[i]
  waits : p.started = false ∧ p.formed = false ∧ p.held = none
  focus : cur t = cur s
  mem : t.mem = s.mem
  agenda : t.sched.agenda = s.sched.agenda ++ [.due (.asyncOpStart s.sched.core (i.val + 1) p.age)]

/-- The state after an operation has taken its scoreboard entry, if it takes one, and the entry's age. -/
def entryTaken (s : State) (nosb : Bool) (e : SbEntry) : State × Option Nat :=
  if nosb then (s, none) else ((takeEntry s s.sched.core e).1, some (takeEntry s s.sched.core e).2)

/-- The operation as it enters its queue, `u` being what `entryTaken` gives. -/
def newSeatOp (s : State) (u : State × Option Nat) (i : Fin 2) (kind : SeatKind) (xa xb : X) (table draws : List Nat) (cfg : TileCfg) :
    SeatOp where
  age := (coreOf u.1 s.sched.core).eng.sbAge
  lane := u.1.sched.lane
  kind := kind
  pc := (cur s).pc.setWidth 64
  bits := u.1.sched.bits
  xa := xa
  xb := xb
  masks := (curCore s).stove.masks[i]
  table := table
  sb := u.2
  draws := draws
  cfg := cfg
  started := false
  formed := false
  ended := false
  launch := (launchOf u.1 s.sched.core (cur s)).map (·.1)
  held := none

/-- A core with an operation more in a seat queue. -/
def enterSeat (i : Fin 2) (p : SeatOp) (k : Core) : Core :=
  setSeat { k with eng := { k.eng with sbAge := p.age + 1 } } i (k.stove.seats[i] ++ [p])

section
variable {s : State} {i : Fin 2} {nosb : Bool}

/-- With room in the queue and in the scoreboard the operation enters (R141, R224). -/
theorem enqueueSeat_room (h : SeatRoom s i nosb) (kind : SeatKind) (xa xb : X) (table draws : List Nat) (cfg : TileCfg) (e : SbEntry) :
    let u := entryTaken s nosb e
    let p := newSeatOp s u i kind xa xb table draws cfg
    enqueueSeat s i kind nosb xa xb table draws cfg e
      = .ok (dueEvent (onCore u.1 s.sched.core (enterSeat i p)) (.asyncOpStart s.sched.core (i.val + 1) p.age)) := by
  obtain ⟨hload, hsb⟩ := h
  have hload' : decide (seatLoad (coreOf s s.sched.core).stove.seats[i] < 16) = true := decide_eq_true hload
  unfold enqueueSeat
  cases nosb with
  | true =>
    simp only [await_ok hload', bind_ok, if_true]
    rfl
  | false =>
    have hsb' : sbRoom (coreOf s s.sched.core) = true := hsb rfl
    simp only [await_ok hload', bind_ok, Bool.false_eq_true, if_false]
    rw [await_ok hsb']
    rfl

/-- An entry taken leaves the parts of a core that are not its engine state. -/
theorem coreOf_entryTaken {α : Type} {f : Core → α} (hf : ∀ k g, f { k with eng := g } = f k) (nosb : Bool) (e : SbEntry) (c : Nat) :
    f (coreOf (entryTaken s nosb e).1 c) = f (coreOf s c) := by
  cases nosb with
  | true => rfl
  | false => exact coreOf_takeEntry s s.sched.core e hf c

theorem entryTaken_mem (s : State) (nosb : Bool) (e : SbEntry) : (entryTaken s nosb e).1.mem = s.mem := by
  cases nosb with
  | true => rfl
  | false => exact takeEntry_mem s s.sched.core e

theorem entryTaken_sched (s : State) (nosb : Bool) (e : SbEntry) : (entryTaken s nosb e).1.sched = s.sched := by
  cases nosb with
  | true => rfl
  | false => exact takeEntry_sched s s.sched.core e

/-- The lane in focus is that of a core with the same lanes. -/
theorem cur_of_lanes {s t : State} (hlanes : (curCore t).lanes = (curCore s).lanes) (hlane : t.sched.lane = s.sched.lane) : cur t = cur s := by
  change (curCore t).lanes[laneIx t.sched.lane] = (curCore s).lanes[laneIx s.sched.lane]
  simp only [hlanes, hlane]

theorem seatEntered_of_room (h : SeatRoom s i nosb) (kind : SeatKind) (xa xb : X) (table draws : List Nat) (cfg : TileCfg) (e : SbEntry) :
    ∃ t p, enqueueSeat s i kind nosb xa xb table draws cfg e = .ok t ∧ SeatEntered s t i p ∧ p.kind = kind ∧ p.xa = xa ∧ p.xb = xb
      ∧ p.table = table := by
  have hsched := entryTaken_sched s nosb e
  have hcore (p : SeatOp) (d : Due) : curCore (dueEvent (onCore (entryTaken s nosb e).1 s.sched.core (enterSeat i p)) d)
      = enterSeat i p (coreOf (entryTaken s nosb e).1 s.sched.core) := by
    rw [← hsched]
    exact coreOf_onCore_same _ _ _
  refine ⟨_, newSeatOp s (entryTaken s nosb e) i kind xa xb table draws cfg, enqueueSeat_room h kind xa xb table draws cfg e,
    ⟨?queue, ?lane, rfl, ⟨rfl, rfl, rfl⟩, ?focus, ?mem, ?agenda⟩, rfl, rfl, rfl, rfl⟩
  case queue =>
    rw [hcore, curCore, ← coreOf_entryTaken (f := Core.stove) (fun _ _ => rfl) nosb e]
    simp [enterSeat, setSeat]
  case lane => exact congrArg (·.lane) hsched
  case focus =>
    refine cur_of_lanes ?_ (congrArg (·.lane) hsched)
    rw [hcore]
    exact coreOf_entryTaken (f := Core.lanes) (fun _ _ => rfl) nosb e _
  case mem => exact entryTaken_mem s nosb e
  case agenda => exact congrArg (·.agenda ++ _) hsched

end

/-! ### Instructions that enter a seat queue -/

section
variable {s : State} {ins : Instr} {i : Fin 2} {kind : SeatKind} {nosb : Bool} {xa xb : X} {table : List Nat}

theorem SeatEntered.seatQueued {t : State} {p : SeatOp} {l : Lane} (h : SeatEntered s t i p) (hexec : exec ins s = .next (after t 8 l))
    (hregs : l.regs = (cur s).regs) (hcount : l.instcnt = (cur s).instcnt) : SeatQueued s ins i p.kind p.xa p.xb p.table := by
  obtain ⟨hstarted, hformed, hheld⟩ := h.waits
  refine ⟨_, p, hexec, ?queue, rfl, h.lane, rfl, rfl, rfl, h.masks, hstarted, hformed, hheld, ?regs, ?count, h.mem, h.agenda⟩
  case queue =>
    have hstove : (curCore (after t 8 l)).stove = (curCore t).stove := coreOf_setLane_stove t _ _ _ _
    rw [hstove, h.queue]
  case regs => rw [cur_after, retire_regs, hregs]
  case count => rw [cur_after, ← hcount]; exact loopStep_instcnt (counted l) _

theorem seatQueued_of_stateOp {f : State → Except Stop State} (hroom : SeatRoom s i nosb) (hexec : exec ins s = stateOp 8 f s)
    (henq : ∃ draws cfg e, f s = enqueueSeat s i kind nosb xa xb table draws cfg e) : SeatQueued s ins i kind xa xb table := by
  obtain ⟨draws, cfg, e, hf⟩ := henq
  obtain ⟨t, p, ht, hent, rfl, rfl, rfl, rfl⟩ := seatEntered_of_room hroom kind xa xb table draws cfg e
  exact hent.seatQueued (hexec.trans (stateOp_ok (hf.trans ht))) (congrArg _ hent.focus) (congrArg _ hent.focus)

/-- A gang instruction whose operation enters the queue completes. -/
theorem gangOp_ok {f : Fin 2 → State → Except Stop State} {t : State} (hseat : InSeat s i) (h : f i s = .ok t) :
    gangOp f s = .next (after t 8 (cur t)) := by
  unfold gangOp
  rw [withSeat_inSeat hseat]
  dsimp only
  rw [h]
  rfl

theorem seatQueued_of_gangOp {f : Fin 2 → State → Except Stop State} (hseat : InSeat s i) (hroom : SeatRoom s i nosb)
    (hexec : exec ins s = gangOp f s) (henq : ∃ draws cfg e, f i s = enqueueSeat s i kind nosb xa xb table draws cfg e) :
    SeatQueued s ins i kind xa xb table := by
  obtain ⟨draws, cfg, e, hf⟩ := henq
  obtain ⟨t, p, ht, hent, rfl, rfl, rfl, rfl⟩ := seatEntered_of_room hroom kind xa xb table draws cfg e
  exact hent.seatQueued (hexec.trans (gangOp_ok hseat (hf.trans ht))) (congrArg _ hent.focus) (congrArg _ hent.focus)

end

end Sys2Proof.Machine
end

section
/-! O38: the tile and gang instructions of a firing that owns a seat (R222 to R240). -/

namespace Sys2Proof.Machine
open Sys2Proof.Safety

section
variable {s : State} {i : Fin 2}

theorem gate_plain {l : Lane} {rs : List Reg} (h : PlainReady l rs) : gate l (rs.map fun r => .x (plain r)) [] = .ok () :=
  gate_ok h (free_nil l)

theorem ownOffset_ownLm {a : X} {o : Nat} (h : classOf s s.sched.core a = .ownLm o) : ownOffset s a = .ok o := by simp only [ownOffset, h]

/-! ### Scales (R236, R239) -/

/-- A scale block in own LM below the Attic is found. -/
theorem scaleBlock_ok {b : X} {n o : Nat} (ho : classOf s s.sched.core b = .ownLm o) (hend : o + n ≤ 0x6C000) : scaleBlock s b n = .ok o := by
  unfold scaleBlock
  exact (congrArg (· >>= _) (ownOffset_ownLm ho)).trans (if_neg (Nat.not_lt.2 hend))

/-- An instruction goes on with its scoreboard entry, whatever a block of scales adds to it. -/
theorem scales_read {reads : Bool} {f : Fmt} {b : X} {n : Nat} (h : ScalesOk s reads f b n) {p : Prop} [Decidable p]
    (hp : p → reads = true ∧ scaled f = true ∧ b ≠ 0) (e : SbEntry) (g : Nat → SbEntry) (k : SbEntry → Except Stop State) :
    ∃ e', (if p then scaleBlock s b n >>= fun off => k (g off) else k e) = k e' := by
  split
  · next hc =>
    obtain ⟨hr, hs, hb⟩ := hp hc
    obtain ⟨o, ho, hend⟩ := h hr hs hb
    exact ⟨g o, by rw [scaleBlock_ok ho hend, bind_ok]⟩
  · exact ⟨e, rfl⟩

/-! ### Gang instructions (R236 to R240) -/

theorem gwld_queued (hseat : InSeat s i) (hspec : (cur s).firing.spec = false) {o : GwldOp} (hb : PlainReady (cur s) [o.xb])
    (hroom : SeatRoom s i o.nosb) (hscales : ScalesOk s (o.pat.val == 0) o.fmt (getX (cur s) o.xb) (16 * fmtK o.fmt / 32)) :
    SeatQueued s (.gwld o) i (.gwld o) 0 (getX (cur s) o.xb) [] := by
  refine seatQueued_of_gangOp hseat hroom (show exec (.gwld o) s = execGwld o s from rfl) ?_
  have hgate : gate (cur s) [.x (plain o.xb)] [] = .ok () := gate_plain hb
  simp only [irrevocable_ok hspec, hgate, bind_ok]
  refine ⟨[], cfgOf (curCore s) 0, scales_read hscales ?_ _ _ _⟩
  exact fun h => ⟨by simpa using h.1, h.2⟩

section
variable (hseat : InSeat s i) (hspec : (cur s).firing.spec = false) {o : GmmaOp} (hx : PlainReady (cur s) [o.xa, o.xb])
  (hroom : SeatRoom s i o.nosb)
include hseat hspec hx hroom

theorem gmmaIssue_queued {ins : Instr} {sparse : Bool} (hexec : exec ins s = gangOp (gmmaIssue o sparse) s)
    (hscales : ScalesOk s (s.sched.core % 4 == o.feeder.val) o.fmt (getX (cur s) o.xb)
      ((getX (cur s) o.xa).toNat * ((if sparse then expansion (queuedPattern (curCore s) i) else 1) * fmtK o.fmt / 32))) :
    SeatQueued s ins i (if sparse then .gmmas o else .gmma o) (getX (cur s) o.xa) (getX (cur s) o.xb) [] := by
  refine seatQueued_of_gangOp hseat hroom hexec ?_
  have hgate : gate (cur s) [.x (plain o.xa), .x (plain o.xb)] [] = .ok () := gate_plain hx
  simp only [gmmaIssue, irrevocable_ok hspec, hgate, bind_ok]
  refine ⟨[], cfgOf (curCore s) 0, scales_read hscales ?_ _ _ _⟩
  exact id

end

/-- The table of a GMMAG, as it stands in own LM at issue (R240). -/
def groupTable (s : State) (off g : Nat) : List Nat := (List.range (g + 1)).map fun k => memRead s.mem (lmKey s.sched.core (off + 16 * k)) 16

theorem gmmag_queued (hseat : InSeat s i) (hspec : (cur s).firing.spec = false) {o : GmmagOp} {off : Nat}
    (hx : PlainReady (cur s) [o.xa, o.xb]) (hroom : SeatRoom s i o.nosb) (hsb : (curCore s).eng.sb = [])
    (hlm : classOf s s.sched.core (getX (cur s) o.xa) = .ownLm off) (hal : off % 16 = 0) (hend : off + 16 * (o.g.val + 1) ≤ 0x6C000)
    (hpoison : poisoned s (lmKey s.sched.core off) (16 * (o.g.val + 1)) = false)
    (hentries : ∀ e ∈ groupTable s off o.g.val, entryOk o.fmt e = true) (hrows : ((groupTable s off o.g.val).map entryRows).sum ≤ 64)
    (hscales : ScalesOk s (s.sched.core % 4 == o.feeder.val) o.fmt (getX (cur s) o.xb)
      (((groupTable s off o.g.val).map entryRows).sum * (fmtK o.fmt / 32))) :
    SeatQueued s (.gmmag o) i (.gmmag o) (getX (cur s) o.xa) (getX (cur s) o.xb) (groupTable s off o.g.val) := by
  refine seatQueued_of_gangOp hseat hroom (show exec (.gmmag o) s = execGmmag o s from rfl) ?_
  have hgate : gate (cur s) [.x (plain o.xa), .x (plain o.xb)] [] = .ok () := gate_plain hx
  have hatt : ¬ atticBase < off + 16 * (o.g.val + 1) := Nat.not_lt.2 hend
  have hok : ¬ ((!(groupTable s off o.g.val).all (entryOk o.fmt)) = true ∨ 64 < ((groupTable s off o.g.val).map entryRows).sum) := by
    rw [List.all_eq_true.2 hentries]
    exact not_or.2 ⟨Bool.false_ne_true, Nat.not_lt.2 hrows⟩
  unfold groupTable at hok hscales ⊢
  simp only [gmmagIssue, irrevocable_ok hspec, hgate, bind_ok, ownOffset_ownLm hlm, hal, ne_eq, not_true_eq_false, hatt, if_false,
    sbGate_empty hsb, hpoison, hok, Bool.false_eq_true]
  refine ⟨[], cfgOf (curCore s) 0, scales_read hscales ?_ _ _ _⟩
  exact id

/-! ### Tile instructions (R228 to R232) -/

/-- An instruction that changes its core beside the lanes completes with that change. -/
theorem exec_onCurCore {ins : Instr} {n : Nat} {g : State → Except Stop State} {f : Core → Core} (hexec : exec ins s = stateOp n g s)
    (hf : ∀ k, (f k).lanes = k.lanes) (hg : g s = .ok (onCurCore s f)) :
    ∃ t, exec ins s = .next t ∧ t.mem = s.mem ∧ cur t = retire n (cur s) ∧ (curCore t).stove = (f (curCore s)).stove := by
  have hcore : curCore (onCurCore s f) = f (curCore s) := coreOf_onCore_same s _ f
  have hcur : cur (onCurCore s f) = cur s := cur_of_lanes ((congrArg Core.lanes hcore).trans (hf _)) rfl
  exact ⟨_, hexec.trans (stateOp_ok hg), rfl, (cur_after _ _ _).trans (congrArg _ hcur),
    (coreOf_setLane_stove _ _ _ _ _).trans (congrArg Core.stove hcore)⟩

/-- A core with the configuration of a tile set (R228). -/
def setCfg (t : Nat) (g : TileCfg) (k : Core) : Core := { k with stove := { k.stove with cfg := k.stove.cfg.setIfInBounds t g } }

/-- The masks of a seat with the one of a number set (R232). -/
def maskSet (n : Nat) (v : X) (m : Masks) : Masks :=
  if n = 0 then { m with row := v } else if n = 1 then { m with col := BitVec.ofNat 64 (v.toNat % 65536) } else { m with k := v }

/-- A core with the masks of a seat set. -/
def setMasks (i : Fin 2) (f : Masks → Masks) (k : Core) : Core :=
  { k with stove := { k.stove with masks := k.stove.masks.set i (f k.stove.masks[i]) } }

theorem maskSet_eq (n : Fin 3) (v : X) (m : Masks) : maskSet n.val v m
    = if n = 0 then { m with row := v } else if n = 1 then { m with col := v &&& 0xFFFF } else { m with k := v } := by
  have hcol : BitVec.ofNat 64 (v.toNat % 65536) = v &&& 0xFFFF := by
    apply BitVec.eq_of_toNat_eq
    have hand : v.toNat &&& (2 ^ 16 - 1) = v.toNat % 2 ^ 16 := Nat.and_two_pow_sub_one_eq_mod _ _
    rw [BitVec.toNat_and, BitVec.toNat_ofNat]
    exact (Nat.mod_eq_of_lt (by omega)).trans hand.symm
  simp only [maskSet, hcol, Fin.ext_iff]
  rfl

section
variable (hseat : InSeat s i)
include hseat

theorem tileMove_enqueues {o : TldOp} {off : Nat} (hx : PlainReady (cur s) [o.xa, o.xb])
    (hlm : classOf s s.sched.core (getX (cur s) o.xa) = .ownLm off) (hal : off % 4 = 0) (hst : (getX (cur s) o.xb).toNat % 4 = 0)
    (hle : (getX (cur s) o.xb).toNat ≤ 0x7FFFF)
    (hend : off + ((cfgOf (curCore s) (4 * i.val + o.ta.val)).rows - 1) * (getX (cur s) o.xb).toNat
      + rowBytes (cfgOf (curCore s) (4 * i.val + o.ta.val)) - 1 < 0x6C000) (load : Bool) :
    ∃ draws cfg e, tileMove o load s = enqueueSeat s i (if load then .tld o else .tst o) o.nosb (getX (cur s) o.xa) (getX (cur s) o.xb) []
      draws cfg e := by
  have hgate : gate (cur s) [.x (plain o.xa), .x (plain o.xb)] [] = .ok () := gate_plain hx
  have hmis : ¬ (off % 4 ≠ 0 ∨ (getX (cur s) o.xb).toNat % 4 ≠ 0) := by omega
  have hin : ¬ (0x7FFFF < (getX (cur s) o.xb).toNat
      ∨ atticBase ≤ off + ((cfgOf (curCore s) (tileNo i o.ta)).rows - 1) * (getX (cur s) o.xb).toNat
        + rowBytes (cfgOf (curCore s) (tileNo i o.ta)) - 1) :=
    not_or.2 ⟨Nat.not_lt.2 hle, Nat.not_le.2 hend⟩
  rw [tileMove, withSeat_inSeat hseat]
  simp only [hgate, bind_ok, ownOffset_ownLm hlm, hmis, hin, if_false]
  exact ⟨_, _, _, rfl⟩

theorem gacc_queued {o : GaccOp} (hx : PlainReady (cur s) [o.xa]) (hroom : SeatRoom s i o.nosb) :
    SeatQueued s (.gacc o) i (.gacc o) (getX (cur s) o.xa) 0 [] := by
  have hgate : gate (cur s) [.x (plain o.xa)] [] = .ok () := gate_plain hx
  let r := takeDraws o.rnd (maskedCells (curCore s).stove.masks[i]).length (cur s).sr
  obtain ⟨t, p, ht, hent, hkind, hxa, hxb, htable⟩ := seatEntered_of_room hroom (.gacc o) (getX (cur s) o.xa) 0 [] r.1 (cfgOf (curCore s) 0)
    { sbEmpty s.sched.lane with twr := 2 ^ tileNo i o.tb, ard := 2 ^ o.acc.val }
  have hexec : exec (.gacc o) s = .next (after t 8 { cur t with sr := r.2 }) := by
    rw [← after_setCur]
    refine (show exec (.gacc o) s = execGacc o s from rfl).trans (stateOp_ok ?_)
    simp only [withSeat_inSeat hseat, hgate, bind_ok]
    rw [ht]
    rfl
  rw [← hkind, ← hxa, ← hxb, ← htable]
  have hregs : (cur t).regs = (cur s).regs := congrArg _ hent.focus
  have hcount : (cur t).instcnt = (cur s).instcnt := congrArg _ hent.focus
  exact hent.seatQueued hexec hregs hcount

theorem gaccz_queued {o : GacczOp} (hspec : (cur s).firing.spec = false) (hroom : SeatRoom s i o.nosb) :
    SeatQueued s (.gaccz o) i (.gaccz o) 0 0 [] := by
  refine seatQueued_of_stateOp hroom (show exec (.gaccz o) s = execGaccz o s from rfl) ?_
  simp only [withSeat_inSeat hseat, irrevocable_ok hspec, bind_ok]
  exact ⟨_, _, _, rfl⟩

theorem tzero_queued {o : TzeroOp} (hroom : SeatRoom s i o.nosb) : SeatQueued s (.tzero o) i (.tzero o) 0 0 [] := by
  refine seatQueued_of_stateOp hroom (show exec (.tzero o) s = execTzero o s from rfl) ?_
  rw [withSeat_inSeat hseat]
  exact ⟨_, _, _, rfl⟩

theorem execTcfg_sets {o : TcfgOp} (hx : PlainReady (cur s) [o.xa, o.xb]) :
    ∃ t, exec (.tcfg o) s = .next t ∧ t.mem = s.mem ∧ cur t = retire 8 (cur s)
      ∧ (curCore t).stove.cfg[4 * i.val + o.ta.val]? = some ⟨o.fmt, min (max (getX (cur s) o.xa).toNat 1) 64,
          min (max (getX (cur s) o.xb).toNat 1) (maxCols o.fmt)⟩ := by
  have hgate : gate (cur s) [.x (plain o.xa), .x (plain o.xb)] [] = .ok () := gate_plain hx
  have htile : 4 * i.val + o.ta.val < 8 := by omega
  obtain ⟨t, ht, hmem, hcur, hstove⟩ := exec_onCurCore (show exec (.tcfg o) s = execTcfg o s from rfl) (f := setCfg (tileNo i o.ta)
    ⟨o.fmt, min (max (getX (cur s) o.xa).toNat 1) 64, min (max (getX (cur s) o.xb).toNat 1) (maxCols o.fmt)⟩) (fun _ => rfl) (by
      simp only [withSeat_inSeat hseat, hgate, bind_ok]
      rfl)
  refine ⟨t, ht, hmem, hcur, ?_⟩
  rw [hstove]
  simp [setCfg, tileNo, htile]

theorem execMsk_sets {o : MskOp} (hx : PlainReady (cur s) [o.xa]) :
    let m := (curCore s).stove.masks[i]
    let v := getX (cur s) o.xa
    ∃ t, exec (.msk o) s = .next t ∧ cur t = retire 8 (cur s) ∧ t.mem = s.mem
      ∧ (curCore t).stove.masks[i] = (if o.mask = 0 then { m with row := v }
          else if o.mask = 1 then { m with col := v &&& 0xFFFF } else { m with k := v }) := by
  intro m v
  have hgate : gate (cur s) [.x (plain o.xa)] [] = .ok () := gate_plain hx
  obtain ⟨t, ht, hmem, hcur, hstove⟩ := exec_onCurCore (show exec (.msk o) s = execMsk o s from rfl)
    (f := setMasks i (maskSet o.mask.val v)) (fun _ => rfl) (by
      simp only [withSeat_inSeat hseat, hgate, bind_ok]
      rfl)
  refine ⟨t, ht, hcur, hmem, ?_⟩
  rw [hstove, ← maskSet_eq]
  simp [setMasks, m]

theorem execTrow_reads {o : TrowOp} (hx : PlainReady (cur s) [o.xa]) (hd : VFree (cur s) o.vd) (hsb : (curCore s).eng.sb = []) :
    exec (.trow o) s = .next (after s 8 (putV (cur s) o.vd
      (BitVec.ofNat 1024 (tileRow s s.sched.core (tileNo i o.ta) ((getX (cur s) o.xa).toNat % 64))))) := by
  have hgate : gate (cur s) [.x (plain o.xa)] [.v o.vd] = .ok () := gate_ok hx (free_cons.2 ⟨hd, free_nil _⟩)
  rw [← after_setCur]
  refine (show exec (.trow o) s = execTrow o s from rfl).trans (stateOp_ok ?_)
  simp only [withSeat_inSeat hseat, hgate, bind_ok, sbGate_empty hsb]

theorem execTsetrow_writes {o : TsetrowOp} (hx : PlainReady (cur s) [o.xa]) (hb : VReady (cur s) o.vb) (hsb : (curCore s).eng.sb = [])
    (hm : MemoryOk s) : ∃ t, exec (.tsetrow o) s = .next t ∧ cur t = retire 8 (kill (cur s) [.v o.vb])
      ∧ Stored s t (tileKey s.sched.core (tileNo i o.ta) (128 * ((getX (cur s) o.xa).toNat % 64))) 128 (getV (cur s) o.vb).toNat := by
  have hgate : gate (cur s) [.x (plain o.xa), .v o.vb] [] = .ok () :=
    gate_ok (ready_cons.2 ⟨hx _ (List.mem_singleton_self _), ready_cons.2 ⟨hb, ready_nil _⟩⟩) (free_nil _)
  refine ⟨_, (show exec (.tsetrow o) s = execTsetrow o s from rfl).trans (stateOp_ok (by
    simp only [withSeat_inSeat hseat, hgate, bind_ok, sbGate_empty hsb]
    rfl)), ?focus, ?stored⟩
  case focus => rw [cur_after, cur_setTileRow, cur_setCur]
  case stored =>
    intro b
    rw [after_mem, setTileRow_mem, setCur_mem]
    exact memGet_memWrite hm _ _ _ b

end

end

/-! ### The claims -/

theorem tileInstructions_hold : Claims.TileInstructions := by
  intro s i hseat l c
  refine ⟨fun o hx => execTcfg_sets hseat hx, fun o hx hd hsb => execTrow_reads hseat hx hd hsb,
    fun o hx hb hsb hm => execTsetrow_writes hseat hx hb hsb hm, fun o hx => execMsk_sets hseat hx, ?move,
    fun o hroom => tzero_queued hseat hroom, fun o hx hroom => gacc_queued hseat hx hroom,
    fun o hspec hroom => gaccz_queued hseat hspec hroom⟩
  case move =>
    intro o off hx hroom cfg st hlm hal hst hle hend
    have henq := tileMove_enqueues hseat hx hlm hal hst hle hend
    exact ⟨seatQueued_of_stateOp hroom (show exec (.tld o) s = execTld o s from rfl) (henq true),
      seatQueued_of_stateOp hroom (show exec (.tst o) s = execTst o s from rfl) (henq false)⟩

theorem gangInstructions_hold : Claims.GangInstructions := by
  intro s i hseat hspec l
  refine ⟨fun o hb hroom hscales => gwld_queued hseat hspec hb hroom hscales,
    fun o hx hroom => ⟨fun hscales => ?dense, fun hscales => ?sparse⟩, ?table⟩
  case dense =>
    exact gmmaIssue_queued hseat hspec hx hroom (sparse := false) rfl (by simpa using hscales)
  case sparse =>
    exact gmmaIssue_queued hseat hspec hx hroom (sparse := true) rfl hscales
  case table =>
    intro o off hx hroom hsb n table hlm hal hend hpoison hentries hrows hscales
    exact gmmag_queued hseat hspec hx hroom hsb hlm hal hend hpoison hentries hrows hscales

/-- Settles O38: an instruction of a seat's firing sets its configuration, mask or row at once, or enters its operation into the seat queue. -/
theorem seatInstructions : Obligations.SeatInstructions := ⟨tileInstructions_hold, gangInstructions_hold⟩

end Sys2Proof.Machine
end

section
/-! Seat queues and quads (R224, R233, R246, R247): what an operation that starts, leaves or joins a group changes of a core and of its
quad. -/

namespace Sys2Proof.Machine
open Sys2Proof.Safety

/-! ### Parts that an update leaves -/

/-- A part of the cores that a change of one of them keeps. -/
theorem coreOf_onCore_part {α : Type} {f : Core → α} {g : Core → Core} (hf : ∀ k, f (g k) = f k) (s : State) (c d : Nat) :
    f (coreOf (onCore s c g) d) = f (coreOf s d) := by
  by_cases h : c = d
  · subst h
    rw [coreOf_onCore_same, hf]
  · rw [coreOf_onCore_other _ _ h]

/-- A part of the quads that a change of one of them keeps. -/
theorem quadOf_onQuad_part {α : Type} {f : Quad → α} {g : Quad → Quad} (hf : ∀ x, f (g x) = f x) (s : State) (q r : Nat) :
    f (quadOf (onQuad s q g) r) = f (quadOf s r) := by
  by_cases h : q = r
  · subst h
    rw [quadOf_onQuad_same, hf]
  · rw [quadOf_onQuad_other _ _ h]

theorem quadOf_congr {s t : State} (h : t.quads = s.quads) (q : Nat) : quadOf t q = quadOf s q := by simp only [quadOf, h]

/-! ### Steps made due -/

/-- What is due stays due while more is made due. -/
theorem mem_agenda_foldl {α : Type} {f : State → α → State} {d : Turn}
    (hf : ∀ s a, d ∈ s.sched.agenda → d ∈ (f s a).sched.agenda) (l : List α) {s : State} (h : d ∈ s.sched.agenda) :
    d ∈ (l.foldl f s).sched.agenda :=
  List.foldlRecOn l f (motive := fun t => d ∈ t.sched.agenda) h fun t ht a _ => hf t a ht

theorem mem_agenda_dueEvent {s : State} {d : Turn} (h : d ∈ s.sched.agenda) (e : Due) : d ∈ (dueEvent s e).sched.agenda :=
  List.mem_append_left _ h

theorem due_dueEvent (s : State) (e : Due) : .due e ∈ (dueEvent s e).sched.agenda := List.mem_append_right _ (List.mem_singleton_self _)

/-- Trying the queued operations of a core again drops nothing that is due. -/
theorem mem_agenda_kick {s : State} {d : Turn} (h : d ∈ s.sched.agenda) (c : Nat) : d ∈ (kick s c).sched.agenda := by
  unfold kick
  refine mem_agenda_foldl (fun t i ht => ?_) _ (mem_agenda_foldl (fun t e ht => mem_agenda_dueEvent ht _) _ h)
  split
  · split
    · exact mem_agenda_dueEvent ht _
    · exact ht
  · exact ht

@[simp] theorem kick_quads (s : State) (c : Nat) : (kick s c).quads = s.quads := kick_keeps dueEvent_quads s c

/-! ### Editing a seat queue -/

section
variable (s : State) (c : Nat) (i : Fin 2) (age : Nat) (f : SeatOp → Option SeatOp)

/-- The queue with the operation of an age replaced or removed. -/
theorem seats_editSeat : (coreOf (editSeat s c i age f) c).stove.seats[i]
    = (coreOf s c).stove.seats[i].filterMap fun p => if p.age = age then f p else some p := by
  simp [editSeat, setSeat]

@[simp] theorem editSeat_quads : (editSeat s c i age f).quads = s.quads := rfl

@[simp] theorem freeEntry_quads (a : Option Nat) : (freeEntry s c a).quads = s.quads := by
  cases a <;> rfl

/-- Freeing a scoreboard entry leaves a core's tiles and Stove slice. -/
theorem stove_freeEntry (a : Option Nat) (d : Nat) : (coreOf (freeEntry s c a) d).stove = (coreOf s d).stove := by
  cases a with
  | none => rfl
  | some a => exact coreOf_onCore_part (f := Core.stove) (by intros; rfl) s c d

end

/-! ### An operation that leaves its queue (R143, R246) -/

/-- The operation leaves its seat queue and frees its scoreboard entry, and what waited for it looks again. -/
def releaseSeatOp (s : State) (c : Nat) (i : Fin 2) (p : SeatOp) : State :=
  kick (freeEntry (editSeat s c i p.age fun _ => none) c p.sb) c

section
variable (s : State) (c : Nat) (i : Fin 2) (p : SeatOp)

@[simp] theorem releaseSeatOp_mem : (releaseSeatOp s c i p).mem = s.mem := by simp [releaseSeatOp]

@[simp] theorem releaseSeatOp_quads : (releaseSeatOp s c i p).quads = s.quads := by simp [releaseSeatOp]

theorem stove_releaseSeatOp (d : Nat) : (coreOf (releaseSeatOp s c i p) d).stove = (coreOf (editSeat s c i p.age fun _ => none) d).stove := by
  rw [releaseSeatOp, coreOf_congr (kick_cores _ _), stove_freeEntry]

/-- Of a Stove slice only the seat queues change. -/
theorem stove_part_releaseSeatOp {α : Type} {f : CoreStove → α} (hf : ∀ k v, f { k with seats := v } = f k) (d : Nat) :
    f (coreOf (releaseSeatOp s c i p) d).stove = f (coreOf s d).stove := by
  rw [stove_releaseSeatOp]
  exact coreOf_onCore_part (f := fun k => f k.stove) (by intros; exact hf _ _) s c d

/-- No operation of its age is left. -/
theorem age_ne_of_mem_releaseSeatOp {x : SeatOp} (hx : x ∈ (coreOf (releaseSeatOp s c i p) c).stove.seats[i]) : x.age ≠ p.age := by
  simp only [stove_releaseSeatOp, seats_editSeat, List.mem_filterMap] at hx
  obtain ⟨y, -, hy⟩ := hx
  split at hy
  · cases hy
  · next h => exact Option.some.inj hy ▸ h

/-- No queue of any core gains an operation. -/
theorem mem_of_mem_releaseSeatOp {d : Nat} {x : SeatOp} (hx : x ∈ (coreOf (releaseSeatOp s c i p) d).stove.seats[i]) :
    x ∈ (coreOf s d).stove.seats[i] := by
  simp only [stove_releaseSeatOp] at hx
  by_cases h : c = d
  · subst h
    rw [seats_editSeat, List.mem_filterMap] at hx
    obtain ⟨y, hy, he⟩ := hx
    split at he
    · cases he
    · exact Option.some.inj he ▸ hy
  · simpa only [editSeat, coreOf_onCore_other _ _ h] using hx

end

/-! ### Positions and groups of a quad (R247) -/

theorem passPosition_part {α : Type} {f : Quad → α} (hf : ∀ x o, f { x with opened := o } = f x) (q : Nat) (i : Fin 2) (s : State)
    (j r : Nat) : f (quadOf (passPosition q i s j) r) = f (quadOf s r) :=
  quadOf_onQuad_part (by intros; exact hf _ _) s q r

/-- An operation that joins a group changes of the quads only which positions are open. -/
theorem joinGroup_part {α : Type} {f : Quad → α} (hf : ∀ x o, f { x with opened := o } = f x) (s : State) (c : Nat) (i : Fin 2) (g : Nat)
    (code : FaultCode) (p : SeatOp) (r : Nat) : f (quadOf (joinGroup s c i g code p) r) = f (quadOf s r) := by
  unfold joinGroup
  dsimp only
  split
  · rw [quadOf_congr (kick_quads _ _), quadOf_congr (sendPacket_quads _ _ _ _), passPosition_part hf,
      quadOf_congr (freeEntry_quads _ _ _), quadOf_congr (editSeat_quads _ _ _ _ _)]
  · rw [quadOf_congr (freeze_quads _ _ _ _), quadOf_congr (onLaneAt_quads _ _ _ _), quadOf_congr (editSeat_quads _ _ _ _ _)]

end Sys2Proof.Machine
end

section
/-! O39: seat operations start, and gangs form and take effect in their turn (R233 to R235, R247 to R249). -/

namespace Sys2Proof.Machine
open Sys2Proof.Safety

@[simp] theorem seatIx_val (i : Fin 2) : seatIx i.val = i := Fin.ext (Nat.mod_eq_of_lt i.isLt)

/-! ### Arrival (R233, R247) -/

@[simp] theorem noteForming_cores (s : State) (q : Nat) (i : Fin 2) : (noteForming s q i).cores = s.cores := ite_keeps rfl rfl

theorem noteForming_formed (s : State) (q : Nat) (i : Fin 2) : (quadOf (noteForming s q i) q).formed = (quadOf s q).formed :=
  ite_keeps (view := fun t => (quadOf t q).formed) rfl (quadOf_onQuad_part (by intros; rfl) s q q)

theorem dueGang_cores (s : State) (c : Nat) (i : Fin 2) : (dueGang s c i).cores = s.cores := ite_keeps rfl (noteForming_cores _ _ _)

theorem due_dueGang {c : Nat} (h : isSup c = false) (s : State) (i : Fin 2) :
    .due (.gangForm (quadNo c) i.val) ∈ (dueGang s c i).sched.agenda := by
  rw [dueGang, if_neg (by simp [h])]
  exact due_dueEvent _ _

/-- With no open position the operation arrives at the barrier alone. -/
theorem arrive_of_opened {s : State} {c : Nat} (h : (quadOf s (quadNo c)).opened = []) (i : Fin 2) (p : SeatOp) :
    arrive s c i p = dueGang s c i := by simp [arrive, h]

/-! ### The start of a seat operation (R142, R233) -/

/-- The operation once it has started: a gang operation has yet to form. -/
def startedOp (p : SeatOp) : SeatOp := { p with started := true, formed := !isGang p.kind }

section
variable {s : State} {c : Nat} {i : Fin 2} {p : SeatOp}

theorem startSeatOp_starts (hnext : nextSeatOp (coreOf s c).stove.seats[i] = some p) (hheld : p.held = none)
    (hahead : aheadStarted (coreOf s c).stove.seats[i] = true) (hmay : mayStart (coreOf s c) p.sb = true) :
    let u := editSeat s c i p.age fun _ => some (startedOp p)
    startSeatOp s c i = if isGang p.kind then arrive u c i (startedOp p) else kick (dueEvent u (.tileOpComplete c i.val)) c := by
  simp only [startSeatOp, hnext, hheld, hahead, hmay, Option.isNone_none, Bool.and_self, if_true, startedOp]

theorem seatOp_starts (hnext : nextSeatOp (coreOf s c).stove.seats[i] = some p) (hheld : p.held = none)
    (hahead : aheadStarted (coreOf s c).stove.seats[i] = true) (hmay : mayStart (coreOf s c) p.sb = true)
    (hopened : (quadOf s (quadNo c)).opened = []) :
    ∃ t, exec (.asyncOpStart c (i.val + 1) p.age) s = .next t ∧ t.mem = s.mem ∧ startedOp p ∈ (coreOf t c).stove.seats[i]
      ∧ (isGang p.kind = false → .due (.tileOpComplete c i.val) ∈ t.sched.agenda)
      ∧ (isGang p.kind = true → isSup c = false → .due (.gangForm (quadNo c) i.val) ∈ t.sched.agenda) := by
  have hexec : exec (.asyncOpStart c (i.val + 1) p.age) s = .next (startSeatOp s c i) := by
    refine (show exec (.asyncOpStart c (i.val + 1) p.age) s = execAsyncOpStart c (i.val + 1) p.age s from rfl).trans ?_
    rw [execAsyncOpStart, if_neg (Nat.succ_ne_zero _), Nat.add_sub_cancel, seatIx_val]
  have hin : startedOp p ∈ (coreOf (editSeat s c i p.age fun _ => some (startedOp p)) c).stove.seats[i] := by
    rw [seats_editSeat, List.mem_filterMap]
    exact ⟨p, List.mem_of_find?_eq_some hnext, if_pos rfl⟩
  refine ⟨_, hexec, startSeatOp_mem s c i, ?_⟩
  rw [startSeatOp_starts hnext hheld hahead hmay]
  cases hg : isGang p.kind with
  | true =>
    rw [if_pos rfl, arrive_of_opened (by exact hopened), coreOf_congr (dueGang_cores _ _ _)]
    exact ⟨hin, nofun, fun _ hsup => due_dueGang hsup _ i⟩
  | false =>
    rw [if_neg Bool.false_ne_true, coreOf_congr (kick_cores _ _)]
    exact ⟨hin, fun _ => mem_agenda_kick (due_dueEvent _ _) c, nofun⟩

end

/-! ### The formation of a gang (R233 to R235) -/

/-- What is checked of a gang lies in the cores. -/
theorem gangCheck_congr {s t : State} (h : t.cores = s.cores) (q : Nat) (i : Fin 2) (ops : List (Nat × SeatOp)) :
    gangCheck t q i ops = gangCheck s q i ops := by
  have hslice (c : Nat) (p : SeatOp) : sliceCheck t c i p = sliceCheck s c i p := by
    unfold sliceCheck weightsOf coreOf
    rw [h]
  simp only [gangCheck, hslice]

section
variable {s : State} {q : Nat} {i : Fin 2}

theorem gangForm_forms (hall : (arrivedAll s q i).length = 4) (hformed : (quadOf s q).formed = [])
    (hturn : (formingSeats (noteForming s q i) q).head? = some i.val) (hcheck : gangCheck s q i (arrivedAll s q i) = none) :
    ∃ t, exec (.gangForm q i.val) s = .next t ∧ t.mem = s.mem ∧ .due (.gangComplete q) ∈ t.sched.agenda
      ∧ (quadOf t q).formed = [(i.val, (arrivedAll s q i).map fun e => e.2.age)] := by
  have hwait : ¬ (decide ((arrivedAll s q i).length < 4) || !gangReady (noteForming s q i) q
      || (formingSeats (noteForming s q i) q).head? != some i.val) = true := by
    simp [hall, hturn, gangReady, noteForming_formed, hformed]
  have hcheck' (g : Quad → Quad) : gangCheck (onQuad (noteForming s q i) q g) q i (arrivedAll s q i) = none :=
    (gangCheck_congr (noteForming_cores s q i) _ _ _).trans hcheck
  have hexec : exec (.gangForm q i.val) s = .next (formGang s q i) := by
    refine (show exec (.gangForm q i.val) s = execGangForm q i.val s from rfl).trans ?_
    rw [execGangForm, seatIx_val]
  refine ⟨_, hexec, formGang_mem s q i, ?_⟩
  unfold formGang
  simp only [if_neg hwait, hcheck']
  constructor
  · exact mem_agenda_foldl (fun t e ht => mem_agenda_kick ht _) _ (due_dueEvent _ _)
  · rw [foldl_keeps (view := fun t => quadOf t q) fun t e => quadOf_congr (kick_quads _ _) q, quadOf_congr (dueEvent_quads _ _),
      quadOf_onQuad_same]
    rw [foldl_keeps (view := fun t => (quadOf t q).formed) fun t j => passPosition_part (f := Quad.formed) (by intros; rfl) q i t j q,
      foldl_keeps (view := fun t => (quadOf t q).formed) fun t e => by rfl,
      quadOf_onQuad_part (f := Quad.formed) (by intros; rfl), noteForming_formed, hformed, List.nil_append]

theorem gangForm_waits (h : (quadOf s q).formed ≠ [] ∨ (formingSeats (noteForming s q i) q).head? ≠ some i.val) :
    exec (.gangForm q i.val) s = .next (noteForming s q i) := by
  have hwait : (decide ((arrivedAll s q i).length < 4) || !gangReady (noteForming s q i) q
      || (formingSeats (noteForming s q i) q).head? != some i.val) = true := by
    rcases h with h | h <;> simp [gangReady, noteForming_formed, h]
  refine (show exec (.gangForm q i.val) s = execGangForm q i.val s from rfl).trans ?_
  rw [execGangForm, seatIx_val]
  exact congrArg _ (if_pos hwait)

end

/-! ### A gang that takes effect (R235, R246) -/

section
variable {s : State} {q : Nat} {i : Fin 2} {ages : List Nat} {rest : List (Nat × List Nat)} {p : Fin 4 → SeatOp}

/-- The four operations of a gang leave their queues. -/
def releaseGang (s : State) (q : Nat) (i : Fin 2) (p : Fin 4 → SeatOp) : State :=
  (List.finRange 4).foldl (fun t j => releaseSeatOp t (quadCore q j.val) i (p j)) s

/-- The gang that formed first takes effect, and then its operations leave their queues. -/
theorem gangComplete_effect (hformed : (quadOf s q).formed = (i.val, ages) :: rest) (hages : ages = [(p 0).age, (p 1).age, (p 2).age, (p 3).age])
    (hp : ∀ j : Fin 4, (coreOf s (quadCore q j.val)).stove.seats[i].find? (fun x => x.age == (p j).age) = some (p j)) :
    exec (.gangComplete q) s = .next (dueForming (releaseGang (runGang (onQuad s q fun x => { x with formed := rest }) q i
      [p 0, p 1, p 2, p 3]) q i p) q) := by
  have h0 : (coreOf s (quadCore q 0)).stove.seats[i].find? (fun x => x.age == (p 0).age) = some (p 0) := hp 0
  have h1 : (coreOf s (quadCore q 1)).stove.seats[i].find? (fun x => x.age == (p 1).age) = some (p 1) := hp 1
  have h2 : (coreOf s (quadCore q 2)).stove.seats[i].find? (fun x => x.age == (p 2).age) = some (p 2) := hp 2
  have h3 : (coreOf s (quadCore q 3)).stove.seats[i].find? (fun x => x.age == (p 3).age) = some (p 3) := hp 3
  refine (show exec (.gangComplete q) s = execGangComplete q s from rfl).trans ?_
  simp only [execGangComplete, hformed, hages, seatIx_val, List.zipIdx_cons, List.zipIdx_nil, List.filterMap_cons, List.filterMap_nil,
    Nat.zero_add, Nat.reduceAdd, h0, h1, h2, h3]
  rfl

end

/-- A gang's operations leave the parts of a Stove slice that are not seat queues. -/
theorem stove_part_releaseGang {α : Type} {f : CoreStove → α} (hf : ∀ k v, f { k with seats := v } = f k) (s : State) (q : Nat) (i : Fin 2)
    (p : Fin 4 → SeatOp) (c : Nat) : f (coreOf (releaseGang s q i p) c).stove = f (coreOf s c).stove :=
  foldl_keeps (view := fun t => f (coreOf t c).stove) (fun t j => stove_part_releaseSeatOp t _ i (p j) hf c) _ s

@[simp] theorem releaseGang_quads (s : State) (q : Nat) (i : Fin 2) (p : Fin 4 → SeatOp) : (releaseGang s q i p).quads = s.quads :=
  foldl_keeps (view := State.quads) (fun t j => releaseSeatOp_quads t _ i (p j)) _ s

@[simp] theorem releaseGang_mem (s : State) (q : Nat) (i : Fin 2) (p : Fin 4 → SeatOp) : (releaseGang s q i p).mem = s.mem :=
  foldl_keeps (view := State.mem) (fun t j => releaseSeatOp_mem t _ i (p j)) _ s

/-- Each operation of the gang has left its queue. -/
theorem age_ne_of_mem_releaseGang (s : State) (q : Nat) (i : Fin 2) (p : Fin 4 → SeatOp) (j : Fin 4) {x : SeatOp}
    (hx : x ∈ (coreOf (releaseGang s q i p) (quadCore q j.val)).stove.seats[i]) : x.age ≠ (p j).age := by
  have key (l : List (Fin 4)) (t : State) (hj : j ∈ l ∨ ∀ x ∈ (coreOf t (quadCore q j.val)).stove.seats[i], x.age ≠ (p j).age) :
      ∀ x ∈ (coreOf (l.foldl (fun t j => releaseSeatOp t (quadCore q j.val) i (p j)) t) (quadCore q j.val)).stove.seats[i],
        x.age ≠ (p j).age := by
    induction l generalizing t with
    | nil => exact hj.resolve_left (List.not_mem_nil)
    | cons a l ih =>
      refine ih _ ?_
      by_cases ha : j = a
      · subst ha
        exact .inr fun x hx => age_ne_of_mem_releaseSeatOp t _ i (p j) hx
      · exact hj.imp (fun h => (List.mem_cons.1 h).resolve_left ha) fun h x hx => h x (mem_of_mem_releaseSeatOp t _ i _ hx)
  exact key _ s (.inl (List.mem_finRange j)) x hx

/-! ### What a gang's effect leaves (R236 to R240) -/

theorem dueForming_quads (s : State) (q : Nat) : (dueForming s q).quads = s.quads :=
  foldl_keeps (view := State.quads) (fun _ _ => by rfl) _ s

theorem dueForming_cores (s : State) (q : Nat) : (dueForming s q).cores = s.cores :=
  foldl_keeps (view := State.cores) (fun _ _ => by rfl) _ s

theorem streamSlice_quads (s : State) (c acc : Nat) (cls : StoveClass) (fa : Fmt) (z : Bool) (mk : Masks) (w : WeightSet) (base : Nat)
    (rows : List ActRow) : (streamSlice s c acc cls fa z mk w base rows).quads = s.quads := by
  unfold streamSlice
  refine (foldl_keeps (view := State.quads) (fun t n => foldl_keeps (view := State.quads) (fun t e => ?_) _ t) _ _).trans ?_
  · exact ite_keeps rfl rfl
  · exact ite_keeps (view := State.quads) rfl rfl

theorem runGroups_quads (s : State) (c : Nat) (i : Fin 2) (p : SeatOp) (x : GmmagOp) (cls : StoveClass) (rows : List ActRow) :
    (runGroups s c i p x cls rows).quads = s.quads := by
  unfold runGroups
  refine List.foldlRecOn (motive := fun r : State × Nat => r.1.quads = s.quads) _ _ rfl fun r hr e _ => ?_
  dsimp only
  split
  · exact hr
  · exact (streamSlice_quads _ _ _ _ _ _ _ _ _ _).trans hr

theorem runGmma_quads (s : State) (q : Nat) (i : Fin 2) (ops : List SeatOp) (o : GmmaOp) : (runGmma s q i ops o).quads = s.quads := by
  unfold runGmma
  split
  · refine ite_keeps rfl (foldl_keeps (view := State.quads) (fun t e => ?_) _ s)
    split
    · exact streamSlice_quads _ _ _ _ _ _ _ _ _ _
    · exact streamSlice_quads _ _ _ _ _ _ _ _ _ _
    · rfl
  · rfl

theorem runGmmag_quads (s : State) (q : Nat) (i : Fin 2) (ops : List SeatOp) (o : GmmagOp) : (runGmmag s q i ops o).quads = s.quads := by
  unfold runGmmag
  split
  · refine foldl_keeps (view := State.quads) (fun t e => ?_) _ s
    split
    · exact runGroups_quads _ _ _ _ _ _ _
    · rfl
  · rfl

theorem runGang_quads (s : State) (q : Nat) (i : Fin 2) (ops : List SeatOp) : (runGang s q i ops).quads = s.quads := by
  unfold runGang
  split
  · refine foldl_keeps (view := State.quads) (fun t e => ?_) _ s
    split <;> rfl
  · exact runGmma_quads s q i ops _
  · exact runGmma_quads s q i ops _
  · exact runGmmag_quads s q i ops _
  · rfl

/-! ### Waiting ends (R247 to R249) -/

section
variable {s : State} {q : Nat} {i : Fin 2}

theorem execGangTimeout_groups (hsome : 0 < (arrivedAll s q i).length) (hfew : (arrivedAll s q i).length < 4) :
    exec (.gangTimeout q i.val) s = .next (groupOf s q i (arrivedAll s q i) (((arrivedAll s q i).head?.map (·.1)).getD 0) 8 .gangTimeout) := by
  have hrun : ¬ ((arrivedAll s q i).isEmpty || decide (4 ≤ (arrivedAll s q i).length)) = true := by
    simp [List.ne_nil_of_length_pos hsome, hfew]
  refine (show exec (.gangTimeout q i.val) s = execGangTimeout q i.val s from rfl).trans ?_
  rw [execGangTimeout, seatIx_val]
  exact if_neg hrun

/-- A group that forms leaves in GSTAT what it was formed with (R249). -/
theorem groupOf_gstat (ms : List (Nat × SeatOp)) (origin cause : Nat) (code : FaultCode) :
    (quadOf (groupOf s q i ms origin cause code) q).gstat[i]
      = gstatNew q i.val (quadOf s q).gstat[i] (coreMask (ms.map (·.1))) origin cause := by
  refine (foldl_keeps (view := fun t => (quadOf t q).gstat[i]) (fun t e => ?_) ms (newGroup s q i _ origin cause).1).trans ?_
  · exact congrArg (fun v : Vector X 2 => v[i]) (joinGroup_part (f := Quad.gstat) (by intros; rfl) _ _ _ _ _ _ _)
  · simp [newGroup]

theorem gstatNew_count (old : X) (members origin cause : Nat) :
    bits (gstatNew q i.val old members origin cause).toNat 0 32 = min (bits old.toNat 0 32 + 1) (2 ^ 32 - 1) := by
  unfold gstatNew groupNo
  rw [BitVec.toNat_ofNat]
  unfold bits
  omega

theorem gstatNew_members (old : X) {members : Nat} (hm : members < 16) (origin : Nat) {cause : Nat} (h : cause < 2 ^ 10) :
    bits (gstatNew q i.val old members origin cause).toNat 44 4 = members := by
  unfold gstatNew
  have hn : min (bits old.toNat 0 32 + 1) (2 ^ 32 - 1) < 2 ^ 32 := Nat.lt_of_le_of_lt (Nat.min_le_right _ _) (by decide)
  have ho : origin % 4 < 4 := Nat.mod_lt _ (by decide)
  rw [BitVec.toNat_ofNat, Nat.mod_eq_of_lt hm]
  generalize min (bits old.toNat 0 32 + 1) (2 ^ 32 - 1) = n at hn
  generalize origin % 4 = o at ho
  generalize groupNo q i.val n = g
  unfold bits
  omega

/-- The cores of a quad whose operation has arrived, in order. -/
theorem arrivedAll_cores (s : State) (q : Nat) (i : Fin 2) :
    (arrivedAll s q i).map (·.1) = (List.range 4).filter fun j => (arrived (coreOf s (quadCore q j)) i).isSome := by
  unfold arrivedAll
  induction List.range 4 with
  | nil => rfl
  | cons j l ih => cases h : arrived (coreOf s (quadCore q j)) i <;> simp [h, ih]

theorem coreMask_arrivedAll_lt (s : State) (q : Nat) (i : Fin 2) : coreMask ((arrivedAll s q i).map (·.1)) < 16 := by
  rw [arrivedAll_cores]
  have hsub : (((List.range 4).filter fun j => (arrived (coreOf s (quadCore q j)) i).isSome).map fun j => 2 ^ j).Sublist
      ((List.range 4).map fun j => 2 ^ j) := List.filter_sublist.map _
  exact Nat.lt_succ_of_le (hsub.sum_le_sum fun _ _ => Nat.zero_le _)

end

/-! ### The claims -/

/-- Settles O39: operations start in the order of their queue, gangs form and take effect one after another in a quad, and timeouts and expiries
end the wait. -/
theorem gangFormation : Obligations.GangFormation := by
  refine ⟨fun s c i p hnext hheld hahead hmay _ hopened => seatOp_starts hnext hheld hahead hmay hopened,
    fun s q i hall hformed hturn hcheck => gangForm_forms hall hformed hturn hcheck,
    fun s q i h => ⟨_, gangForm_waits h, rfl, noteForming_mem s q i, noteForming_cores s q i, noteForming_formed s q i⟩,
    fun s q i ages rest p _ hformed hages hp => ⟨_, gangComplete_effect hformed hages hp, ?rest, ?left⟩,
    fun s q i hsome hfew => ⟨_, execGangTimeout_groups hsome hfew, groupOf_mem _ _ _ _ _ _ _, ?count, ?members⟩,
    fun s q seat o ho => ⟨_, rfl, rfl, ?opened⟩⟩
  case rest =>
    rw [quadOf_congr (dueForming_quads _ _), quadOf_congr (releaseGang_quads _ _ _ _), quadOf_congr (runGang_quads _ _ _ _),
      quadOf_onQuad_same]
  case left =>
    intro j x hx
    rw [coreOf_congr (dueForming_cores _ _)] at hx
    exact age_ne_of_mem_releaseGang _ q i p j hx
  case count => rw [groupOf_gstat, gstatNew_count]
  case members =>
    rw [groupOf_gstat, gstatNew_members _ (coreMask_arrivedAll_lt s q i) _ (by decide), coreMask, List.map_map]
    rfl
  case opened => simp [ho]

end Sys2Proof.Machine
end

section
/-! Bytes cleared (R230, R243) and parts of the machine written one after another: what a memory cleared reads as, and folds of updates. -/

namespace Sys2Proof.Machine
open Sys2Proof.Safety

/-! ### Memory cleared -/

/-- A canonical memory without the entries of some addresses reads there as reset. -/
theorem memGet_filter {P : Nat → Prop} [DecidablePred P] {lo : Option Nat} {m : Memory} (h : memWfFrom lo m = true) (b : Nat) :
    memGet (m.filter fun e => decide (P e.1)) b = if P b then memGet m b else unlisted b := by
  induction m generalizing lo with
  | nil => simp [memGet]
  | cons e t ih =>
    obtain ⟨k, v⟩ := e
    obtain ⟨-, -, ht⟩ := memWfFrom_cons.1 h
    have hf := memWfFrom_filter (fun e => decide (P e.1)) h
    rw [List.filter_cons] at hf ⊢
    by_cases hk : k = b
    · subst hk
      by_cases hP : P k
      · simp [hP, memGet_head]
      · simp [hP, ih ht]
    · by_cases hP : P k
      · rw [if_pos (decide_eq_true hP)] at hf ⊢
        rw [memGet_tail hf hk, memGet_tail h hk, ih ht]
      · rw [if_neg (by simpa using hP), memGet_tail h hk, ih ht]

theorem memGet_memClear {m : Memory} (h : m.wf = true) (a n b : Nat) :
    memGet (memClear m a n) b = if a ≤ b ∧ b < a + n then unlisted b else memGet m b := by
  refine (memGet_filter (P := fun k => ¬ (a ≤ k ∧ k < a + n)) h b).trans ?_
  split <;> simp_all

/-- Bytes that are zero read as zero. -/
theorem memRead_zero {m : Memory} {a n : Nat} (h : ∀ b, a ≤ b → b < a + n → memGet m b = 0) : memRead m a n = 0 := by
  induction n generalizing a with
  | zero => rfl
  | succ n ih => rw [memRead, h a (Nat.le_refl _) (by omega), ih fun b h1 h2 => h b (by omega) (by omega)]; rfl

/-- Bank SRAM, tiles and accumulators reset to zero. -/
theorem unlisted_of_ge {a : Nat} (h : 2 ^ 46 ≤ a) : unlisted a = 0 := if_neg fun hin => Nat.not_lt.2 h hin.2

/-! ### Folds of updates -/

section
variable {α β : Type} {f : β → α → β} {P : β → Prop}

/-- What one step of a fold establishes and every step keeps holds at the end. -/
theorem foldl_establishes {Q : β → Prop} {a : α} (hP : ∀ t b, P t → P (f t b)) (hset : ∀ t, P t → Q (f t a))
    (hkeep : ∀ t b, P t → Q t → Q (f t b)) {l : List α} (ha : a ∈ l) {t : β} (ht : P t) : Q (l.foldl f t) := by
  have hkept (l : List α) (t : β) (ht : P t) (hq : Q t) : Q (l.foldl f t) :=
    (List.foldlRecOn l f (motive := fun t => P t ∧ Q t) ⟨ht, hq⟩ fun t h b _ => ⟨hP t b h.1, hkeep t b h.1 h.2⟩).2
  obtain ⟨l₁, l₂, rfl⟩ := List.append_of_mem ha
  have h₁ : P (l₁.foldl f t) := List.foldlRecOn l₁ f (motive := P) ht fun t h b _ => hP t b h
  rw [List.foldl_append, List.foldl_cons]
  exact hkept l₂ _ (hP _ _ h₁) (hset _ h₁)

variable {ι γ : Type} {R : β → γ}

/-- What every step of a fold leaves is left. -/
theorem foldl_leaves (hP : ∀ t b, P t → P (f t b)) {l : List α} (hother : ∀ t, ∀ b ∈ l, P t → R (f t b) = R t) {t : β} (ht : P t) :
    R (l.foldl f t) = R t :=
  (List.foldlRecOn l f (motive := fun u => P u ∧ R u = R t) ⟨ht, rfl⟩ fun u h b hb => ⟨hP u b h.1, (hother u b hb h.1).trans h.2⟩).2

/-- What one step of a fold changes and the others leave is what that step makes of what it was. -/
theorem foldl_part {g : γ → γ} {ix : α → ι} {a : α} {l : List α} (hP : ∀ t b, P t → P (f t b))
    (hother : ∀ t, ∀ b ∈ l, P t → ix b ≠ ix a → R (f t b) = R t) (hset : ∀ t, P t → R (f t a) = g (R t)) (hnd : (l.map ix).Nodup)
    (ha : a ∈ l) {t : β} (ht : P t) : R (l.foldl f t) = g (R t) := by
  obtain ⟨l₁, l₂, rfl⟩ := List.append_of_mem ha
  rw [List.map_append, List.map_cons, List.nodup_append, List.nodup_cons] at hnd
  obtain ⟨-, ⟨hnot₂, -⟩, hdisj⟩ := hnd
  have h₁ : P (l₁.foldl f t) := List.foldlRecOn l₁ f (motive := P) ht fun t h b _ => hP t b h
  have hbefore : R (l₁.foldl f t) = R t :=
    foldl_leaves hP (fun t b hb h => hother t b (List.mem_append_left _ hb) h
      fun he => hdisj _ (List.mem_map_of_mem hb) _ List.mem_cons_self he) ht
  have hafter : R (l₂.foldl f (f (l₁.foldl f t) a)) = R (f (l₁.foldl f t) a) :=
    foldl_leaves hP (fun t b hb h => hother t b (List.mem_append_right _ (List.mem_cons_of_mem _ hb)) h
      fun he => hnot₂ (List.mem_map.2 ⟨b, hb, he⟩)) (hP _ _ h₁)
  rw [List.foldl_append, List.foldl_cons, hafter, hset _ h₁, hbefore]

end

end Sys2Proof.Machine
end

section
/-! O40: what a tile operation and a gang do when they take effect (R82, R229, R230, R236, R238, R243, R246). -/

namespace Sys2Proof.Machine
open Sys2Proof.Safety

/-! ### Tile operations (R229, R230, R243) -/

theorem tileRow_congr {s t : State} (h : t.mem = s.mem) (c k r : Nat) : tileRow t c k r = tileRow s c k r := by simp only [tileRow, h]

/-- A row of a tile cleared is zero. -/
theorem tileRow_memClear {s : State} (hm : MemoryOk s) (c k : Nat) {r : Nat} (hr : r < 64) :
    tileRow (onMem s fun m => memClear m (tileKey c k 0) 8192) c k r = 0 := by
  refine memRead_zero fun b hlo hhi => ?_
  unfold tileKey at hlo hhi
  rw [onMem_mem, memGet_memClear hm, if_pos (by unfold tileKey; omega), unlisted_of_ge (by omega)]

section
variable {s : State} (hm : MemoryOk s) (c k : Nat)
include hm

/-- A row set reads back. -/
theorem tileRow_setTileRow (r : Nat) {v : Nat} (hv : v < 256 ^ 128) : tileRow (setTileRow s c k r v) c k r = v := by
  rw [tileRow, setTileRow_mem, memRead_memWrite_same hm, Nat.mod_eq_of_lt hv]

/-- A row set leaves the other rows of its tile. -/
theorem tileRow_setTileRow_other {r x : Nat} (h : r ≠ x) (v : Nat) : tileRow (setTileRow s c k r v) c k x = tileRow s c k x := by
  refine memRead_congr fun b hlo hhi => ?_
  rw [setTileRow_mem, memGet_memWrite_other hm]
  unfold tileKey at hlo hhi ⊢
  omega

/-- A row set leaves LM. -/
theorem memGet_setTileRow_lm (r v : Nat) {b : Nat} (h : b < 2 ^ 47) : memGet (setTileRow s c k r v).mem b = memGet s.mem b := by
  rw [setTileRow_mem, memGet_memWrite_other hm]
  unfold tileKey
  omega

end

/-- The memory is canonical, and below the tiles it reads as that of `s`. -/
structure LmAs (s t : State) : Prop where
  ok : MemoryOk t
  below : ∀ b, b < 2 ^ 47 → memGet t.mem b = memGet s.mem b

theorem LmAs.setTileRow {s t : State} (h : LmAs s t) (c k r v : Nat) : LmAs s (setTileRow t c k r v) :=
  ⟨setTileRow_wf h.ok _ _ _ _, fun b hb => (memGet_setTileRow_lm h.ok c k r v hb).trans (h.below b hb)⟩

theorem LmAs.memRead_eq {s t : State} (h : LmAs s t) {a n : Nat} (ha : a + n ≤ 2 ^ 47) : memRead t.mem a n = memRead s.mem a n :=
  memRead_congr fun b _ hb => h.below b (by omega)

section
variable {s : State} {c : Nat} {i : Fin 2} {o : TldOp} {p : SeatOp}

/-- A place of LM that a TLD reads lies below the tiles. -/
theorem tld_place_lt (hc : c < 4096) (hrows : p.cfg.rows ≤ 64) (hbytes : rowBytes p.cfg ≤ 128) (hstep : p.xb.toNat ≤ 0x7FFFF) {r : Nat}
    (hr : r < p.cfg.rows) : lmKey c (p.xa.toNat % 2 ^ 19 + r * p.xb.toNat) + rowBytes p.cfg ≤ 2 ^ 47 := by
  have hmul : r * p.xb.toNat ≤ 63 * 0x7FFFF := Nat.mul_le_mul (by omega) hstep
  unfold lmKey
  omega

/-- One row of a TLD. -/
def copyRow (c k : Nat) (p : SeatOp) (t : State) (r : Nat) : State :=
  setTileRow t c k r (memRead t.mem (lmKey c (p.xa.toNat % 2 ^ 19 + r * p.xb.toNat)) (rowBytes p.cfg))

theorem tileRow_copyRow {t : State} (h : LmAs s t) (hc : c < 4096) (hrows : p.cfg.rows ≤ 64) (hbytes : rowBytes p.cfg ≤ 128)
    (hstep : p.xb.toNat ≤ 0x7FFFF) (k : Nat) {r : Nat} (hr : r < p.cfg.rows) :
    tileRow (copyRow c k p t r) c k r = memRead s.mem (lmKey c (p.xa.toNat % 2 ^ 19 + r * p.xb.toNat)) (rowBytes p.cfg) := by
  have hlt (m : Memory) (a : Nat) : memRead m a (rowBytes p.cfg) < 256 ^ 128 :=
    Nat.lt_of_lt_of_le (memRead_lt _ _ _) (Nat.pow_le_pow_right (by decide) hbytes)
  exact (tileRow_setTileRow h.ok c k r (hlt _ _)).trans (h.memRead_eq (tld_place_lt hc hrows hbytes hstep hr))

/-- TLD copies the configured rows from LM into the tile (R229). -/
theorem tileRow_runTld (hm : MemoryOk s) (hc : c < 4096) (hrows : p.cfg.rows ≤ 64) (hbytes : rowBytes p.cfg ≤ 128)
    (hstep : p.xb.toNat ≤ 0x7FFFF) (r : Nat) :
    tileRow (runTld s c i o p) c (tileNo i o.ta) r =
      if r < p.cfg.rows then memRead s.mem (lmKey c (p.xa.toNat % 2 ^ 19 + r * p.xb.toNat)) (rowBytes p.cfg)
      else tileRow s c (tileNo i o.ta) r := by
  have hrun : runTld s c i o p = (List.range p.cfg.rows).foldl (copyRow c (tileNo i o.ta) p) s := rfl
  have hP (t : State) (r : Nat) (h : LmAs s t) : LmAs s (copyRow c (tileNo i o.ta) p t r) := h.setTileRow _ _ _ _
  have hother (t : State) (x : Nat) (h : LmAs s t) (hne : x ≠ r) :
      tileRow (copyRow c (tileNo i o.ta) p t x) c (tileNo i o.ta) r = tileRow t c (tileNo i o.ta) r :=
    tileRow_setTileRow_other h.ok _ _ hne _
  have hs : LmAs s s := ⟨hm, fun _ _ => rfl⟩
  rw [hrun]
  split
  · next hr =>
    have hset (t : State) (h : LmAs s t) := tileRow_copyRow h hc hrows hbytes hstep (tileNo i o.ta) hr
    exact foldl_part (R := fun t => tileRow t c (tileNo i o.ta) r) (ix := fun x => x)
      (g := fun _ => memRead s.mem (lmKey c (p.xa.toNat % 2 ^ 19 + r * p.xb.toNat)) (rowBytes p.cfg)) hP (fun t x _ => hother t x) hset
      (by simpa using List.nodup_range) (List.mem_range.2 hr) hs
  · next hr =>
    exact foldl_leaves (R := fun t => tileRow t c (tileNo i o.ta) r) hP
      (fun t x hx h => hother t x h fun he => hr (he ▸ List.mem_range.1 hx)) hs

end

/-- Accumulator `a` of core `c` is empty and its bytes are zero (R226, R243). -/
structure AccCleared (c : Nat) (a : Fin 4) (t : State) : Prop where
  kind : (coreOf t c).stove.acc[a] = .none
  bytes : ∀ b, accKey c a.val 0 ≤ b → b < accKey c a.val 0 + 8192 → memGet t.mem b = 0

/-- One accumulator that a GACCZ clears. -/
def clearAcc (c : Nat) (t : State) (a : Fin 4) : State :=
  onCore (onMem t fun m => memClear m (accKey c a.val 0) 8192) c fun k => { k with stove := { k.stove with acc := k.stove.acc.set a .none } }

theorem accCleared_clearAcc {t : State} (hm : MemoryOk t) (c : Nat) (a : Fin 4) : AccCleared c a (clearAcc c t a) where
  kind := by simp [clearAcc]
  bytes b hlo hhi := by
    rw [clearAcc, onCore_mem, onMem_mem, memGet_memClear hm, if_pos ⟨hlo, hhi⟩]
    unfold accKey at hlo
    exact unlisted_of_ge (by omega)

theorem AccCleared.of_clearAcc {t : State} (hm : MemoryOk t) {c : Nat} {a : Fin 4} (h : AccCleared c a t) (x : Fin 4) :
    AccCleared c a (clearAcc c t x) where
  kind := by
    have hkind := h.kind
    by_cases hx : x.val = a.val <;> simp_all [clearAcc]
  bytes b hlo hhi := by
    rw [clearAcc, onCore_mem, onMem_mem, memGet_memClear hm]
    split
    · unfold accKey at hlo
      exact unlisted_of_ge (by omega)
    · exact h.bytes b hlo hhi

/-- GACCZ clears the accumulators of its mask (R243). -/
theorem accCleared_runGaccz {s : State} (hm : MemoryOk s) (c : Nat) {mask : BitVec 4} {a : Fin 4} (ha : mask.getLsbD a.val = true) :
    AccCleared c a (runGaccz s c mask) := by
  have hrun : runGaccz s c mask = ((List.finRange 4).filter fun a => mask.getLsb a).foldl (clearAcc c) s := rfl
  rw [hrun]
  exact foldl_establishes (P := MemoryOk) (f := clearAcc c) (fun t x ht => memClear_wf ht (accKey c x.val 0) 8192)
    (fun t ht => accCleared_clearAcc ht c a) (fun t x ht hq => hq.of_clearAcc ht x) (List.mem_filter.2 ⟨List.mem_finRange a, ha⟩) hm

/-- A cell of a cleared accumulator is zero. -/
theorem AccCleared.cell {t : State} {c : Nat} {a : Fin 4} (h : AccCleared c a t) {m n : Nat} (hmr : m < 64) (hn : n < 16) :
    memRead t.mem (cellKey c a.val m n) 8 = 0 :=
  memRead_zero fun b hlo hhi => h.bytes b (by unfold cellKey accKey at hlo; unfold accKey; omega)
    (by unfold cellKey accKey at hhi; unfold accKey; omega)

theorem tileOperations_hold : Claims.TileOperations := by
  intro s c i p hc hm hfind
  have hexec : exec (.tileOpComplete c i.val) s = .next (releaseSeatOp (runSeatOp s c i p) c i p) := by
    refine (show exec (.tileOpComplete c i.val) s = execTileOpComplete c i.val s from rfl).trans ?_
    simp only [execTileOpComplete, seatIx_val, hfind]
    rfl
  have hmem : (releaseSeatOp (runSeatOp s c i p) c i p).mem = (runSeatOp s c i p).mem := releaseSeatOp_mem _ _ _ _
  refine ⟨_, hexec, fun x hx => age_ne_of_mem_releaseSeatOp _ c i p hx, ?tzero, ?tld, ?gaccz⟩
  case tzero =>
    intro o hk r hr
    rw [tileRow_congr hmem, runSeatOp, hk]
    exact tileRow_memClear hm c _ hr
  case tld =>
    intro o hk hrows hbytes hstep r _
    rw [tileRow_congr hmem, runSeatOp, hk]
    exact tileRow_runTld hm hc hrows hbytes hstep r
  case gaccz =>
    intro o hk a ha
    have hclear : AccCleared c a (runSeatOp s c i p) := by
      rw [runSeatOp, hk]
      exact accCleared_runGaccz hm c ha
    rw [hmem]
    exact ⟨(stove_part_releaseSeatOp _ c i p (f := fun k => k.acc[a]) (by intros; rfl) c).trans hclear.kind, fun m n hr hn => hclear.cell hr hn⟩

end Sys2Proof.Machine
end

section
/-! The effect of a gang (R236, R238, R82): GWLD latches the weights of each slice; a GMMA streams the feeder's rows through the four slices, each
into the cells of its own accumulator. -/

namespace Sys2Proof.Machine
open Sys2Proof.Safety

/-- The four cores of a quad are four. -/
theorem quadCore_inj {q : Nat} {j k : Fin 4} (h : quadCore q j.val = quadCore q k.val) : j = k := by
  unfold quadCore at h
  omega

theorem weightsOf_congr {s t : State} {c : Nat} (h : coreOf t c = coreOf s c) (i : Fin 2) : weightsOf t c i = weightsOf s c i :=
  congrArg (fun k : Core => k.stove.weights[i]) h

/-! ### GWLD (R236) -/

section
variable {u : State} {q : Nat} {i : Fin 2} {o : Fin 4 → GwldOp} {p : Fin 4 → SeatOp}

theorem weightsOf_setWeights_same (s : State) (c : Nat) (w : WeightSet) : weightsOf (setWeights s c i w) c i = w := by
  simp [weightsOf, setWeights]

theorem weightsOf_setWeights_other (s : State) {c d : Nat} (h : c ≠ d) (w : WeightSet) : weightsOf (setWeights s c i w) d i = weightsOf s d i :=
  weightsOf_congr (coreOf_onCore_other _ _ h) i

/-- A GWLD of the dense pattern without scales latches the sixteen rows of its tile. -/
theorem runGwld_dense {o : GwldOp} {p : SeatOp} (hpat : o.pat = 0) (hscale : p.xb = 0) (s : State) (c : Nat) :
    runGwld s c i o p = setWeights s c i ⟨some o.fmt, 0, (List.range 16).map (tileRow s c (4 * i.val + o.ta.val)), []⟩ := by
  simp [runGwld, hpat, hscale, tileNo]

theorem runGang_gwld (hkind : ∀ j, (p j).kind = .gwld (o j)) :
    runGang u q i [p 0, p 1, p 2, p 3] = (List.finRange 4).foldl (fun t j => runGwld t (quadCore q j.val) i (o j) (p j)) u := by
  simp only [runGang, List.head?_cons, Option.map_some, List.zipIdx_cons, List.zipIdx_nil, List.foldl_cons, List.foldl_nil, hkind]
  rfl

theorem weightsOf_runGang_gwld (hkind : ∀ j, (p j).kind = .gwld (o j)) (hpat : ∀ j, (o j).pat = 0) (hscale : ∀ j, (p j).xb = 0) (j : Fin 4) :
    weightsOf (runGang u q i [p 0, p 1, p 2, p 3]) (quadCore q j.val) i
      = ⟨some (o j).fmt, 0, (List.range 16).map (tileRow u (quadCore q j.val) (4 * i.val + (o j).ta.val)), []⟩ := by
  rw [runGang_gwld hkind]
  refine foldl_part (P := fun t => t.mem = u.mem) (R := fun t => weightsOf t (quadCore q j.val) i) (ix := fun j => j) (a := j)
    (g := fun _ => ⟨some (o j).fmt, 0, (List.range 16).map (tileRow u (quadCore q j.val) (4 * i.val + (o j).ta.val)), []⟩)
    (fun t k ht => ?mem) (fun t k _ ht hne => ?other) (fun t ht => ?set) (by simpa using List.nodup_finRange 4) (List.mem_finRange j) rfl
  case mem => exact ht
  case other =>
    rw [runGwld_dense (hpat k) (hscale k)]
    exact weightsOf_setWeights_other t (fun he => hne (quadCore_inj he)) _
  case set =>
    have hrows : tileRow t (quadCore q j.val) (4 * i.val + (o j).ta.val) = tileRow u (quadCore q j.val) (4 * i.val + (o j).ta.val) :=
      funext fun r => tileRow_congr ht _ _ r
    rw [runGwld_dense (hpat j) (hscale j), weightsOf_setWeights_same, hrows]

end

/-! ### The rows and the products of a stream (R82, R238) -/

/-- A row of a feeder that reads no scales: its codes, each with the scale 1. -/
theorem actRow_unscaled (s : State) (c t : Nat) (fa : Fmt) (K m : Nat) :
    actRow s c t fa K 1 none m = (List.range K).map fun k => (bits (tileRow s c t m) (k * fmtWidth fa) (fmtWidth fa), 127) := by
  refine List.ext_getElem (by simp [actRow]) fun k h₁ h₂ => ?_
  simp [actRow]

/-- The products of a row of activations with a column of weights; a step that the mask leaves out gives none. -/
def productsOf (mk : Masks) (kl : Nat) (row : ActRow) (wcol : List (Option (Nat × Nat))) : List Product :=
  ((row.zip wcol).zipIdx).map fun x =>
    if !mk.k.getLsbD (64 * x.2 / kl) then none
    else x.1.2.map fun q => (x.1.1.1, x.1.1.2, q.1, q.2)

theorem productsOf_unscaled (mk : Masks) (K : Nat) (act : Nat → Nat) (col : Nat → Option (Nat × Nat)) :
    productsOf mk K ((List.range K).map fun k => (act k, 127)) ((List.range K).map col)
      = (List.range K).map fun k => if mk.k.getLsbD (64 * k / K) = true then (col k).map fun x => (act k, 127, x.1, x.2) else none := by
  refine List.ext_getElem (by simp [productsOf]) fun k h₁ h₂ => ?_
  simp only [productsOf, List.getElem_map, List.getElem_zipIdx, List.getElem_zip, List.getElem_range, Nat.zero_add]
  cases mk.k.getLsbD (64 * k / K) <;> rfl

/-! ### One slice (R238) -/

/-- The cell of a row and a column of an accumulator (R82). -/
def cell (c acc r n : Nat) (t : State) : Nat := memRead t.mem (cellKey c acc r n) 8

theorem cell_congr {s t : State} {c acc r n : Nat}
    (h : ∀ b, cellKey c acc r n ≤ b → b < cellKey c acc r n + 8 → memGet t.mem b = memGet s.mem b) :
    cell c acc r n t = cell c acc r n s := memRead_congr h

section
variable (c acc : Nat) (cls : StoveClass) (fa : Fmt) (z : Bool) (mk : Masks) (w : WeightSet)

/-- What a cell becomes in which a row meets a column. -/
def cellSum (row : ActRow) (n old : Nat) : Nat :=
  accumulate cls fa (w.fmt.getD fa) (if z then 0 else old)
    (productsOf mk (expansion w.pattern * classK cls) row
      ((List.range (expansion w.pattern * classK cls)).map (weightAt w (w.fmt.getD fa) (classK cls) n)))

/-- A row of the stream meets a column. -/
def streamCell (n : Nat) (t : State) (e : ActRow × Nat) : State :=
  if !mk.row.getLsbD e.2 then t
  else onMem t fun m => memWrite m (cellKey c acc e.2 n) 8 (cellSum cls fa z mk w e.1 n (cell c acc e.2 n t))

/-- The rows of the stream meet a column. -/
def streamColumn (rows : List ActRow) (t : State) (n : Nat) : State := rows.zipIdx.foldl (streamCell c acc cls fa z mk w n) t

variable {c acc cls fa z mk w}

/-- A stream into an accumulator that holds sums of its class (R240). -/
theorem streamSlice_eq {s : State} {a : Fin 4} (hkind : (coreOf s c).stove.acc[a] = classKind cls) (rows : List ActRow) :
    streamSlice s c a.val cls fa z mk w 0 rows =
      ((List.range 16).filter fun n => mk.col.getLsbD n).foldl (streamColumn c a.val cls fa z mk w rows)
        (onCore s c fun k => { k with stove := { k.stove with acc := k.stove.acc.set a (classKind cls) } }) := by
  unfold streamSlice
  simp only [Nat.mod_eq_of_lt a.isLt, hkind, bne_self_eq_false, Bool.and_false, Bool.false_eq_true, if_false, Nat.zero_add]
  rfl

theorem streamCell_wf {t : State} (ht : MemoryOk t) (n : Nat) (e : ActRow × Nat) : MemoryOk (streamCell c acc cls fa z mk w n t e) := by
  unfold streamCell
  split
  · exact ht
  · exact memWrite_wf ht _ _ _

theorem streamColumn_wf {rows : List ActRow} {t : State} (ht : MemoryOk t) (n : Nat) :
    MemoryOk (streamColumn c acc cls fa z mk w rows t n) :=
  List.foldlRecOn _ _ (motive := MemoryOk) ht fun _ h e _ => streamCell_wf h n e

/-- Of the memory only the cell of the row and the column changes. -/
theorem memGet_streamCell_other {t : State} (ht : MemoryOk t) {n b : Nat} {e : ActRow × Nat}
    (hb : b < cellKey c acc e.2 n ∨ cellKey c acc e.2 n + 8 ≤ b) : memGet (streamCell c acc cls fa z mk w n t e).mem b = memGet t.mem b := by
  unfold streamCell
  split
  · rfl
  · exact memGet_memWrite_other ht _ _ _ hb

theorem cell_streamCell {t : State} (ht : MemoryOk t) (n : Nat) (row : ActRow) (r : Nat) :
    cell c acc r n (streamCell c acc cls fa z mk w n t (row, r)) =
      if mk.row.getLsbD r = true then cellSum cls fa z mk w row n (cell c acc r n t) % 2 ^ 64 else cell c acc r n t := by
  unfold streamCell
  cases hr : mk.row.getLsbD r with
  | false => simp
  | true => simpa [cell] using memRead_memWrite_same ht (cellKey c acc r n) 8 (cellSum cls fa z mk w row n (cell c acc r n t))

/-- A row leaves the cells of other rows and of other columns. -/
theorem cell_streamCell_other {t : State} (ht : MemoryOk t) {n n' r : Nat} (hn : n < 16) (hn' : n' < 16) {e : ActRow × Nat}
    (h : e.2 ≠ r ∨ n ≠ n') : cell c acc r n' (streamCell c acc cls fa z mk w n t e) = cell c acc r n' t :=
  cell_congr fun b hlo hhi => memGet_streamCell_other ht (by unfold cellKey accKey at hlo hhi ⊢; omega)

section
variable {rows : List ActRow} {n r : Nat} (hn : n < 16)
include hn

/-- A column leaves the cells of other columns. -/
theorem cell_streamColumn_other {t : State} (ht : MemoryOk t) {n' : Nat} (hn' : n' < 16) (h : n' ≠ n) :
    cell c acc r n (streamColumn c acc cls fa z mk w rows t n') = cell c acc r n t :=
  (List.foldlRecOn _ _ (motive := fun u => MemoryOk u ∧ cell c acc r n u = cell c acc r n t)
    ⟨ht, rfl⟩ fun _ hu e _ => ⟨streamCell_wf hu.1 n' e, (cell_streamCell_other hu.1 hn' hn (.inr h)).trans hu.2⟩).2

/-- A cell of a column is what its row makes of it. -/
theorem cell_streamColumn {t : State} (ht : MemoryOk t) :
    cell c acc r n (streamColumn c acc cls fa z mk w rows t n) =
      if r < rows.length ∧ mk.row.getLsbD r = true then
        cellSum cls fa z mk w (rows.getD r []) n (cell c acc r n t) % 2 ^ 64
      else cell c acc r n t := by
  have hP (t : State) (e : ActRow × Nat) (ht : MemoryOk t) : MemoryOk (streamCell c acc cls fa z mk w n t e) := streamCell_wf ht n e
  have hother (t : State) (e : ActRow × Nat) (ht : MemoryOk t) (h : e.2 ≠ r) :
      cell c acc r n (streamCell c acc cls fa z mk w n t e) = cell c acc r n t := cell_streamCell_other ht hn hn (.inl h)
  have hix : rows.zipIdx.map (fun e => e.2) = List.range rows.length := by simp [List.range_eq_range']
  by_cases hr : r < rows.length
  · have hmem : (rows[r], r) ∈ rows.zipIdx := List.mem_zipIdx_iff_getElem?.2 (by simp [hr])
    have hset (t : State) (ht : MemoryOk t) := cell_streamCell (c := c) (acc := acc) (cls := cls) (fa := fa) (z := z) (mk := mk) (w := w)
      ht n rows[r] r
    simp only [hr, true_and, List.getD_eq_getElem?_getD, List.getElem?_eq_getElem, Option.getD_some]
    exact foldl_part (f := streamCell c acc cls fa z mk w n) (R := cell c acc r n) (ix := fun e => e.2)
      (g := fun old => if mk.row.getLsbD r = true then cellSum cls fa z mk w rows[r] n old % 2 ^ 64 else old) hP (fun t e _ => hother t e)
      hset (hix ▸ List.nodup_range) hmem ht
  · rw [if_neg (fun h => hr h.1)]
    exact foldl_leaves (f := streamCell c acc cls fa z mk w n) (R := cell c acc r n) hP
      (fun t e he h => hother t e h fun hix => hr (hix ▸ List.snd_lt_of_mem_zipIdx he)) ht

end

section
variable {s : State} {a : Fin 4} (hm : MemoryOk s) (hkind : (coreOf s c).stove.acc[a] = classKind cls) (rows : List ActRow)
include hm hkind

/-- A cell of the slice that the masks select is what the stream makes of it, and the others are left. -/
theorem cell_streamSlice (r : Nat) {n : Nat} (hn : n < 16) :
    cell c a.val r n (streamSlice s c a.val cls fa z mk w 0 rows) =
      if r < rows.length ∧ mk.row.getLsbD r = true ∧ mk.col.getLsbD n = true then
        cellSum cls fa z mk w (rows.getD r []) n (cell c a.val r n s) % 2 ^ 64
      else cell c a.val r n s := by
  have hP (t : State) (n : Nat) (ht : MemoryOk t) : MemoryOk (streamColumn c a.val cls fa z mk w rows t n) := streamColumn_wf ht n
  have hnd : (((List.range 16).filter fun n => mk.col.getLsbD n).map fun n => n).Nodup := by simpa using List.nodup_range.filter _
  rw [streamSlice_eq hkind]
  by_cases hcol : mk.col.getLsbD n = true
  · simp only [hcol, and_true]
    exact foldl_part (f := streamColumn c a.val cls fa z mk w rows) (R := cell c a.val r n) (ix := fun n => n)
      (g := fun old => if r < rows.length ∧ mk.row.getLsbD r = true then cellSum cls fa z mk w (rows.getD r []) n old % 2 ^ 64 else old)
      hP (fun t x hx ht hne => cell_streamColumn_other hn ht (List.mem_range.1 (List.mem_filter.1 hx).1) hne)
      (fun t ht => cell_streamColumn hn ht) hnd (List.mem_filter.2 ⟨List.mem_range.2 hn, hcol⟩) hm
  · rw [if_neg fun h => hcol h.2.2]
    exact foldl_leaves (f := streamColumn c a.val cls fa z mk w rows) (R := cell c a.val r n) hP
      (fun t x hx ht => cell_streamColumn_other hn ht (List.mem_range.1 (List.mem_filter.1 hx).1)
        fun hne => hcol (hne ▸ (List.mem_filter.1 hx).2)) hm

/-- A stream leaves the bytes that are not of its accumulator. -/
theorem memGet_streamSlice_other (hrows : rows.length ≤ 64) {b : Nat} (hb : b < accKey c a.val 0 ∨ accKey c a.val 0 + 8192 ≤ b) :
    memGet (streamSlice s c a.val cls fa z mk w 0 rows).mem b = memGet s.mem b := by
  have hcell (t : State) (n : Nat) (hn : n < 16) (e : ActRow × Nat) (he : e ∈ rows.zipIdx) (ht : MemoryOk t) :
      memGet (streamCell c a.val cls fa z mk w n t e).mem b = memGet t.mem b := by
    have hlt := List.snd_lt_of_mem_zipIdx he
    exact memGet_streamCell_other ht (by unfold cellKey; unfold accKey at hb ⊢; omega)
  have hcolumn (t : State) (n : Nat) (hn : n < 16) (ht : MemoryOk t) :
      memGet (streamColumn c a.val cls fa z mk w rows t n).mem b = memGet t.mem b :=
    foldl_leaves (f := streamCell c a.val cls fa z mk w n) (R := fun t => memGet t.mem b) (fun t e ht => streamCell_wf ht n e)
      (fun t e he ht => hcell t n hn e he ht) ht
  rw [streamSlice_eq hkind]
  exact foldl_leaves (f := streamColumn c a.val cls fa z mk w rows) (R := fun t => memGet t.mem b) (fun t n ht => streamColumn_wf ht n)
    (fun t n hx ht => hcolumn t n (List.mem_range.1 (List.mem_filter.1 hx).1) ht) hm

end

/-- A stream into an accumulator that holds sums of its class leaves the cores. -/
theorem coreOf_streamSlice {s : State} {a : Fin 4} (hkind : (coreOf s c).stove.acc[a] = classKind cls) (rows : List ActRow) (d : Nat) :
    coreOf (streamSlice s c a.val cls fa z mk w 0 rows) d = coreOf s d := by
  have hset : (coreOf s c).stove.acc.set a (classKind cls) = (coreOf s c).stove.acc := by
    rw [← hkind]
    exact Vector.set_getElem_self _
  have hcell (t : State) (n : Nat) (e : ActRow × Nat) : coreOf (streamCell c a.val cls fa z mk w n t e) d = coreOf t d := by
    unfold streamCell
    exact ite_keeps (view := fun t => coreOf t d) rfl rfl
  have hcolumn (t : State) (n : Nat) : coreOf (streamColumn c a.val cls fa z mk w rows t n) d = coreOf t d :=
    foldl_keeps (view := fun t => coreOf t d) (fun t e => hcell t n e) _ t
  rw [streamSlice_eq hkind, foldl_keeps (view := fun t => coreOf t d) hcolumn]
  by_cases hd : c = d
  · subst hd
    simp only [coreOf_onCore_same, hset]
  · exact coreOf_onCore_other _ _ hd

end

/-! ### GMMA (R238) -/

/-- What the stream of a slice relies on, and leaves: canonical memory and the cores. -/
structure StreamFrom (s t : State) : Prop where
  ok : MemoryOk t
  cores : ∀ c, coreOf t c = coreOf s c

/-- The slice of one core in a GMMA. -/
def streamCore (q : Nat) (i : Fin 2) (cls : StoveClass) (fa : Fmt) (o : Fin 4 → GmmaOp) (p : Fin 4 → SeatOp) (rows : List ActRow)
    (t : State) (j : Fin 4) : State :=
  streamSlice t (quadCore q j.val) (o j).acc.val cls fa (o j).z (p j).masks (weightsOf t (quadCore q j.val) i) 0 rows

/-- The rows that a dense GMMA without scales streams. -/
def feederRows (u : State) (q : Nat) (i : Fin 2) (f : Fin 4) (ta : Fin 4) (fa : Fmt) (cls : StoveClass) (m : Nat) : List ActRow :=
  (List.range m).map (actRow u (quadCore q f.val) (tileNo i ta) fa (classK cls) 1 none)

/-- A dense GMMA in one format, whose feeder `f` reads no scales. -/
structure DenseGmma (u : State) (q : Nat) (i : Fin 2) (f : Fin 4) (fa : Fmt) (cls : StoveClass) (o : Fin 4 → GmmaOp) (p : Fin 4 → SeatOp) : Prop
    where
  kind : ∀ j, (p j).kind = .gmma (o j)
  fmt : ∀ j, (o j).fmt = fa
  feeder : ∀ j, (o j).feeder = f
  class_eq : fmtClass fa = some cls
  unscaled : (p f).xb = 0
  dense : ∀ j : Fin 4, (weightsOf u (quadCore q j.val) i).pattern = 0
  acc : ∀ j : Fin 4, (coreOf u (quadCore q j.val)).stove.acc[(o j).acc] = classKind cls

section
variable {u : State} {q : Nat} {i : Fin 2} {o : Fin 4 → GmmaOp} {f : Fin 4} {fa : Fmt} {cls : StoveClass} {p : Fin 4 → SeatOp}

theorem runGang_gmma (hg : DenseGmma u q i f fa cls o p) :
    runGang u q i [p 0, p 1, p 2, p 3] = if (p f).xa.toNat = 0 then u else
      (List.finRange 4).foldl (streamCore q i cls fa o p (feederRows u q i f (o f).ta fa cls (p f).xa.toNat)) u := by
  have hf : feederOf [p 0, p 1, p 2, p 3] f = some (p f) := by
    match f with
    | 0 | 1 | 2 | 3 => rfl
  have hpat0 : (weightsOf u (quadCore q 0) i).pattern = 0 := hg.dense 0
  simp only [runGang, runGmma, List.head?_cons, Option.map_some, hg.kind, hg.fmt, hg.feeder, hg.class_eq, hf, hg.unscaled, hpat0,
    expansion, if_true, actScales,
    bne_self_eq_false, Bool.and_false, Bool.false_eq_true, if_false, List.zipIdx_cons, List.zipIdx_nil, List.foldl_cons, List.foldl_nil]
  rfl

/-- Cells of different cores lie apart. -/
theorem accKey_apart {c d : Nat} (h : c ≠ d) (a b : Fin 4) {r n x : Nat} (hr : r < 64) (hn : n < 16) (hlo : cellKey d b.val r n ≤ x)
    (hhi : x < cellKey d b.val r n + 8) : x < accKey c a.val 0 ∨ accKey c a.val 0 + 8192 ≤ x := by
  unfold cellKey accKey at hlo hhi
  unfold accKey
  omega

/-- A cell of a dense GMMA that reads no scales. -/
theorem cell_runGang_gmma (hm : MemoryOk u) (hg : DenseGmma u q i f fa cls o p) (hrows : (p f).xa.toNat ≤ 64) (j : Fin 4) {r n : Nat}
    (hr : r < 64) (hn : n < 16) :
    cell (quadCore q j.val) (o j).acc.val r n (runGang u q i [p 0, p 1, p 2, p 3]) =
      if r < (p f).xa.toNat ∧ (p j).masks.row.getLsbD r = true ∧ (p j).masks.col.getLsbD n = true then
        cellSum cls fa (o j).z (p j).masks (weightsOf u (quadCore q j.val) i)
          (actRow u (quadCore q f.val) (tileNo i (o f).ta) fa (classK cls) 1 none r) n (cell (quadCore q j.val) (o j).acc.val r n u) % 2 ^ 64
      else cell (quadCore q j.val) (o j).acc.val r n u := by
  rw [runGang_gmma hg]
  split
  · next h0 => rw [if_neg (by omega)]
  · generalize hR : feederRows u q i f (o f).ta fa cls (p f).xa.toNat = rows
    have hlen : rows.length = (p f).xa.toNat := by simp [← hR, feederRows]
    have hkinds {t : State} (ht : StreamFrom u t) (j : Fin 4) : (coreOf t (quadCore q j.val)).stove.acc[(o j).acc] = classKind cls := by
      rw [ht.cores, hg.acc]
    refine (foldl_part (f := streamCore q i cls fa o p rows) (P := StreamFrom u) (R := cell (quadCore q j.val) (o j).acc.val r n)
      (ix := fun j => j) (a := j) (g := fun old => if r < rows.length ∧ (p j).masks.row.getLsbD r = true ∧ (p j).masks.col.getLsbD n = true then
        cellSum cls fa (o j).z (p j).masks (weightsOf u (quadCore q j.val) i) (rows.getD r []) n old % 2 ^ 64 else old)
      (fun t k ht => ⟨streamSlice_wf ht.ok _ _ _ _ _ _ _ _ _, fun c => (coreOf_streamSlice (hkinds ht k) _ c).trans (ht.cores c)⟩)
      (fun t k _ ht hne => cell_congr fun b hlo hhi => memGet_streamSlice_other ht.ok (hkinds ht k) rows (hlen ▸ hrows)
        (accKey_apart (fun he => hne (quadCore_inj he)) _ _ hr hn hlo hhi))
      (fun t ht => ?_) (by simpa using List.nodup_finRange 4) (List.mem_finRange j) ⟨hm, fun _ => rfl⟩).trans ?_
    · rw [streamCore, cell_streamSlice ht.ok (hkinds ht j) rows r hn, weightsOf_congr (ht.cores _)]
    · rw [hlen]
      split
      · next h => simp [← hR, feederRows, h.1]
      · rfl

/-- What a cell becomes where the weights are dense and the feeder reads no scales. -/
theorem cellSum_dense {z : Bool} {mk : Masks} {w : WeightSet} (hpat : w.pattern = 0) (s : State) (c t r n old : Nat) :
    cellSum cls fa z mk w (actRow s c t fa (classK cls) 1 none r) n old = accumulate cls fa (w.fmt.getD fa) (if z then 0 else old)
      ((List.range (classK cls)).map fun k => if mk.k.getLsbD (64 * k / classK cls) = true then
        (weightAt w (w.fmt.getD fa) (classK cls) n k).map fun x => (bits (tileRow s c t r) (k * fmtWidth fa) (fmtWidth fa), 127, x.1, x.2)
        else none) := by
  rw [cellSum, actRow_unscaled, hpat, expansion, if_pos rfl, Nat.one_mul,
    productsOf_unscaled mk _ (fun k => bits (tileRow s c t r) (k * fmtWidth fa) (fmtWidth fa))]

end

/-! ### The claims -/

theorem gangEffect_hold : Claims.GangEffect := by
  intro s q i ages rest p _ hm hformed hages hp
  refine ⟨_, gangComplete_effect hformed hages hp, ?formed, ?gwld, ?gmma⟩
  case formed =>
    rw [quadOf_congr (dueForming_quads _ _), quadOf_congr (releaseGang_quads _ _ _ _), quadOf_congr (runGang_quads _ _ _ _),
      quadOf_onQuad_same]
  case gwld =>
    intro o ho j
    rw [coreOf_congr (dueForming_cores _ _), stove_part_releaseGang (f := fun k => k.weights[i]) (by intros; rfl)]
    exact weightsOf_runGang_gwld (fun j => (ho j).1) (fun j => (ho j).2.1) (fun j => (ho j).2.2) j
  case gmma =>
    intro o f fa cls m ho hcls hrows hscale hslice j r n hr hn
    obtain ⟨-, -, -, rfl⟩ := ho f
    have hcell := cell_runGang_gmma (u := onQuad s q fun x => { x with formed := rest }) hm
      ⟨fun j => (ho j).1, fun j => (ho j).2.1, fun j => (ho j).2.2.1, hcls, hscale, fun j => (hslice j).1, fun j => (hslice j).2⟩ hrows j hr hn
    rw [cellSum_dense (by exact (hslice j).1)] at hcell
    rw [dueForming_mem, releaseGang_mem]
    exact hcell

/-- Settles O40: tile operations and gangs take effect one slice and one cell at a time. -/
theorem seatEffects : Obligations.SeatEffects := ⟨tileOperations_hold, gangEffect_hold⟩

end Sys2Proof.Machine
end

section
/-! Occupancy (R291 to R294): the quads, the launches that hold them and the command blocks of the rows, and the steps that leave them as they
are: memory and the directory, aborts, images of single cores, and what is made due again. -/

namespace Sys2Proof.Machine
open Sys2Proof.Safety

/-- The quads, the launches, and the command blocks of each die's rows. -/
def occupancy (s : State) : SMap Quad × SMap Launch × (Nat → SMap DmaBlock) := (s.quads, s.pkg.launches, fun d => (dieOf s d).dma)

section
variable {s t : State} (h : occupancy t = occupancy s)
include h

theorem quads_of_occupancy : t.quads = s.quads := congrArg (·.1) h

theorem launches_of_occupancy : t.pkg.launches = s.pkg.launches := congrArg (·.2.1) h

theorem dmaOf_of_occupancy (d r : Nat) : dmaOf t d r = dmaOf s d r := 
  congrArg (fun v : SMap Quad × SMap Launch × (Nat → SMap DmaBlock) => smGetD (v.2.2 d) r DmaBlock.reset) h

end

/-! ### State, memory and the directory -/

section
variable (s : State)

@[simp] theorem onCore_occupancy (c : Nat) (f : Core → Core) : occupancy (onCore s c f) = occupancy s := rfl
@[simp] theorem setCore_occupancy (c : Nat) (k : Core) : occupancy (setCore s c k) = occupancy s := rfl
@[simp] theorem onMem_occupancy (f : Memory → Memory) : occupancy (onMem s f) = occupancy s := rfl
@[simp] theorem onHearth_occupancy (f : Hearth → Hearth) : occupancy (onHearth s f) = occupancy s := rfl
@[simp] theorem dueEvent_occupancy (d : Due) : occupancy (dueEvent s d) = occupancy s := rfl
@[simp] theorem setDirectory_occupancy (line : Nat) (e : DirLine) : occupancy (setDirectory s line e) = occupancy s := rfl
@[simp] theorem setTask_occupancy (n : Nat) (t : Task) : occupancy (setTask s n t) = occupancy s := rfl
@[simp] theorem rangeSet_occupancy (c k : Nat) (r : RangeReg) : occupancy (rangeSet s c k r) = occupancy s := by
  rw [rangeSet, onMem_occupancy]
@[simp] theorem poisonAt_occupancy (a : Nat) : occupancy (poisonAt s a) = occupancy s := rfl

/-- A change of a die that leaves its rows' command blocks. -/
theorem onDie_occupancy {f : Die → Die} (hf : ∀ x, (f x).dma = x.dma) (d : Nat) : occupancy (onDie s d f) = occupancy s := by
  refine congrArg (fun v => (s.quads, s.pkg.launches, v)) (funext fun e => ?_)
  by_cases h : d = e
  · subst h
    rw [dieOf_onDie_same, hf]
  · rw [dieOf_onDie_other _ _ h]

/-- A change of the package that leaves the launches. -/
theorem onPkg_occupancy {f : Pkg → Pkg} (hf : ∀ p, (f p).launches = p.launches) : occupancy (onPkg s f) = occupancy s :=
  congrArg (fun v => (s.quads, v, fun d => (dieOf s d).dma)) (hf s.pkg)

@[simp] theorem setTokens_occupancy (d line : Nat) (t : TokenLine) : occupancy (setTokens s d line t) = occupancy s :=
  onDie_occupancy s (by intros; rfl) d

@[simp] theorem surrender_occupancy (line d : Nat) : occupancy (surrender s line d) = occupancy s := onDie_occupancy s (by intros; rfl) d

@[simp] theorem rawBlocks_occupancy (a n : Nat) : occupancy (rawBlocks s a n) = occupancy s := ite_keeps rfl rfl

@[simp] theorem putBytes_occupancy (a n v : Nat) : occupancy (putBytes s a n v) = occupancy s := by
  have h : occupancy (if s.poison.isEmpty then onMem s fun m => memWrite m a n v else
      { onMem s (fun m => memWrite m a n v) with
        poison := s.poison.filter (fun p => !(decide (a ≤ p) && decide (p + (if 2 ^ 45 ≤ a then 4 else 64) ≤ a + n))) })
      = occupancy s := ite_keeps rfl rfl
  exact ite_keeps ((rawBlocks_occupancy _ _ _).trans h) h

@[simp] theorem recallOthers_occupancy (keep : Option Nat) (line : Nat) : occupancy (recallOthers s keep line) = occupancy s :=
  ite_keeps rfl (foldl_keeps (fun t d => surrender_occupancy t line d) _ s)

@[simp] theorem storeKey_occupancy (a n v : Nat) : occupancy (storeKey s a n v) = occupancy s :=
  ite_keeps (ite_keeps (by simp) (by simp)) (by simp)

@[simp] theorem hostHolds_occupancy (line : Nat) (h : Bool) : occupancy (hostHolds s line h) = occupancy s := ite_keeps rfl rfl

@[simp] theorem writtenBack_occupancy (line : Nat) : occupancy (writtenBack s line) = occupancy s :=
  foldl_keeps (f := fun s d => setTokens s d line { tokensOf s d line with dirty := false }) (fun t d => setTokens_occupancy t d _ _) _ s

@[simp] theorem hostWrite_occupancy (pa n : Nat) (v : BitVec 512) : occupancy (hostWrite s pa n v) = occupancy s := by simp [hostWrite]

@[simp] theorem hostRead_occupancy (pa n : Nat) : occupancy (hostRead s pa n) = occupancy s := by
  have h (t : State) (v : BitVec 512) : occupancy (answered t v) = occupancy t := rfl
  have ho (t : State) (m : Nat) : occupancy (answeredOpen t m) = occupancy t := rfl
  exact ite_keeps (by simp [ho]) (by simp [h])

@[simp] theorem wakePath_occupancy (p : Path) : occupancy (wakePath s p) = occupancy s := by
  unfold wakePath
  split
  · exact ite_keeps rfl rfl
  · rfl

@[simp] theorem overwritten_occupancy (a n : Nat) : occupancy (overwritten s a n) = occupancy s :=
  (foldl_keeps (fun t line => (setDirectory_occupancy _ _ _).trans (recallOthers_occupancy t none line)) _ _).trans
    (rawBlocks_occupancy _ _ _)

@[simp] theorem overwritten_lanesAndTurns (a n : Nat) : lanesAndTurns (overwritten s a n) = lanesAndTurns s :=
  (foldl_keeps (fun t line => (setDirectory_lanesAndTurns _ _ _).trans (recallOthers_lanesAndTurns t none line)) _ _).trans
    (rawBlocks_lanesAndTurns _ _ _)

/-! ### Tasks and aborts (R320, R327) -/

@[simp] theorem onTask_occupancy (n : Nat) (f : Task → Task) : occupancy (onTask s n f) = occupancy s := by
  unfold onTask
  split <;> rfl

@[simp] theorem spillDue_occupancy (q : Nat) : occupancy (spillDue s q) = occupancy s := ite_keeps rfl rfl

@[simp] theorem spillTask_occupancy (d : Domain) (n : Nat) (t : Task) : occupancy (spillTask s d n t) = occupancy s := by
  unfold spillTask
  split
  · split <;> simp
  · rfl

@[simp] theorem settleQueue_occupancy (q dom : Nat) : occupancy (settleQueue s q dom) = occupancy s := by
  unfold settleQueue
  split
  · exact ite_keeps (by simp) rfl
  · rfl

@[simp] theorem abortMember_occupancy (discard : Bool) (dropped : Option Nat) (n : Nat) :
    occupancy (abortMember discard dropped s n) = occupancy s := by
  have hf (t : State) (c l : Nat) : occupancy (freeLane t c l) = occupancy t := rfl
  unfold abortMember delTask
  split
  · rfl
  · simp [apply_ite occupancy, hf]

@[simp] theorem hostReleased_occupancy : occupancy (hostReleased s) = occupancy s := by
  refine (foldl_keeps (view := occupancy) (fun t e => ?_) _ _).trans rfl
  split <;> simp

@[simp] theorem abortStep_occupancy (named : Nat) (drop : Bool) : occupancy (abortStep s named drop) = occupancy s :=
  (hostReleased_occupancy _).trans (foldl_keeps (view := occupancy) (fun t n => abortMember_occupancy t _ _ n) _ s)

@[simp] theorem abortOn_occupancy (qs : List Nat) : occupancy (abortOn s qs) = occupancy s :=
  foldl_keeps (view := occupancy) (fun t n => ite_keeps (abortStep_occupancy t n false) rfl) _ s

/-! ### What is due again, and messages that follow the maps (R24, R294) -/

@[simp] theorem reoffer_occupancy (src dst : Nat) : occupancy (reoffer s src dst) = occupancy s := ite_keeps rfl rfl

@[simp] theorem dueTimes_occupancy (d : Due) (n : Nat) : occupancy (dueTimes s d n) = occupancy s := foldl_keeps (fun _ _ => by rfl) _ s

@[simp] theorem follow_occupancy : occupancy (follow s) = occupancy s :=
  foldl_keeps (view := occupancy) (fun t e => ite_keeps rfl ((foldl_keeps (fun u i => reoffer_occupancy u _ _) _ _).trans (by rfl))) _ s

@[simp] theorem repostLane_occupancy (c l : Nat) : occupancy (repostLane s c l) = occupancy s := ite_keeps (by simp) (by simp)

@[simp] theorem evKick_occupancy (c : Nat) : occupancy (evKick s c) = occupancy s := evKick_keeps dueEvent_occupancy s c

@[simp] theorem kick_occupancy (c : Nat) : occupancy (kick s c) = occupancy s := kick_keeps dueEvent_occupancy s c

@[simp] theorem deliveryNext_occupancy (c : Nat) (d : Delivery) : occupancy (deliveryNext s c d) = occupancy s :=
  ite_keeps rfl (ite_keeps rfl ((evKick_occupancy _ _).trans (by rfl)))

@[simp] theorem evalActors_occupancy (c : Nat) : occupancy (evalActors s c) = occupancy s := ite_keeps rfl rfl

@[simp] theorem repost_occupancy (c : Nat) : occupancy (repost s c) = occupancy s := by
  have hlanes := foldl_keeps (view := occupancy) (fun t l => repostLane_occupancy t c l) (List.range 16)
  have hsends := foldl_keeps (view := occupancy) (fun t i => reoffer_occupancy t c (itemDest i)) (coreOf s c).msg.sendQ
  unfold repost
  dsimp only
  rw [evalActors_occupancy, evKick_occupancy, foldl_keeps (view := occupancy) fun t i => dueEvent_occupancy t _, kick_occupancy]
  split
  · rw [deliveryNext_occupancy, foldl_keeps (view := occupancy) fun t q => dueEvent_occupancy t _, dueTimes_occupancy, dueTimes_occupancy,
      hsends, hlanes]
  · rw [foldl_keeps (view := occupancy) fun t q => dueEvent_occupancy t _, dueTimes_occupancy, dueTimes_occupancy, hsends, hlanes]

/-! ### Images of cores (R291, R293) -/

/-- A core that is saved leaves the quads, launches and rows. -/
@[simp] theorem saveCore_occupancy (bars : Vector Barrier 8) (cellar v c : Nat) : occupancy (saveCore s bars cellar v c) = occupancy s := by
  unfold saveCore
  dsimp only
  generalize hu : overwritten (onMem s _) _ _ = u
  have h : occupancy u = occupancy s := by rw [← hu, overwritten_occupancy, onMem_occupancy]
  rw [onCore_occupancy, onHearth_occupancy, onPkg_occupancy _ (by intros; rfl), foldl_keeps (view := occupancy) poisonAt_occupancy]
  exact h

@[simp] theorem restoreCore_occupancy (cellar v c : Nat) : occupancy (restoreCore s cellar v c) = occupancy s := by
  unfold restoreCore
  dsimp only
  rw [onHearth_occupancy, onPkg_occupancy _ (by intros; rfl), setCore_occupancy, onMem_occupancy]

@[simp] theorem mapBack_occupancy (x : Launch) (pairs : List (Nat × Nat)) : occupancy (mapBack s x pairs) = occupancy s :=
  foldl_keeps (view := occupancy) (fun t e => onDie_occupancy t (by intros; rfl) _) _ s

/-! ### Migration off the vacated quads (R294) -/

@[simp] theorem replaceTasks_occupancy (stay : List Nat) (q : Nat) : occupancy (replaceTasks stay s q) = occupancy s := by
  refine foldl_keeps (view := occupancy) (fun t e => ?_) _ s
  split
  · split
    · dsimp only
      split <;> simp
    · rfl
  · rfl

@[simp] theorem moveRanges_occupancy (survivors : List Nat) (c : Nat) : occupancy (moveRanges survivors s c) = occupancy s := by
  refine foldl_keeps (view := occupancy) (fun t k => ?_) _ s
  refine ite_keeps ?_ rfl
  dsimp only
  split
  · rw [rangeSet_occupancy, rangeSet_occupancy]
  · rw [onDie_occupancy _ (by intros; rfl), rangeSet_occupancy]

end

end Sys2Proof.Machine
end

section
/-! O49: images of quads and spatial pre-emption (R252, R291 to R294). -/

namespace Sys2Proof.Machine
open Sys2Proof.Safety

/-! ### Commands of a row (R292) -/

@[simp] theorem dmaOf_setDma_same (s : State) (d r : Nat) (b : DmaBlock) : dmaOf (setDma s d r b) d r = b := by
  simp [dmaOf, setDma]

section
variable {s : State} {who row : Nat}

/-- A command on an idle row starts its engine, and the end is due. -/
theorem dmaStart_idle (hsup : isSup who = true) (hrow : row < 10) (hidle : (dmaOf s (dieNo who) row).stat ≠ 1) {op : Nat}
    (hop : op = 1 ∨ op = 2) :
    dmaOf (dmaStart who row op s) (dieNo who) row = { dmaOf s (dieNo who) row with op := op, stat := 1 }
      ∧ .due (.dmaDone (dieNo who) row true) ∈ (dmaStart who row op s).sched.agenda := by
  have hstart : dmaStart who row op s = dueEvent (setDma (setDma s (dieNo who) row { dmaOf s (dieNo who) row with op := op }) (dieNo who) row
      { dmaOf s (dieNo who) row with op := op, stat := 1 }) (.dmaDone (dieNo who) row true) := by
    simp [dmaStart, dmaGo, hsup, hrow, hidle, hop]
  rw [hstart]
  exact ⟨dmaOf_setDma_same _ _ _ _, due_dueEvent _ _⟩

/-- A busy row ignores a command. -/
theorem dmaStart_busy (hbusy : (dmaOf s (dieNo who) row).stat = 1) (op : Nat) : dmaStart who row op s = s := by simp [dmaStart, hbusy]

end

/-! ### Quads saved and restored (R291, R293) -/

section
variable (s : State) (cellar : Nat)

/-- A core that is saved is empty, and the others are left. -/
theorem coreOf_saveCore (bars : Vector Barrier 8) (v c d : Nat) :
    coreOf (saveCore s bars cellar v c) d = if c = d then emptied (coreOf s d) else coreOf s d := by
  unfold saveCore
  dsimp only
  generalize hu : overwritten (onMem s _) _ _ = u
  have hcores : u.cores = s.cores := by
    rw [← hu, cores_of_lanesAndTurns (overwritten_lanesAndTurns _ _ _), onMem_cores]
  have hpoison (t : State) (l : List Nat) : (l.foldl poisonAt t).cores = t.cores := foldl_keeps (view := State.cores) (fun _ _ => by rfl) l t
  by_cases h : c = d
  · subst h
    rw [if_pos rfl, coreOf_onCore_same, coreOf_congr (onHearth_cores _ _), coreOf_congr (onPkg_cores _ _), coreOf_congr (hpoison _ _)]
    exact congrArg emptied (coreOf_congr hcores c)
  · rw [if_neg h, coreOf_onCore_other _ _ h, coreOf_congr (onHearth_cores _ _), coreOf_congr (onPkg_cores _ _), coreOf_congr (hpoison _ _)]
    exact coreOf_congr hcores d

/-- Every lane of core `c` is Free. -/
def CoreFree (c : Nat) (t : State) : Prop := ∀ l, (laneOf t c l).status = .free

theorem lanes_emptied (k : Core) (l : Fin 16) : (emptied k).lanes[l].status = .free := by
  simp [emptied, Lane.reset]

theorem coreFree_saveCore_same (bars : Vector Barrier 8) (v c : Nat) : CoreFree c (saveCore s bars cellar v c) := by
  intro l
  rw [laneOf, coreOf_saveCore, if_pos rfl]
  exact lanes_emptied _ _

theorem CoreFree.saveCore {s : State} {d : Nat} (h : CoreFree d s) (bars : Vector Barrier 8) (v c : Nat) :
    CoreFree d (saveCore s bars cellar v c) := by
  intro l
  rw [laneOf, coreOf_saveCore]
  split
  · exact lanes_emptied _ _
  · exact h l

/-- One core of a quad that is saved. -/
def saveCoreOf (cellar q : Nat) (t : State) (e : Nat × Nat) : State := saveCore t (quadOf t q).bars cellar e.1 (quadCore q e.2)

/-- A launch once the quad is in the Cellar under a handle: launch `n` no longer holds it. -/
def parkIn (n : Option Nat) (q h : Nat) (e : Nat × Launch) : Nat × Launch :=
  if n = some e.1 then (e.1, { e.2 with quads := e.2.quads.filter (· ≠ q), parked := e.2.parked ++ [h] }) else e

theorem saveQuad_eq (vc : List Nat) (q : Nat) (n : Option Nat) :
    saveQuad s cellar vc q n = onQuad (vc.zipIdx.foldl (saveCoreOf cellar q) (onPkg s fun p => { p with
      cellarBars := smSet p.cellarBars (nextHandle s) (quadOf s q).bars, launches := p.launches.map (parkIn n q (nextHandle s)) }))
      q fun x => { x with bars := Quad.reset.bars, forming := [] } := rfl

/-- A quad that is saved leaves its lanes Free. -/
theorem coreFree_saveQuad {vc : List Nat} {q j : Nat} (hj : j < vc.length) (n : Option Nat) :
    CoreFree (quadCore q j) (saveQuad s cellar vc q n) := by
  have hmem : (vc[j], j) ∈ vc.zipIdx := List.mem_zipIdx_iff_getElem?.2 (by simp [hj])
  intro l
  rw [saveQuad_eq, laneOf, coreOf_congr (onQuad_cores _ _ _)]
  exact foldl_establishes (f := saveCoreOf cellar q) (a := (vc[j], j)) (P := fun _ => True) (Q := CoreFree (quadCore q j))
    (fun _ _ _ => trivial)
    (fun t _ => coreFree_saveCore_same t cellar (quadOf t q).bars vc[j] (quadCore q j))
    (fun t e _ h => h.saveCore cellar (quadOf t q).bars e.1 (quadCore q e.2)) hmem trivial l

/-- The images of a quad's cores leave the quads, launches and rows. -/
theorem saveCores_occupancy (t : State) (vc : List Nat) (q : Nat) : occupancy (vc.zipIdx.foldl (saveCoreOf cellar q) t) = occupancy t :=
  foldl_keeps (view := occupancy) (f := saveCoreOf cellar q) (fun t e => saveCore_occupancy t (quadOf t q).bars cellar e.1 _) _ t

theorem dmaOf_saveQuad (vc : List Nat) (q : Nat) (n : Option Nat) (d r : Nat) : dmaOf (saveQuad s cellar vc q n) d r = dmaOf s d r := by
  rw [saveQuad_eq]
  exact dmaOf_of_occupancy (saveCores_occupancy cellar _ vc q) d r

/-- Of the launches only the one that held the quad changes. -/
theorem launches_saveQuad (vc : List Nat) (q : Nat) (n : Option Nat) :
    (saveQuad s cellar vc q n).pkg.launches = s.pkg.launches.map (parkIn n q (nextHandle s)) := by
  rw [saveQuad_eq, onQuad_pkg, launches_of_occupancy (saveCores_occupancy cellar _ vc q)]
  rfl

theorem dmaOf_restoreQuad (vc : List Nat) (q d r : Nat) : dmaOf (restoreQuad s cellar vc q) d r = dmaOf s d r := by
  have hcores := foldl_keeps (view := occupancy) (fun t (e : Nat × Nat) => restoreCore_occupancy t cellar e.1 (quadCore q e.2)) vc.zipIdx s
  unfold restoreQuad
  dsimp only
  rw [dmaOf_of_occupancy (foldl_keeps (view := occupancy) (fun t j => repost_occupancy t (quadCore q j)) _ _)]
  split
  · rw [dmaOf_of_occupancy ((follow_occupancy _).trans (mapBack_occupancy _ _ _))]
    exact dmaOf_of_occupancy hcores d r
  · exact dmaOf_of_occupancy hcores d r

end

/-! ### The end of a row's operation (R252, R292) -/

section
variable {s : State} {d row : Nat}

/-- The quad that a row's command names. -/
def rowQuad (s : State) (d row : Nat) : Nat := d * 80 + row * 8 + (dmaOf s d row).col

theorem dmaDone_idle (h : (dmaOf s d row).stat ≠ 1) (ok : Bool) : exec (.dmaDone d row ok) s = .next s :=
  (show exec (.dmaDone d row ok) s = execDmaDone d row ok s from rfl).trans (congrArg _ (if_pos h))

theorem dmaDone_failed (h : (dmaOf s d row).stat = 1) :
    exec (.dmaDone d row false) s = .next (setDma s d row { dmaOf s d row with stat := 3 }) := by
  refine (show exec (.dmaDone d row false) s = execDmaDone d row false s from rfl).trans ?_
  simp [execDmaDone, h]

theorem dmaDone_save (h : (dmaOf s d row).stat = 1) (hop : (dmaOf s d row).op = 1) (hquiet : quadQuiet s (rowQuad s d row) = true)
    (hway : dmaWay s d = .opened) :
    exec (.dmaDone d row true) s = .next (saveQuad (setDma s d row { dmaOf s d row with stat := 2 }) (dmaOf s d row).cellBase.toNat
      (dmaOf s d row).vc.toList (rowQuad s d row)
      (holderOf (setDma s d row { dmaOf s d row with stat := 2 }) (rowQuad s d row))) := by
  refine (show exec (.dmaDone d row true) s = execDmaDone d row true s from rfl).trans ?_
  unfold rowQuad at hquiet
  simp [execDmaDone, h, hop, hquiet, hway, rowQuad]

theorem dmaDone_waits (h : (dmaOf s d row).stat = 1) (hop : (dmaOf s d row).op = 1) (hquiet : quadQuiet s (rowQuad s d row) = false) :
    exec (.dmaDone d row true) s = .next (dueEvent s (.dmaDone d row true)) := by
  refine (show exec (.dmaDone d row true) s = execDmaDone d row true s from rfl).trans ?_
  unfold rowQuad at hquiet
  simp [execDmaDone, h, hop, hquiet]

theorem dmaDone_waking (h : (dmaOf s d row).stat = 1) (hop : (dmaOf s d row).op = 2) {f : Nat} (hway : dmaWay s d = .waking f) :
    exec (.dmaDone d row true) s = .next (dueEvent (wakeFlue s f) (.dmaDone d row true)) := by
  refine (show exec (.dmaDone d row true) s = execDmaDone d row true s from rfl).trans ?_
  simp [execDmaDone, h, hop, hway]

theorem dmaDone_restore (h : (dmaOf s d row).stat = 1) (hop : (dmaOf s d row).op = 2) (hway : dmaWay s d = .opened)
    (hclean : ∀ v ∈ (dmaOf s d row).vc.toList, imagePoisoned s (dmaOf s d row).cellBase.toNat v = false) :
    exec (.dmaDone d row true) s = .next (restoreQuad (setDma s d row { dmaOf s d row with stat := 2 }) (dmaOf s d row).cellBase.toNat
      (dmaOf s d row).vc.toList (rowQuad s d row)) := by
  have hany : (dmaOf s d row).vc.toList.any (imagePoisoned s (dmaOf s d row).cellBase.toNat) = false := by
    rw [List.any_eq_false]
    exact fun v hv => by simp [hclean v hv]
  refine (show exec (.dmaDone d row true) s = execDmaDone d row true s from rfl).trans ?_
  simp only [execDmaDone, h, hop, hway, hany, rowQuad]
  rfl

end

/-! ### Spatial pre-emption (R294) -/

/-- Every quad of a list is marked, or no longer marked, as one to vacate. -/
def markQuads (s : State) (qs : List Nat) (b : Bool) : State := qs.foldl (fun s q => onQuad s q fun y => { y with vacating := b }) s

theorem vacating_markQuads (s : State) {qs : List Nat} (b : Bool) {q : Nat} (hq : q ∈ qs) : (quadOf (markQuads s qs b) q).vacating = b := by
  refine foldl_establishes (P := fun _ => True) (Q := fun t => (quadOf t q).vacating = b) (fun _ _ _ => trivial) (fun t _ => ?_)
    (fun t r _ h => ?_) hq trivial
  · rw [quadOf_onQuad_same]
  · by_cases hr : r = q
    · subst hr
      rw [quadOf_onQuad_same]
    · rwa [quadOf_onQuad_other _ _ hr]

theorem markQuads_pkg (s : State) (qs : List Nat) (b : Bool) : (markQuads s qs b).pkg = s.pkg :=
  foldl_keeps (view := State.pkg) (fun _ _ => by rfl) _ s

/-- The quads that a launch keeps. -/
def stayingQuads (x : Launch) : List Nat := x.quads.filter fun q => !x.vacate.contains q

/-- The cores of some quads. -/
def coresOfQuads (qs : List Nat) : List Nat := qs.flatMap fun q => (List.range 4).map (quadCore q)

/-- The virtual core numbers of a launch that name cores of vacated quads now name survivors, on every die. -/
def remapLaunch (x : Launch) (s : State) : State :=
  x.vmap.foldl (fun s e => onDie s e.1 fun d =>
    { d with vmaps := smSet d.vmaps e.2 (remapped (coresOfQuads x.vacate) (coresOfQuads (stayingQuads x)) (smGetD d.vmaps e.2 [])) }) s

/-- The quads to park, each with the virtual core numbers of its cores. -/
def parkedQuads (u : State) (x : Launch) : List (Nat × List Nat) :=
  (x.vacate.map fun q => (q, (List.range 4).map fun j => virtOf u x (quadCore q j))).filter fun e => (x.vacate.filter (parks u)).contains e.1

/-- The launch holds the other quads alone, and nothing is left to vacate. -/
def claimStaying (u : State) (n : Nat) (x : Launch) : State :=
  onPkg u fun p => { p with launches := smSet p.launches n { x with
    quads := stayingQuads x, vacate := [], moved := (numbersOf u x (coresOfQuads x.vacate)).foldl insertNat x.moved } }

/-- The state in which the deadline of a pre-emption leaves the machine, when aborts have led to `u` (R294). -/
def migrated (u : State) (n : Nat) (x : Launch) : State :=
  let placed := x.vacate.foldl (replaceTasks (stayingQuads x)) (claimStaying u n x)
  let ranged := (coresOfQuads x.vacate).foldl (moveRanges (coresOfQuads (stayingQuads x))) placed
  let saved := (parkedQuads u x).foldl (fun s e => parkQuad s n x.cellar.toNat e.2 e.1) (remapLaunch x ranged)
  follow (markQuads saved x.vacate false)

/-- Launch `n` holds the quads of `x` that stay, and vacates none. -/
def HoldsStaying (n : Nat) (x : Launch) (t : State) : Prop :=
  ∃ y, smGet t.pkg.launches n = some y ∧ y.quads = stayingQuads x ∧ y.vacate = []

section
variable {s : State} {n : Nat} {x : Launch}

theorem HoldsStaying.of_launches {t : State} (hs : HoldsStaying n x s) (h : t.pkg.launches = s.pkg.launches) : HoldsStaying n x t := by
  unfold HoldsStaying
  rwa [h]

theorem HoldsStaying.of_occupancy {t : State} (hs : HoldsStaying n x s) (h : occupancy t = occupancy s) : HoldsStaying n x t :=
  hs.of_launches (launches_of_occupancy h)

theorem holdsStaying_claimStaying (u : State) : HoldsStaying n x (claimStaying u n x) := ⟨_, smGet_smSet_same _ _ _, rfl, rfl⟩

@[simp] theorem remapLaunch_occupancy (s : State) : occupancy (remapLaunch x s) = occupancy s :=
  foldl_keeps (view := occupancy) (fun t _ => onDie_occupancy t (by intros; rfl) _) _ s

/-- A vacated quad is none of those that stay. -/
theorem mem_vacate_of_parkedQuads {u : State} {e : Nat × List Nat} (he : e ∈ parkedQuads u x) : e.1 ∈ x.vacate := by
  have h : e.1 ∈ x.vacate.filter (parks u) := by simpa using (List.mem_filter.1 he).2
  exact (List.mem_filter.1 h).1

theorem launches_parkQuad (s : State) (n cellar : Nat) (vc : List Nat) (q : Nat) :
    ∃ h, (parkQuad s n cellar vc q).pkg.launches = s.pkg.launches.map (parkIn (some n) q h) := by
  have hflush : ((List.range 4).foldl (fun s j => onCore s (quadCore q j) flushCore) s).pkg = s.pkg :=
    foldl_keeps (view := State.pkg) (fun _ _ => by rfl) _ s
  exact ⟨_, (launches_saveQuad _ _ _ _ _).trans (by rw [hflush])⟩

/-- Parking a vacated quad takes none of the quads that stay. -/
theorem HoldsStaying.parkQuad (hs : HoldsStaying n x s) {q : Nat} (hq : q ∈ x.vacate) (cellar : Nat) (vc : List Nat) :
    HoldsStaying n x (parkQuad s n cellar vc q) := by
  obtain ⟨y, hy, hquads, hvacate⟩ := hs
  obtain ⟨h, hlaunches⟩ := launches_parkQuad s n cellar vc q
  have hkeys (e : Nat × Launch) : (parkIn (some n) q h e).1 = e.1 := by
    unfold parkIn
    split <;> rfl
  have hstay : (stayingQuads x).filter (· ≠ q) = stayingQuads x :=
    List.filter_eq_self.2 fun r hr => decide_eq_true fun he => by
      subst he
      simp [stayingQuads, hq] at hr
  refine ⟨{ y with quads := y.quads.filter (· ≠ q), parked := y.parked ++ [h] }, ?_, by rw [hquads, hstay], hvacate⟩
  rw [hlaunches, smGet_map hkeys, hy, Option.map_some, parkIn, if_pos rfl]

theorem holdsStaying_migrated (u : State) : HoldsStaying n x (migrated u n x) := by
  have hplaced := (holdsStaying_claimStaying (n := n) (x := x) u).of_occupancy
    (foldl_keeps (view := occupancy) (fun t q => replaceTasks_occupancy t (stayingQuads x) q) x.vacate _)
  have hranged := hplaced.of_occupancy
    (foldl_keeps (view := occupancy) (fun t c => moveRanges_occupancy t (coresOfQuads (stayingQuads x)) c) (coresOfQuads x.vacate) _)
  have hsaved := List.foldlRecOn (parkedQuads u x) (fun s e => parkQuad s n x.cellar.toNat e.2 e.1) (motive := HoldsStaying n x)
    (hranged.of_occupancy (remapLaunch_occupancy (x := x) _)) fun t h e he => h.parkQuad (mem_vacate_of_parkedQuads he) _ _
  exact (hsaved.of_launches (congrArg Pkg.launches (markQuads_pkg _ x.vacate false))).of_occupancy (follow_occupancy _)

theorem vacating_migrated (u : State) {q : Nat} (hq : q ∈ x.vacate) : (quadOf (migrated u n x) q).vacating = false := by
  rw [migrated, quadOf_congr (quads_of_occupancy (follow_occupancy _))]
  exact vacating_markQuads _ false hq

/-- At its deadline a pre-emption takes place when no finished task has yet to commit, nothing runs on the quads to park, and the way to the
Cellar is open. -/
theorem preemptDeadline_migrates (hx : smGet s.pkg.launches n = some x) (hsome : x.vacate ≠ [])
    (htasks : ∀ e ∈ (abortOn s x.vacate).hearth.tasks, e.2.quad ∈ x.vacate → e.2.ordered = true → e.2.state ≠ .finished)
    (hquiet : (x.vacate.filter (parks (abortOn s x.vacate))).all (quadQuiet (abortOn s x.vacate)) = true)
    (hway : ∀ q ∈ x.vacate.filter (parks (abortOn s x.vacate)), dmaWay (abortOn s x.vacate) (q / 80) = .opened) :
    exec (.preemptDeadline n) s = .next (migrated (abortOn s x.vacate) n x) := by
  refine (show exec (.preemptDeadline n) s = execPreemptDeadline n s from rfl).trans ?_
  unfold execPreemptDeadline
  rw [hx]
  dsimp only
  generalize abortOn s x.vacate = u at htasks hquiet hway
  have hempty : x.vacate.isEmpty = false := by simpa using hsome
  have hcommitted : u.hearth.tasks.any (fun e => x.vacate.contains e.2.quad && e.2.ordered && e.2.state == .finished) = false := by
    rw [List.any_eq_false]
    exact fun e he h => by
      simp only [Bool.and_eq_true, List.contains_iff_mem, beq_iff_eq] at h
      exact htasks e he h.1.1 h.1.2 h.2
  have hopen : (x.vacate.filter (parks u)).all (fun q => dmaWay u (q / 80) == .opened) = true := by
    simpa only [List.all_eq_true, beq_iff_eq] using hway
  rw [if_neg (by simp only [hempty, hcommitted, hquiet]; decide), if_neg (by simp only [hopen]; decide)]
  rfl

/-- The launch of a state once the firmware has named the quads to vacate. -/
theorem spatialPreempt_marks (hx : smGet s.pkg.launches n = some x) {quads : List Nat} (helastic : x.elastic = true) (hnone : x.vacate = [])
    (hsome : quads ≠ []) (hheld : ∀ q ∈ quads, q ∈ x.quads) (hstay : ∃ q ∈ x.quads, q ∉ quads) :
    exec (.spatialPreempt n quads) s = .next (abortOn (onPkg (markQuads s quads true) fun p =>
      { p with launches := smSet p.launches n { x with vacate := quads } }) quads) := by
  have hall : quads.all x.quads.contains = true := by simpa [List.all_eq_true] using hheld
  have hany : x.quads.any (fun q => !quads.contains q) = true := by simpa [List.any_eq_true] using hstay
  have hempty : quads.isEmpty = false := by simpa using hsome
  refine (show exec (.spatialPreempt n quads) s = execSpatialPreempt n quads s from rfl).trans ?_
  simp only [execSpatialPreempt, hx, helastic, hnone, hempty, hall, hany, List.isEmpty_nil, Bool.not_false, Bool.and_self, if_true]
  rfl

end

/-- Settles O49: the commands of a row and their ends one by one, and the marks and the deadline of a spatial pre-emption. -/
theorem imagesAndPreemption : Obligations.ImagesAndPreemption := by
  intro s
  refine ⟨fun who row hsup hrow => ⟨fun hidle => ⟨?save, ?restore⟩, fun hbusy => ⟨?busySave, ?busyRestore⟩⟩,
    fun d row => ⟨fun hidle ok => dmaDone_idle hidle ok, fun hbusy => ⟨?failed, ?saved, ?waits, ?waking, ?restored⟩⟩,
    fun n x hx => ⟨?marks, ?deadline⟩⟩
  case save =>
    obtain ⟨hdma, hdue⟩ := dmaStart_idle hsup hrow hidle (.inl rfl)
    exact ⟨_, rfl, dmaStart_mem _ _ _ _, hdma, hdue⟩
  case restore => exact ⟨_, rfl, dmaStart_mem _ _ _ _, (dmaStart_idle hsup hrow hidle (.inr rfl)).1⟩
  case busySave => exact congrArg Host.Outcome.next (dmaStart_busy hbusy 1)
  case busyRestore => exact congrArg Host.Outcome.next (dmaStart_busy hbusy 2)
  case failed => exact ⟨_, dmaDone_failed hbusy, rfl, dmaOf_setDma_same _ _ _ _⟩
  case saved =>
    intro hop hquiet hway
    refine ⟨_, dmaDone_save hbusy hop hquiet hway, (dmaOf_saveQuad _ _ _ _ _ _ _).trans (dmaOf_setDma_same _ _ _ _), fun j l hj => ?_⟩
    exact coreFree_saveQuad _ _ (by simpa using hj) _ l
  case waits =>
    intro hop hquiet
    exact ⟨_, dmaDone_waits hbusy hop hquiet, rfl, rfl, due_dueEvent _ _⟩
  case waking => exact fun hop f hway => dmaDone_waking hbusy hop hway
  case restored =>
    intro hop hway hclean
    exact ⟨_, dmaDone_restore hbusy hop hway hclean, (dmaOf_restoreQuad _ _ _ _ _ _).trans (dmaOf_setDma_same _ _ _ _)⟩
  case marks =>
    intro quads helastic hnone hsome hheld hstay
    refine ⟨_, spatialPreempt_marks hx helastic hnone hsome hheld hstay, ?_, fun q hq => ?_⟩
    · rw [launches_of_occupancy (abortOn_occupancy _ _), onPkg_pkg]
      exact smGet_smSet_same _ _ _
    · rw [quadOf_congr (quads_of_occupancy (abortOn_occupancy _ _))]
      exact vacating_markQuads s true hq
  case deadline =>
    intro hsome u htasks hquiet hway
    obtain ⟨y, hy, hquads, hvacate⟩ := holdsStaying_migrated (n := n) (x := x) u
    exact ⟨_, y, preemptDeadline_migrates hx hsome htasks hquiet hway, hy, hquads, hvacate, fun q hq => vacating_migrated _ hq⟩

end Sys2Proof.Machine
end
